-- ==== Sys2Proof/Word.lean ====
section
/-! DEFINITION. The word types of the T840 and its index types (spec/00_scope.md R6-R8, R10). -/

namespace Sys2Proof

/-- A byte (R7: bit 0 is the least significant bit). -/
abbrev Byte := BitVec 8

/-- A 32-bit register or descriptor word (R10). -/
abbrev Word := BitVec 32

/-- Cores, HBM4E stacks and ports have eight indices each (R8). -/
abbrev CoreId := Fin 8

/-- HBM4E stacks (R8). -/
abbrev StackId := Fin 8

/-- Ports (R8). -/
abbrev PortId := Fin 8

/-- Hubs (R8). -/
abbrev HubId := Fin 4

/-- Partitions (R8); job interface `1 + p` serves partition `p` (R236). -/
abbrev PartId := Fin 4

/-- Subports of a port (R274). -/
abbrev SubId := Fin 4

/-- Arrays of a core (R8). -/
abbrev ArrayId := Fin 4

/-- Stream contexts of a physical core (R230): 0 to 3 are the streams of the logical core it serves first,
4 to 7 those of its guest. -/
abbrev CtxId := Fin 8

/-- Virtual channels of an OT connection (R8). -/
abbrev VcId := Fin 16

/-- Member entries of a cluster record (R304). -/
abbrev EntryId := Fin 64

end Sys2Proof
end

