-- ==== Sys2Proof/Syntax.lean ====
section
/-! DEFINITION. The commands of the T840: one constructor of `Instr` for each row of spec/opcode_table.json, and the
types of their operands. The table gives no operands; a command carries what names its unit and what its surroundings
bring with it (log entry 1). -/

namespace Sys2Proof

/-- Errors that the cells of the memories have taken up by the time a command runs (R188-R190): physical addresses whose unit holds
an error that its code corrects, and one that it does not; the same for the header store of a core, by slot (R133); with the
waits of an engine for memory, and the access slots that the banks of each core lost (R140, R176, R202). -/
structure MemEnv where
  ce : List Nat
  ue : List Nat
  headCe : List (CoreId × Nat)
  headUe : List (CoreId × Nat)
  stalls : Nat
  bankWaits : List (CoreId × Nat)
  deriving DecidableEq, Repr, Inhabited

/-- What the silicon and the flash answer at the first stages of a start (R371, R376, R389, R398, R416): whether the PUF root can be
reconstructed and passes the check value of the helper data, whether the counter responses authenticate, whether the PUF root register
kept its value through a loss of supply, and the stage of 2 to 4 at which a self-test of hub 0, the MC or the security block
fails, with whether the MC and the USB controller still work then. -/
structure StartEnv where
  pufOk : Bool
  countersOk : Bool
  rootKept : Bool
  selfFail : Option (Fin 3 × Bool) := none
  deriving DecidableEq, Repr, Inhabited

/-- The kinds of block that proof and BLOCK_UNUSABLE name, coded as R400 codes them. -/
inductive BlockKind where
  | core | stack | hub | port | regulator | mesh
  deriving DecidableEq, Repr, Inhabited

/-- What proof finds at a start (R398): the blocks that fail with the code of the failing test, the highest USB speed
that passed, whether USB 2.0 passed, spares, repaired rows and failing lanes. -/
structure ProofResult where
  fails : List (BlockKind × Nat × Nat)
  usbMax : Nat
  usb2 : Bool := true
  crumbFail : List (Nat × Nat)
  repairs : List (Nat × Nat)
  lanes : List (Nat × Nat)
  remaps : List (Nat × Nat × Nat)
  proofMs : Nat
  deriving DecidableEq, Repr, Inhabited

/-- A junction sensor (R407): the kind of its die and its index. -/
structure Sensor where
  kind : Nat
  index : Nat
  deriving DecidableEq, Repr, Inhabited

/-- What the FEC of a subport saw in a loop period outside the frames received (R277, R302): codewords corrected and not corrected,
and whether the subport still stands above the threshold. -/
structure FecReading where
  port : PortId
  sub : SubId
  corr : Nat
  uncorr : Nat
  above : Bool
  deriving DecidableEq, Repr, Inhabited

/-- What the MC measures in one loop period (R27, R405, R407, R430): mV and 0.1 A of the seven board rails (none: the
regulator did not answer), mV of the common hub rail, junctions in 1/16 degree of the sensors, and for each core the
capacities and achieved rates of its four engines, whether the rate cap binds it, and whether every one of its margins has
reached 15 % (R409); with the errors that the memories took up in the period, and the slots that their banks lost to accesses of
no command that carries its own (R176, R188); the U state of the USB link, 0 to 2 (R234); and what the ports' FECs saw (R277). -/
structure LoopReadings where
  rails : List (Option (Nat × Nat))
  hubRail : Nat × Nat
  coreCurrents : List Nat
  temps : List (Sensor × Int)
  capacity : List (List Nat)
  achieved : List (List Nat)
  pg : BitVec 6
  pmbAlert : Bool
  capBinds : List Bool
  marginsOk : List Bool
  memory : MemEnv
  usbLow : Fin 3
  fec : List FecReading
  deriving DecidableEq, Repr, Inhabited

/-- The margins that a survey measures on one core (R408, R411): a percentage for each of the eight families, and the
families that no code of 63 or less would give 12 % even with the floor at 0.85 V. -/
structure CoreSurvey where
  core : CoreId
  margins : List Nat
  exhausted : List Nat
  deriving DecidableEq, Repr, Inhabited

/-- What margin planning measures on a core (R410): each of the eight families' margin in % under each code at the present rail voltage, and the
least margin of a family at each voltage of the 5 mV grid from 500 mV on, under the codes found. -/
structure Plan where
  margins : List (List Nat)
  keeps : List Nat
  deriving DecidableEq, Repr, Inhabited

/-- The memories that knead tests (R192). -/
inductive KneadMem where
  | wm | crumb | side
  deriving DecidableEq, Repr, Inhabited

/-- What a fault of the array leaves in an accumulator (R94, R95): the output's row and column in the tile, and the difference
from its exact sum in units of the output's window bottom. -/
structure Flaw where
  row : Nat
  col : Nat
  delta : Int
  deriving DecidableEq, Repr, Inhabited

/-- An array or half (R88): `half` 0 is the whole array, 1 and 2 its halves. -/
structure MatUnit where
  array : ArrayId
  half : Fin 3
  deriving DecidableEq, Repr, Inhabited

/-- The recipient of a vendor request (R238). -/
inductive Recip where
  | device | iface | other
  deriving DecidableEq, Repr, Inhabited

/-- A request on the control pipe (R238): whether its type is vendor (0b10) or standard, its bRequest, which is that of the command's row
unless the host sends an unlisted one, its recipient, direction and fields. -/
structure Setup where
  vendor : Bool
  bRequest : Nat
  recip : Recip
  dirIn : Bool
  wValue : Nat
  wIndex : Nat
  wLength : Nat
  data : List Byte
  deriving DecidableEq, Repr, Inhabited

/-- A frame on a bulk-OUT endpoint, whatever USB transfers carry it (R243): its 32-byte header, and the data that follows at once. -/
structure Frame where
  header : List Byte
  data : List Byte
  deriving DecidableEq, Repr, Inhabited

/-- A frame that a port receives (R277, R278, R292): its bytes on the wire, destination address through FCS; whether the PCS found
an error in it; the codewords that the FEC corrected and could not correct over it; and the port time, in units of 2^-16 ns, since
what the port did last until the frame's end. -/
structure EthFrame where
  bytes : List Byte
  pcsError : Bool
  fecCorr : Nat
  fecUncorr : Nat
  wait : Nat
  deriving DecidableEq, Repr, Inhabited

/-- A turn to transmit: the subport, and the port time, in units of 2^-16 ns, since what the port did last. -/
structure TxTurn where
  sub : SubId
  wait : Nat
  deriving DecidableEq, Repr, Inhabited

/-- One command for each row of spec/opcode_table.json, in the table's order. -/
inductive Instr where
  /-- POWER_ON_START (R371): AUX_3V3 has been applied, the MC leaves reset, and the mask ROM runs the PUF, counter, firmware and configuration stages up to the request for power. -/
  | powerOnStart (env : StartEnv)
  /-- RST_N_ASSERT (R434): RST_N is held low for 1 µs or more, and the device acts on the reset assertion within 2 ms. -/
  | rstNAssert
  /-- RST_N_RELEASE (R370): RST_N is released and a cold reset start runs. -/
  | rstNRelease (env : StartEnv)
  /-- MC_RESET_CTL_COLD (R395): A write of COLD = 1 with KEY 0xA5C3 to MC_RESET_CTL causes a cold reset. -/
  | mcResetCtlCold (env : StartEnv)
  /-- POWER_GOOD (R428): All six power-good inputs are high; the core and hub rails come up, and HBM4E training, proof, the configuration apply and the RWL lock run. -/
  | powerGood (proof : ProofResult)
  /-- POWER_GOOD_TIMEOUT (R428): 100 ms after PWR_REQ rises, not every power-good is high, so stage 6 fails and PWR_REQ falls. -/
  | powerGoodTimeout
  /-- CASCADE_PULSE (R330): A low level of at least 5 µs driven by another device on SYNC_IO is counted, and the device is released when its count reaches POS. -/
  | cascadePulse
  /-- CASCADE_DELAY_EXPIRE (R331): DELAY_MS after the standing jobs begin, the released device drives SYNC_IO low for 20 µs. -/
  | cascadeDelayExpire
  /-- CASCADE_TIMEOUT (R331): TIMEOUT_S plus POS × DELAY_MS after start completion, a held device releases itself without a pulse. -/
  | cascadeTimeout
  /-- STANDING_JOB_RESTART (R385): RETRY_S after a RESTART standing job ends, the job is loaded again. -/
  | standingJobRestart (p : PartId)
  /-- TEST_MODE_ASSERT (R394): TEST_MODE is asserted; hub 0 erases the keys, zeroes the SRAM and crumb memory, and sets TESTZ before enabling test paths. -/
  | testModeAssert
  /-- PRESENCE_ASSERT (R391): PRESENCE_N is held low for at least 100 ms and released, which arms presence for 60 s. -/
  | presenceAssert
  /-- PRESENCE_EXPIRE (R391): The 60 s armed period ends and presence is disarmed. -/
  | presenceExpire
  /-- SEAL_OPEN (R392): SEAL_LOOP opens for 10 µs or more: SEAL_BREAKS advances and presence is disarmed. -/
  | sealOpen
  /-- NVM_INHIBIT (R416): AUX_3V3 falls below 3.10 V, or VIN_CORE below 1.71 V, so NVM writes are inhibited and postponed. -/
  | nvmInhibit (vin : Bool) (mv : Nat)
  /-- NVM_INHIBIT_CLEAR (R416): AUX_3V3 has been above 3.15 V for 10 ms and postponed NVM writes resume. -/
  | nvmInhibitClear
  /-- AUX_BROWNOUT (R416): AUX_3V3 falls below 2.95 V: the MC is held in reset, the core and hub rails switch off, and all volatile state is lost. -/
  | auxBrownout
  /-- VIN_THROTTLE (R416): VIN_CORE falls below 1.71 V: the core rails go to their floors and duty is limited to 50 %. -/
  | vinThrottle (mv : Nat)
  /-- VIN_THROTTLE_CLEAR (R416): VIN_CORE has been above 1.74 V for 10 ms and the throttle ends. -/
  | vinThrottleClear
  /-- VIN_HALT (R416): VIN_CORE falls below 1.62 V and the cores stop issuing at descriptor boundaries. -/
  | vinHalt (mv : Nat)
  /-- VIN_HALT_CLEAR (R416): VIN_CORE has been above 1.71 V for 10 ms and the cores resume under the throttle. -/
  | vinHaltClear
  /-- SUPPLY_LOST (R417): VIN_CORE stays below 1.50 V for 1 ms, or a board power-good is deasserted for 1 ms, so every core rail, hub rail and port die switches off. -/
  | supplyLost (rail : Fin 6) (mv : Nat)
  /-- THERMAL_HALT (R407): A junction sensor reaches 95 °C and every core stops issuing at its next descriptor boundary. -/
  | thermalHalt (sensor : Sensor) (tj : Nat)
  /-- THERMAL_RESUME (R407): Every sensor has read 90 °C or less for 100 ms and the cores resume. -/
  | thermalResume
  /-- THERMAL_TRIP (R407): A sensor reaches 100 °C: the rails and port dies switch off, THERM_TRIP_N is asserted and PWR_REQ falls. -/
  | thermalTrip (sensor : Sensor) (tj : Nat)
  /-- THERMAL_HALT_LIMIT (R407): A thermal halt has lasted 10 s without every sensor falling below 95 °C, so the device trips. -/
  | thermalHaltLimit (sensor : Sensor) (tj : Nat)
  /-- MC_LOOP_TICK (R27): The 1 ms loop period ends: the MC reads rail power over PMBus and adjusts core voltages, duty limiting, the thermal lowering, the floors and the rate cap. -/
  | mcLoopTick (r : LoopReadings)
  /-- AGEING_SURVEY (R408): Every 10 s the MC measures the canary margins of each in-service core, raising the floor or fencing the core as needed. -/
  | ageingSurvey (surveys : List CoreSurvey)
  /-- REPLAN (R410): A core with a pending request reaches a step boundary; it is quiesced, and its delay codes and floor are re-planned. -/
  | replan (c : CoreId) (plan : Plan)
  /-- REPLAN_QUIESCE_TIMEOUT (R26): 15 minutes after a re-plan request with no step boundary, the core is quiesced at the next descriptor boundary of each of its streams. -/
  | replanQuiesceTimeout (c : CoreId) (plan : Plan)
  /-- REPLAN_DAILY (R410): 24 hours after a core's last re-plan, a new re-plan is requested. -/
  | replanDaily (c : CoreId)
  /-- TIME_LATCH (R406): The MC counter passes a whole second; the MC counter and every port clock are latched together. -/
  | timeLatch
  /-- AGEING_SUMMARY (R413): 24 powered hours have passed since the last summary, and a summary with the ageing state is logged. -/
  | ageingSummary
  /-- AGEING_LOG_WRITE (R413): An event record waiting in MC memory is written to the circular ageing log once the NVM may be written. -/
  | ageingLogWrite
  /-- CORE_FENCE_FORCE (R402): A write of FORCE with KEY 0xA5 to CORE_FENCE fences the core. -/
  | coreFenceForce (c : CoreId)
  /-- MGMT_PROOF (R400): MGMT_OP_START of PROOF selects blocks to test in service and starts the long operation. -/
  | mgmtProof (r : Setup)
  /-- PROOF_BLOCK_DONE (R400): An in-service proof finishes one block, updates the census and moves to the next block. -/
  | proofBlockDone (h : Nat) (failCode : Option Nat)
  /-- KNEAD_SWEEP (R270): MGMT_OP_START of KNEAD_SWEEP runs one pass at zero gap on each named core. -/
  | kneadSweep (r : Setup)
  /-- RETENTION_ENTRY (R179): A core with IDLE_EN set has been idle for IDLE_MS, so its SRAM enters retention at 0.45 V. -/
  | retentionEntry (c : CoreId)
  /-- RETENTION_WAKE (R180): An access reaches the SRAM of a retained core and a wake begins. -/
  | retentionWake (c : CoreId)
  /-- WAKE_DONE (R180): The wake completes about 20 µs later and the waiting accesses proceed. -/
  | wakeDone (c : CoreId)
  /-- KNEAD_SELECT (R193): A knead unit's gap has elapsed, so it selects its next region and begins copying it to scratch. -/
  | kneadSelect (c : CoreId) (m : KneadMem)
  /-- KNEAD_COPY_DONE (R193): The region copy completes and the march test begins on the region, with accesses served from scratch. -/
  | kneadCopyDone (c : CoreId) (m : KneadMem)
  /-- KNEAD_TEST_DONE (R193): The march test ends: on a pass the region is restored; on a fail it is remapped to a spare, or the core is fenced when no spare is left. -/
  | kneadTestDone (c : CoreId) (m : KneadMem) (pass : Bool)
  /-- KNEAD_RESTORE_DONE (R193): The restore completes and the region returns to service. -/
  | kneadRestoreDone (c : CoreId) (m : KneadMem)
  /-- KNEAD_REMAP_DONE (R193): The spare replaces the region and KNEAD_REMAP is raised. -/
  | kneadRemapDone (c : CoreId) (m : KneadMem)
  /-- KNEAD_LATE (R195): A region reaches its knead deadline untested and is placed first in its unit's order. -/
  | kneadLate (c : CoreId) (m : KneadMem) (region : Nat)
  /-- PATROL_SCRUB (R191): The HBM4E patrol scrubber reads and corrects the next lines in free slots. -/
  | patrolScrub (s : StackId) (env : MemEnv) (passDone : Bool)
  /-- DESCRIPTOR_ISSUE (R210): A stream's next descriptor has all its waits satisfied and room in its engine queue, so it issues into that queue. -/
  | descriptorIssue (c : CoreId) (x : CtxId)
  /-- COUNTER_SIGNAL_REMOTE (R209): A signal to a remote counter arrives at the remote core and adds SIG_INC. -/
  | counterSignalRemote (p : PartId) (k : Nat)
  /-- DESCRIPTOR_COMPLETE (R212): A descriptor completes, performs its enabled signals and writes its NOTIFY record. -/
  | descriptorComplete (c : CoreId) (k : Nat)
  /-- STREAM_WAIT_LONG (R221): A stream has waited at one descriptor for more than WAIT_LIMIT seconds. -/
  | streamWaitLong (c : CoreId) (x : CtxId)
  /-- MAT (R75): A MAT instruction runs its folds on an array or half, checks its scores and writes or accumulates its outputs. -/
  | matRun (c : CoreId) (u : MatUnit) (flaws : List Flaw) (feedStalls : Nat) (drainStalls : Nat) (env : MemEnv)
  /-- SWAP_TOKEN (R81): The swap token reaches a cell whose shadow has filled, and the cell copies its shadow to active. -/
  | swapToken (c : CoreId) (u : MatUnit) (row : Fin 256) (col : Fin 256) (waited : Bool) (loadWaits : Nat)
  /-- MAT_RETRY (R96): The abandoned instruction runs once more on another in-service unit; it fails with MAT_RETRY_FAILED if that run also mismatches. -/
  | matRetry (c : CoreId) (k : Nat) (flaws : List Flaw) (feedStalls : Nat) (drainStalls : Nat) (env : MemEnv)
  /-- ARRAY_DIAGNOSTIC (R98): Within 10 ms of a suspect mark, the MC starts a walking-one diagnostic on the suspect unit. -/
  | arrayDiagnostic (c : CoreId) (u : MatUnit)
  /-- ARRAY_DIAGNOSTIC_DONE (R98): The diagnostic ends: on a pass the unit returns to service; on a fail it is out until reset. -/
  | arrayDiagnosticDone (c : CoreId) (u : MatUnit) (found : Option (Fin 256 × Fin 256))
  /-- GB_ADDITION (R144): A gradient-buffer addition reaches its slot; it is made, waits for a FILLING slot, or fails with GB_TILE_ABSENT. -/
  | gbAddition (c : CoreId) (k : Nat)
  /-- CVT (R112): VEC CVT converts a tensor between formats, with the exponent adjust and the rounding of the path. -/
  | cvt (c : CoreId) (env : MemEnv)
  /-- SUMM (R115): VEC SUMM writes the summary plane of a tensor in place. -/
  | summ (c : CoreId) (env : MemEnv)
  /-- VEC_ADD (R110): VEC ADD writes the element-wise sum of its sources. -/
  | vecAdd (c : CoreId) (env : MemEnv)
  /-- SUB (R110): VEC SUB writes the element-wise difference of its sources. -/
  | vecSub (c : CoreId) (env : MemEnv)
  /-- MUL (R110): VEC MUL writes the element-wise product of its sources. -/
  | vecMul (c : CoreId) (env : MemEnv)
  /-- FMA (R110): VEC FMA writes S0 × S1 + S2, fused, with one rounding. -/
  | vecFma (c : CoreId) (env : MemEnv)
  /-- DIV (R110): VEC DIV writes the correctly rounded quotient. -/
  | vecDiv (c : CoreId) (env : MemEnv)
  /-- SQRT (R111): VEC SQRT writes the correctly rounded square root. -/
  | sqrt (c : CoreId) (env : MemEnv)
  /-- RSQRT (R111): VEC RSQRT writes the correctly rounded reciprocal square root, with the special results of R111. -/
  | rsqrt (c : CoreId) (env : MemEnv)
  /-- MAX (R111): VEC MAX writes the element-wise maximum. -/
  | vecMax (c : CoreId) (env : MemEnv)
  /-- MIN (R111): VEC MIN writes the element-wise minimum. -/
  | vecMin (c : CoreId) (env : MemEnv)
  /-- ABS (R110): VEC ABS writes the element-wise magnitude. -/
  | vecAbs (c : CoreId) (env : MemEnv)
  /-- TABLE (R134): VEC TABLE evaluates the value table of a pair at each element. -/
  | vecTable (c : CoreId) (env : MemEnv)
  /-- TABLE_BWD (R134): VEC TABLE_BWD multiplies S1 by the table derivative at S0, with one rounding. -/
  | tableBwd (c : CoreId) (env : MemEnv)
  /-- RELU (R110): VEC RELU writes max(S0, +0) and its mask. -/
  | relu (c : CoreId) (env : MemEnv)
  /-- DROPOUT (R116): VEC DROPOUT keeps elements by Philox word, scales them and writes the mask. -/
  | dropout (c : CoreId) (env : MemEnv)
  /-- MASK_APPLY (R110): VEC MASK_APPLY scales the elements whose mask bit is 1 and zeroes the rest. -/
  | maskApply (c : CoreId) (env : MemEnv)
  /-- SUM (R117): VEC SUM writes one FP32 partial for each chunk by the fixed pairwise tree. -/
  | vecSum (c : CoreId) (env : MemEnv)
  /-- SUMSQ (R117): VEC SUMSQ writes chunk partials of the sum of squares. -/
  | sumsq (c : CoreId) (env : MemEnv)
  /-- MAXABS (R117): VEC MAXABS writes chunk partials of the largest magnitude. -/
  | maxabs (c : CoreId) (env : MemEnv)
  /-- REDUCE_FINAL (R117): VEC REDUCE_FINAL sums a list of partials by the fixed tree. -/
  | reduceFinal (c : CoreId) (env : MemEnv)
  /-- UPD_ADAMW (R118): VEC UPD_ADAMW updates a shard's M40 weights and moments by AdamW with stochastic rounding. -/
  | updAdamw (c : CoreId) (env : MemEnv)
  /-- UPD_SGDM (R120): VEC UPD_SGDM updates a shard by SGD with momentum. -/
  | updSgdm (c : CoreId) (env : MemEnv)
  /-- NORM_FWD (R123): ROW NORM_FWD normalises rows and stores their mean and rstd in a statistics slot. -/
  | normFwd (c : CoreId) (env : MemEnv)
  /-- NORM_BWD (R124): ROW NORM_BWD checks the statistics tag, computes dx and adds dgamma and dbeta into the gradient buffer. -/
  | normBwd (c : CoreId) (env : MemEnv)
  /-- SMAX_FWD (R125): ROW SMAX_FWD takes masked soft maxima of rows and stores (m, s) in a statistics slot. -/
  | smaxFwd (c : CoreId) (env : MemEnv)
  /-- SMAX_BWD (R126): ROW SMAX_BWD checks the statistics tag, regenerates y and computes dx. -/
  | smaxBwd (c : CoreId) (env : MemEnv)
  /-- TBL_LOAD (R135): ROW TBL_LOAD checks a table image for a pair slot. -/
  | tblLoad (c : CoreId) (env : MemEnv)
  /-- TBL_LOAD_APPLY (R135): Earlier users of the slot have completed, and the table header and coefficients are written. -/
  | tblLoadApply (c : CoreId)
  /-- COPY (R197): MOV COPY copies rows of bytes from source to destination. -/
  | movCopy (c : CoreId) (slot : Fin 8) (env : MemEnv)
  /-- COPY_RECT (R197): MOV COPY_RECT copies a rectangle together with its summary and scale planes. -/
  | copyRect (c : CoreId) (slot : Fin 8) (env : MemEnv)
  /-- FILL (R197): MOV FILL writes a 32-bit pattern over rows. -/
  | movFill (c : CoreId) (slot : Fin 8) (env : MemEnv)
  /-- ZERO (R148): Gradient ZERO writes +0 over a tile in its EMPTY slot, which becomes FILLING. -/
  | gbZero (c : CoreId) (slot : Fin 8) (env : MemEnv)
  /-- REFILL (R149): Gradient REFILL checks a spill image header and copies the image into its EMPTY slot. -/
  | refill (c : CoreId) (slot : Fin 8) (env : MemEnv)
  /-- SLOT_FILLED (R148): A ZERO or REFILL finishes writing its slot, which becomes LIVE, and waiting additions proceed. -/
  | slotFilled (c : CoreId) (k : Nat)
  /-- SPILL (R148): Gradient SPILL issues and turns its slot SPILLING. -/
  | spill (c : CoreId) (slot : Fin 8)
  /-- SPILL_WRITE (R148): The earlier additions into the slot have joined, so the SPILL writes its image and the slot becomes EMPTY. -/
  | spillWrite (c : CoreId) (k : Nat) (env : MemEnv)
  /-- TIE_ADD (R152): Gradient TIE_ADD adds a use tile into its use-0 tile in order. -/
  | tieAdd (c : CoreId) (slot : Fin 8) (env : MemEnv)
  /-- GB_CLEAR_DONE (R145): The clearing of resident tiles at a change of step finishes, and waiting additions proceed. -/
  | gbClearDone (c : CoreId)
  /-- SYN_NOP (R216): SYN NOP does nothing beyond its header waits and signals. -/
  | synNop (c : CoreId) (x : CtxId)
  /-- SYN_SET (R216): SYN SET sets a counter to VALUE. -/
  | synSet (c : CoreId) (x : CtxId)
  /-- SYN_ADD (R216): SYN ADD adds VALUE to a counter. -/
  | synAdd (c : CoreId) (x : CtxId)
  /-- FENCE_STREAM (R216): SYN FENCE_STREAM completes once every earlier descriptor of its stream has completed. -/
  | fenceStream (c : CoreId) (x : CtxId)
  /-- FENCE_CORE (R216): SYN FENCE_CORE completes once every descriptor issued earlier on its logical core has completed. -/
  | fenceCore (c : CoreId) (x : CtxId)
  /-- STEP_END (R219): SYN STEP_END fences its stream and parks it; the last park completes the step list. -/
  | stepEnd (c : CoreId) (x : CtxId)
  /-- END (R219): SYN END fences its stream and parks it, ending a RUN job or restarting a LOOP when the last stream parks. -/
  | endRun (c : CoreId) (x : CtxId)
  /-- DECISION_SEQUENCE (R157): Every step list is complete and every bucket reduced; the device decides skip or proceed, writes the step constants and issues the update lists. -/
  | decisionSequence (p : PartId) (env : MemEnv)
  /-- STREAMS_RESTART (R219): After a change of step, every issued descriptor has completed or been cancelled, so the counters clear and the streams restart at index 0. -/
  | streamsRestart (p : PartId)
  /-- CORE_REMAP (R226): Once the issued descriptors have completed after a fence, the device remaps the fenced logical cores and restores their preloads and tables. -/
  | coreRemap (p : PartId)
  /-- REDUCE (R341): NET REDUCE contributes a bucket to its segment trees and writes the reduced result. -/
  | reduce (c : CoreId) (slot : Fin 16) (env : MemEnv)
  /-- GATHER (R348): NET GATHER requests published bytes of a unit from its owner. -/
  | gather (c : CoreId) (slot : Fin 16) (env : MemEnv)
  /-- SEND (R364): NET SEND sends pipeline message m to its peer once the message is posted. -/
  | send (c : CoreId) (slot : Fin 16) (env : MemEnv)
  /-- RECV (R364): NET RECV posts message m and awaits it. -/
  | recv (c : CoreId) (slot : Fin 16)
  /-- MB_ADMIT (R366): NET MB_ADMIT admits a staged micro-batch under MAX_TOKENS and its policy. -/
  | mbAdmit (c : CoreId) (slot : Fin 16) (env : MemEnv)
  /-- NET_STORE_READ (R336): NET STORE_READ performs an RDMA READ over a queue pair of the partition. -/
  | netStoreRead (c : CoreId) (slot : Fin 16)
  /-- NET_STORE_WRITE (R336): NET STORE_WRITE performs an RDMA WRITE over a queue pair of the partition. -/
  | netStoreWrite (c : CoreId) (slot : Fin 16) (env : MemEnv)
  /-- UNIT_MAP (R345): NET UNIT_MAP declares the unit slots; it is read at load and does nothing at issue. -/
  | unitMap (c : CoreId) (x : CtxId)
  /-- UNIT_BEGIN (R346): NET UNIT_BEGIN opens the section of unit k, which runs relocated or is skipped. -/
  | unitBegin (c : CoreId) (x : CtxId)
  /-- REDUCE_UP (R341): A REDUCE_UP message with partial blocks arrives and is added by a tree node on the port die. -/
  | reduceUp (p : PartId) (e : EntryId) (vc : VcId)
  /-- REDUCE_DOWN (R341): A REDUCE_DOWN message with result blocks arrives, is written and is forwarded down the broadcast tree. -/
  | reduceDown (p : PartId) (e : EntryId) (vc : VcId)
  /-- GATHER_REQ (R348): A GATHER_REQ arrives at an owner, which serves it, holds it or replies with its tag. -/
  | gatherReq (p : PartId) (e : EntryId) (vc : VcId)
  /-- GATHER_REPLY (R348): A GATHER_REPLY arrives; its tag is checked and its bytes are written, or the gather fails. -/
  | gatherReply (p : PartId) (e : EntryId) (vc : VcId)
  /-- PIPE (R364): A PIPE message's bytes arrive and are written for the matching RECV. -/
  | pipe (p : PartId) (e : EntryId) (vc : VcId)
  /-- PIPE_POST (R364): A PIPE_POST arrives and allows the matching SEND to transmit. -/
  | pipePost (p : PartId) (e : EntryId) (vc : VcId)
  /-- PIPE_DONE (R364): A PIPE_DONE arrives and completes the matching SEND. -/
  | pipeDone (p : PartId) (e : EntryId) (vc : VcId)
  /-- UNIT_XFER (R358): A UNIT_XFER arrives; its commit is checked and the unit is written into a free slot, waiting for one if needed. -/
  | unitXfer (p : PartId) (e : EntryId) (vc : VcId)
  /-- START (R351): A START message arrives and the member runs step c at attempt a; MODEL_LOAD phase 2 runs at the first roster. -/
  | startStep (p : PartId) (e : EntryId)
  /-- READY (R352): A READY reaches the starter, which sends COMMIT once it holds equal READY from every roster member. -/
  | ready (p : PartId) (e : EntryId)
  /-- ABORT_REQ (R352): An ABORT_REQ reaches the starter, which sends ABORT with its cause. -/
  | abortReq (p : PartId) (e : EntryId)
  /-- COMMIT (R351): A member applies COMMIT: it inverts the banks, advances the commit number, publishes, clears the slots and applies any ROSTER, rebalance or checkpoint. -/
  | commit (p : PartId) (e : EntryId)
  /-- ABORT (R353): A member applies ABORT: it discards its shadows, raises the attempt count, cancels NET descriptors, stops the streams and applies any ROSTER. -/
  | abort (p : PartId) (e : EntryId)
  /-- COMMIT_TIMEOUT (R352): The starter's commit timer expires without every READY, so it sends ABORT. -/
  | commitTimeout (p : PartId)
  /-- CKPT_REQ (R360): A CKPT_REQ reaches the starter, which sets CKPT on its next COMMIT once every member has asked. -/
  | ckptReq (p : PartId) (e : EntryId)
  /-- CKPT_READ (R360): A CKPT_READ reaches the starter, which may then start the commit timer of the next step. -/
  | ckptRead (p : PartId) (e : EntryId)
  /-- REBALANCED (R358): A REBALANCED reaches the starter, which sends START once every member of the new roster has sent one. -/
  | rebalanced (p : PartId) (e : EntryId)
  /-- HOST_OP (R357): A HOST_OP reaches the starter, which suspends, resumes or cancels the job on every member. -/
  | hostOp (p : PartId) (e : EntryId)
  /-- JOIN (R322): A JOIN reaches the starter, which admits it or refuses it. -/
  | join (p : PartId) (e : EntryId)
  /-- JOIN_REPLY (R322): A JOIN_REPLY arrives; the member waits in ADMIT or goes to LEFT. -/
  | joinReply (p : PartId) (e : EntryId)
  /-- ROSTER (R324): A ROSTER arrives and is held until it applies with its COMMIT or ABORT. -/
  | roster (p : PartId) (e : EntryId)
  /-- LEAVE (R325): A LEAVE reaches the starter, which removes the member. -/
  | leave (p : PartId) (e : EntryId)
  /-- REDIRECT (R322): A REDIRECT arrives, and the member joins through the starter it names. -/
  | redirect (p : PartId) (e : EntryId)
  /-- LEAD_QUERY (R327): A LEAD_QUERY arrives, and the member answers AGREE or DENY. -/
  | leadQuery (p : PartId) (e : EntryId)
  /-- LEAD_REPLY (R327): A LEAD_REPLY reaches the successor, which takes over on a majority. -/
  | leadReply (p : PartId) (e : EntryId)
  /-- STARTER_QUERY (R323): A STARTER_QUERY arrives and is answered with REDIRECT, or taken as a JOIN path. -/
  | starterQuery (p : PartId) (e : EntryId)
  /-- LOST (R325): A LOST report reaches the starter, which removes one end of the connection. -/
  | lost (p : PartId) (e : EntryId)
  /-- JOIN_RETRY (R322): 100 ms pass without a reply, and the JOIN is sent again. -/
  | joinRetry (p : PartId)
  /-- START_TIMEOUT (R323): START_TIMEOUT_S elapses; the starter begins with MIN_MEMBERS, or keeps waiting and raises CL_BELOW_MIN. -/
  | startTimeout (p : PartId)
  /-- STARTER_SILENT (R327): Nothing has been heard from the starter for PEER_LOSS_MS, so the successor sends LEAD_QUERY. -/
  | starterSilent (p : PartId)
  /-- LEAD_QUERY_TIMEOUT (R327): The successor gets no majority within PEER_LOSS_MS and pauses. -/
  | leadQueryTimeout (p : PartId)
  /-- NO_STARTER_TIMEOUT (R327): Neither the starter nor a LEAD_QUERY has been heard for twice PEER_LOSS_MS, so the member pauses. -/
  | noStarterTimeout (p : PartId)
  /-- STARTER_QUERY_RETRY (R327): Every 1 s a paused member sends STARTER_QUERY to the configured starter and successor. -/
  | starterQueryRetry (p : PartId)
  /-- OPEN (R313): An OT OPEN frame arrives; the member answers it and brings the connection up. -/
  | otOpen (t : PortId)
  /-- OPEN_RETRY (R313): Every 1 ms OPEN is sent again until the connection is up. -/
  | otOpenRetry (p : PartId) (i : Nat)
  /-- DATA (R314): An OT DATA frame arrives; it is checked against the epoch and credit window, and delivered in PSN order. -/
  | otData (t : PortId)
  /-- ACK (R315): An OT ACK arrives; it advances the sender's credit and SACK state, cuts the rate on ECE and triggers SACK retransmission. -/
  | otAck (t : PortId)
  /-- KEEPALIVE (R316): An OT KEEPALIVE arrives and refreshes the connection's liveness. -/
  | otKeepalive (t : PortId)
  /-- KEEPALIVE_TIMER (R316): KA_INTERVAL passes with nothing sent on a connection, so a KEEPALIVE is sent. -/
  | keepaliveTimer (p : PartId) (i : Nat)
  /-- ACK_TIMER (R315): 4 µs pass since the first unacknowledged frame, so the receiver sends an ACK. -/
  | otAckTimer (p : PartId) (i : Nat) (vc : VcId)
  /-- RETX_TIMEOUT (R315): No ACK advances CUM_PSN within the timeout, so the oldest frame is retransmitted and the timeout doubles. -/
  | retxTimeout (p : PartId) (i : Nat) (vc : VcId)
  /-- OT_CONN_DOWN (R316): No frame for PEER_LOSS_MS, or 16 timeouts in a row, takes the connection down; it reopens and LOST is sent. -/
  | otConnDown (p : PartId) (i : Nat) (cause : Nat)
  /-- RATE_INCREASE (R317): 50 µs pass without ECE, so the connection rate rises. -/
  | rateIncrease (p : PartId) (i : Nat)
  /-- REG_READ (R239): Vendor request REG_READ returns consecutive registers. -/
  | regRead (r : Setup)
  /-- REG_WRITE (R239): Vendor request REG_WRITE writes one register that has no row of its own, under the access type rules. -/
  | regWrite (r : Setup)
  /-- GET_LAST_ERROR (R239): Vendor request GET_LAST_ERROR returns the latest failure on its recipient. -/
  | getLastError (r : Setup)
  /-- SET_WINDOW (R241): Vendor request SET_WINDOW is checked and held until its E has landed. -/
  | setWindow (r : Setup)
  /-- DOORBELL (R250): Vendor request DOORBELL is checked and held until its E has landed. -/
  | doorbell (r : Setup)
  /-- GET_IF_STATUS (R272): Vendor request GET_IF_STATUS returns the interface's eight status registers. -/
  | getIfStatus (r : Setup)
  /-- FUNC_RESET (R264): Vendor request FUNC_RESET discards held state, resets the window and rings, and cancels or clears as flagged. -/
  | funcReset (r : Setup)
  /-- FUNC_RESET_DONE (R264): The cancelled handles reach DONE, the optional clear runs, and the reset finishes. -/
  | funcResetDone (i : Fin 5)
  /-- OP_STATUS (R271): Vendor request OP_STATUS returns a handle's state and progress. -/
  | opStatus (r : Setup)
  /-- OP_SUSPEND (R268): Vendor request OP_SUSPEND sets SUSPEND_PENDING or acts as the state table gives. -/
  | opSuspend (r : Setup)
  /-- OP_RESUME (R268): Vendor request OP_RESUME resumes an operation or withdraws a pending suspend. -/
  | opResume (r : Setup)
  /-- OP_CANCEL (R268): Vendor request OP_CANCEL cancels an operation unless it is past its point of no return. -/
  | opCancel (r : Setup)
  /-- OP_RELEASE (R268): Vendor request OP_RELEASE frees a DONE handle. -/
  | opRelease (r : Setup)
  /-- OP_LIST (R271): Vendor request OP_LIST returns up to 64 handles. -/
  | opList (r : Setup)
  /-- OP_SUSPEND_POINT (R268): An operation with SUSPEND_PENDING reaches its suspend point and becomes SUSPENDED. -/
  | opSuspendPoint (h : Nat)
  /-- FW_STAGE (R386): MGMT_OP_START of FW_STAGE consumes presence, checks the staged image, erases, programs, verifies and advances the counters. -/
  | fwStage (r : Setup)
  /-- NVM_WRITE (R387): MGMT_OP_START of NVM_WRITE checks every record of a staged request before applying them in order. -/
  | nvmWrite (r : Setup)
  /-- CONFIG (R387): An NVM_WRITE CONFIG record writes a validated, signed configuration image and advances CFG_VERSION. -/
  | nvmConfig (h : Nat)
  /-- OWNER_KEY (R388): An NVM_WRITE OWNER_KEY record writes a new owner key record with the next OWNER_EPOCH. -/
  | ownerKey (h : Nat)
  /-- PAYLOAD (R387): An NVM_WRITE PAYLOAD record writes data into the standing-job payload area. -/
  | payload (h : Nat)
  /-- IDENTITY_RESET (R389): An NVM_WRITE IDENTITY_RESET record advances IDENTITY_GEN and erases the endorsement. -/
  | identityReset (h : Nat)
  /-- DEBUG_UNLOCK (R393): An NVM_WRITE DEBUG_UNLOCK record checks the token, erases the keys and enables the debug port. -/
  | debugUnlock (h : Nat)
  /-- PAIR (R376): An NVM_WRITE PAIR record pairs the counters of an unpaired flash. -/
  | nvmPair (h : Nat)
  /-- WRITE (R244): A WRITE frame is checked and performed, L advances, and held requests whose E has landed are applied. -/
  | frameWrite (p : PartId) (f : Frame)
  /-- READ (R246): A READ frame is checked and answered with a response on bulk-IN. -/
  | frameRead (p : PartId) (f : Frame) (env : MemEnv)
  /-- STAGING_FRAME (R270): A DIAG or RECOVERY staging frame writes or reads the staging buffer. -/
  | stagingFrame (f : Frame)
  /-- FRAME_GEN_TIMEOUT (R245): A frame held for its generation for 250 ms is rejected, and the interface faults. -/
  | frameGenTimeout (p : PartId)
  /-- HELD_REQUEST_STALE (R252): A held doorbell or SET_WINDOW reaches 250 ms and is discarded with DOORBELL_STALE or WINDOW_STALE. -/
  | heldRequestStale (p : PartId) (k : Nat)
  /-- NOTICE_INTERVAL (R263): At a 125 µs service interval, a job interface sends a notice if its tails or flags changed. -/
  | noticeInterval (p : PartId)
  /-- NOP (R260): Command NOP completes once every earlier command has been taken. -/
  | cmdNop (p : PartId)
  /-- JOB_LOAD (R256): Command JOB_LOAD is taken; the job image and records are checked and loaded, and the streams start unless HOLD is set. -/
  | jobLoad (p : PartId)
  /-- STORE_READ (R255): Command STORE_READ moves data from storage into device memory over a queue pair. -/
  | storeRead (p : PartId)
  /-- STORE_WRITE (R260): Command STORE_WRITE moves data to storage and completes at its requested level. -/
  | storeWrite (p : PartId) (env : MemEnv)
  /-- CHECKPOINT (R360): Command CHECKPOINT starts a checkpoint of a TRAIN job, sending CKPT_REQ in a cluster. -/
  | checkpoint (p : PartId)
  /-- MODEL_LOAD (R362): Command MODEL_LOAD checks a checkpoint image and loads the job state. -/
  | modelLoad (p : PartId)
  /-- COMMAND_FINAL_RECORD (R262): A command final record that waited for room is written once the completion ring has room. -/
  | commandFinalRecord (p : PartId)
  /-- USB_ATTACH (R233): VBUS is sensed and the link trains at the highest rate that succeeds. -/
  | usbAttach (speed : Fin 4) (orient : Bool)
  /-- USB_DISCONNECT (R265): VBUS is lost; the interfaces take steps 1 and 2 of FUNC_RESET. -/
  | usbDisconnect
  /-- BUS_RESET (R265): A USB bus reset has the effect of steps 1 and 2 of FUNC_RESET on every interface. -/
  | busReset
  /-- WARM_RESET (R265): A USB warm reset has the effect of steps 1 and 2 of FUNC_RESET on every interface. -/
  | warmReset
  /-- PORT_LINK_UP (R276): A subport gains block lock, alignment and FEC codeword lock, and reports link up. -/
  | portLinkUp (t : PortId) (q : SubId)
  /-- PORT_LINK_DOWN (R276): Lock is lost for more than 1 ms, and the subport's transmit buffer is discarded. -/
  | portLinkDown (t : PortId) (q : SubId) (cause : Nat)
  /-- PORT_FEC_DEGRADED (R277): The FEC threshold is crossed over a 1 s average. -/
  | portFecDegraded (t : PortId) (q : SubId) (ratio : Nat)
  /-- FRAME_RECEIVE (R284): A frame is received whole, checked and classified to its destination, including the MC's ARP, ND and ICMP handling and the capture ring. -/
  | frameReceive (t : PortId) (q : SubId) (f : EthFrame)
  /-- FRAME_TRANSMIT (R289): A stored frame starts when its gate stays open for its whole duration and its class is not paused. -/
  | frameTransmit (t : PortId) (x : TxTurn)
  /-- GATE_ENTRY_CHANGE (R288): A schedule's comparator reaches the next entry or cycle start, and the gate states change. -/
  | gateEntryChange (t : PortId) (k : Fin 2)
  /-- SCHEDULE_CHANGE_TIME (R290): The change time arrives, and the administrative entries are copied to the operating bank. -/
  | scheduleChangeTime (t : PortId) (k : Fin 2)
  /-- PORT_GATE_CTL_CHANGE (R290): A write of CHANGE = 1 requests a schedule change at the computed change time. -/
  | portGateCtlChange (t : PortId) (k : Fin 2)
  /-- PORT_GATE_CTL_CANCEL (R290): A write of CANCEL = 1 withdraws a pending change. -/
  | portGateCtlCancel (t : PortId) (k : Fin 2)
  /-- PORT_GATE_CTL_EN (R288): A write of the schedule's EN, SUBPORTS, START and LEN is checked; enabling starts the schedule and disabling opens every gate. -/
  | portGateCtlEn (t : PortId) (k : Fin 2) (value : Word)
  /-- PORT_PTP_STEP (R291): A step of the port time repositions the schedules and raises PTP_STEP. -/
  | portPtpStep (t : PortId) (value : Word)
  /-- PORT_PTP_FREQ (R293): A write of the frequency correction adjusts the rate of the port clock. -/
  | portPtpFreq (t : PortId) (value : Word)
  /-- PTP_MESSAGE (R293): The MC's PTP instance processes a timestamped PTP message and disciplines the port clock. -/
  | ptpMessage (t : PortId) (q : SubId)
  /-- PTP_MASTER_LOST (R293): Three announce intervals pass without the master, and the port clock holds over. -/
  | ptpMasterLost (t : PortId)
  /-- PERIODIC_OUTPUT (R295): Comparator 2 reaches a multiple of PERIOD, and a pulse drives SYNC_IO. -/
  | periodicOutput (t : PortId)
  /-- PFC_PAUSE_EXPIRE (R297): The pause time from a received PFC frame expires and the named classes may transmit. -/
  | pfcPauseExpire (t : PortId) (q : SubId) (classes : BitVec 8)
  /-- PFC_RENEW (R297): A class's buffer share is still above XON when its pause runs out, so the PFC pause is renewed. -/
  | pfcRenew (t : PortId) (q : SubId) (cls : Fin 8)
  /-- ROCE_REQUEST (R300): An incoming RoCEv2 WRITE, READ or SEND is checked against the memory regions and placed or answered with a NAK. -/
  | roceRequest (t : PortId) (q : SubId)
  /-- ROCE_RESPONSE (R299): A RoCEv2 ACK, NAK or read response arrives, advancing or retransmitting the requester. -/
  | roceResponse (t : PortId) (qp : Nat) (q : SubId)
  /-- CNP (R299): A congestion notification arrives, and the queue pair's rate is cut by 7/8. -/
  | cnp (t : PortId) (qp : Nat)
  /-- ROCE_ACK_TIMEOUT (R299): The local ACK timeout expires, and the queue pair goes back N or enters ERROR. -/
  | roceAckTimeout (t : PortId) (qp : Fin 1024)
  /-- ROCE_RATE_INCREASE (R299): 55 µs pass without a CNP, and the queue pair's rate rises by 1 %. -/
  | roceRateIncrease (t : PortId) (qp : Fin 1024)
  /-- QPX_READ (R302): PORT_QPX_SEL GO with OP read reads a queue-pair context or a memory region into the data words. -/
  | qpxRead (t : PortId) (value : Word)
  /-- QPX_WRITE (R302): PORT_QPX_SEL GO with OP write checks and writes a queue-pair context or a memory region. -/
  | qpxWrite (t : PortId) (value : Word)
  /-- ATT_GO (R390): A write of GO to SEC_ATT_CTL starts an attestation report. -/
  | attGo
  /-- ATT_REPORT_DONE (R390): The signed report is complete and BUSY clears. -/
  | attReportDone
  /-- MC_LOG_SEL_WRITE (R423): A write to MC_LOG_SEL loads the selected log entry into MC_LOG_DATA_w. -/
  | mcLogSelWrite (value : Word)
  /-- CORE_NUM_CLR_WTRUNC (R66): Writing WTRUNC clears both CORE_NUM_WTRUNC registers. -/
  | coreNumClrWtrunc (c : CoreId)
  /-- CORE_NUM_CLR_OUTSAT (R66): Writing OUTSAT clears CORE_NUM_OUTSAT. -/
  | coreNumClrOutsat (c : CoreId)
  /-- CORE_NUM_CLR_NONFIN (R66): Writing NONFIN clears CORE_NUM_NONFIN. -/
  | coreNumClrNonfin (c : CoreId)
  /-- CORE_NUM_CLR_SUMVIOL (R66): Writing SUMVIOL clears CORE_NUM_SUMVIOL. -/
  | coreNumClrSumviol (c : CoreId)
  /-- CORE_ARR_CLR_BEATS (R104): Writing BEATS clears the beat counts of every array. -/
  | coreArrClrBeats (c : CoreId)
  /-- CORE_ARR_CLR_STALLS (R104): Writing STALLS clears the shadow, load and feed stall counts. -/
  | coreArrClrStalls (c : CoreId)
  /-- CORE_ARR_CLR_MISMATCHES (R104): Writing MISMATCHES clears every CORE_ARR_MISMATCH_a. -/
  | coreArrClrMismatches (c : CoreId)
  /-- CORE_VR_CLR_LSTEPS (R140): Writing LSTEPS clears the lane-step counts of both engines. -/
  | coreVrClrLsteps (c : CoreId)
  /-- CORE_VR_CLR_STALLS (R140): Writing STALLS clears CORE_VEC_MSTALL and CORE_ROW_MSTALL. -/
  | coreVrClrStalls (c : CoreId)
  /-- CORE_VR_CLR_TAGFAIL (R140): Writing TAGFAIL clears CORE_ROW_TAGFAIL. -/
  | coreVrClrTagfail (c : CoreId)
  /-- CORE_GB_CLR_OPS (R166): Writing OPS clears the spill, refill and tie-add counts. -/
  | coreGbClrOps (c : CoreId)
  /-- CORE_GB_CLR_BYTES (R166): Writing BYTES clears both CORE_GB_BYTES registers. -/
  | coreGbClrBytes (c : CoreId)
  /-- CORE_GB_CLR_WAITS (R166): Writing WAITS clears CORE_GB_WAITS. -/
  | coreGbClrWaits (c : CoreId)
  /-- CORE_MEM_CLR_WAITS (R202): Writing WAITS clears CORE_MEM_BANKWAIT and CORE_MEM_WAKES. -/
  | coreMemClrWaits (c : CoreId)
  /-- CORE_MEM_CLR_CE (R202): Writing CE clears the corrected-error counts. -/
  | coreMemClrCe (c : CoreId)
  /-- CORE_MEM_CLR_UE (R202): Writing UE clears the uncorrectable count and keeps the address. -/
  | coreMemClrUe (c : CoreId)
  /-- CORE_STR_CLR_COUNTS (R230): Writing COUNTS clears every issued and queue-stall count. -/
  | coreStrClrCounts (c : CoreId)
  /-- PORT_CNT_CLR_ALL (R302): Writing ALL clears every port counter. -/
  | portCntClrAll (t : PortId)
  /-- PORT_OT_CLR_ALL (R332): Writing ALL clears every OT counter of the port. -/
  | portOtClrAll (t : PortId)
  /-- CORE_NET_CLR_OPS (R367): Writing OPS clears CORE_NET_DONE and CORE_NET_CANCEL. -/
  | coreNetClrOps (c : CoreId)
  /-- CORE_NET_CLR_STALLS (R367): Writing STALLS clears CORE_NET_PSTALL and CORE_NET_GHELD. -/
  | coreNetClrStalls (c : CoreId)
  /-- CORE_NET_CLR_BUBBLE (R367): Writing BUBBLE clears both CORE_NET_BUBBLE registers. -/
  | coreNetClrBubble (c : CoreId)
  /-- USB_SUSPEND (R234): The host places the link in U3 (suspend), and the device stops sending interrupt transfers while jobs run on. -/
  | usbSuspend
  /-- USB_RESUME (R234): The link leaves U3, and the interfaces resume sending notices and event records on their interrupt endpoints. -/
  | usbResume
  /-- CLOSE (R312): An OT CLOSE frame arrives on a connection and is checked and taken. -/
  | otClose (t : PortId)
  /-- BLOCK_UNUSABLE (R402): A hub, regulator die, mesh link, port die or HBM4E stack fails in service, or a regulator holds a core rail out of regulation for more than 1 ms, so the block becomes unusable and affected cores are fenced. -/
  | blockUnusable (kind : BlockKind) (index : Nat) (code : Nat)
  /-- SEAL_INTACT (R392): SEAL_LOOP returns within its resistance window, SEC_STATUS.SEAL reads 1 again, and privileged operations are no longer refused for the seal. -/
  | sealIntact
  /-- MC_SYNC_IO_DRIVE (R438): A write of DRIVE to MC_SYNC_IO, with the GPIO claim and output direction, drives SYNC_IO low or releases it. -/
  | mcSyncIoDrive (drive : Bool)
  /-- NVM_PAGE_COMPLETE (R377): An NVM erase or page program finishes, and the next postponed or queued NVM write (firmware, staged record or ageing-log record) begins, with progress reported. -/
  | nvmPageComplete
  deriving DecidableEq, Repr, Inhabited

end Sys2Proof
end

