-- ==== Sys2Proof/Machine/Bits.lean ====
section
/-! DEFINITION. Bit fields, byte order, and the sparse tables that hold memory and registers (R7, R9, R11). -/

namespace Sys2Proof.Machine

/-- Field `[hi:lo]` of a natural number read as bits (R7). -/
def nbits (n hi lo : Nat) : Nat := (n >>> lo) % 2 ^ (hi + 1 - lo)

/-- Field `NAME[hi:lo]` of a 32-bit word (R7). -/
def fld (w : Word) (hi lo : Nat) : Nat := nbits w.toNat hi lo

/-- Bit `i` of a 32-bit word. -/
def bitAt (w : Word) (i : Nat) : Bool := w.getLsbD i

/-- A word that holds `v` in the field starting at bit `lo`. -/
def mkFld (v lo : Nat) : Word := BitVec.ofNat 32 (v <<< lo)

/-- The word with field `[hi:lo]` replaced by `v`. -/
def putFld (w : Word) (hi lo v : Nat) : Word :=
  let m : Word := BitVec.ofNat 32 ((2 ^ (hi + 1 - lo) - 1) <<< lo)
  (w &&& ~~~m) ||| (BitVec.ofNat 32 (v <<< lo) &&& m)

/-- A Boolean as a bit. -/
def b2n (b : Bool) : Nat := if b then 1 else 0

/-- Little-endian bytes of a number (R7). -/
def leBytes : Nat → Nat → List Byte
  | 0, _ => []
  | k + 1, n => BitVec.ofNat 8 n :: leBytes k (n / 256)

/-- The number that little-endian bytes hold (R7). -/
def leNat : List Byte → Nat
  | [] => 0
  | b :: r => b.toNat + 256 * leNat r

/-- Big-endian bytes of a number: the header fields that keep network byte order (R7). -/
def beBytes (k n : Nat) : List Byte := (leBytes k n).reverse

/-- The number that big-endian bytes hold (R7). -/
def beNat (bs : List Byte) : Nat := leNat bs.reverse

/-- The bytes from offset `o`, `k` of them, zeros past the end. -/
def slice (bs : List Byte) (o k : Nat) : List Byte :=
  let r := (bs.drop o).take k
  r ++ List.replicate (k - r.length) 0

/-- Little-endian 32-bit words of a byte string. -/
def toWords : Nat → List Byte → List Word
  | 0, _ => []
  | k + 1, bs => BitVec.ofNat 32 (leNat (bs.take 4)) :: toWords k (bs.drop 4)

/-- The little-endian bytes of a list of words. -/
def ofWords (ws : List Word) : List Byte := ws.flatMap (fun w => leBytes 4 w.toNat)

/-- Word `i` of a record. -/
def wordAt (ws : List Word) (i : Nat) : Word := ws.getD i 0

/-- The number held at byte offset `o` of a record, `k` bytes, little-endian. -/
def rdLE (bs : List Byte) (o k : Nat) : Nat := leNat (slice bs o k)

/-- A two's complement reading of an `n`-bit number. -/
def sext (n v : Nat) : Int := if 2 * (v % 2 ^ n) < 2 ^ n then ((v % 2 ^ n : Nat) : Int) else (v % 2 ^ n : Nat) - (2 ^ n : Nat)

/-- The `n`-bit two's complement pattern of an integer. -/
def toTwos (n : Nat) (v : Int) : Nat := (v % (2 ^ n : Nat)).toNat

/-- Upward division. -/
def cdiv (a b : Nat) : Nat := (a + b - 1) / b

/-! ### Sparse tables: lists of (key, value) with strictly rising keys -/

/-- The value listed at a key. -/
def mapGet {α : Type} : List (Nat × α) → Nat → Option α
  | [], _ => none
  | (k', v) :: r, k => if k' = k then some v else mapGet r k

/-- The table with `v` listed at `k`. -/
def mapSet {α : Type} : List (Nat × α) → Nat → α → List (Nat × α)
  | [], k, v => [(k, v)]
  | (k', v') :: r, k, v =>
    if k < k' then (k, v) :: (k', v') :: r
    else if k = k' then (k, v) :: r
    else (k', v') :: mapSet r k v

/-- The table with nothing listed at `k`. -/
def mapErase {α : Type} : List (Nat × α) → Nat → List (Nat × α)
  | [], _ => []
  | (k', v') :: r, k => if k' = k then mapErase r k else (k', v') :: mapErase r k

/-- Keys rise strictly. -/
def keysRise {α : Type} : List (Nat × α) → Bool
  | [] => true
  | [_] => true
  | (k, _) :: (k', v') :: r => decide (k < k') && keysRise ((k', v') :: r)

/-- The table with `v` at `k` under default `d`: a value equal to the default is not listed. -/
def mapPut {α : Type} [DecidableEq α] (d : α) (m : List (Nat × α)) (k : Nat) (v : α) : List (Nat × α) :=
  if v = d then mapErase m k else mapSet m k v

/-- Canonical form of a table under a default: keys rise strictly and no entry holds the default of its key. -/
def mapCanon {α : Type} [DecidableEq α] (d : Nat → α) (m : List (Nat × α)) : Bool :=
  keysRise m && m.all (fun e => decide (e.2 ≠ d e.1))

/-- A counter that stops at its all-ones value of `n` bits. -/
def satAdd (n : Nat) (w k : Nat) : Nat := Nat.min (w + k) (2 ^ n - 1)

/-- The elements of a list with their positions. -/
def indexed {α : Type} (l : List α) : List (Nat × α) := (List.range l.length).zip l

/-- List element `i` replaced through `f`. -/
def modifyAt {α : Type} (f : α → α) : Nat → List α → List α
  | _, [] => []
  | 0, x :: r => f x :: r
  | i + 1, x :: r => x :: modifyAt f i r

end Sys2Proof.Machine

/-! ### The header of a window or staging frame (R243) -/

/-- TYPE. -/
def Sys2Proof.Frame.ftype (f : Sys2Proof.Frame) : Nat := Sys2Proof.Machine.rdLE f.header 3 1
/-- GEN. -/
def Sys2Proof.Frame.gen (f : Sys2Proof.Frame) : Nat := Sys2Proof.Machine.rdLE f.header 0 2
/-- SEQ. -/
def Sys2Proof.Frame.seq (f : Sys2Proof.Frame) : Nat := Sys2Proof.Machine.rdLE f.header 4 4
/-- OFFSET. -/
def Sys2Proof.Frame.offset (f : Sys2Proof.Frame) : Nat := Sys2Proof.Machine.rdLE f.header 8 4
/-- LENGTH. -/
def Sys2Proof.Frame.length (f : Sys2Proof.Frame) : Nat := Sys2Proof.Machine.rdLE f.header 0x0C 4
/-- TAG. -/
def Sys2Proof.Frame.tag (f : Sys2Proof.Frame) : Nat := Sys2Proof.Machine.rdLE f.header 0x10 4
/-- Reserved bits [23:16] of offset 0x00, and the bytes from 0x14 on. -/
def Sys2Proof.Frame.reserved (f : Sys2Proof.Frame) : Nat := Sys2Proof.Machine.rdLE f.header 2 1 + 256 * Sys2Proof.Machine.rdLE f.header 0x14 12
end

