-- ==== Sys2Proof/Machine/Num.lean ====
section
/-! DEFINITION. Number formats, rounding and the generator (spec/02: R30-R36, R47-R56, R58). -/

namespace Sys2Proof.Machine

/-- An exact value: a NaN, an infinity, or `(-1)^neg * m * 2^e`; a zero keeps its sign. -/
inductive XNum where
  | nan
  | inf (neg : Bool)
  | fin (neg : Bool) (m : Nat) (e : Int)
  deriving DecidableEq, Repr, Inhabited

/-- Positive zero. -/
def XNum.zero : XNum := .fin false 0 0

/-- The value of an integer times a power of two. -/
def XNum.ofInt (v : Int) (e : Int) : XNum := .fin (decide (v < 0)) v.natAbs e

/-- Neither a NaN nor an infinity. -/
def XNum.isFin : XNum → Bool
  | .fin _ _ _ => true
  | _ => false

/-- A zero of either sign. -/
def XNum.isZero : XNum → Bool
  | .fin _ m _ => m == 0
  | _ => false

/-- The magnitude. -/
def XNum.abs : XNum → XNum
  | .nan => .nan
  | .inf _ => .inf false
  | .fin _ m e => .fin false m e

/-- The value times 2^k, exactly. -/
def XNum.scale (k : Int) : XNum → XNum
  | .fin s m e => .fin s m (e + k)
  | x => x

/-- `m * 2^(e - q)` for `q ≤ e`. -/
def alignUp (m : Nat) (e q : Int) : Nat := m <<< (e - q).toNat

/-- The sign and magnitude of an integer. -/
def signed (neg : Bool) (m : Nat) : Int := if neg then -(m : Int) else (m : Int)

/-- Whether `a * 2^ea < b * 2^eb`. -/
def magLt (a : Nat) (ea : Int) (b : Nat) (eb : Int) : Bool :=
  let q := min ea eb
  decide (alignUp a ea q < alignUp b eb q)

/-- floor(log2 (m * 2^e)) for a nonzero `m`. -/
def expOf (m : Nat) (e : Int) : Int := (Nat.log2 m : Int) + e

/-! ### Rounding (R53, R54) -/

/-- How a path rounds one element (R53). -/
inductive Round where
  | nearest
  | stoch (r : Nat)
  | down
  deriving DecidableEq, Repr, Inhabited

/-- `m * 2^e` rounded to a whole number of units `2^q`, on the magnitude (R53, R54). -/
def roundMag (mode : Round) (m : Nat) (e q : Int) : Nat :=
  if q ≤ e then alignUp m e q
  else
    let sh := (q - e).toNat
    let n := m >>> sh
    let rem := m % 2 ^ sh
    match mode with
    | .down => n
    | .nearest =>
      let half := 2 ^ (sh - 1)
      if half < rem ∨ (rem = half ∧ n % 2 = 1) then n + 1 else n
    | .stoch r =>
      let f := (rem <<< 32) >>> sh
      if 2 ^ 32 ≤ f + r then n + 1 else n

/-- `v * 2^e` rounded to a whole number of units `2^q`: stochastic rounding acts on the value itself, toward +∞ (R54). -/
def roundTwos (mode : Round) (v : Int) (e q : Int) : Int :=
  if q ≤ e then v * (2 ^ (e - q).toNat : Nat)
  else
    let d : Int := (2 ^ (q - e).toNat : Nat)
    match mode with
    | .down => signed (decide (v < 0)) (v.natAbs / d.toNat)
    | .nearest => signed (decide (v < 0)) (roundMag .nearest v.natAbs e q)
    | .stoch r =>
      let n := v / d
      let f := ((v % d).toNat <<< 32) >>> (q - e).toNat
      if 2 ^ 32 ≤ f + r then n + 1 else n

/-! ### Element formats (R30) -/

/-- What an exponent field of all ones means in a format (R30). -/
inductive Special where
  | ieee
  | nanOnly
  | none
  deriving DecidableEq, Repr, Inhabited

/-- A binary floating format (R30): exponent and mantissa bits, bias, special values. -/
structure FloatFmt where
  eb : Nat
  mb : Nat
  bias : Nat
  special : Special
  deriving DecidableEq, Repr, Inhabited

def fFP32 : FloatFmt := ⟨8, 23, 127, .ieee⟩
def fBF16 : FloatFmt := ⟨8, 7, 127, .ieee⟩
def fFP16 : FloatFmt := ⟨5, 10, 15, .ieee⟩
def fE5M2 : FloatFmt := ⟨5, 2, 15, .ieee⟩
def fE4M3 : FloatFmt := ⟨4, 3, 7, .nanOnly⟩
def fE3M2 : FloatFmt := ⟨3, 2, 3, .none⟩
def fE2M3 : FloatFmt := ⟨2, 3, 1, .none⟩
def fE2M1 : FloatFmt := ⟨2, 1, 1, .none⟩

/-- Exponent of the unit in the last place of a subnormal. -/
def FloatFmt.qmin (f : FloatFmt) : Int := 1 - (f.bias : Int) - (f.mb : Int)

/-- Largest exponent field of a finite number. -/
def FloatFmt.emaxField (f : FloatFmt) : Nat := match f.special with | .ieee => 2 ^ f.eb - 2 | _ => 2 ^ f.eb - 1

/-- Largest finite magnitude as `(m, e)` (R30). -/
def FloatFmt.maxFin (f : FloatFmt) : Nat × Int :=
  let m := match f.special with | .nanOnly => 2 ^ (f.mb + 1) - 2 | _ => 2 ^ (f.mb + 1) - 1
  (m, (f.emaxField : Int) - (f.bias : Int) - (f.mb : Int))

/-- The value of a bit pattern (R30). -/
def FloatFmt.decode (f : FloatFmt) (w : Nat) : XNum :=
  let man := w % 2 ^ f.mb
  let ex := (w >>> f.mb) % 2 ^ f.eb
  let neg := decide ((w >>> (f.mb + f.eb)) % 2 = 1)
  let top := 2 ^ f.eb - 1
  if f.special = .ieee ∧ ex = top then (if man = 0 then .inf neg else .nan)
  else if f.special = .nanOnly ∧ ex = top ∧ man = 2 ^ f.mb - 1 then .nan
  else if ex = 0 then .fin neg man f.qmin
  else .fin neg (2 ^ f.mb + man) ((ex : Int) - (f.bias : Int) - (f.mb : Int))

/-- The pattern of a sign bit. -/
def FloatFmt.signBit (f : FloatFmt) (neg : Bool) : Nat := b2n neg <<< (f.eb + f.mb)

/-- The pattern of the canonical NaN (R34). -/
def FloatFmt.nanBits (f : FloatFmt) : Nat :=
  match f.special with
  | .ieee => if f.mb = 2 then 0x7F else ((2 ^ f.eb - 1) <<< f.mb) + 2 ^ (f.mb - 1)
  | .nanOnly => 2 ^ (f.eb + f.mb) - 1
  | .none => 0

/-- The pattern of an infinity. -/
def FloatFmt.infBits (f : FloatFmt) (neg : Bool) : Nat := f.signBit neg + ((2 ^ f.eb - 1) <<< f.mb)

/-- The pattern of the largest finite value of a sign. -/
def FloatFmt.maxBits (f : FloatFmt) (neg : Bool) : Nat :=
  f.signBit neg + (match f.special with
    | .ieee => ((2 ^ f.eb - 2) <<< f.mb) + (2 ^ f.mb - 1)
    | .nanOnly => 2 ^ (f.eb + f.mb) - 2
    | .none => 2 ^ (f.eb + f.mb) - 1)

/-- A finite magnitude rounded with the exponent range unbounded above (R33): `(n, q)` for `n * 2^q`, normalised. -/
def FloatFmt.round (f : FloatFmt) (mode : Round) (m : Nat) (e : Int) : Nat × Int :=
  if m = 0 then (0, f.qmin)
  else
    let q := max (expOf m e - (f.mb : Int)) f.qmin
    let n := roundMag mode m e q
    if 2 ^ (f.mb + 1) ≤ n then (n / 2, q + 1) else (n, q)

/-- The pattern of a rounded magnitude that the format holds. -/
def FloatFmt.pack (f : FloatFmt) (neg : Bool) (n : Nat) (q : Int) : Nat :=
  if n < 2 ^ f.mb then f.signBit neg + n
  else f.signBit neg + ((q + (f.mb : Int) + (f.bias : Int)).toNat <<< f.mb) + (n - 2 ^ f.mb)

/-- What a written element counts as (R33, R34). -/
inductive Note where
  | ok | saturated | nonfinite
  deriving DecidableEq, Repr, Inhabited

/-- The outcome of a conversion for a finite value above the largest finite, by target (R33). -/
def FloatFmt.over (f : FloatFmt) (neg : Bool) : Nat × Note :=
  if f.special = .ieee ∧ f.mb ≠ 2 then (f.infBits neg, .nonfinite) else (f.maxBits neg, .saturated)

/-- Conversion of a value into a plain format (R33). -/
def FloatFmt.encode (f : FloatFmt) (mode : Round) : XNum → Nat × Note
  | .nan => (f.nanBits, .nonfinite)
  | .inf neg => if f.special = .ieee then (f.infBits neg, .nonfinite) else (f.nanBits, .nonfinite)
  | .fin neg m e =>
    let (n, q) := f.round mode m e
    let (mm, me) := f.maxFin
    if magLt mm me n q then f.over neg else (f.pack neg n q, .ok)

/-- Conversion into INT8 (R33). -/
def encodeInt8 (mode : Round) : XNum → Nat × Note
  | .nan => (0, .nonfinite)
  | .inf neg => if neg then (0x80, .saturated) else (0x7F, .saturated)
  | .fin neg m e =>
    let v := roundTwos mode (signed neg m) e 0
    if v < -128 then (0x80, .saturated) else if 127 < v then (0x7F, .saturated) else (toTwos 8 v, .ok)

/-- The value of an INT8 byte. -/
def decodeInt8 (w : Nat) : XNum := XNum.ofInt (sext 8 w) 0

/-! ### MX blocks (R31, R32, R446) -/

/-- The E8M0 exponent of a scale byte other than 0xFF (R30). -/
def scaleExp (s : Nat) : Int := (s : Int) - 127

/-- An element of an MX block (R31, R446). -/
def mxDecode (f : FloatFmt) (scale w : Nat) : XNum := if scale = 0xFF then .nan else (f.decode w).scale (scaleExp scale)

/-- emax of the MX scale rule (R32). -/
def mxEmax (f : FloatFmt) : Int := if f.mb = 3 ∧ f.eb = 4 then 8 else if f.eb = 5 then 15 else if f.eb = 3 then 4 else 2

/-- The largest magnitude among finite values, as `(m, e)` with `m = 0` when all are zero. -/
def maxMag : List XNum → Nat × Int
  | [] => (0, 0)
  | x :: r =>
    let (m, e) := maxMag r
    match x with
    | .fin _ m' e' => if m = 0 then (m', e') else if magLt m e m' e' then (m', e') else (m, e)
    | _ => (m, e)

/-- A written MX block (R32): scale, elements, and how many elements count as saturated and as non-finite. -/
structure MxBlock where
  scale : Nat
  elems : List Nat
  sat : Nat
  nonfin : Nat
  deriving DecidableEq, Repr, Inhabited

/-- One element of an MX block, divided by the scale, rounded and clamped (R32). DESIGN CHOICE: R33 writes a "zero element" where an element
lies below the smallest subnormal, and gives it no sign; it is the zero of the value's own sign (log entry 96, unsafe). -/
def mxElem (f : FloatFmt) (sc : Int) (mode : Round) : XNum → Nat × Bool
  | .fin neg m e =>
    let (n, q) := f.round mode m (e - sc)
    let (mm, me) := f.maxFin
    if magLt mm me n q then (f.maxBits neg, true) else (f.pack neg n q, false)
  | _ => (0, false)

/-- An MX block written from 32 values, each with its rounding (R32). -/
def mxEncode (f : FloatFmt) (vs : List (XNum × Round)) : MxBlock :=
  if vs.any (fun v => !v.1.isFin) then ⟨0xFF, List.replicate vs.length 0, 0, 32⟩
  else
    let (m, e) := maxMag (vs.map Prod.fst)
    if m = 0 then ⟨0, List.replicate vs.length 0, 0, 0⟩
    else
      let sc := expOf m e - mxEmax f
      let k := max (-127) (min 127 sc)
      let es := vs.map fun v => mxElem f k v.2 v.1
      let clamped := (es.filter fun x => x.2).length
      ⟨(k + 127).toNat, es.map Prod.fst, if 127 < sc then clamped else 0, 0⟩

/-! ### Summaries (R36) -/

/-- The summary byte of a block from its stored elements (R36): in element units for an MX block. -/
def summaryOf (mxNan : Bool) (vs : List XNum) : Nat :=
  if mxNan ∨ vs.any (fun v => !v.isFin) then 0xFF
  else
    let (m, e) := maxMag vs
    if m = 0 then 0
    else
      let x := expOf m e
      if x < -126 then 1 else (x + 127).toNat

/-- Whether an element breaches its block's summary (R38): `x` in element units. -/
def breaches (summary : Nat) (x : XNum) : Bool :=
  match x with
  | .fin _ m e => decide (m ≠ 0) && (decide (summary = 0) || (decide (summary ≠ 0xFF) && decide ((summary : Int) - 127 < expOf m e)))
  | _ => decide (summary ≠ 0xFF)

/-! ### WG64 (R47, R48) -/

/-- The value of a WG64 element (R47). -/
def wgDecode (w : Nat) : XNum :=
  let ex : Nat := w / 2 ^ 56 % 256
  let sig := sext 56 w
  if ex = 0xFF then .nan
  else if ex = 0 then (if sig = 0 then .zero else XNum.ofInt sig (-180))
  else XNum.ofInt sig ((ex : Int) - 181)

/-- The WG64 pattern of NaN (R47). -/
def wgNan : Nat := 0xFF00000000000000

/-- A finite value rounded to WG64, to nearest even; NaN where it would reach 2^128 (R47, R48). -/
def wgEncode : XNum → Nat
  | .fin neg m e =>
    if m = 0 then 0
    else
      let q := max (expOf m e - 54) (-180)
      let n0 := roundMag .nearest m e q
      let (n, q) := if 2 ^ 55 ≤ n0 then (n0 / 2, q + 1) else (n0, q)
      if n = 0 then 0
      else if n < 2 ^ 54 then toTwos 56 (signed neg n)
      else
        let ex := q + 181
        if 0xFE < ex then wgNan else ex.toNat * 2 ^ 56 + toTwos 56 (signed neg n)
  | _ => wgNan

/-- The exact sum of two finite values as an integer times a power of two. -/
def exactAdd (n1 : Bool) (m1 : Nat) (e1 : Int) (n2 : Bool) (m2 : Nat) (e2 : Int) : Int × Int :=
  let q := min e1 e2
  (signed n1 (alignUp m1 e1 q) + signed n2 (alignUp m2 e2 q), q)

/-- A contribution joins a gradient-buffer element: old + c, rounded once (R48). -/
def wgAdd (old : Nat) (c : XNum) : Nat :=
  match wgDecode old, c with
  | .fin n1 m1 e1, .fin n2 m2 e2 =>
    let (v, q) := exactAdd n1 m1 e1 n2 m2 e2
    wgEncode (XNum.ofInt v q)
  | _, _ => wgNan

/-! ### GW24 and GW32 (R49-R51) -/

/-- Mantissa bits of a wire format: 24 or 32 (R49). -/
def gwBits (wide : Bool) : Nat := if wide then 32 else 24

/-- Exponent bias of a wire format (R49). -/
def gwBias (wide : Bool) : Int := if wide then 157 else 149

/-- A block of a wire format: exponent and 32 mantissas (R49). -/
structure GwBlock where
  x : Nat
  ms : List Int
  deriving DecidableEq, Repr, Inhabited

/-- The saturated block (R49). -/
def gwSaturated : GwBlock := ⟨0xFF, List.replicate 32 0⟩

/-- Bytes of a wire block (R49). -/
def gwBytes (wide : Bool) : Nat := if wide then 129 else 97

/-- A wire block from its bytes (R49). -/
def gwParse (wide : Bool) (bs : List Byte) : GwBlock :=
  let k := gwBits wide / 8
  ⟨rdLE bs 0 1, (List.range 32).map fun i => sext (gwBits wide) (rdLE bs (1 + k * i) k)⟩

/-- The bytes of a wire block (R49). -/
def gwPrint (wide : Bool) (b : GwBlock) : List Byte :=
  leBytes 1 b.x ++ (List.range 32).flatMap fun i => leBytes (gwBits wide / 8) (toTwos (gwBits wide) (b.ms.getD i 0))

/-- Whether mantissas fit (R50). -/
def gwFits (wide : Bool) (ms : List Int) : Bool :=
  ms.all fun m => decide (-(2 ^ (gwBits wide - 1) : Nat) ≤ m) && decide (m < (2 ^ (gwBits wide - 1) : Nat))

/-- The smallest exponent from `x` on, `n` tries, at which every element fits as rounded (R50, R51). -/
def gwSearch (wide : Bool) (at_ : Nat → List Int) : Nat → Nat → Option GwBlock
  | 0, _ => none
  | n + 1, x => if gwFits wide (at_ x) then some ⟨x, at_ x⟩ else gwSearch wide at_ n (x + 1)

/-- A value in units of the exponent `x` of a wire format, rounded on the value (R50). -/
def gwUnit (wide : Bool) (mode : Round) (x : Nat) : XNum → Int
  | .fin neg m e => roundTwos mode (signed neg m) e ((x : Int) - gwBias wide)
  | _ => 0

/-- 32 values converted to a wire block above the floor `F` (R50); the second part counts non-finite, the third saturated. -/
def gwEncode (wide : Bool) (floor : Nat) (vs : List (XNum × Round)) : GwBlock × Nat × Nat :=
  if vs.any (fun v => !v.1.isFin) then (gwSaturated, 32, 0)
  else match gwSearch wide (fun x => vs.map fun v => gwUnit wide v.2 x v.1) (255 - floor) floor with
    | some b => (b, 0, 0)
    | none => (gwSaturated, 0, 32)

/-- A tree node adds two blocks (R51): the sum, and whether it sets the bucket's overflow flag. -/
def gwAdd (wide : Bool) (a b : GwBlock) : GwBlock × Bool :=
  if a.x = 0xFF ∨ b.x = 0xFF then (gwSaturated, false)
  else
    let lo := max a.x b.x
    let sums (x : Nat) : List Int := (List.range 32).map fun i =>
      let (v, q) := exactAdd (decide (a.ms.getD i 0 < 0)) (a.ms.getD i 0).natAbs a.x
        (decide (b.ms.getD i 0 < 0)) (b.ms.getD i 0).natAbs b.x
      roundTwos .nearest v q x
    match gwSearch wide sums (255 - lo) lo with
    | some r => (r, false)
    | none => (gwSaturated, true)

/-- The value of an element of a wire block; a saturated block reads as NaN (R49). -/
def gwElem (wide : Bool) (b : GwBlock) (i : Nat) : XNum :=
  if b.x = 0xFF then .nan else XNum.ofInt (b.ms.getD i 0) ((b.x : Int) - gwBias wide)

/-! ### M40 (R52) -/

/-- The value of an M40 record from its FP32 word and its extension (R52). -/
def m40Decode (w ext : Nat) : XNum :=
  match fFP32.decode w with
  | .fin neg _ _ =>
    let ex : Nat := w / 2 ^ 23 % 256
    let sig := if ex = 0 then w % 2 ^ 23 else 2 ^ 23 + w % 2 ^ 23
    .fin neg (sig * 2 ^ 16 + ext) (Int.ofNat (max ex 1) - 166)
  | x => x

/-- M40 as a binary format of 39 mantissa bits with FP32's exponent range (R52). -/
def fM40 : FloatFmt := ⟨8, 39, 127, .ieee⟩

/-- A value rounded to an M40 record: the FP32 word, the extension, the note (R52, R33). -/
def m40Encode (mode : Round) (x : XNum) : Nat × Nat × Note :=
  match x with
  | .fin _ _ _ =>
    let (w, n) := fM40.encode mode x
    if n = .ok then (w / 2 ^ 16, w % 2 ^ 16, .ok) else (w / 2 ^ 16, 0, n)
  | x => let (w, n) := fFP32.encode .nearest x
    (w, 0, n)

/-! ### Philox-4x32-10 (R55, log entry 5) -/

/-- One round on four counter words under two key words. -/
def philoxRound (k0 k1 : Nat) (c : Nat × Nat × Nat × Nat) : Nat × Nat × Nat × Nat :=
  let (c0, c1, c2, c3) := c
  let p0 := 0xD2511F53 * c0
  let p1 := 0xCD9E8D57 * c2
  ((p1 / 2 ^ 32) ^^^ c1 ^^^ k0, p1 % 2 ^ 32, (p0 / 2 ^ 32) ^^^ c3 ^^^ k1, p0 % 2 ^ 32)

/-- `n` rounds, the key incremented between rounds. -/
def philoxRounds : Nat → Nat → Nat → Nat × Nat × Nat × Nat → Nat × Nat × Nat × Nat
  | 0, _, _, c => c
  | n + 1, k0, k1, c =>
    philoxRounds n ((k0 + 0x9E3779B9) % 2 ^ 32) ((k1 + 0xBB67AE85) % 2 ^ 32) (philoxRound k0 k1 c)

/-- What the generator is keyed with for the elements of one descriptor (R55). -/
structure PhiloxKey where
  seed : Nat
  tensor : Nat
  commit : Nat
  salt : Nat
  micro : Nat
  deriving DecidableEq, Repr, Inhabited

/-- The generator's 32-bit word for element `i` (R55). -/
def philox (k : PhiloxKey) (i : Nat) : Nat :=
  let c3 := k.salt % 256 * 2 ^ 24 + k.micro % 2 ^ 16 * 2 ^ 8 + i / 2 ^ 34 % 2 ^ 8
  let (x0, x1, x2, x3) := philoxRounds 10 (k.seed % 2 ^ 32) (k.seed / 2 ^ 32 % 2 ^ 32)
    (i / 4 % 2 ^ 32, k.tensor % 2 ^ 32, k.commit % 2 ^ 32, c3)
  match i % 4 with
  | 0 => x0
  | 1 => x1
  | 2 => x2
  | _ => x3

/-! ### FP32 arithmetic (R53: nearest even, IEEE 754) -/

/-- The value of an FP32 pattern. -/
def f32 (w : Nat) : XNum := fFP32.decode w

/-- A value rounded to FP32 to nearest even, as a pattern. -/
def toF32 (x : XNum) : Nat := (fFP32.encode .nearest x).1

/-- The sum of two values with the sign of a zero sum as IEEE 754 gives it for rounding to nearest. -/
def numAdd (a b : XNum) : XNum :=
  match a, b with
  | .nan, _ => .nan
  | _, .nan => .nan
  | .inf x, .inf y => if x = y then .inf x else .nan
  | .inf x, _ => .inf x
  | _, .inf y => .inf y
  | .fin n1 m1 e1, .fin n2 m2 e2 =>
    let (v, q) := exactAdd n1 m1 e1 n2 m2 e2
    if v = 0 then .fin (decide (m1 = 0) && decide (m2 = 0) && n1 && n2) 0 0 else XNum.ofInt v q

/-- The value with its sign inverted. -/
def numNeg : XNum → XNum
  | .nan => .nan
  | .inf n => .inf !n
  | .fin n m e => .fin (!n) m e

/-- The exact product. -/
def numMul (a b : XNum) : XNum :=
  match a, b with
  | .nan, _ => .nan
  | _, .nan => .nan
  | .inf x, .inf y => .inf (x ^^ y)
  | .inf x, .fin n m _ => if m = 0 then .nan else .inf (x ^^ n)
  | .fin n m _, .inf y => if m = 0 then .nan else .inf (n ^^ y)
  | .fin n1 m1 e1, .fin n2 m2 e2 => .fin (n1 ^^ n2) (m1 * m2) (e1 + e2)

/-- A quotient exact in its first 128 bits, with a last bit that is 1 when more remain. -/
def numDiv (a b : XNum) : XNum :=
  match a, b with
  | .nan, _ => .nan
  | _, .nan => .nan
  | .inf _, .inf _ => .nan
  | .inf x, .fin n _ _ => .inf (x ^^ n)
  | .fin n _ _, .inf y => .fin (n ^^ y) 0 0
  | .fin n1 m1 e1, .fin n2 m2 e2 =>
    if m2 = 0 then (if m1 = 0 then .nan else .inf (n1 ^^ n2))
    else
      let sh := 128 + Nat.log2 m2
      let t := m1 <<< sh
      .fin (n1 ^^ n2) (2 * (t / m2) + (if t % m2 = 0 then 0 else 1)) (e1 - e2 - sh - 1)

/-- Integer square root by `k` bits from the top. -/
def isqrtGo (n : Nat) : Nat → Nat → Nat
  | 0, r => r
  | k + 1, r => let c := r + 2 ^ k
    if c * c ≤ n then isqrtGo n k c else isqrtGo n k r

/-- Integer square root. -/
def isqrt (n : Nat) : Nat := isqrtGo n (Nat.log2 n / 2 + 1) 0

/-- A square root exact in its first 128 bits, with a last bit that is 1 when more remain; negative operands give NaN. -/
def numSqrt : XNum → XNum
  | .nan => .nan
  | .inf n => if n then .nan else .inf false
  | .fin n m e =>
    if m = 0 then .fin n 0 0
    else if n then .nan
    else
      let (m, e) := if e % 2 = 0 then (m, e) else (2 * m, e - 1)
      let t := m <<< 256
      let r := isqrt t
      .fin false (2 * r + (if r * r = t then 0 else 1)) (e / 2 - 128 - 1)

/-- 1/√x exact in its first bits, with a last bit that is 1 when more remain; special results as R111 gives. -/
def numRsqrt : XNum → XNum
  | .nan => .nan
  | .inf n => if n then .nan else .fin false 0 0
  | .fin n m e =>
    if m = 0 then .inf n
    else if n then .nan
    else
      let (m, e) := if e % 2 = 0 then (m, e) else (2 * m, e - 1)
      let t := 2 ^ 320 / m
      let r := isqrt t
      .fin false (2 * r + (if r * r * m = 2 ^ 320 then 0 else 1)) (-(e / 2) - 160 - 1)

/-- Fused multiply-add on FP32 patterns, one rounding. -/
def fmaF32 (a b c : Nat) : Nat := toF32 (numAdd (numMul (f32 a) (f32 b)) (f32 c))

/-- FP32 sum. -/
def addF32 (a b : Nat) : Nat := toF32 (numAdd (f32 a) (f32 b))

/-- FP32 difference. -/
def subF32 (a b : Nat) : Nat := toF32 (numAdd (f32 a) (numNeg (f32 b)))

/-- FP32 product. -/
def mulF32 (a b : Nat) : Nat := toF32 (numMul (f32 a) (f32 b))

/-- FP32 quotient. -/
def divF32 (a b : Nat) : Nat := toF32 (numDiv (f32 a) (f32 b))

/-- FP32 square root. -/
def sqrtF32 (a : Nat) : Nat := toF32 (numSqrt (f32 a))

/-- Canonical FP32 NaN (R34). -/
def nanF32 : Nat := 0x7FC00000

/-- Whether an FP32 pattern is a NaN. -/
def isNanF32 (a : Nat) : Bool := f32 a = .nan

/-- `a < b` on values that are not NaN; -0 and +0 compare equal. -/
def numLt (a b : XNum) : Bool :=
  match a, b with
  | .inf x, .inf y => x && !y
  | .inf x, .fin _ _ _ => x
  | .fin _ _ _, .inf y => !y
  | .fin n1 m1 e1, .fin n2 m2 e2 =>
    let q := min e1 e2
    decide (signed n1 (alignUp m1 e1 q) < signed n2 (alignUp m2 e2 q))
  | _, _ => false

end Sys2Proof.Machine
end

