-- ==== Sys2Proof/Config.lean ====
section
/-! DEFINITION. What a part or its firmware fixes, and the free values: constants without a body, so that nothing proved of the
model can lean on what they are (log entries 2, 3, 6, 9, 10). -/

namespace Sys2Proof.Config

/-- A value that the spec leaves open, one for each index (log entry 2). -/
opaque free : Nat → Nat

/-- Number of a field in an event's detail word: the spec names the word and gives no coding (log entry 6). The arguments
are the event code, the field's byte offset and its top bit. -/
opaque fieldWord : Nat → Nat → Nat → Nat

/-- The grade of the part is E (R5, log entry 3). -/
opaque gradeE : Bool

/-- The serial number of the part (R5, log entry 3). -/
opaque serial : BitVec 64

/-- A field of a configuration record whose byte layout the spec does not give (R382, log entry 9). The arguments are the
record type, the field's place in the record's row, and the record's value. -/
opaque recordField : Nat → Nat → List Byte → Nat

/-- Bank and row of an HBM4E stack that hold the byte at a stack offset (R190, log entry 3): the spec places pseudo-channels
only. -/
opaque hbmRow : Nat → Nat × Nat

/-- The PUF root of the part (R389, log entry 3). -/
opaque pufRoot : List Byte

/-- SHA3-512 hashes of the vendor's primary and recovery firmware keys in the mask ROM (R380, log entry 3). -/
opaque vendorKeyHash : Bool → List Byte

/-- ML-DSA-87 verification (R378, log entry 10): public key, context string, message, signature. -/
opaque mldsaVerify : List Byte → List Byte → List Byte → List Byte → Bool

/-- The ML-DSA-87 public key generated from a seed (R389, log entry 10). -/
opaque mldsaPublic : List Byte → List Byte

/-- A hedged ML-DSA-87 signature (R378, log entry 10): seed of the key, context string, message, index of the randomness. -/
opaque mldsaSign : List Byte → List Byte → List Byte → Nat → List Byte

/-- The counter root key derived from a PUF root, and the pairing record of a counter root key (R374, R376, log entry 54). -/
opaque counterRootKey : List Byte → List Byte
opaque pairingRecord : List Byte → List Byte

/-- The public key of Wilrik's manufacturing key, and the place of the endorsement in the helper data area (R374, R378, log entry 54). -/
opaque manufacturingKey : List Byte
opaque endorsementPlace : Nat

/-- Coefficient bytes of the standard function set that the firmware carries, by FUNC_ID and offset from the first segment (R132, R136,
log entry 3). -/
opaque standardTable : Nat → Nat → Byte

/-- Bytes of a device-capability descriptor of the BOS beyond its type, by capability and offset (R235, log entry 38). -/
opaque bosBody : Nat → Nat → Byte

end Sys2Proof.Config
end

