-- ==== Sys2Proof/Machine/Regs.lean ====
section
/-! DEFINITION. The registers of the T840: the offset of each from 0x3000_0000_0000 (R9) and its value at reset, as the
register tables of spec/ give them. -/

namespace Sys2Proof.Machine

/-- First address of the register region (R9, R169). -/
def regRegion : Nat := 0x300000000000

/-- First offset past the register region: every register lies below it (R239). -/
def regSpan : Nat := 0x3300000

/-- Offset of the MC block (R9). -/
def mcBase : Nat := 0

/-- Offset of HUB h (R9). -/
def hubBase (h : Nat) : Nat := 0x100000 + h * 0x10000

/-- Offset of CORE c (R9). -/
def coreBase (c : Nat) : Nat := 0x1000000 + c * 0x100000

/-- Offset of PORT p (R9). -/
def portBase (p : Nat) : Nat := 0x2000000 + p * 0x10000

/-- Offset of the USB block (R9). -/
def usbBase : Nat := 0x3000000

/-- Offset of the PWR block (R9). -/
def pwrBase : Nat := 0x3100000

/-- Offset of the SEC block (R9). -/
def secBase : Nat := 0x3200000

/-- MC_DEVICE_ID (R5). -/
def mcDeviceId : Nat := mcBase + 0x0

/-- MC_SERIAL_LO (R5). -/
def mcSerialLo : Nat := mcBase + 0x8

/-- MC_SERIAL_HI (R5). -/
def mcSerialHi : Nat := mcBase + 0xC

/-- CORE_NUM_WTRUNC_LO (R66). -/
def coreNumWtruncLo (c : Nat) : Nat := coreBase c + 0x2000

/-- CORE_NUM_WTRUNC_HI (R66). -/
def coreNumWtruncHi (c : Nat) : Nat := coreBase c + 0x2004

/-- CORE_NUM_OUTSAT (R66). -/
def coreNumOutsat (c : Nat) : Nat := coreBase c + 0x2008

/-- CORE_NUM_NONFIN (R66). -/
def coreNumNonfin (c : Nat) : Nat := coreBase c + 0x200C

/-- CORE_NUM_SUMVIOL (R66). -/
def coreNumSumviol (c : Nat) : Nat := coreBase c + 0x2010

/-- CORE_NUM_CLR (R66). -/
def coreNumClr (c : Nat) : Nat := coreBase c + 0x2014

/-- MC_NUM_SCALE_p (R67). -/
def mcNumScale (p : Nat) : Nat := mcBase + 0x4000 + p * 0x40

/-- MC_NUM_SKIPS_p (R67). -/
def mcNumSkips (p : Nat) : Nat := mcBase + 0x4004 + p * 0x40

/-- MC_NUM_SILENT_CFG_p (R67). -/
def mcNumSilentCfg (p : Nat) : Nat := mcBase + 0x4008 + p * 0x40

/-- MC_NUM_SILENT_STAT_p (R67). -/
def mcNumSilentStat (p : Nat) : Nat := mcBase + 0x400C + p * 0x40

/-- MC_NUM_SILENT_LAST_p (R67). -/
def mcNumSilentLast (p : Nat) : Nat := mcBase + 0x4010 + p * 0x40

/-- CORE_ARR_MODE (R104). -/
def coreArrMode (c : Nat) : Nat := coreBase c + 0x3000

/-- CORE_ARR_STAT_a (R104). -/
def coreArrStat (c : Nat) (a : Nat) : Nat := coreBase c + 0x3100 + a * 0x40

/-- CORE_ARR_BEATS_LO_a (R104). -/
def coreArrBeatsLo (c : Nat) (a : Nat) : Nat := coreBase c + 0x3104 + a * 0x40

/-- CORE_ARR_BEATS_HI_a (R104). -/
def coreArrBeatsHi (c : Nat) (a : Nat) : Nat := coreBase c + 0x3108 + a * 0x40

/-- CORE_ARR_SHSTALL_a (R104). -/
def coreArrShstall (c : Nat) (a : Nat) : Nat := coreBase c + 0x310C + a * 0x40

/-- CORE_ARR_LDWAIT_a (R104). -/
def coreArrLdwait (c : Nat) (a : Nat) : Nat := coreBase c + 0x3110 + a * 0x40

/-- CORE_ARR_FDSTALL_a (R104). -/
def coreArrFdstall (c : Nat) (a : Nat) : Nat := coreBase c + 0x3114 + a * 0x40

/-- CORE_ARR_MISMATCH_a (R104). -/
def coreArrMismatch (c : Nat) (a : Nat) : Nat := coreBase c + 0x3118 + a * 0x40

/-- CORE_ARR_FAULTLOC_a (R104). -/
def coreArrFaultloc (c : Nat) (a : Nat) : Nat := coreBase c + 0x311C + a * 0x40

/-- CORE_MAT_RPT_WT_s (R104). -/
def coreMatRptWt (c : Nat) (s : Nat) : Nat := coreBase c + 0x3200 + s * 0x10

/-- CORE_MAT_RPT_INFO_s (R104). -/
def coreMatRptInfo (c : Nat) (s : Nat) : Nat := coreBase c + 0x3204 + s * 0x10

/-- CORE_ARR_MARKS (R104). -/
def coreArrMarks (c : Nat) : Nat := coreBase c + 0x3300

/-- CORE_ARR_CLR (R104). -/
def coreArrClr (c : Nat) : Nat := coreBase c + 0x3304

/-- CORE_TBL_FUNC_n (R133). -/
def coreTblFunc (c : Nat) (n : Nat) : Nat := coreBase c + 0x4300 + n * 4

/-- CORE_VEC_LSTEPS_LO (R140). -/
def coreVecLstepsLo (c : Nat) : Nat := coreBase c + 0x4000

/-- CORE_VEC_LSTEPS_HI (R140). -/
def coreVecLstepsHi (c : Nat) : Nat := coreBase c + 0x4004

/-- CORE_VEC_MSTALL (R140). -/
def coreVecMstall (c : Nat) : Nat := coreBase c + 0x4008

/-- CORE_ROW_LSTEPS_LO (R140). -/
def coreRowLstepsLo (c : Nat) : Nat := coreBase c + 0x4100

/-- CORE_ROW_LSTEPS_HI (R140). -/
def coreRowLstepsHi (c : Nat) : Nat := coreBase c + 0x4104

/-- CORE_ROW_MSTALL (R140). -/
def coreRowMstall (c : Nat) : Nat := coreBase c + 0x4108

/-- CORE_ROW_TAGFAIL (R140). -/
def coreRowTagfail (c : Nat) : Nat := coreBase c + 0x410C

/-- CORE_TBL_VALID_LO (R140). -/
def coreTblValidLo (c : Nat) : Nat := coreBase c + 0x4200

/-- CORE_TBL_VALID_HI (R140). -/
def coreTblValidHi (c : Nat) : Nat := coreBase c + 0x4204

/-- CORE_SIDE_CLAIM (R140). -/
def coreSideClaim (c : Nat) : Nat := coreBase c + 0x4208

/-- CORE_VR_CLR (R140). -/
def coreVrClr (c : Nat) : Nat := coreBase c + 0x420C

/-- CORE_GB_SLOT_s (R166). -/
def coreGbSlot (c : Nat) (s : Nat) : Nat := coreBase c + 0x5000 + s * 4

/-- CORE_GB_GSLOT_s (R166). -/
def coreGbGslot (c : Nat) (s : Nat) : Nat := coreBase c + 0x5100 + s * 4

/-- CORE_GB_SPILLS (R166). -/
def coreGbSpills (c : Nat) : Nat := coreBase c + 0x5040

/-- CORE_GB_REFILLS (R166). -/
def coreGbRefills (c : Nat) : Nat := coreBase c + 0x5044

/-- CORE_GB_TIEADDS (R166). -/
def coreGbTieadds (c : Nat) : Nat := coreBase c + 0x5048

/-- CORE_GB_BYTES_LO (R166). -/
def coreGbBytesLo (c : Nat) : Nat := coreBase c + 0x504C

/-- CORE_GB_BYTES_HI (R166). -/
def coreGbBytesHi (c : Nat) : Nat := coreBase c + 0x5050

/-- CORE_GB_WAITS (R166). -/
def coreGbWaits (c : Nat) : Nat := coreBase c + 0x5054

/-- CORE_GB_CLR (R166). -/
def coreGbClr (c : Nat) : Nat := coreBase c + 0x5058

/-- MC_UPD_STATE_p (R167). -/
def mcUpdState (p : Nat) : Nat := mcBase + 0x5000 + p * 0x40

/-- MC_UPD_COMMIT_p (R167). -/
def mcUpdCommit (p : Nat) : Nat := mcBase + 0x5004 + p * 0x40

/-- MC_UPD_OPSTEP_p (R167). -/
def mcUpdOpstep (p : Nat) : Nat := mcBase + 0x5008 + p * 0x40

/-- MC_UPD_NORM_p (R167). -/
def mcUpdNorm (p : Nat) : Nat := mcBase + 0x500C + p * 0x40

/-- MC_UPD_CLIP_p (R167). -/
def mcUpdClip (p : Nat) : Nat := mcBase + 0x5010 + p * 0x40

/-- CORE_MEM_RET (R202). -/
def coreMemRet (c : Nat) : Nat := coreBase c + 0x6000

/-- CORE_MEM_WAKES (R202). -/
def coreMemWakes (c : Nat) : Nat := coreBase c + 0x6004

/-- CORE_MEM_BANKWAIT (R202). -/
def coreMemBankwait (c : Nat) : Nat := coreBase c + 0x6008

/-- CORE_MEM_CE_SRAM (R202). -/
def coreMemCeSram (c : Nat) : Nat := coreBase c + 0x600C

/-- CORE_MEM_CE_CRUMB (R202). -/
def coreMemCeCrumb (c : Nat) : Nat := coreBase c + 0x6010

/-- CORE_MEM_UE (R202). -/
def coreMemUe (c : Nat) : Nat := coreBase c + 0x6014

/-- CORE_MEM_UE_ADDR_LO (R202). -/
def coreMemUeAddrLo (c : Nat) : Nat := coreBase c + 0x6018

/-- CORE_MEM_UE_ADDR_HI (R202). -/
def coreMemUeAddrHi (c : Nat) : Nat := coreBase c + 0x601C

/-- CORE_MEM_KNEAD_CTL (R202). -/
def coreMemKneadCtl (c : Nat) : Nat := coreBase c + 0x6020

/-- CORE_MEM_KNEAD_STAT (R202). -/
def coreMemKneadStat (c : Nat) : Nat := coreBase c + 0x6024

/-- CORE_MEM_KNEAD_PASS (R202). -/
def coreMemKneadPass (c : Nat) : Nat := coreBase c + 0x6028

/-- CORE_MEM_CLR (R202). -/
def coreMemClr (c : Nat) : Nat := coreBase c + 0x602C

/-- HUB_HBM_STAT_k (R203). -/
def hubHbmStat (h : Nat) (k : Nat) : Nat := hubBase h + 0x1000 + k * 0x100

/-- HUB_HBM_CE_k (R203). -/
def hubHbmCe (h : Nat) (k : Nat) : Nat := hubBase h + 0x1004 + k * 0x100

/-- HUB_HBM_UE_k (R203). -/
def hubHbmUe (h : Nat) (k : Nat) : Nat := hubBase h + 0x1008 + k * 0x100

/-- HUB_HBM_UE_ADDR_LO_k (R203). -/
def hubHbmUeAddrLo (h : Nat) (k : Nat) : Nat := hubBase h + 0x100C + k * 0x100

/-- HUB_HBM_UE_ADDR_HI_k (R203). -/
def hubHbmUeAddrHi (h : Nat) (k : Nat) : Nat := hubBase h + 0x1010 + k * 0x100

/-- HUB_HBM_SCRUB_k (R203). -/
def hubHbmScrub (h : Nat) (k : Nat) : Nat := hubBase h + 0x1014 + k * 0x100

/-- MC_MEM_HCTX (R204). -/
def mcMemHctx : Nat := mcBase + 0x6000

/-- CORE_STR_STAT_s (R230). -/
def coreStrStat (c : Nat) (s : Nat) : Nat := coreBase c + 0x7000 + s * 0x20

/-- CORE_STR_WAIT_s (R230). -/
def coreStrWait (c : Nat) (s : Nat) : Nat := coreBase c + 0x7004 + s * 0x20

/-- CORE_STR_WTGT_s (R230). -/
def coreStrWtgt (c : Nat) (s : Nat) : Nat := coreBase c + 0x7008 + s * 0x20

/-- CORE_STR_FAULT_s (R230). -/
def coreStrFault (c : Nat) (s : Nat) : Nat := coreBase c + 0x700C + s * 0x20

/-- CORE_STR_FAULTIDX_s (R230). -/
def coreStrFaultidx (c : Nat) (s : Nat) : Nat := coreBase c + 0x7010 + s * 0x20

/-- CORE_STR_ISSUED_s (R230). -/
def coreStrIssued (c : Nat) (s : Nat) : Nat := coreBase c + 0x7014 + s * 0x20

/-- CORE_STR_QSTALL_s (R230). -/
def coreStrQstall (c : Nat) (s : Nat) : Nat := coreBase c + 0x7018 + s * 0x20

/-- CORE_STR_CLR (R230). -/
def coreStrClr (c : Nat) : Nat := coreBase c + 0x7100

/-- CORE_CNT_n (R230). -/
def coreCnt (c : Nat) (n : Nat) : Nat := coreBase c + 0x8000 + n * 4

/-- CORE_CNT_G_n (R230). -/
def coreCntG (c : Nat) (n : Nat) : Nat := coreBase c + 0x8400 + n * 4

/-- MC_PART_CFG_p (R231). -/
def mcPartCfg (p : Nat) : Nat := mcBase + 0x7000 + p * 0x20

/-- MC_PART_MAP_p (R231). -/
def mcPartMap (p : Nat) : Nat := mcBase + 0x7004 + p * 0x20

/-- MC_PART_GUEST_p (R231). -/
def mcPartGuest (p : Nat) : Nat := mcBase + 0x7008 + p * 0x20

/-- MC_PART_REMAPS_p (R231). -/
def mcPartRemaps (p : Nat) : Nat := mcBase + 0x700C + p * 0x20

/-- USB_LINK (R272). -/
def usbLink : Nat := usbBase + 0x0

/-- USB_IDS (R272). -/
def usbIds : Nat := usbBase + 0x4

/-- USB_LINKCNT (R272). -/
def usbLinkcnt : Nat := usbBase + 0x8

/-- USB_MGMT_EVLOST (R272). -/
def usbMgmtEvlost : Nat := usbBase + 0xC

/-- USB_JOB_WIN_LO_p (R272). -/
def usbJobWinLo (p : Nat) : Nat := usbBase + 0x100 + p * 0x40

/-- USB_JOB_WIN_HI_p (R272). -/
def usbJobWinHi (p : Nat) : Nat := usbBase + 0x104 + p * 0x40

/-- USB_JOB_SEQ_p (R272). -/
def usbJobSeq (p : Nat) : Nat := usbBase + 0x108 + p * 0x40

/-- USB_JOB_STAT_p (R272). -/
def usbJobStat (p : Nat) : Nat := usbBase + 0x10C + p * 0x40

/-- USB_JOB_FAULTSEQ_p (R272). -/
def usbJobFaultseq (p : Nat) : Nat := usbBase + 0x110 + p * 0x40

/-- USB_JOB_STALE_p (R272). -/
def usbJobStale (p : Nat) : Nat := usbBase + 0x114 + p * 0x40

/-- USB_JOB_CMDS_p (R272). -/
def usbJobCmds (p : Nat) : Nat := usbBase + 0x118 + p * 0x40

/-- USB_JOB_CPLWAIT_p (R272). -/
def usbJobCplwait (p : Nat) : Nat := usbBase + 0x11C + p * 0x40

/-- USB_JOB_LOST_p (R272). -/
def usbJobLost (p : Nat) : Nat := usbBase + 0x120 + p * 0x40

/-- PORT_CTL (R302). -/
def portCtl (p : Nat) : Nat := portBase p + 0x0

/-- PORT_STAT (R302). -/
def portStat (p : Nat) : Nat := portBase p + 0x4

/-- PORT_TAG_t (R302). -/
def portTag (p : Nat) (t : Nat) : Nat := portBase p + 0x10 + t * 4

/-- PORT_GATE_CTL_k (R302). -/
def portGateCtl (p : Nat) (k : Nat) : Nat := portBase p + 0x1000 + k * 0x20

/-- PORT_GATE_CYCLE_k (R302). -/
def portGateCycle (p : Nat) (k : Nat) : Nat := portBase p + 0x1004 + k * 0x20

/-- PORT_GATE_BASE_NS_k (R302). -/
def portGateBaseNs (p : Nat) (k : Nat) : Nat := portBase p + 0x1008 + k * 0x20

/-- PORT_GATE_BASE_SEC_k (R302). -/
def portGateBaseSec (p : Nat) (k : Nat) : Nat := portBase p + 0x100C + k * 0x20

/-- PORT_GATE_STAT_k (R302). -/
def portGateStat (p : Nat) (k : Nat) : Nat := portBase p + 0x1010 + k * 0x20

/-- PORT_PTP_CTL (R302). -/
def portPtpCtl (p : Nat) : Nat := portBase p + 0x3000

/-- PORT_PTP_NS (R302). -/
def portPtpNs (p : Nat) : Nat := portBase p + 0x3004

/-- PORT_PTP_SEC_LO (R302). -/
def portPtpSecLo (p : Nat) : Nat := portBase p + 0x3008

/-- PORT_PTP_SEC_HI (R302). -/
def portPtpSecHi (p : Nat) : Nat := portBase p + 0x300C

/-- PORT_PTP_FREQ (R302). -/
def portPtpFreq (p : Nat) : Nat := portBase p + 0x3010

/-- PORT_PTP_STEP (R302). -/
def portPtpStep (p : Nat) : Nat := portBase p + 0x3014

/-- PORT_CMP_n (R302). -/
def portCmp (p : Nat) (n : Nat) : Nat := portBase p + 0x3100 + n * 4

/-- PORT_QPX_SEL (R302). -/
def portQpxSel (p : Nat) : Nat := portBase p + 0x4000

/-- PORT_CNT_n (R302). -/
def portCnt (p : Nat) (n : Nat) : Nat := portBase p + 0x400 + n * 4

/-- PORT_CNT_CLR (R302). -/
def portCntClr (p : Nat) : Nat := portBase p + 0x480

/-- PORT_OT_CTL (R332). -/
def portOtCtl (p : Nat) : Nat := portBase p + 0x5000

/-- PORT_OT_STAT (R332). -/
def portOtStat (p : Nat) : Nat := portBase p + 0x5004

/-- PORT_OT_CNT_n (R332). -/
def portOtCnt (p : Nat) (n : Nat) : Nat := portBase p + 0x5100 + n * 4

/-- PORT_OT_CLR (R332). -/
def portOtClr (p : Nat) : Nat := portBase p + 0x5180

/-- MC_CL_STATE_p (R333). -/
def mcClState (p : Nat) : Nat := mcBase + 0x8000 + p * 0x20

/-- MC_CL_EPOCH_p (R333). -/
def mcClEpoch (p : Nat) : Nat := mcBase + 0x8004 + p * 0x20

/-- MC_CL_ROSTER_LO_p (R333). -/
def mcClRosterLo (p : Nat) : Nat := mcBase + 0x8008 + p * 0x20

/-- MC_CL_ROSTER_HI_p (R333). -/
def mcClRosterHi (p : Nat) : Nat := mcBase + 0x800C + p * 0x20

/-- MC_CL_CHANGES_p (R333). -/
def mcClChanges (p : Nat) : Nat := mcBase + 0x8010 + p * 0x20

/-- MC_CASCADE (R333). -/
def mcCascade : Nat := mcBase + 0x8100

/-- CORE_NET_DONE (R367). -/
def coreNetDone (c : Nat) : Nat := coreBase c + 0x9000

/-- CORE_NET_CANCEL (R367). -/
def coreNetCancel (c : Nat) : Nat := coreBase c + 0x9004

/-- CORE_NET_PSTALL (R367). -/
def coreNetPstall (c : Nat) : Nat := coreBase c + 0x9008

/-- CORE_NET_BUBBLE_LO (R367). -/
def coreNetBubbleLo (c : Nat) : Nat := coreBase c + 0x900C

/-- CORE_NET_BUBBLE_HI (R367). -/
def coreNetBubbleHi (c : Nat) : Nat := coreBase c + 0x9010

/-- CORE_NET_GHELD (R367). -/
def coreNetGheld (c : Nat) : Nat := coreBase c + 0x9014

/-- CORE_NET_ACTIVE (R367). -/
def coreNetActive (c : Nat) : Nat := coreBase c + 0x9018

/-- CORE_NET_CLR (R367). -/
def coreNetClr (c : Nat) : Nat := coreBase c + 0x901C

/-- MC_CMT_STATE_p (R368). -/
def mcCmtState (p : Nat) : Nat := mcBase + 0x9000 + p * 0x40

/-- MC_CMT_COMMITS_p (R368). -/
def mcCmtCommits (p : Nat) : Nat := mcBase + 0x9004 + p * 0x40

/-- MC_CMT_ABORTS_p (R368). -/
def mcCmtAborts (p : Nat) : Nat := mcBase + 0x9008 + p * 0x40

/-- MC_CMT_LAST_p (R368). -/
def mcCmtLast (p : Nat) : Nat := mcBase + 0x900C + p * 0x40

/-- MC_CMT_UNITS_p (R368). -/
def mcCmtUnits (p : Nat) : Nat := mcBase + 0x9010 + p * 0x40

/-- MC_CMT_SLOTS_p (R368). -/
def mcCmtSlots (p : Nat) : Nat := mcBase + 0x9014 + p * 0x40

/-- MC_CMT_MB_p (R368). -/
def mcCmtMb (p : Nat) : Nat := mcBase + 0x9018 + p * 0x40

/-- MC_START_STAT (R395). -/
def mcStartStat : Nat := mcBase + 0xA000

/-- MC_CFG_INFO (R395). -/
def mcCfgInfo : Nat := mcBase + 0xA004

/-- MC_RESET_CTL (R395). -/
def mcResetCtl : Nat := mcBase + 0xA008

/-- SEC_STATUS (R396). -/
def secStatus : Nat := secBase + 0x0

/-- SEC_PRESENCE (R396). -/
def secPresence : Nat := secBase + 0x4

/-- SEC_COUNTER_n (R396). -/
def secCounter (n : Nat) : Nat := secBase + 0x100 + n * 4

/-- SEC_ATT_CTL (R396). -/
def secAttCtl : Nat := secBase + 0x200

/-- SEC_ATT_NONCE_w (R396). -/
def secAttNonce (w : Nat) : Nat := secBase + 0x240 + w * 4

/-- SEC_ATT_DATA_w (R396). -/
def secAttData (w : Nat) : Nat := secBase + 0x1000 + w * 4

/-- SEC_ID_PUB_w (R396). -/
def secIdPub (w : Nat) : Nat := secBase + 0x3000 + w * 4

/-- CORE_RATE_ARR (R422). -/
def coreRateArr (c : Nat) : Nat := coreBase c + 0xA000

/-- CORE_RATE_VEC (R422). -/
def coreRateVec (c : Nat) : Nat := coreBase c + 0xA004

/-- CORE_RATE_ROW (R422). -/
def coreRateRow (c : Nat) : Nat := coreBase c + 0xA008

/-- CORE_RATE_SLOT (R422). -/
def coreRateSlot (c : Nat) : Nat := coreBase c + 0xA00C

/-- CORE_VOLT (R422). -/
def coreVolt (c : Nat) : Nat := coreBase c + 0xA010

/-- CORE_TEMP (R422). -/
def coreTemp (c : Nat) : Nat := coreBase c + 0xA014

/-- CORE_MARGIN (R422). -/
def coreMargin (c : Nat) : Nat := coreBase c + 0xA018

/-- CORE_FENCE (R422). -/
def coreFence (c : Nat) : Nat := coreBase c + 0xA01C

/-- MC_TIME_LO (R423). -/
def mcTimeLo : Nat := mcBase + 0xB000

/-- MC_TIME_HI (R423). -/
def mcTimeHi : Nat := mcBase + 0xB004

/-- MC_TLATCH_LO (R423). -/
def mcTlatchLo : Nat := mcBase + 0xB008

/-- MC_TLATCH_HI (R423). -/
def mcTlatchHi : Nat := mcBase + 0xB00C

/-- MC_TLATCH_NS_p (R423). -/
def mcTlatchNs (p : Nat) : Nat := mcBase + 0xB040 + p * 8

/-- MC_TLATCH_SEC_p (R423). -/
def mcTlatchSec (p : Nat) : Nat := mcBase + 0xB044 + p * 8

/-- MC_THERM (R423). -/
def mcTherm : Nat := mcBase + 0xB100

/-- MC_RATE_CAP (R423). -/
def mcRateCap : Nat := mcBase + 0xB104

/-- MC_EVT_CNT_v (R423). -/
def mcEvtCnt (v : Nat) : Nat := mcBase + 0xB200 + v * 4

/-- MC_CENSUS_w (R423). -/
def mcCensus (w : Nat) : Nat := mcBase + 0xB400 + w * 4

/-- MC_AGEING_w (R423). -/
def mcAgeing (w : Nat) : Nat := mcBase + 0xB480 + w * 4

/-- MC_LOG_STAT (R423). -/
def mcLogStat : Nat := mcBase + 0xB500

/-- MC_LOG_SEL (R423). -/
def mcLogSel : Nat := mcBase + 0xB504

/-- MC_LOG_DATA_w (R423). -/
def mcLogData (w : Nat) : Nat := mcBase + 0xB520 + w * 4

/-- PWR_PKG (R424). -/
def pwrPkg : Nat := pwrBase + 0x0

/-- PWR_SUPPLY (R424). -/
def pwrSupply : Nat := pwrBase + 0x4

/-- PWR_RAIL_n (R424). -/
def pwrRail (n : Nat) : Nat := pwrBase + 0x100 + n * 4

/-- MC_SYNC_IO (R438). -/
def mcSyncIo : Nat := mcBase + 0xC000

/-- MC_ALERT (R438). -/
def mcAlert : Nat := mcBase + 0xC004

/-- PWR_PG (R438). -/
def pwrPg : Nat := pwrBase + 0x8

/-- PORT_GATE_ENT_i, administrative bank, word w (R288). -/
def portGateEnt (p : Nat) (i : Nat) (w : Nat) : Nat := portBase p + 0x2000 + i * 8 + w * 4

/-- PORT_GATE_ENT_i, operating bank, word w (R288). -/
def portGateOper (p : Nat) (i : Nat) (w : Nat) : Nat := portBase p + 0x2800 + i * 8 + w * 4

/-- PORT_QPX_DATA_w (R302). -/
def portQpxData (p : Nat) (w : Nat) : Nat := portBase p + 0x4010 + w * 4

/-- Reset values of the registers of a CORE block by block offset; 0 where not listed (R202). -/
def resetCore (o : Nat) : Word :=
  if o = 0x6000 then 0x0A000000 else if o = 0x6020 then 0x00640A0A else 0

/-- Reset values of the registers of a HUB block by block offset (R203). -/
def resetHub (o : Nat) : Word := if o = 0x1014 ∨ o = 0x1114 then 0x0C000000 else 0

/-- Reset values of the registers of a PORT block by block offset (R288, R302, R332). -/
def resetPort (o : Nat) : Word :=
  if o = 0x0000 then 0x00000800
  else if o = 0x0010 then 0x40C00000
  else if 0x0014 ≤ o ∧ o ≤ 0x002C then 0x00C00000
  else if o = 0x1004 ∨ o = 0x1024 then 0x000F4240
  else if o = 0x1010 ∨ o = 0x1030 then 0x000000FF
  else if o = 0x5000 then 0xB7FC0000
  else if 0x2000 ≤ o ∧ o < 0x3000 ∧ o % 8 = 0 then 0x000000FF
  else 0

/-- Reset values of the registers of the MC block by block offset (R67, R333, R395, R438). -/
def resetMc (o : Nat) : Word :=
  if o = 0x4008 ∨ o = 0x4048 ∨ o = 0x4088 ∨ o = 0x40C8 then 0x00000040
  else if o = 0x8100 then 0xC0000000
  else if o = 0xA000 then 0x00000001
  else if o = 0xC000 then 0x00000001
  else if o = 0xC004 then 0x00000002
  else 0

/-- The value that the register at an offset holds at reset, for every register that State keeps in its register table. -/
def resetReg (o : Nat) : Word :=
  if o < 0x100000 then resetMc o
  else if o < 0x140000 then resetHub (o % 0x10000)
  else if o < 0x1000000 then 0
  else if o < 0x1800000 then resetCore (o % 0x100000)
  else if o < 0x2000000 then 0
  else if o < 0x2080000 then resetPort (o % 0x10000)
  else if o = usbLink then 0x00000400
  else 0

end Sys2Proof.Machine
end

