-- ==== Sys2Proof/Machine/State.lean ====
section
/-! DEFINITION. The state of the T840 as plain data, the reasons a command can stop, and the state after reset. -/

namespace Sys2Proof.Machine

/-! ### Streams and issued descriptors (spec/07) -/

/-- STATE of CORE_STR_STAT_s (R230). -/
inductive StrState where
  | idle | issuing | waitCounter | waitQueue | waitFence | parked | faulted | stopping
  deriving DecidableEq, Repr, Inhabited

/-- A stream context (R210, R230). -/
structure Stream where
  state : StrState := .idle
  index : Nat := 0
  update : Bool := false
  waitWhich : Bool := false
  waitCnt : Byte := 0
  waitTgt : Word := 0
  faultEvent : BitVec 16 := 0
  faultClass : BitVec 4 := 0
  faultIdx : Nat := 0
  issued : Word := 0
  qstall : Word := 0
  stalledHere : Bool := false
  longRaised : Bool := false
  deriving DecidableEq, Repr, Inhabited

/-- The engine queues of a core (R211); SYN descriptors execute in their stream (R210). -/
inductive QueueId where
  | mat (u : MatUnit) | vec | row | mov | net | syn
  deriving DecidableEq, Repr, Inhabited

/-- Where an issued descriptor stands between its issue and its completion (R210, R212). -/
inductive Phase where
  | queued | running | finished
  deriving DecidableEq, Repr, Inhabited

/-- Contributions that a MAT or ROW descriptor still owes to the gradient buffer (R85, R124, R144): its tensor, the exact value
for each element's address, and whether the addition has waited. -/
structure PendingAdd where
  tensor : Nat
  elems : List (Nat × XNum)
  waited : Bool := false
  deriving DecidableEq, Repr, Inhabited

/-- An issued descriptor (R210-R212); `stamp` holds the commit number and the attempt of the step in which it issued (R147, R150). -/
structure Issued where
  seq : Nat
  ctx : CtxId
  part : PartId
  lcore : Nat
  list : Nat
  index : Nat
  words : List Word
  queue : QueueId
  phase : Phase := .queued
  mute : Bool := false
  param : List Byte := []
  adds : List PendingAdd := []
  stamp : Nat × Nat := (0, 0)
  prog : List Nat := []
  deriving DecidableEq, Repr, Inhabited

/-! ### Gradient buffer slots and tables of a logical core (spec/04, spec/05) -/

/-- STATE of a gradient-buffer slot (R144). -/
inductive SlotState where
  | empty | filling | live | spilling
  deriving DecidableEq, Repr, Inhabited

/-- A gradient-buffer slot: its buffer range, whether its tiles are resident, its state, the tile in it, the tie-adds that
tile has absorbed, whether a resident tile is being cleared, and the SPILL that turned it SPILLING (R142, R144, R145, R148,
R166). -/
structure GbSlot where
  off : Nat := 0
  len : Nat := 0
  resident : Bool := false
  state : SlotState := .empty
  tile : Nat := 0
  ties : Nat := 0
  clearing : Bool := false
  spiller : Nat := 0
  deriving DecidableEq, Repr, Inhabited

/-- What a physical core holds for one logical core that it serves (R229, R230). -/
structure LCtx where
  lcore : Option Nat := none
  streams : Vector Stream 4 := Vector.replicate 4 {}
  cnt : List (Nat × Word) := []
  slots : List GbSlot := []
  tables : List (Nat × List Byte) := []
  deriving DecidableEq, Repr, Inhabited

/-! ### Memory under test, retention (spec/06) -/

/-- Where a knead unit stands with a region (R193). -/
inductive KneadPhase where
  | gap | copy (r : Nat) | test (r : Nat) | restore (r : Nat) | remap (r : Nat) | stuck (r : Nat)
  deriving DecidableEq, Repr, Inhabited

/-- A knead unit: its phase, its next region in ascending order, whether the region under test came in that order, the regions
placed first (R189, R190, R195), and the regions that a sweep still has to test (R270). -/
structure Knead where
  phase : KneadPhase := .gap
  next : Nat := 0
  asc : Bool := false
  first : List Nat := []
  sweepLeft : Nat := 0
  deriving DecidableEq, Repr, Inhabited

/-- STATE of CORE_MEM_RET (R202). -/
inductive RetState where
  | active | entering | retained | waking
  deriving DecidableEq, Repr, Inhabited

/-! ### Host link (spec/08) -/

/-- A held doorbell or SET_WINDOW (R241, R250). -/
inductive HeldReq where
  | window (base gen e : Nat)
  | doorbell (tail e : Nat)
  deriving DecidableEq, Repr, Inhabited

/-- A command of a ring that has been taken and has not yet written its final record (R254). -/
structure TakenCmd where
  index : Nat
  op : Nat
  level : Nat
  hostTag : Nat
  handle : Nat := 0
  store : List Nat := []
  deriving DecidableEq, Repr, Inhabited

/-- The device-written fields of a context header (R247); the region in memory shows them. -/
structure RingHdr where
  cmdHead : Nat := 0
  cmdTail : Nat := 0
  cplTail : Nat := 0
  cplLost : Nat := 0
  evtTail : Nat := 0
  evtLost : Nat := 0
  deriving DecidableEq, Repr, Inhabited

/-- A job interface, or DIAG (R236, R241-R252). -/
structure Iface where
  hdr : RingHdr := {}
  base : Nat := 0
  gen : Nat := 0
  landed : Word := 0
  held : List HeldReq := []
  heldFrame : Option Frame := none
  fault : Bool := false
  resetBusy : Bool := false
  resetFlags : Nat := 0
  resetHandles : List Nat := []
  responses : List (List Byte) := []
  phase : Bool := true
  taken : List TakenCmd := []
  reserved : Nat := 0
  waiting : List (List Byte) := []
  staleD : Bool := false
  staleW : Bool := false
  lastNotice : List Byte := []
  notices : List (List Byte) := []
  lastError : List Byte := List.replicate 8 0
  deriving DecidableEq, Repr, Inhabited

/-- State of a long operation (R268, R271). -/
inductive OpState where
  | running | suspended | cancelling | done
  deriving DecidableEq, Repr, Inhabited

/-- A transfer that a CHECKPOINT or MODEL_LOAD still owes (R361, R363): device address (or the bytes themselves when
`inline`), offset from the remote base, length. -/
structure Xfer where
  loc : Nat
  inline : Bool := false
  bytes : List Byte := []
  off : Nat
  len : Nat
  deriving DecidableEq, Repr, Inhabited

/-- A long operation's handle (R267-R271), with what its kind goes through; `moved` counts the bytes that a CHECKPOINT or
MODEL_LOAD has moved. -/
structure Handle where
  num : Nat
  kind : Nat
  owner : Nat
  state : OpState := .running
  suspendPending : Bool := false
  status : Nat := 0
  event : Nat := 0
  progress : Nat := 0
  moved : Nat := 0
  part : Option PartId := none
  cmd : Option TakenCmd := none
  work : List Nat := []
  blob : List Byte := []
  xfers : List Xfer := []
  deriving DecidableEq, Repr, Inhabited

/-! ### Cores -/

/-- SERVICE of an array or half (R104). -/
inductive Service where
  | inService | suspect | out
  deriving DecidableEq, Repr, Inhabited

/-- An accumulator bank (R71): window bottom and sum in its units of each output, row by row; none where no product
contributes. -/
abbrev Bank : Type := List (Option (Int × Int))

/-- What the cells, banks and score cells of a unit hold (R71, R72, R81): the weights of each cell (row · 256 + column) in its
active and its shadow registers, each weight with its block's scale byte; the instruction whose fold, by number, the shadows
take; the one whose fold the lines that the token has freed take; the cells that the swap token has passed; whether a stall of that token
is counted; the load rows or columns that have waited for it; the W112 lanes; the two banks; the sums in the score column and the score row. -/
structure Grid where
  active : List (Nat × List (XNum × Nat)) := []
  shadow : List (Nat × List (XNum × Nat)) := []
  loads : Option (Nat × Nat) := none
  filling : Option (Nat × Nat) := none
  swapped : List Nat := []
  stallCounted : Bool := false
  lineWaits : Nat := 0
  lanes : Bank := []
  banks : Vector Bank 2 := Vector.replicate 2 []
  scoreCol : List XNum := []
  scoreRow : List XNum := []
  deriving DecidableEq, Repr, Inhabited

/-- A half of an array: its service, the times of its mismatches (half 0 holds those of the whole array in native mode, log
entry 22), what its grid holds, and whether its diagnostic runs (R96-R98). -/
structure HalfS where
  service : Service := .inService
  mismatches : List Nat := []
  grid : Grid := {}
  diag : Bool := false
  deriving DecidableEq, Repr, Inhabited

/-- An array: split for the current job or native, its two halves, and its latest mismatch place (R104). -/
structure ArrS where
  split : Bool := false
  halves : Vector HalfS 2 := Vector.replicate 2 {}
  deriving DecidableEq, Repr, Inhabited

/-- A physical core; `spares` counts the spare regions left for working memory, crumb die 0, crumb die 1 and side memory
(R194); `headWeak` and `headBad` are the entries of its header store with an error that is corrected, or is not (R133). -/
structure CoreS where
  part : Option PartId := none
  first : LCtx := {}
  guest : LCtx := {}
  issued : List Issued := []
  nextSeq : Nat := 0
  inService : Bool := false
  ganged : Bool := false
  arrays : Vector ArrS 4 := Vector.replicate 4 {}
  marks : List Nat := []
  ret : RetState := .active
  knead : Vector Knead 3 := Vector.replicate 3 {}
  spares : List Nat := [16, 32, 32, 2]
  headWeak : List Nat := []
  headBad : List Nat := []
  deriving DecidableEq, Repr, Inhabited

/-! ### Jobs and partitions -/

/-- A list record of a job (R218) with the descriptors it held when the job was loaded. -/
structure ListRec where
  addr : Nat
  count : Nat
  lcore : Nat
  list : Nat
  image : List Word
  deriving DecidableEq, Repr, Inhabited

/-- A preload record (R228). -/
structure Preload where
  src : Nat
  dst : Nat
  len : Nat
  deriving DecidableEq, Repr, Inhabited

/-- The physical core that serves a logical core, and whether from a guest area (R225-R227). -/
structure Serve where
  core : CoreId
  guest : Bool
  deriving DecidableEq, Repr, Inhabited

/-- KIND of a core plan record (R217). -/
inductive JobKind where
  | train | run | loop
  deriving DecidableEq, Repr, Inhabited

/-- The numerics record of a job (R65, R257). -/
structure NumRec where
  seed : Nat := 0
  sg : Int := 0
  wide : Bool := false
  raise : Bool := false
  threshold : Nat := 64
  floors : List Nat := []
  deriving DecidableEq, Repr, Inhabited

/-- An entry of the weight-tensor table (R258). -/
structure WTensor where
  id : Nat
  elems : Nat
  trainable : Bool
  uses : Nat
  stages : List Nat
  deriving DecidableEq, Repr, Inhabited

/-- A gradient tile record (R142). -/
structure TileRec where
  tensor : Nat
  use : Nat
  resident : Bool
  core : Nat
  tile : Nat
  origin : Nat
  cols : Nat
  rows : Nat
  off : Nat
  spill : Nat
  deriving DecidableEq, Repr, Inhabited

/-- A banked region record (R159). -/
structure BankRec where
  a : Nat
  b : Nat
  len : Nat
  kind : Nat
  tensor : Nat
  deriving DecidableEq, Repr, Inhabited

/-- The update record (R165). -/
structure UpdRec where
  maxNorm : Nat := 0
  beta1 : Nat := 0
  beta2 : Nat := 0
  normCount : Nat := 0
  normOff : Nat := 0
  stepcOff : Nat := 0
  jstate : Nat := 0
  tensors : Nat := 0
  regions : List BankRec := []
  deriving DecidableEq, Repr, Inhabited

/-- A function-table list entry (R258). -/
structure TabRec where
  func : Nat
  fw : Bool
  lcore : Nat
  slot : Nat
  image : Nat
  deriving DecidableEq, Repr, Inhabited

/-- A statistics-slot list entry (R258). -/
structure StatRec where
  lcore : Nat
  off : Nat
  bytes : Nat
  deriving DecidableEq, Repr, Inhabited

/-- The committed numerics state of a job (R62, R64, R67) and its counts. -/
structure NumState where
  sg : Int := 0
  clean : Nat := 0
  skips : Nat := 0
  words : List Word := []
  raises : Nat := 0
  silentEvents : Nat := 0
  silentLast : Nat := 0
  deriving DecidableEq, Repr, Inhabited

/-- DECISION of a step under way (R167). -/
inductive Decision where
  | pending | proceed | skip
  deriving DecidableEq, Repr, Inhabited

/-- The step under way and the committed state of a TRAIN job (R145, R155, R157, R161, R167). -/
structure StepState where
  started : Bool := false
  commit : Nat := 0
  attempt : Nat := 0
  liveB : Bool := false
  jbank : Bool := false
  optSteps : Nat := 0
  norm : Nat := 0
  clip : Nat := 0
  decision : Decision := .pending
  cause : Nat := 0
  redNonfin : Bool := false
  zcounts : List (Nat × Nat) := []
  reduced : List Nat := []
  overflow : Bool := false
  shadow : Option NumState := none
  silent : List Nat := []
  updating : Bool := false
  deriving DecidableEq, Repr, Inhabited

/-- Why a job's streams stop (R220, R226). -/
inductive StopWhy where
  | none | abort | cancel | failed
  deriving DecidableEq, Repr, Inhabited

/-! ### Clusters and the Onaden transport (spec/10) -/

/-- A member entry of a cluster record (R304): its partition, and its link slots as (slot, port, subport, address). -/
structure MemberRec where
  part : Nat
  slots : List (Nat × Nat × Nat × List Byte)
  deriving DecidableEq, Repr, Inhabited

/-- A connection entry (R307). -/
structure ConnRec where
  entryA : Nat
  slotA : Nat
  entryB : Nat
  slotB : Nat
  deriving DecidableEq, Repr, Inhabited

/-- A VC entry (R308). -/
structure VcRec where
  group : Nat
  tc : Nat
  credits : Nat
  deriving DecidableEq, Repr, Inhabited

/-- A cluster record (R304), defaults filled in. -/
structure ClRec where
  key : Nat
  members : List MemberRec
  minMembers : Nat
  starter : Nat
  successor : Nat
  commitTimeoutMs : Nat
  startTimeoutS : Nat
  peerLossMs : Nat
  kaInterval : Nat
  mirror : Bool
  shrink : Bool
  rejoin : Bool
  conns : List ConnRec
  shards : Nat
  vcs : List VcRec
  digest : List Byte
  deriving DecidableEq, Repr, Inhabited

/-- A DATA frame of a virtual channel (R310, R314). -/
structure OtFrame where
  psn : Nat
  first : Bool
  last : Bool
  msg : Nat
  offset : Nat
  epoch : Nat
  payload : List Byte
  timeouts : Nat := 0
  retx : Bool := false
  waited : Bool := false
  dropped : Bool := false
  deriving DecidableEq, Repr, Inhabited

/-- One virtual channel of a connection, both directions (R314, R315). -/
structure VcRun where
  txNext : Nat := 0
  txCum : Nat := 0
  txCredit : Nat := 0
  sendq : List OtFrame := []
  inflight : List OtFrame := []
  msgTx : Nat := 0
  sackRetx : List (Nat × Nat) := []
  rxCum : Nat := 0
  rxHeld : List OtFrame := []
  partMsg : List Byte := []
  sinceAck : Nat := 0
  creditSent : Nat := 0
  deriving DecidableEq, Repr, Inhabited

/-- One connection of a cluster job (R313-R317): `rate` is a fraction of the subport rate, which lets it send again from `nextAt`;
`cutMark` holds the next PSN of every VC at the last cut of the rate, and nothing once a cut is free again. -/
structure ConnRun where
  gotOpen : Bool := false
  gotReply : Bool := false
  up : Bool := false
  vcs : List VcRun := List.replicate 16 {}
  rate : Rat := 1
  rises : Nat := 0
  cutMark : List Nat := []
  ece : Nat := 0
  newRx : Nat := 0
  idleTimeouts : Nat := 0
  nextAt : Nat := 0
  deriving DecidableEq, Repr, Inhabited

/-- State of a member (R321). -/
inductive MemberState where
  | opening | joining | admitting | member | paused | left
  deriving DecidableEq, Repr, Inhabited

/-- A ROSTER message (R320, R324). -/
structure RosterMsg where
  epoch : Nat
  after : Nat
  starter : Nat
  successor : Nat
  mask : BitVec 64
  deriving DecidableEq, Repr, Inhabited

/-- A message that has been received whole and waits for its command (R314): sender entry, virtual channel, bytes, and the port
it came by, none for a message to oneself. -/
structure InMsg where
  entry : Nat
  vc : Nat
  bytes : List Byte
  port : Option PortId
  deriving DecidableEq, Repr, Inhabited

/-- One segment of a REDUCE that runs (R341): the partial blocks, the next round that this rank receives, children whose
partial arrived before its round, and whether the result has been written. -/
structure RedSeg where
  acc : List Byte
  round : Nat := 0
  held : List (Nat × List Byte) := []
  sent : Bool := false
  result : Bool := false
  deriving DecidableEq, Repr, Inhabited

/-- A REDUCE that runs (R340-R344). -/
structure RedRun where
  core : CoreId
  seq : Nat
  lcore : Nat
  bucket : Nat
  len : Nat
  seg : Nat
  vc : Nat
  wide : Bool
  dst : Nat
  segs : List RedSeg
  deriving DecidableEq, Repr, Inhabited

/-- A message post that has reached its sender (R364): the receiver's entry, the VC, the message, its length and place. -/
structure PipePost where
  entry : Nat
  vc : Nat
  m : Nat
  len : Nat
  dst : Nat
  commit : Nat
  b : Nat
  deriving DecidableEq, Repr, Inhabited

/-- A cluster job's membership (R306, R318-R327); `lostStarter` says that the member paused for want of a starter (R327), `reb` that it
moves units for a roster (R358). -/
structure Cluster where
  cl : ClRec
  self : Nat
  state : MemberState := .opening
  starter : Nat
  successor : Nat
  epoch : Nat := 0
  roster : BitVec 64 := 0
  takeovers : Nat := 0
  rosters : Nat := 0
  conns : List ConnRun := []
  inbox : List InMsg := []
  admitted : List Nat := []
  serials : List (Nat × Nat) := []
  numbers : List (Nat × Nat) := []
  heldRosters : List RosterMsg := []
  queried : Bool := false
  agrees : List (Nat × Nat) := []
  silent : Bool := false
  lostStarter : Bool := false
  reb : Bool := false
  belowRaised : Bool := false
  queryPending : Bool := false
  begun : Bool := false
  awaitMin : Bool := false
  reds : List RedRun := []
  heldReds : List InMsg := []
  heldGathers : List InMsg := []
  posts : List PipePost := []
  sendNext : List (Nat × Nat) := []
  recvDone : List (Nat × Nat) := []
  units : List (Nat × Nat) := []
  awaiting : List Nat := []
  heldXfers : List InMsg := []
  received : Nat := 0
  sent : Nat := 0
  deriving DecidableEq, Repr, Inhabited

/-- PHASE of MC_CMT_STATE (R368). -/
inductive CmtPhase where
  | noStep | running | readySent | holding | rebalancing | paused
  deriving DecidableEq, Repr, Inhabited

/-- What a READY carries besides its entry and header (R350). -/
structure ReadyRec where
  entry : Nat
  decision : Nat
  sg : Nat
  norm : Nat
  deriving DecidableEq, Repr, Inhabited

/-- The step commit of a TRAIN job: the member's part, then the starter's (R350-R360). -/
structure Commit where
  phase : CmtPhase := .noStep
  commits : Nat := 0
  aborts : Nat := 0
  lastEvent : Nat := 0
  lastEntry : Nat := 0
  runAborts : Nat := 0
  spoke : Bool := false
  owed : Option (Nat × Nat) := none
  stateLost : Bool := false
  restart : Bool := false
  ckptPend : Bool := false
  ckptReading : Bool := false
  lastCkpt : Nat := 0
  deferred : Nat := 0
  oversize : Nat := 0
  readies : List ReadyRec := []
  timer : Bool := false
  holdNext : Bool := false
  ckptReqs : List Nat := []
  ckptReads : List Nat := []
  ckptWait : Bool := false
  rebalanced : List Nat := []
  namedLate : List Nat := []
  diverged : Nat := 0
  limit : Bool := false
  decided : Bool := false
  abortsHere : Nat := 0
  readyWait : Bool := false
  needReb : Bool := false
  cancelNext : Bool := false
  toRemove : List (Nat × Nat × Nat) := []
  lostUnit : Option Nat := none
  deriving DecidableEq, Repr, Inhabited

/-- The job of a partition. -/
structure Job where
  id : Nat := 0
  handle : Nat := 0
  kind : JobKind := .run
  steps : Nat := 0
  lcores : Nat := 0
  waitLimit : Nat := 0
  lists : List ListRec := []
  preloads : List Preload := []
  guests : List (Option Nat) := []
  serves : List (Option Serve) := []
  remaps : Word := 0
  arrMode : List Nat := []
  numr : Option NumRec := none
  upd : Option UpdRec := none
  wts : List WTensor := []
  digest : List Byte := []
  tiles : List TileRec := []
  tabs : List TabRec := []
  stats : List StatRec := []
  num : NumState := {}
  step : StepState := {}
  narrowRaised : List CoreId := []
  nonfinRaised : List CoreId := []
  stop : StopWhy := .none
  paused : Bool := false
  endStatus : Nat := 0
  endEvent : Nat := 0
  standing : Option Nat := none
  cluster : Option Cluster := none
  cmt : Commit := {}
  dutyRaised : Bool := false
  capRaised : Bool := false
  cplLostRaised : Bool := false
  deriving DecidableEq, Repr, Inhabited

/-- A partition (R223); `left` says that its latest job was a cluster job that has ended (R321). -/
structure Part where
  phys : BitVec 8 := 0
  ranges : List (Nat × Nat) := []
  iface : Iface := {}
  job : Option Job := none
  left : Bool := false
  flying : List (Nat × Nat × Nat) := []
  deriving DecidableEq, Repr, Inhabited

/-! ### The host link as a whole -/

/-- The control pipe, the MGMT queue with the records that the latest loop period sent, and the link: VBUS, the speed that the
host offers, the orientation of the plug (spec/08). -/
structure Usb where
  stalled : Bool := false
  data : List Byte := []
  lastError : List Byte := List.replicate 8 0
  mgmt : List (List Word) := []
  mgmtOut : List (List Word) := []
  suspended : Bool := false
  vbus : Bool := false
  offered : Nat := 0
  orient : Bool := false
  deriving DecidableEq, Repr, Inhabited

/-! ### The management controller -/

/-- A corrected error within the last 24 hours (R189): its unit (level, core or stack, bank), knead region and time. -/
structure CeEntry where
  level : Nat
  idx : Nat
  bank : Nat
  region : Nat
  time : Nat
  deriving DecidableEq, Repr, Inhabited

/-- Supply state of a core (R25, R408-R412): its rail and floor in mV, delay codes, worst margin, commissioning floor;
`quiesce` is the plan for which the core is held at a descriptor boundary (R26). -/
structure CoreRail where
  on : Bool := false
  volt : Nat := 0
  floor : Nat := 0
  codes : List Nat := List.replicate 8 0
  worst : Nat := 0
  commission : Option Nat := none
  wantReplan : Bool := false
  raising : Bool := false
  retired : Bool := false
  byProof : Bool := false
  fences : List (Nat × Nat) := []
  passed : Bool := false
  crumbFail : Nat := 0
  quiesce : Option Plan := none
  deriving DecidableEq, Repr, Inhabited

/-- State of MC_CASCADE (R333). -/
inductive CascadeState where
  | held | byCount | byTimeout | notApplied
  deriving DecidableEq, Repr, Inhabited

/-- STATE of MC_THERM (R423). -/
inductive ThermState where
  | normal | lowering | halted | tripped
  deriving DecidableEq, Repr, Inhabited

/-- Who asked for an NVM write (R377): a record of the circular ageing log, the fixed area of the ageing log, an operation. -/
inductive NvmSrc where
  | log | fixed | op (h : Nat)
  deriving DecidableEq, Repr, Inhabited

/-- An NVM write that waits or runs (R377, R386): the erase blocks still to erase from `base`, the bytes to program, how many
of them are programmed; `live` once it has begun. -/
structure NvmWork where
  src : NvmSrc
  base : Nat := 0
  data : List Byte := []
  blocks : Nat := 0
  erased : Nat := 0
  pos : Nat := 0
  live : Bool := false
  deriving DecidableEq, Repr, Inhabited

/-- The management controller, with what it keeps for the census, the ageing state, the supplies and the pins (spec/01,
spec/12, spec/13, spec/14): `aux` says that AUX_3V3 is applied and a start has run since, `auxStart` that the latest start
followed its application (R330). -/
structure MC where
  on : Bool := false
  time : Nat := 0
  complete : Bool := false
  recovery : Bool := false
  stage : Nat := 1
  failStage : Nat := 0
  cause : Nat := 0
  aux : Bool := false
  auxStart : Bool := false
  brownout : Bool := false
  cfg : List (Nat × List Byte) := []
  cfgDigest : List Byte := []
  fwHeader : List Byte := []
  ownerKey : List Byte := []
  conduct : Nat := 0
  evtCount : List (Nat × Nat) := []
  logWait : List (List Word) := []
  logNext : Nat := 0
  hctx : StackId := 0
  stacksUp : BitVec 8 := 0
  hubsUp : BitVec 4 := 0
  meshUp : BitVec 6 := 0
  regsUp : BitVec 4 := 0
  portsUp : BitVec 8 := 0
  usbMax : Nat := 0
  lanes : List (Nat × Nat) := []
  proofMs : Nat := 0
  firstFail : Nat := 0
  repairsNow : List (Nat × Nat) := []
  repairsLife : List (Nat × Nat) := []
  repairs : List (Nat × Nat × Nat × Nat) := []
  remapLog : List (Nat × Nat × Nat × Nat) := []
  ceLog : List CeEntry := []
  ceRaised : List (Nat × Nat) := []
  ueLog : List (Nat × Nat × Nat) := []
  rails : Vector CoreRail 8 := Vector.replicate 8 {}
  hubRailOn : Bool := false
  portsOn : Bool := false
  duty : Bool := false
  poweredNs : Nat := 0
  hotNs : Nat := 0
  trips : Nat := 0
  tjPeak : Nat := 0
  fenceCount : Nat := 0
  therm : ThermState := .normal
  thermAlert : Bool := false
  lost : Bool := false
  lostRail : Nat := 0
  vinHalt : Bool := false
  vinThrottle : Bool := false
  auxInhibit : Bool := false
  vinInhibit : Bool := false
  pwrReq : Bool := false
  rstLow : Bool := false
  syncOut : Nat := 0
  ppsTill : Option (PortId × Nat) := none
  cascade : CascadeState := .notApplied
  pulses : Nat := 0
  pulsed : Bool := false
  armedUntil : Option Nat := none
  sealIntact : Bool := true
  sealAt : Option Nat := none
  testz : Bool := false
  testSeen : Bool := false
  debug : Bool := false
  root : Bool := false
  storageKey : Bool := false
  identityKey : Bool := false
  attBusy : Bool := false
  nvmQueue : List NvmWork := []
  nvmBusy : Bool := false
  counterKey : Bool := false
  usbDown : Bool := false
  restartAt : List (Nat × Nat) := []
  deriving DecidableEq, Repr, Inhabited

/-! ### Ports (spec/09) -/

/-- A source within a class (R283): the MC, an OT virtual channel, a queue pair. -/
inductive TxSrc where
  | mc | ot (p conn vc : Nat) | roce (qp : Nat)
  deriving DecidableEq, Repr, Inhabited

/-- What a frame carries: an OT datagram between two addresses; a RoCEv2 packet of its queue pair (opcode, PSN, whether it asks for
an acknowledgement, extension headers, payload); a PFC frame (class and quanta); or bytes the MC made (EtherType, payload) (R281,
R297, R299, R310). -/
inductive TxBody where
  | ot (src dst bytes : List Byte)
  | roce (op psn : Nat) (ack : Bool) (ext data : List Byte)
  | pfc (cls quanta : Nat)
  | mc (etherType : Nat) (payload : List Byte)
  deriving DecidableEq, Repr, Inhabited

/-- A frame that waits to be sent: subport, class, source, network address of its next hop (empty: none needed), hardware address
where known, content. -/
structure TxFrame where
  sub : SubId
  cls : Nat
  src : TxSrc
  hop : List Byte := []
  mac : List Byte := []
  body : TxBody
  deriving DecidableEq, Repr, Inhabited

/-- A frame that a subport has started to send (R278): class, bytes from the destination address through the FCS, and the moment
at which the line is free again. -/
structure OnWire where
  sub : SubId
  cls : Nat
  bytes : List Byte
  till : Nat
  deriving DecidableEq, Repr, Inhabited

/-- A datagram that has been classified and waits in the receive buffer for the OT engine (R279, R284): subport, receive class,
length on the wire, source address, CE, payload. -/
structure OtIn where
  sub : Nat
  cls : Nat
  wire : Nat
  src : List Byte
  ce : Bool
  zeroSum : Bool
  bytes : List Byte
  deriving DecidableEq, Repr, Inhabited

/-- A RoCEv2 packet that waits in the receive buffer for its engine (R279, R284): subport, receive class, length on the wire, CE,
and the packet from its base transport header to its payload's end. -/
structure RoceIn where
  sub : Nat
  cls : Nat
  wire : Nat
  ce : Bool
  bytes : List Byte
  deriving DecidableEq, Repr, Inhabited

/-- A PTP message that waits for the MC: subport, receive timestamp in units of 2^-16 ns of port time, the sender's hardware
address, the message (R284, R292). -/
structure PtpIn where
  sub : SubId
  stamp : Nat
  mac : List Byte
  bytes : List Byte
  deriving DecidableEq, Repr, Inhabited

/-- What a subport's link does while it comes up (R275): it advertises its own type (MODE, PHY), trains, has trained, or holds the
transmit equalisation of its lanes. -/
inductive LinkMode where
  | idle | negotiating (mode phy : Nat) | training | trained | equalised (lanes : List Nat)
  deriving DecidableEq, Repr, Inhabited

/-- A data set of an announce message (R293): priority 1, class, accuracy, variance, priority 2, identity, steps; and its sender. -/
structure PtpSet where
  p1 : Nat
  cls : Nat
  acc : Nat
  var : Nat
  p2 : Nat
  gm : Nat
  steps : Nat
  sender : List Byte
  deriving DecidableEq, Repr, Inhabited

/-- Role of a PTP instance (R293). -/
inductive PtpRole where
  | listening | slave | master
  deriving DecidableEq, Repr, Inhabited

/-- A PTP instance (R293): its role, the best master and the subport it is heard on, sequence numbers, the times of the exchange
under way (sync sent and received, request sent, request's arrival at the far end, its answer's arrival), and the path delay; times
in units of 2^-16 ns. -/
structure PtpRun where
  role : PtpRole := .listening
  best : Option PtpSet := none
  sub : SubId := 0
  seqs : Nat × Nat × Nat := (0, 0, 0)
  syncRx : Option (Nat × Int) := none
  measured : Option (Int × Int) := none
  reqTx : Option (Nat × Int) := none
  respRx : Option (Int × Int) := none
  delay : Int := 0
  deriving DecidableEq, Repr, Inhabited

/-- A schedule in operation (R288, R290): pending change, and the operating list; times in units of 2^-16 ns of port time. -/
structure Sched where
  pending : Bool := false
  changeAt : Nat := 0
  start : Nat := 0
  len : Nat := 0
  cycle : Nat := 0
  base : Nat := 0
  deriving DecidableEq, Repr, Inhabited

/-- Who waits for a work request of a queue pair. -/
inductive WqeOwner where
  | cmd (p index : Nat) | op (handle : Nat) | net (core seq : Nat)
  deriving DecidableEq, Repr, Inhabited

/-- A work request (R299, R301): 0 WRITE, 1 READ, 2 FLUSH, 3 SEND of a flush request; its first PSN and packets. -/
structure Wqe where
  op : Nat
  owner : WqeOwner
  loc : Nat
  va : Nat
  rkey : Nat
  len : Nat
  psn : Nat
  pkts : Nat
  data : List Byte
  got : Nat := 0
  sent : Bool := false
  deriving DecidableEq, Repr, Inhabited

/-- A queue pair (R299, R301): its context; as a requester, next PSN, work requests, retries, rate as a part of the subport's and the
moment from which the rate lets it send; as a responder, expected PSN, messages received, the WRITE under way (address, key, bytes
left), slots of the receive ring taken. -/
structure Qp where
  ctx : List Byte := List.replicate 64 0
  psn : Nat := 0
  wqes : List Wqe := []
  retries : Nat := 0
  rnrs : Nat := 0
  rate : Rat := 1
  nextAt : Nat := 0
  expect : Nat := 0
  msn : Nat := 0
  writing : Option (Nat × Nat × Nat) := none
  ringUsed : Nat := 0
  flushId : Nat := 0
  cnpAt : Option Nat := none
  cutAt : Option Nat := none
  deriving DecidableEq, Repr, Inhabited

/-- A memory region for responder access (R300). -/
structure Mr where
  base : Nat
  len : Nat
  rkey : Nat
  rights : Nat
  part : Nat
  deriving DecidableEq, Repr, Inhabited

/-- A port: its clock, and what it stood at when the loop period began; links; frames to send, the turns of their sources, frames
on the wire; classes that a received PFC frame stops (and until when) and classes that the port itself has stopped; datagrams in the
receive buffer; neighbours; schedules; when limited events last came; PTP; queue pairs and memory regions. -/
structure Port where
  clock : Nat := 0
  tick : Nat := 0
  links : Vector LinkMode 4 := Vector.replicate 4 .idle
  tx : List TxFrame := []
  rings : List (Nat × List TxSrc) := []
  onWire : List OnWire := []
  paused : List (Nat × Nat) := []
  pausing : List Nat := []
  otIn : List OtIn := []
  roceIn : List RoceIn := []
  ptpIn : List PtpIn := []
  neigh : List (List Byte × List Byte) := []
  sched : Vector Sched 2 := Vector.replicate 2 {}
  oversizeAt : List (TxSrc × Nat) := []
  fecAt : List (Nat × Nat) := []
  master : Nat := 0
  ptp : PtpRun := {}
  qps : List (Nat × Qp) := []
  mrs : List (Nat × Mr) := []
  deriving DecidableEq, Repr, Inhabited

/-- The whole device; `badUnits` and `weakUnits` are the memory units whose stored copy holds an uncorrectable error, or one that every
read corrects (R188, R190). -/
structure State where
  freeCtr : Nat
  pending : List Instr
  mem : List Host.Cell
  badUnits : List Nat
  weakUnits : List Nat
  regs : List (Nat × Word)
  latches : List (Nat × Word)
  cores : Vector CoreS 8
  parts : Vector Part 4
  handles : List Handle
  lastHandle : Nat
  staging : List (Nat × Byte)
  diag : Iface
  usb : Usb
  mc : MC
  ports : Vector Port 8
  nvm : List (Nat × Byte)
  counters : List Nat
  paired : Bool
  deriving DecidableEq, Repr, Inhabited

/-- Reasons to stop with a fault. The type is empty: the spec gives every command of the table an effect in every state,
and a command that its state does not call for leaves the state unchanged (log entry 7), so no meaning raises one. -/
inductive Fault
  deriving DecidableEq, Repr

/-- Reasons to refuse a command. -/
inductive Refusal where
  /-- Raised only by an arm of exec whose command has no meaning yet; safe, since a refusal proves nothing of a next state. -/
  | notModelled (mnemonic : String)
  deriving DecidableEq, Repr

/-- The device right after reset. -/
def State.reset : State where
  freeCtr := 0
  pending := []
  mem := []
  badUnits := []
  weakUnits := []
  regs := []
  latches := []
  cores := Vector.replicate 8 {}
  parts := Vector.replicate 4 {}
  handles := []
  lastHandle := 0
  staging := []
  diag := {}
  usb := {}
  mc := {}
  ports := Vector.replicate 8 {}
  nvm := []
  counters := List.replicate 8 0
  paired := false

end Sys2Proof.Machine
end

