-- ==== Sys2Proof/Machine/Ops.lean ====
section
/-! DEFINITION. The named operations over memory, registers, events, cores and partitions that every meaning uses. -/

namespace Sys2Proof.Machine

/-- What a command answers. -/
abbrev Result : Type := Host.Outcome State Fault Refusal

/-! ### Registers -/

/-- The register at an offset, as State's register table holds it. -/
def State.reg (s : State) (o : Nat) : Word := (mapGet s.regs o).getD (resetReg o)

/-- The state with a register holding `v`. -/
def State.setReg (s : State) (o : Nat) (v : Word) : State := { s with regs := mapPut (resetReg o) s.regs o v }

/-- The state with field `[hi:lo]` of a register holding `v`. -/
def State.setFld (s : State) (o hi lo v : Nat) : State := s.setReg o (putFld (s.reg o) hi lo v)

/-- Field `[hi:lo]` of a register. -/
def State.regFld (s : State) (o hi lo : Nat) : Nat := fld (s.reg o) hi lo

/-- A counting field advances by `k`, stopping at its all-ones value (R66, R140, R202, R230, R272). -/
def State.countFld (s : State) (o hi lo k : Nat) : State :=
  s.setFld o hi lo (satAdd (hi + 1 - lo) (s.regFld o hi lo) k)

/-- A 32-bit counter register advances by `k`, stopping at all ones. -/
def State.count (s : State) (o k : Nat) : State := s.countFld o 31 0 k

/-- A 64-bit counter in a `_LO` and `_HI` pair advances by `k`, stopping at all ones. -/
def State.count64 (s : State) (lo hi k : Nat) : State :=
  let v := satAdd 64 ((s.reg hi).toNat * 2 ^ 32 + (s.reg lo).toNat) k
  (s.setReg lo (BitVec.ofNat 32 v)).setReg hi (BitVec.ofNat 32 (v / 2 ^ 32))

/-! ### Cores, partitions, interfaces -/

/-- The state with a physical core changed through `f`. -/
def State.updCore (s : State) (c : CoreId) (f : CoreS → CoreS) : State := { s with cores := s.cores.set c (f s.cores[c]) }

/-- The state with every core changed through `f`. -/
def State.mapCores (s : State) (f : CoreS → CoreS) : State := { s with cores := s.cores.map f }

/-- The state with a partition changed through `f`. -/
def State.updPart (s : State) (p : PartId) (f : Part → Part) : State := { s with parts := s.parts.set p (f s.parts[p]) }

/-- The job of a partition. -/
def State.job (s : State) (p : PartId) : Option Job := s.parts[p].job

/-- The state with the partition's job, if it has one, changed through `f`. -/
def State.updJob (s : State) (p : PartId) (f : Job → Job) : State := s.updPart p fun q => { q with job := q.job.map f }

/-- The state with the partition's interface changed through `f`. -/
def State.updIface (s : State) (p : PartId) (f : Iface → Iface) : State :=
  s.updPart p fun q => { q with iface := f q.iface }

/-- A fresh index into the free values of Config (log entry 2), and the state past it. -/
def State.fresh (s : State) : Nat × State := (s.freeCtr, { s with freeCtr := s.freeCtr + 1 })

/-- The logical-core half of a core that a stream context belongs to (R230). -/
def CoreS.half (c : CoreS) (g : Bool) : LCtx := if g then c.guest else c.first

/-- The core with one half changed. -/
def CoreS.updHalf (c : CoreS) (g : Bool) (f : LCtx → LCtx) : CoreS :=
  if g then { c with guest := f c.guest } else { c with first := f c.first }

/-- Whether a context is one of the guest's (R230). -/
def ctxGuest (x : CtxId) : Bool := decide (4 ≤ x.val)

/-- The stream of a logical core that a context is (R230). -/
def ctxStream (x : CtxId) : Fin 4 := ⟨x.val % 4, Nat.mod_lt _ (by decide)⟩

/-- The context of stream `k` of a half. -/
def ctxOf (g : Bool) (k : Fin 4) : CtxId := if g then ⟨4 + k.val, by omega⟩ else ⟨k.val, by omega⟩

/-- The stream at a context of a core. -/
def State.stream (s : State) (c : CoreId) (x : CtxId) : Stream := (s.cores[c].half (ctxGuest x)).streams[ctxStream x]

/-- The state with a stream changed through `f`. -/
def State.updStream (s : State) (c : CoreId) (x : CtxId) (f : Stream → Stream) : State :=
  s.updCore c fun k => k.updHalf (ctxGuest x) fun l =>
    { l with streams := l.streams.set (ctxStream x) (f l.streams[ctxStream x]) }

/-- Cores 0 to 7. -/
def allCores : List CoreId := List.finRange 8

/-- Partitions 0 to 3. -/
def allParts : List PartId := List.finRange 4

/-- Contexts 0 to 7. -/
def allCtx : List CtxId := List.finRange 8

/-! ### Physical memory -/

/-- The regions of R169, by the core or stack they belong to. -/
inductive Region where
  | hbm (k : StackId) | crumb (c : CoreId) | wm (c : CoreId) | gb (c : CoreId) | side (c : CoreId) | regs | hole
  deriving DecidableEq, Repr, Inhabited

/-- The region of R169 that an address lies in. -/
def regionOf (a : Nat) : Region :=
  if a < 0x10000000000 then .hbm (Fin.ofNat 8 (a / 0x2000000000))
  else if 0x100000000000 ≤ a ∧ a < 0x100800000000 then .crumb (Fin.ofNat 8 ((a - 0x100000000000) / 0x100000000))
  else if 0x200000000000 ≤ a ∧ a < 0x200080000000 then
    let c : CoreId := Fin.ofNat 8 ((a - 0x200000000000) / 0x10000000)
    let o := a % 0x10000000
    if o < 0x8000000 then .wm c else if o < 0xB000000 then .gb c
    else if 0xC000000 ≤ o ∧ o < 0xC200000 then .side c else .hole
  else if regRegion ≤ a ∧ a < regRegion + regSpan then .regs
  else .hole

/-- First address of the working-memory window of core `c` (R169). -/
def wmBase (c : Nat) : Nat := 0x200000000000 + c * 0x10000000

/-- First address of core `c`'s crumb memory (R169). -/
def crumbBase (c : Nat) : Nat := 0x100000000000 + c * 0x100000000

/-- First address of core `c`'s gradient buffer (R169). -/
def gbBase (c : Nat) : Nat := wmBase c + 0x8000000

/-- First address of core `c`'s side memory (R169). -/
def sideBase (c : Nat) : Nat := wmBase c + 0xC000000

/-- First address of stack `k` (R169). -/
def stackBase (k : Nat) : Nat := k * 0x2000000000

/-- Bytes of the unit that the code over an address protects (R190). -/
def unitSize (a : Nat) : Nat := if a < 0x200000000000 then 64 else 8

/-- The unit of an address (R190). -/
def unitOf (a : Nat) : Nat := a / unitSize a * unitSize a

/-- What a byte of memory that is not listed reads as (log entry 4). -/
def memDefault : Byte := 0

/-- One byte of memory. -/
def memGet (m : List Host.Cell) (a : Nat) : Byte := (mapGet m a).getD memDefault

/-- Memory with one byte written. -/
def memSet (m : List Host.Cell) (a : Nat) (b : Byte) : List Host.Cell := mapPut memDefault m a b

/-- The canonical form of memory: addresses rise strictly and no entry holds what an unlisted address reads as. -/
def Memory.wf (m : List Host.Cell) : Bool := mapCanon (fun _ => memDefault) m

/-- Memory with (address, byte) pairs written in order. -/
def memPut (m : List Host.Cell) : List (Nat × Byte) → List Host.Cell
  | [] => m
  | (a, b) :: r => memPut (memSet m a b) r

/-- The byte at a physical address. -/
def State.rd (s : State) (a : Nat) : Byte := memGet s.mem a

/-- `n` bytes from a physical address. -/
def State.rdBytes (s : State) (a n : Nat) : List Byte := (List.range n).map fun i => s.rd (a + i)

/-- Units that are written whole by these addresses lose their failing check bits (R190). -/
def healed (bad : List Nat) (as : List Nat) : List Nat :=
  bad.filter fun u => !(List.range (unitSize u)).all fun i => as.contains (u + i)

/-- The state with (physical address, byte) pairs written in order (R177, R188, R190). -/
def State.put (s : State) (w : List (Nat × Byte)) : State :=
  { s with mem := memPut s.mem w, badUnits := if s.badUnits.isEmpty then [] else healed s.badUnits (w.map Prod.fst)
           weakUnits := if s.weakUnits.isEmpty then [] else healed s.weakUnits (w.map Prod.fst) }

/-- The state with bytes written from a physical address on. -/
def State.putBytes (s : State) (a : Nat) (bs : List Byte) : State := s.put ((indexed bs).map fun e => (a + e.1, e.2))

/-- The state with zeros over the physical bytes `a` to `a + n - 1` (R249, R264). -/
def State.zeroRange (s : State) (a n : Nat) : State :=
  { s with
    mem := s.mem.filter fun e => !(decide (a ≤ e.1) && decide (e.1 < a + n))
    badUnits := s.badUnits.filter fun u => !(decide (a ≤ u) && decide (u + unitSize u ≤ a + n))
    weakUnits := s.weakUnits.filter fun u => !(decide (a ≤ u) && decide (u + unitSize u ≤ a + n)) }

/-- Whether the unit of a physical address fails (R190). -/
def State.bad (s : State) (a : Nat) : Bool := !s.badUnits.isEmpty && s.badUnits.contains (unitOf a)

/-- The first physical address of a list whose unit fails (R190). -/
def State.firstBad (s : State) (as : List Nat) : Option Nat := as.find? s.bad

/-! ### Events (R418-R421) -/

/-- Severity of an event code (R420). -/
def severity (code : Nat) : Nat :=
  if [0x0001, 0x0002, 0x2007, 0x2008, 0x2009, 0x3012, 0x4005, 0x4103, 0x6001, 0x6006, 0x6101, 0x7003, 0x7108, 0x8003,
      0x8004, 0x9030].contains code then 0
  else if [0x2001, 0x2002, 0x2003, 0x2005, 0x3001, 0x3003, 0x3010, 0x3011, 0x3020, 0x4003, 0x4101, 0x4102, 0x4409,
      0x4504, 0x4505, 0x5010, 0x5020, 0x5022, 0x5030, 0x6002, 0x6003, 0x6005, 0x6007, 0x6102, 0x7004, 0x7005, 0x7007,
      0x7101, 0x7102, 0x7109, 0x8005, 0x9001, 0x9002, 0x9003, 0x9020, 0x9040, 0x9060].contains code then 1
  else if [0x4001, 0x4002, 0x4004, 0x4006, 0x4104, 0x4506, 0x4507, 0x5021, 0x7006, 0x7104, 0x7106, 0x8006, 0x8007, 0x800B,
      0x9004, 0x9010].contains code then 3
  else if [0x8009, 0x800A, 0x9005, 0x9011, 0x9050].contains code then 4
  else 2

/-- SOURCE of an event record (R418). -/
inductive Src where
  | mc | hub (h : Nat) | core (c : Nat) | port (p : Nat) | usb | pwr | sec
  deriving DecidableEq, Repr

/-- The SOURCE byte (R418). -/
def Src.code : Src → Nat
  | .mc => 0
  | .hub h => 0x10 + h
  | .core c => 0x20 + c
  | .port p => 0x30 + p
  | .usb => 0x40
  | .pwr => 0x50
  | .sec => 0x60

/-- The eight words of an event record (R418). -/
def eventRecord (src : Src) (part : Option PartId) (code time : Nat) (ds : List Nat) : List Word :=
  let w0 := src.code * 2 ^ 24 + (match part with | some p => p.val | none => 7) * 2 ^ 20 + severity code * 2 ^ 16 + code
  [BitVec.ofNat 32 w0, BitVec.ofNat 32 time, BitVec.ofNat 32 (time / 2 ^ 32)] ++
    (List.range 5).map fun i => BitVec.ofNat 32 (ds.getD i 0)

/-- A value wider than 32 bits as two detail words, low half first (R419). -/
def two (a : Nat) : List Nat := [a % 2 ^ 32, a / 2 ^ 32 % 2 ^ 32]

/-- First address of partition `p`'s host context region (R171). -/
def State.hctx (s : State) (p : PartId) : Nat := stackBase s.mc.hctx.val + 0x1FF0000000 + p.val * 0x4000000

/-- Whether a core runs: it is in service and its rails are on (R407, R417). -/
def State.coreUp (s : State) (c : CoreId) : Bool := s.cores[c].inService && s.mc.hubRailOn

/-- Whether the stack that holds the host context regions is usable: it passed, and the rails are on (R417, R447). -/
def State.hctxUp (s : State) : Bool := s.mc.hubRailOn && s.mc.stacksUp.getLsbD s.mc.hctx.val

/-- A word of the context header, none while its sector cannot be read (R247, R447). -/
def State.hdr (s : State) (p : PartId) (o : Nat) : Option Nat :=
  let a := s.hctx p + o
  if s.hctxUp && !s.bad a then some (leNat (s.rdBytes a 4)) else none

/-- The 64-byte sector of the device's own header fields (R247, R447). -/
def RingHdr.bytes (h : RingHdr) : List Byte :=
  [h.cmdHead, h.cmdTail, h.cplTail, h.cplLost, h.evtTail, h.evtLost].flatMap (leBytes 4) ++ List.replicate 40 0

/-- Device-written fields of the context header changed through `f` and written as the whole 64-byte sector (R247, R447). -/
def State.updHdr (s : State) (p : PartId) (f : RingHdr → RingHdr) : State :=
  let s := s.updIface p fun i => { i with hdr := f i.hdr }
  if s.hctxUp then s.putBytes (s.hctx p) s.parts[p].iface.hdr.bytes else s

/-- A record for the completion ring of partition `p` is dropped, and counted in USB_JOB_LOST_p (R447). -/
def State.dropCpl (s : State) (p : PartId) : State :=
  let s := s.countFld (usbJobLost p) 15 0 1
  if s.hctxUp then s.updHdr p fun h => { h with cplLost := (h.cplLost + 1) % 2 ^ 32 } else s

/-- A record for the event ring of partition `p` is dropped, and counted (R262, R447). -/
def State.dropEvt (s : State) (p : PartId) : State :=
  let s := s.countFld (usbJobLost p) 31 16 1
  if s.hctxUp then s.updHdr p fun h => { h with evtLost := (h.evtLost + 1) % 2 ^ 32 } else s

/-- An event record reaches the event ring of partition `p`, or is dropped (R248, R262, R447). -/
def State.eventRing (s : State) (p : PartId) (rec : List Word) : State :=
  match s.hdr p 0x044 with
  | none => s.dropEvt p
  | some head =>
    let tail := s.parts[p].iface.hdr.evtTail % 2048
    if (tail + 2048 - head % 2048) % 2048 < 2047 then
      (s.putBytes (s.hctx p + 0x70000 + tail * 32) (ofWords rec)).updHdr p fun h => { h with evtTail := (tail + 1) % 2048 }
    else s.dropEvt p

/-- An event record reaches the MGMT queue of 64 records, or is dropped and counted (R263). -/
def State.mgmtQueue (s : State) (rec : List Word) : State :=
  if s.usb.mgmt.length < 64 then { s with usb := { s.usb with mgmt := s.usb.mgmt ++ [rec] } }
  else s.count usbMgmtEvlost 1

/-- What goes to the circular ageing log, one record of one or three entries; it waits in MC memory until the NVM
may be written, at most 64 at a time (R413, R421). -/
def State.logQueue (s : State) (rec : List Word) : State :=
  if s.mc.logWait.length < 64 then
    { s with mc := { s.mc with logWait := s.mc.logWait ++ [rec], nvmQueue := s.mc.nvmQueue ++ [{ src := .log }] } }
  else s.countFld mcLogStat 31 24 1

/-- The fixed area of the ageing log is to be rewritten; one rewriting that waits covers all changes before it (R413). -/
def State.fixedLog (s : State) : State :=
  if s.mc.nvmQueue.any fun w => decide (w.src = .fixed ∧ w.live = false) then s
  else { s with mc := { s.mc with nvmQueue := s.mc.nvmQueue ++ [{ src := .fixed }] } }

/-- Delivery of an event record (R421); one of severity 3 or 4 also sets PEND of MC_ALERT (R437). -/
def State.deliver (s : State) (part : Option PartId) (code : Nat) (rec : List Word) : State :=
  let s := s.count (mcEvtCnt (severity code)) 1
  let s := s.mgmtQueue rec
  let s := match part with | some p => s.eventRing p rec | none => s
  if 3 ≤ severity code then (s.logQueue rec).setFld mcAlert 0 0 1 else s

/-- The device raises an event: its record is delivered, or counted as suppressed when 16 records with its code from its
source were raised in this second (R421). -/
def State.raise (s : State) (src : Src) (part : Option PartId) (code : Nat) (ds : List Nat) : State :=
  let key := code * 256 + src.code
  let n := (mapGet s.mc.evtCount key).getD 0
  let s := { s with mc := { s.mc with evtCount := mapSet s.mc.evtCount key (n + 1) } }
  if 16 ≤ n ∧ severity code < 3 then s.count (mcEvtCnt 5) 1
  else s.deliver part code (eventRecord src part code s.mc.time ds)

/-! ### Corrected and uncorrectable errors (R188-R190) -/

/-- The level word of R205, the core or stack, the bank or channel word and the knead region of a physical address. -/
def errorPlace (a : Nat) : Nat × Nat × Nat × Nat :=
  match regionOf a with
  | .wm c => let o := a % 0x10000000
    (0, c.val, nbits o 11 6 ^^^ nbits o 17 12, o / 65536)
  | .gb c => let o := a % 0x10000000 - 0x8000000
    (1, c.val, nbits o 11 6 ^^^ nbits o 17 12, 0)
  | .side c => let o := a % 0x10000000 - 0xC000000
    (2, c.val, if o < 0x80000 then 8 + o / 65536 else nbits (o - 0x80000) 8 6, o / 65536)
  | .crumb c => let o := a % 0x100000000
    (3, c.val, nbits o 8 8 * 16 + nbits o 12 9, o / 131072 * 2 + nbits o 8 8)
  | .hbm k => (4, k.val, 0, 0)
  | _ => (0, 0, 0, 0)

/-- The knead unit of a level: working memory, side memory and crumb memory are kneaded, the gradient buffer is not (R192). -/
def kneadOfLevel : Nat → Option (Fin 3)
  | 0 => some 0
  | 2 => some 2
  | 3 => some 1
  | _ => none

/-- Regions placed first in the knead order of their memory, before those placed there earlier (R189, R190, R195). -/
def State.kneadFirst (s : State) (c : CoreId) (u : Fin 3) (rs : List Nat) : State :=
  s.updCore c fun k =>
    { k with knead := k.knead.set u { k.knead[u] with
        first := rs.eraseDups ++ k.knead[u].first.filter fun r => !rs.contains r } }

/-- The counter of corrected errors of a level (R189, R202, R203). -/
def ceCounter (level idx : Nat) : Nat :=
  if level = 4 then hubHbmCe (idx / 2) (idx % 2) else if level = 3 then coreMemCeCrumb idx else coreMemCeSram idx

/-- SOURCE of an error at a place: the core, or the hub of the stack. -/
def placeSrc (level idx : Nat) : Src := if level = 4 then .hub (idx / 2) else .core idx

/-- The partition that a physical core belongs to. -/
def State.corePart (s : State) (idx : Nat) : Option PartId := s.cores[Fin.ofNat 8 idx].part

/-- 24 hours in nanoseconds. -/
def dayNs : Nat := 86400000000000

/-- A corrected error is counted at its level, core or stack, bank and knead region; the 64th within 24 hours in one bank, channel or
stack raises MEM_CE_RATE, at most once per 24 hours, and places the regions that held the errors first; the header store, unit 16
of side memory, is not kneaded (R189). -/
def State.correctedAt (s : State) (level idx bank region : Nat) : State :=
  let s := s.count (ceCounter level idx) 1
  let now := s.mc.time
  let log := (s.mc.ceLog ++ [CeEntry.mk level idx bank region now]).filter fun e => decide (now < e.time + dayNs)
  let mine := log.filter fun e => decide (e.level = level ∧ e.idx = idx ∧ e.bank = bank)
  let key := level * 65536 + idx * 256 + bank
  let s := { s with mc := { s.mc with ceLog := log } }
  let last := mapGet s.mc.ceRaised key
  let due := match last with | some t => decide (t + dayNs ≤ now) | none => true
  if decide (64 ≤ mine.length) && due then
    let s := { s with mc := { s.mc with ceRaised := mapSet s.mc.ceRaised key now } }
    let s := s.raise (placeSrc level idx) (if level = 4 then none else s.corePart idx) 0x5010 [level, idx, bank]
    match (if level = 2 ∧ bank = 16 then none else kneadOfLevel level) with
    | some u => s.kneadFirst (Fin.ofNat 8 idx) u (mine.map CeEntry.region)
    | none => s
  else s

/-- A corrected error at a physical address (R189). -/
def State.corrected (s : State) (a : Nat) : State :=
  let (level, idx, bank, region) := errorPlace a
  s.correctedAt level idx bank region

/-- The units with a correctable error that satisfy `f` are read: each is counted, and the controller of an HBM4E stack rewrites
its own (R188, R189). -/
def State.meetUnits (s : State) (f : Nat → Bool) : State :=
  (s.weakUnits.filter f).foldl (fun s u =>
    let s := s.corrected u
    if u < 0x10000000000 then { s with weakUnits := s.weakUnits.filter (· ≠ u) } else s) s

/-- The bytes that an access to any of them reads with unit `u`: in HBM4E the whole 512-byte line of the unit (R186), elsewhere the unit.
DEDUCED: the controller corrects the whole line that it reads, so a correctable sector beside the bytes that the read keeps is counted
and rewritten too (log entry 101). -/
def readSpan (u : Nat) : Nat × Nat := if u < 0x10000000000 then (u / 512 * 512, 512) else (u, unitSize u)

/-- These physical bytes are read. -/
def State.meetReads (s : State) (as : List Nat) : State :=
  s.meetUnits fun u => as.any fun a => decide ((readSpan u).1 ≤ a) && decide (a < (readSpan u).1 + (readSpan u).2)

/-- The physical bytes `a` to `a + n - 1` are read. -/
def State.meetRange (s : State) (a n : Nat) : State :=
  s.meetUnits fun u => decide (a < (readSpan u).1 + (readSpan u).2) && decide ((readSpan u).1 < a + n)

/-- Corrected data is written back over the units from `a` to `a + n - 1` (R188). -/
def State.writeBack (s : State) (a n : Nat) : State :=
  { s with weakUnits := s.weakUnits.filter fun u => !(decide (a ≤ u) && decide (u + unitSize u ≤ a + n)) }

/-- A read by partition `part` finds an uncorrectable error at a physical address (R190). -/
def State.uncorrectable (s : State) (part : Option PartId) (a : Nat) : State :=
  let (level, idx, _, region) := errorPlace a
  let u := unitOf a
  let s := s.raise (placeSrc level idx) part 0x5011 ([level, idx] ++ two u)
  if level = 4 then
    let s := s.count (hubHbmUe (idx / 2) (idx % 2)) 1
    let s := (s.setReg (hubHbmUeAddrLo (idx / 2) (idx % 2)) (BitVec.ofNat 32 u)).setReg
      (hubHbmUeAddrHi (idx / 2) (idx % 2)) (BitVec.ofNat 32 (u / 2 ^ 32))
    let row := (idx, nbits u 14 9, Config.hbmRow (u % 0x2000000000))
    if s.mc.repairs.contains row ∨ 512 ≤ s.mc.repairs.length then s
    else ({ s with mc := { s.mc with repairs := s.mc.repairs ++ [row] } }).fixedLog
  else
    let s := { s with mc := { s.mc with
      ueLog := (s.mc.ueLog.filter fun (e : Nat × Nat × Nat) => decide (s.mc.time < e.2.2 + dayNs)) ++ [(idx, a / 64, s.mc.time)] } }
    let s := (s.setFld (coreMemUe idx) 31 30 level).countFld (coreMemUe idx) 15 0 1
    let s := (s.setReg (coreMemUeAddrLo idx) (BitVec.ofNat 32 u)).setReg (coreMemUeAddrHi idx) (BitVec.ofNat 32 (u / 2 ^ 32))
    match kneadOfLevel level with
    | some k => s.kneadFirst (Fin.ofNat 8 idx) k [region]
    | none => s

/-- Numbers that join a list, each once. -/
def joinNew (l new : List Nat) : List Nat := new.foldl (fun b u => if b.contains u then b else b ++ [u]) l

/-- The errors that the memories have taken up by the time a command runs, and the slots that banks lost (R176, R188-R190, R202,
log entry 1). -/
def State.takeEnv (s : State) (env : MemEnv) : State :=
  let s := env.bankWaits.foldl (fun s w => s.count (coreMemBankwait w.1.val) w.2) s
  let s := env.headCe.foldl (fun s h => s.updCore h.1 fun k => { k with headWeak := joinNew k.headWeak [h.2] }) s
  let s := env.headUe.foldl (fun s h => s.updCore h.1 fun k => { k with headBad := joinNew k.headBad [h.2] }) s
  { s with badUnits := joinNew s.badUnits (env.ue.map unitOf), weakUnits := joinNew s.weakUnits (env.ce.map unitOf) }

/-- The same, with the corrected errors of the physical bytes that the command reads (R189). -/
def State.takeReads (s : State) (env : MemEnv) (as : List Nat) : State := (s.takeEnv env).meetReads as

/-! ### Retention wake (R180) -/

/-- An access reaches the SRAM of a core: a retained core wakes and the access waits for it (R180). DESIGN CHOICE: the spec does not say
what an access does to a core that is entering retention; here it is woken and waited for like a retained one (log entry 47). -/
def State.touch (s : State) (c : CoreId) : State :=
  match s.cores[c].ret with
  | .retained | .entering =>
    let s := s.updCore c fun k => { k with ret := .waking }
    (s.countFld (coreMemWakes c.val) 15 0 1).countFld (coreMemWakes c.val) 31 16 1
  | .waking => s.countFld (coreMemWakes c.val) 31 16 1
  | .active => s

/-- The physical cores whose SRAM these physical addresses reach. -/
def sramCores (as : List Nat) : List CoreId :=
  (as.filterMap fun a => match regionOf a with | .wm c | .gb c | .side c => some c | _ => none).eraseDups

/-- Accesses to these physical addresses wake the retained cores among theirs (R180). -/
def State.touchAll (s : State) (as : List Nat) : State := (sramCores as).foldl State.touch s

/-! ### Completion records (R248, R254, R259-R262, R447) -/

/-- Room in the completion ring beyond its records, none while CPL_HEAD cannot be read (R248, R447). -/
def State.cplRoom (s : State) (p : PartId) : Nat :=
  match s.hdr p 0x040 with
  | none => 0
  | some head =>
    let tail := s.parts[p].iface.hdr.cplTail
    4095 - (tail + 4096 - head % 4096) % 4096

/-- A completion record is written at CPL_TAIL with the PHASE of this pass; the next pass inverts it (R249, R259). The look at CPL_HEAD
that finds its room meets the corrected errors there (R188, R189). -/
def State.writeCpl (s : State) (p : PartId) (rec : List Byte) : State :=
  let s := s.meetRange (s.hctx p + 0x40) 4
  let tail := s.parts[p].iface.hdr.cplTail % 4096
  let ph := s.parts[p].iface.phase
  let w0 := rdLE rec 0 4 % 2 ^ 31 + b2n ph * 2 ^ 31
  let s := s.putBytes (s.hctx p + 0x50000 + tail * 32) (leBytes 4 w0 ++ slice rec 4 28)
  let s := s.updHdr p fun h => { h with cplTail := (tail + 1) % 4096 }
  if tail = 4095 then s.updIface p fun i => { i with phase := !ph } else s

/-- The 32 bytes of a completion record but for its PHASE (R259). -/
def cplRecord (kind level status handle index tag event d0 d1 : Nat) : List Byte :=
  leBytes 4 (kind * 2 ^ 28 + level * 2 ^ 26 + status % 65536) ++ leBytes 4 (handle % 65536 * 65536 + index % 4096) ++
    leBytes 8 tag ++ leBytes 4 (event % 65536) ++ leBytes 4 d0 ++ leBytes 4 d1 ++ leBytes 4 0

/-- A record that a command had reserved is written; while it finds no room it waits, and while the region's stack is
unusable it is dropped (R254, R262, R447). -/
def State.reservedRecord (s : State) (p : PartId) (rec : List Byte) : State :=
  if !s.hctxUp then (s.countFld (usbJobLost p) 15 0 1).updIface p fun i => { i with reserved := i.reserved - 1 }
  else if 0 < s.cplRoom p ∧ s.parts[p].iface.waiting = [] then
    (s.writeCpl p rec).updIface p fun i => { i with reserved := i.reserved - 1 }
  else (s.count (usbJobCplwait p) 1).updIface p fun i => { i with waiting := i.waiting ++ [rec] }

end Sys2Proof.Machine
end

