-- ==== Sys2Proof/Machine/Operands.lean ====
section
/-! DEFINITION. Descriptor fields, element formats, stored rectangles with their planes (R76, R102, R172, R206). -/

namespace Sys2Proof.Machine

/-- Field `[hi:lo]` of the word at byte offset `o` of a descriptor (R7). -/
def dfld (d : List Word) (o hi lo : Nat) : Nat := fld (wordAt d (o / 4)) hi lo

/-- A single bit of a descriptor word. -/
def dbit (d : List Word) (o i : Nat) : Bool := bitAt (wordAt d (o / 4)) i

/-- A 48-bit address whose low word is at `lo` and whose high half is at bits [15:0] of `hi`. -/
def daddr (d : List Word) (lo hi : Nat) : Nat := dfld d lo 31 0 + dfld d hi 15 0 * 2 ^ 32

/-- A refusal of a descriptor: event code, and the detail words after the descriptor's own place. -/
structure DErr where
  code : Nat
  words : List Nat
  deriving DecidableEq, Repr, Inhabited

/-! ### Formats (R102) -/

/-- Operand classes of R72. -/
inductive Cls where
  | fp4 | fp8 | int8 | bf16 | fp16 | fp32
  deriving DecidableEq, Repr, Inhabited

/-- A stored element format: MX or plain, its float layout (none: INT8), bits per element, operand class. -/
structure Fmt where
  mx : Bool
  ff : Option FloatFmt
  bits : Nat
  cls : Cls
  deriving DecidableEq, Repr, Inhabited

/-- The format of a code (R102). -/
def fmtOf : Nat → Option Fmt
  | 1 => some ⟨true, some fE2M1, 4, .fp4⟩
  | 2 => some ⟨true, some fE2M3, 6, .fp8⟩
  | 3 => some ⟨true, some fE3M2, 6, .fp8⟩
  | 4 => some ⟨true, some fE4M3, 8, .fp8⟩
  | 5 => some ⟨true, some fE5M2, 8, .fp8⟩
  | 6 => some ⟨false, some fE4M3, 8, .fp8⟩
  | 7 => some ⟨false, some fE5M2, 8, .fp8⟩
  | 8 => some ⟨false, none, 8, .int8⟩
  | 9 => some ⟨false, some fBF16, 16, .bf16⟩
  | 10 => some ⟨false, some fFP16, 16, .fp16⟩
  | 11 => some ⟨false, some fFP32, 32, .fp32⟩
  | _ => none

/-- Bytes of a block of 32 elements (R31). -/
def Fmt.blockBytes (f : Fmt) : Nat := 4 * f.bits

/-- An element in element units, before any MX scale (R36). -/
def Fmt.elem (f : Fmt) (raw : Nat) : XNum :=
  match f.ff with
  | some ff => ff.decode raw
  | none => decodeInt8 raw

/-- The value of an element under its block's scale byte (R31; plain formats have no scale, R72). -/
def Fmt.value (f : Fmt) (scale raw : Nat) : XNum :=
  if f.mx then (if scale = 0xFF then .nan else (f.elem raw).scale (scaleExp scale)) else f.elem raw

/-! ### Stored rectangles (R172) -/

/-- A stored rectangle: data address, row stride in bytes, stored rows, blocks per row, metadata base. -/
structure Rect where
  base : Nat
  stride : Nat
  sr : Nat
  nb : Nat
  planes : Nat
  deriving DecidableEq, Repr, Inhabited

/-- The plane pitch (R172). -/
def Rect.pitch (r : Rect) : Nat := 64 * cdiv r.nb 64

/-- Address of the summary byte of block `b` in stored row `i` (R172). -/
def Rect.sumAddr (r : Rect) (i b : Nat) : Nat := r.planes + i * r.pitch + b

/-- Address of the scale byte of block `b` in stored row `i` (R172). -/
def Rect.scaleAddr (r : Rect) (i b : Nat) : Nat := r.planes + r.sr * r.pitch + i * r.pitch + b

/-- Address of block `b` in stored row `i`. -/
def Rect.blockAddr (r : Rect) (f : Fmt) (i b : Nat) : Nat := r.base + i * r.stride + b * f.blockBytes

/-- Addresses `a` to `a + n - 1`. -/
def span (a n : Nat) : List Nat := (List.range n).map (a + ·)

/-- The data bytes of stored row `i`. -/
def Rect.rowAddrs (r : Rect) (f : Fmt) (i : Nat) : List Nat := span (r.base + i * r.stride) (r.nb * f.blockBytes)

/-- The plane bytes of stored row `i` that are read: summaries, and scales of an MX format. -/
def Rect.planeAddrs (r : Rect) (f : Fmt) (i : Nat) : List Nat :=
  span (r.sumAddr i 0) r.nb ++ (if f.mx then span (r.scaleAddr i 0) r.nb else [])

/-- Every byte of the rectangle that a descriptor names, row by row (R170). -/
def Rect.addrs (r : Rect) (f : Fmt) (planes : Bool) : List Nat :=
  (List.range r.sr).flatMap fun i => r.rowAddrs f i ++ (if planes then r.planeAddrs f i else [])

/-- A block as read: raw elements, summary, scale. -/
structure Blk where
  raws : List Nat
  summary : Nat
  scale : Nat
  deriving DecidableEq, Repr, Inhabited

/-- Element `k` of a block number in a format of `bits` bits (R31). -/
def rawAt (bits n k : Nat) : Nat := (n >>> (k * bits)) % 2 ^ bits

/-- The number that `n` bytes from an address hold. -/
def rdN (m : Nat → Byte) (a n : Nat) : Nat := leNat ((List.range n).map fun i => m (a + i))

/-- A block of a rectangle read through `m`. -/
def Rect.blk (r : Rect) (f : Fmt) (m : Nat → Byte) (i b : Nat) : Blk :=
  let n := rdN m (r.blockAddr f i b) f.blockBytes
  ⟨(List.range 32).map fun k => rawAt f.bits n k, (m (r.sumAddr i b)).toNat,
   if f.mx then (m (r.scaleAddr i b)).toNat else 0x7F⟩

/-- Element (row `i`, column `c`) of a rectangle, in element units. -/
def Rect.elemAt (r : Rect) (f : Fmt) (m : Nat → Byte) (i c : Nat) : XNum :=
  f.elem (rawAt f.bits (rdN m (r.blockAddr f i (c / 32)) f.blockBytes) (c % 32))

/-- The value at (row `i`, column `c`) of a rectangle. -/
def Rect.valAt (r : Rect) (f : Fmt) (m : Nat → Byte) (i c : Nat) : XNum :=
  f.value (m (r.scaleAddr i (c / 32))).toNat (rawAt f.bits (rdN m (r.blockAddr f i (c / 32)) f.blockBytes) (c % 32))

/-- The summary of the block that holds (row `i`, column `c`). -/
def Rect.sumAt (r : Rect) (m : Nat → Byte) (i c : Nat) : Nat := (m (r.sumAddr i (c / 32))).toNat

/-- The bound e_b of the block that holds (row `i`, column `c`) (R36). -/
def Rect.boundAt (r : Rect) (f : Fmt) (m : Nat → Byte) (i c : Nat) : Int :=
  (r.sumAt m i c : Int) - 127 + (if f.mx then scaleExp (m (r.scaleAddr i (c / 32))).toNat else 0)

/-! ### Writing blocks (R32, R33, R36, R37) -/

/-- A written block: data bytes, summary, scale, and the elements it counts as saturated and as non-finite. -/
structure OutBlk where
  data : List Byte
  summary : Nat
  scale : Nat
  sat : Nat
  nonfin : Nat
  deriving DecidableEq, Repr, Inhabited

/-- Raw elements packed into a block (R31). -/
def packRaws (bits : Nat) (raws : List Nat) : List Byte :=
  leBytes (4 * bits) ((indexed raws).foldl (fun acc e => acc + e.2 % 2 ^ bits * 2 ^ (e.1 * bits)) 0)

/-- 32 values, each with its rounding, written as a block of a format, with the summary of what is stored (R37). -/
def Fmt.write (f : Fmt) (vs : List (XNum × Round)) : OutBlk :=
  if f.mx then
    match f.ff with
    | some ff =>
      let b := mxEncode ff vs
      ⟨packRaws f.bits b.elems, summaryOf (decide (b.scale = 0xFF)) (b.elems.map ff.decode), b.scale, b.sat, b.nonfin⟩
    | none => default
  else
    let rs := vs.map fun v => match f.ff with | some ff => ff.encode v.2 v.1 | none => encodeInt8 v.2 v.1
    ⟨packRaws f.bits (rs.map Prod.fst), summaryOf false (rs.map fun r => f.elem r.1), 0x7F,
     (rs.filter fun r => r.2 = .saturated).length, (rs.filter fun r => r.2 = .nonfinite).length⟩

/-- The (address, byte) pairs of a block written at (row `i`, block `b`) of a rectangle, planes included. -/
def Rect.blkBytes (r : Rect) (f : Fmt) (i b : Nat) (o : OutBlk) : List (Nat × Byte) :=
  ((indexed o.data).map fun e => (r.blockAddr f i b + e.1, e.2)) ++ [(r.sumAddr i b, BitVec.ofNat 8 o.summary)] ++
    (if f.mx then [(r.scaleAddr i b, BitVec.ofNat 8 o.scale)] else [])

/-- The plane bytes of row `i` beyond the last block, which engines write as 0x00 (R172). -/
def Rect.padBytes (r : Rect) (f : Fmt) (i : Nat) : List (Nat × Byte) :=
  (span (r.sumAddr i r.nb) (r.pitch - r.nb) ++ (if f.mx then span (r.scaleAddr i r.nb) (r.pitch - r.nb) else [])).map
    fun a => (a, 0)

end Sys2Proof.Machine
end

