-- ==== Sys2Proof/Machine/MatCalc.lean ====
section
/-! DEFINITION. What a MAT instruction computes: its fields, its window, its sums, its groups (spec/03, spec/02 R38-R46). -/

namespace Sys2Proof.Machine

/-- The fields of a MAT descriptor (R101). -/
structure MatD where
  strict : Bool
  acc : Bool
  trOut : Bool
  trB : Bool
  trA : Bool
  fmtOut : Nat
  fmtB : Nat
  fmtA : Nat
  half : Nat
  any : Bool
  array : Nat
  flow : Nat
  aAddr : Nat
  aStride : Nat
  bAddr : Nat
  bStride : Nat
  oAddr : Nat
  oStride : Nat
  red : Nat
  cols : Nat
  rows : Nat
  bMeta : Nat
  aMeta : Nat
  oMeta : Nat
  tensorA : Nat
  tensorW : Nat
  deriving DecidableEq, Repr, Inhabited

/-- The MAT body read from its words (R101); strides and metadata offsets in bytes. -/
def matD (d : List Word) : MatD where
  strict := dbit d 0x10 24
  acc := dbit d 0x10 23
  trOut := dbit d 0x10 22
  trB := dbit d 0x10 21
  trA := dbit d 0x10 20
  fmtOut := dfld d 0x10 19 16
  fmtB := dfld d 0x10 15 12
  fmtA := dfld d 0x10 11 8
  half := dfld d 0x10 7 6
  any := dbit d 0x10 5
  array := dfld d 0x10 4 3
  flow := dfld d 0x10 1 0
  aAddr := daddr d 0x14 0x18
  aStride := dfld d 0x18 31 16 * 64
  bAddr := daddr d 0x1C 0x20
  bStride := dfld d 0x20 31 16 * 64
  oAddr := daddr d 0x24 0x28
  oStride := dfld d 0x28 31 16 * 64
  red := (dfld d 0x2C 18 8 + 1) * 32
  cols := 2 ^ dfld d 0x2C 7 4
  rows := 2 ^ dfld d 0x2C 3 0
  bMeta := dfld d 0x30 31 16 * 4096
  aMeta := dfld d 0x30 15 0 * 4096
  oMeta := dfld d 0x34 15 0 * 4096
  tensorA := dfld d 0x38 31 0
  tensorW := dfld d 0x3C 31 0

/-- Format of operand A. -/
def MatD.fA (d : MatD) : Fmt := (fmtOf d.fmtA).getD default
/-- Format of operand B. -/
def MatD.fB (d : MatD) : Fmt := (fmtOf d.fmtB).getD default
/-- Format of the output. -/
def MatD.fO (d : MatD) : Fmt := (fmtOf d.fmtOut).getD default

/-- Stored shape of A as (stored rows, stored columns): logical A is rows × red in FLOW 0, red × rows in FLOW 1 (R75, R76). -/
def MatD.shapeA (d : MatD) : Nat × Nat :=
  if (d.flow = 0) = (d.trA = false) then (d.rows, d.red) else (d.red, d.rows)

/-- Stored shape of B: logical B is red × cols (R75, R76). -/
def MatD.shapeB (d : MatD) : Nat × Nat := if d.trB then (d.cols, d.red) else (d.red, d.cols)

/-- Stored shape of the output (R76). -/
def MatD.shapeO (d : MatD) : Nat × Nat := if d.trOut then (d.cols, d.rows) else (d.rows, d.cols)

/-- The stored rectangle of operand A. -/
def MatD.rA (d : MatD) : Rect := ⟨d.aAddr, d.aStride, d.shapeA.1, d.shapeA.2 / 32, d.aAddr + d.aMeta⟩
/-- The stored rectangle of operand B. -/
def MatD.rB (d : MatD) : Rect := ⟨d.bAddr, d.bStride, d.shapeB.1, d.shapeB.2 / 32, d.bAddr + d.bMeta⟩
/-- The stored rectangle of the output. -/
def MatD.rO (d : MatD) : Rect := ⟨d.oAddr, d.oStride, d.shapeO.1, d.shapeO.2 / 32, d.oAddr + d.oMeta⟩

/-- The bytes that an instruction reads: both operands with their planes. -/
def MatD.readAddrs (d : MatD) : List Nat := d.rA.addrs d.fA true ++ d.rB.addrs d.fB true

/-- Storage place of A's element for output row `i` and reduction position `k` (R75, R76). -/
def MatD.posA (d : MatD) (i k : Nat) : Nat × Nat := if (d.flow = 0) = (d.trA = false) then (i, k) else (k, i)

/-- Storage place of B's element for reduction position `k` and output column `j` (R75, R76). -/
def MatD.posB (d : MatD) (k j : Nat) : Nat × Nat := if d.trB then (j, k) else (k, j)

/-- Reduction depth per fold (R72). -/
def Cls.depth : Cls → Nat
  | .fp4 => 1024
  | .fp8 => 512
  | _ => 256

/-- Beats that a wavefront takes (R72, R80): the three piece passes of an FP32 wavefront take three beats each. -/
def Cls.beats : Cls → Nat
  | .fp16 => 2
  | .fp32 => 9
  | _ => 1

/-- Width of a fold: 256 for a whole array, 128 for a half, 1,024 for a gang (R78). -/
def foldWidth (ganged : Bool) (half : Nat) : Nat := if ganged then 1024 else if half = 0 then 256 else 128

/-- Beats in which a data wavefront enters for the whole instruction (R78-R80, R104). -/
def MatD.wavefronts (d : MatD) (w : Nat) : Nat :=
  let dep := d.fA.cls.depth
  let cf := cdiv d.cols w
  if d.flow = 0 then cf * cdiv d.red dep * d.rows * d.fA.cls.beats
  else cdiv d.rows dep * cf * d.red * d.fA.cls.beats

/-! ### Summary check (R38) -/

/-- The blocks of an operand that hold a breaching element, as block indices row by row (R38). -/
def rectBreaches (r : Rect) (f : Fmt) (m : Nat → Byte) : List Nat :=
  (List.range (r.sr * r.nb)).filter fun n =>
    let b := r.blk f m (n / r.nb) (n % r.nb)
    b.raws.any fun raw => breaches b.summary (if f.mx ∧ b.scale = 0xFF then .nan else f.elem raw)

/-- The breaches of an instruction as (operand, block), A before B, by rising block. -/
def MatD.breaches (d : MatD) (m : Nat → Byte) : List (Nat × Nat) :=
  (rectBreaches d.rA d.fA m).map (fun b => (0, b)) ++ (rectBreaches d.rB d.fB m).map (fun b => (1, b))

/-- The operand and the memory line whose access slot brings a block to its feeder (R38, R175, log entry 28). -/
def MatD.slotOf (d : MatD) (x : Nat × Nat) : Nat × Nat :=
  let r := if x.1 = 0 then d.rA else d.rB
  (x.1, r.blockAddr (if x.1 = 0 then d.fA else d.fB) (x.2 / r.nb) (x.2 % r.nb) / 64)

/-- The access slots that hold breaches, each once. -/
def MatD.breachSlots (d : MatD) (m : Nat → Byte) : List (Nat × Nat) := ((d.breaches m).map d.slotOf).eraseDups

/-- The breach that is detected first when the slot at place `k` of `breachSlots` is served at time `at_ k`: the earliest; among
those of one time, one of operand A before one of operand B, and the lower block (R38). -/
def MatD.firstBreach (d : MatD) (m : Nat → Byte) (at_ : Nat → Nat) : Nat × Nat :=
  let when (x : Nat × Nat) : Nat := at_ ((d.breachSlots m).findIdx fun y => decide (y = d.slotOf x))
  match d.breaches m with
  | [] => (0, 0)
  | b :: bs => bs.foldl (fun x y => if when y < when x then y else x) b

/-! ### The window and the sum (R39-R44) -/

/-- Whether a summary takes part in the window: neither 0x00 nor 0xFF (R41). -/
def sumLive (s : Nat) : Bool := decide (s ≠ 0) && decide (s ≠ 0xFF)

/-- The larger of an optional exponent and another. -/
def maxOpt (o : Option Int) (x : Int) : Option Int := some (match o with | some y => max x y | none => x)

/-- P - 1 of output (i, j): the largest e_A + e_B over the positions at which both blocks take part (R41). -/
def MatD.peak (d : MatD) (m : Nat → Byte) (i j : Nat) : Option Int :=
  (List.range d.red).foldl (fun acc k =>
    let a := d.posA i k
    let b := d.posB k j
    if sumLive (d.rA.sumAt m a.1 a.2) && sumLive (d.rB.sumAt m b.1 b.2) then
      maxOpt acc (d.rA.boundAt d.fA m a.1 a.2 + d.rB.boundAt d.fB m b.1 b.2)
    else acc) none

/-- The window bottom B = T - 95 of output (i, j), none when no product contributes (R40, R41). -/
def MatD.bottom (d : MatD) (m : Nat → Byte) (i j : Nat) : Option Int :=
  (d.peak m i j).map fun e => (1 + e + (if 32768 < d.red then 1 else 0)) - 95

/-- The pieces of an operand element: three of 8 significand bits for FP32, one otherwise (R74). -/
def pieces (c : Cls) : XNum → List XNum
  | .fin n m e => if c = .fp32 then
      [.fin n (m / 2 ^ 16) (e + 16), .fin n (m / 2 ^ 8 % 2 ^ 8) (e + 8), .fin n (m % 2 ^ 8) e] else [.fin n m e]
  | x => [x]

/-- A running sum in units of the window bottom, and its truncation count (R42). -/
structure Acc where
  sum : Int := 0
  trunc : Nat := 0
  deriving DecidableEq, Repr, Inhabited

/-- One product joins the sum: bits below the bottom are cut off its magnitude (R42). -/
def Acc.product (bot : Int) (a : Acc) (x y : XNum) : Acc :=
  match x, y with
  | .fin n1 m1 e1, .fin n2 m2 e2 =>
    let m := m1 * m2
    let e := e1 + e2
    let k := roundMag .down m e bot
    let lost := decide (e < bot) && decide (m % 2 ^ (bot - e).toNat ≠ 0)
    ⟨a.sum + signed (n1 ^^ n2) k, a.trunc + b2n lost⟩
  | _, _ => a

/-- The exact wide sum of an output before rounding, its truncation count, and whether it is NaN (R41-R44). -/
structure WideOut where
  val : XNum
  trunc : Nat
  deriving DecidableEq, Repr, Inhabited

/-- Whether a block with summary 0xFF contributes to output (i, j) (R44). -/
def MatD.poisoned (d : MatD) (m : Nat → Byte) (i j : Nat) : Bool :=
  (List.range d.red).any fun k =>
    let a := d.posA i k
    let b := d.posB k j
    decide (d.rA.sumAt m a.1 a.2 = 0xFF) || decide (d.rB.sumAt m b.1 b.2 = 0xFF)

/-- A's element for output row `i` and reduction position `k` as it enters cells and score sums: zero in a block with summary 0xFF
(R42). -/
def MatD.feedA (d : MatD) (m : Nat → Byte) (i k : Nat) : XNum :=
  let a := d.posA i k
  if d.rA.sumAt m a.1 a.2 = 0xFF then .zero else d.rA.valAt d.fA m a.1 a.2

/-- B's element for reduction position `k` and output column `j`, likewise (R42). -/
def MatD.feedB (d : MatD) (m : Nat → Byte) (k j : Nat) : XNum :=
  let b := d.posB k j
  if d.rB.sumAt m b.1 b.2 = 0xFF then .zero else d.rB.valAt d.fB m b.1 b.2

/-- The accumulation of output (i, j) over its first `n` reduction positions, in units of its window bottom (R39, R42). -/
def MatD.sum (d : MatD) (m : Nat → Byte) (i j n : Nat) (bot : Int) : Acc :=
  (List.range n).foldl (fun acc k =>
    (pieces d.fA.cls (d.feedA m i k)).foldl (fun acc x =>
      (pieces d.fA.cls (d.feedB m k j)).foldl (fun acc y => acc.product bot x y) acc) acc) {}

/-- The accumulator of output (i, j) once its sum is complete, with its window bottom: the exact sum, and what faults of the array
leave in it (R39-R42). -/
def MatD.accum (d : MatD) (m : Nat → Byte) (fl : List Flaw) (i j : Nat) : Option (Int × Acc) :=
  (d.bottom m i j).map fun bot =>
    let a := d.sum m i j d.red bot
    (bot, { a with sum := a.sum + ((fl.filter fun f => decide (f.row = i ∧ f.col = j)).map Flaw.delta).sum })

/-- Output (i, j) (R39-R44). -/
def MatD.out (d : MatD) (m : Nat → Byte) (fl : List Flaw) (i j : Nat) : WideOut :=
  let (v, t) := match d.accum m fl i j with
    | none => (XNum.zero, 0)
    | some (bot, a) => (if a.sum = 0 then XNum.zero else XNum.ofInt a.sum bot, a.trunc)
  ⟨if d.poisoned m i j then .nan else v, t⟩

/-- The instruction's WINDOW_TRUNC count (R42). -/
def MatD.trunc (d : MatD) (m : Nat → Byte) : Nat :=
  (List.range d.rows).foldl (fun n i => (List.range d.cols).foldl (fun n j => n + (d.out m [] i j).trunc) n) 0

/-! ### Groups and what is written (R79, R95) -/

/-- How many sets of outputs an instruction checks, by fold width (R95). -/
def MatD.groups (d : MatD) (w : Nat) : Nat :=
  if d.flow = 0 then cdiv d.cols w * cdiv d.rows 16 else cdiv d.rows d.fA.cls.depth * cdiv d.cols w

/-- The checked set that output (i, j) belongs to, counted in the order of checking (R79, R95). -/
def MatD.groupOf (d : MatD) (w i j : Nat) : Nat :=
  if d.flow = 0 then j / w * cdiv d.rows 16 + i / 16 else i / d.fA.cls.depth * cdiv d.cols w + j / w

/-- The output rows of checked set `n`: 16 streamed rows, or the rows of a fold (R95). -/
def MatD.setRows (d : MatD) (w n : Nat) : List Nat :=
  let h := if d.flow = 0 then 16 else d.fA.cls.depth
  let k := if d.flow = 0 then n % cdiv d.rows 16 else n / cdiv d.cols w
  ((List.range h).map (k * h + ·)).filter fun i => decide (i < d.rows)

/-- The column fold of checked set `n` (R79, R95). -/
def MatD.setFold (d : MatD) (w n : Nat) : Nat := if d.flow = 0 then n / cdiv d.rows 16 else n % cdiv d.cols w

/-- The output columns of checked set `n` on array `a` of the unit: those of the fold; a gang's arrays hold 256 each (R87, R95). -/
def MatD.setCols (d : MatD) (w n a : Nat) : List Nat :=
  ((List.range (Nat.min w 256)).map (d.setFold w n * w + a * 256 + ·)).filter fun j => decide (j < d.cols)

/-- GROUP of FAULTLOC for a checked set (R104). -/
def MatD.groupField (d : MatD) (w g : Nat) : Nat := if d.flow = 0 then g % cdiv d.rows 16 else g / cdiv d.cols w

/-! ### Score checksums (R91-R95, log entry 26) -/

/-- The exact sum of finite values. -/
def xsum (l : List XNum) : XNum := l.foldl numAdd .zero

/-- A value in the 192 bits of score arithmetic (R93). -/
def wrap192 (v : Int) : Int := v.bmod (2 ^ 192)

/-- The terms of the score column for output row `i`: A[i, k] with the sum of B's row k over the columns (R91, R92). -/
def MatD.rowTerms (d : MatD) (m : Nat → Byte) (cols : List Nat) (i : Nat) : List (XNum × XNum) :=
  (List.range d.red).map fun k => (d.feedA m i k, xsum (cols.map (d.feedB m k)))

/-- The terms of the score row for output column `j`: the sum of A over the rows at k with B[k, j] (R91, R92). -/
def MatD.colTerms (d : MatD) (m : Nat → Byte) (rows : List Nat) (j : Nat) : List (XNum × XNum) :=
  (List.range d.red).map fun k => (xsum (rows.map fun i => d.feedA m i k), d.feedB m k j)

/-- The largest window bottom among accumulators (R93). -/
def maxBottom (accs : List (Int × Acc)) : Option Int := accs.foldl (fun b a => maxOpt b a.1) none

/-- A score: the sum of its terms in units of the lowest weight, with its score truncation count t_s (R93). -/
def scoreSum (low : Int) (terms : List (XNum × XNum)) : Acc :=
  let a := terms.foldl (fun (a : Acc) t => a.product low t.1 t.2) {}
  { a with sum := wrap192 a.sum }

/-- The score S as a value (R93). -/
def scoreVal (accs : List (Int × Acc)) (terms : List (XNum × XNum)) : XNum :=
  match maxBottom accs with
  | none => .zero
  | some b => XNum.ofInt (scoreSum (b - 56) terms).sum (b - 56)

/-- Whether a check of outputs with these accumulators reports a mismatch: |S - U| > t_o · 2^B_max + t_s · 2^(B_max - 56)
(R94). -/
def scoreFails (accs : List (Int × Acc)) (terms : List (XNum × XNum)) : Bool :=
  match maxBottom accs with
  | none => false
  | some b =>
    let low := b - 56
    let u := xsum (accs.map fun a => XNum.ofInt a.2.sum a.1)
    let tol : Nat := (accs.map fun a => a.2.trunc).sum * 2 ^ 56 + (scoreSum low terms).trunc
    numLt (XNum.ofInt tol low) (numAdd (scoreVal accs terms) (numNeg u)).abs

/-- The accumulators of the outputs of row `i` in columns, and of column `j` in rows. -/
def MatD.rowAccs (d : MatD) (m : Nat → Byte) (fl : List Flaw) (cols : List Nat) (i : Nat) : List (Int × Acc) :=
  cols.filterMap fun j => d.accum m fl i j
def MatD.colAccs (d : MatD) (m : Nat → Byte) (fl : List Flaw) (rows : List Nat) (j : Nat) : List (Int × Acc) :=
  rows.filterMap fun i => d.accum m fl i j

/-- What the score checks report: the first failing set, in the order of checking, the array of the unit that finds it, and the
lowest output column that its score row reports (R95). -/
structure ScoreFault where
  group : Nat
  array : Nat
  col : Option Nat
  deriving DecidableEq, Repr, Inhabited

/-- The checks of set `n` on array `a` of the unit: the lowest column that fails, within the reports of a failing set (R91-R95). -/
def MatD.setCheck (d : MatD) (m : Nat → Byte) (fl : List Flaw) (w n a : Nat) : Option ScoreFault :=
  let rows := d.setRows w n
  let cols := d.setCols w n a
  let bad := cols.find? fun j => scoreFails (d.colAccs m fl rows j) (d.colTerms m rows j)
  if bad.isSome || rows.any (fun i => scoreFails (d.rowAccs m fl cols i) (d.rowTerms m cols i)) then some ⟨n, a, bad⟩ else none

/-- What the checks of an instruction report (R91-R95): nothing where every set passes. -/
def MatD.verdict (d : MatD) (m : Nat → Byte) (fl : List Flaw) (w : Nat) : Option ScoreFault :=
  (List.range (d.groups w)).findSome? fun n => (List.range (cdiv w 256)).findSome? fun a => d.setCheck m fl w n a

/-- The logical output element at a place of the output's storage (R76). -/
def MatD.logical (d : MatD) (r c : Nat) : Nat × Nat := if d.trOut then (c, r) else (r, c)

/-- The outputs of a stored block. -/
def MatD.blockOuts (d : MatD) (r b : Nat) : List (Nat × Nat) := (List.range 32).map fun k => d.logical r (b * 32 + k)

/-- The blocks of the output that are written when the checked sets before `lim` have passed, with what each holds: a block
is written once every output it holds has passed (R95). -/
def MatD.written (d : MatD) (m : Nat → Byte) (fl : List Flaw) (w lim : Nat) : List (Nat × Nat × OutBlk) :=
  (List.range d.rO.sr).flatMap fun r => (List.range d.rO.nb).filterMap fun b =>
    let os := d.blockOuts r b
    if os.all fun o => decide (d.groupOf w o.1 o.2 < lim) then
      some (r, b, d.fO.write (os.map fun o => ((d.out m fl o.1 o.2).val, Round.nearest)))
    else none

/-- The bytes of the written blocks; once every set has passed, the planes are padded (R172). -/
def MatD.stores (d : MatD) (m : Nat → Byte) (fl : List Flaw) (w lim : Nat) : List (Nat × Byte) :=
  ((d.written m fl w lim).flatMap fun x => d.rO.blkBytes d.fO x.1 x.2.1 x.2.2) ++
    (if d.groups w ≤ lim then (List.range d.rO.sr).flatMap (d.rO.padBytes d.fO) else [])

/-- The contributions of the sets from `lo` up to `hi` of an ACC instruction, as (address, value), each scaled by its
tensor's pre-scale (R48, R58, R95). -/
def MatD.contributions (d : MatD) (m : Nat → Byte) (fl : List Flaw) (w lo hi : Nat) (p : Int) : List (Nat × XNum) :=
  (List.range d.rows).flatMap fun i => (List.range d.cols).filterMap fun j =>
    let g := d.groupOf w i j
    if lo ≤ g ∧ g < hi then some (d.oAddr + i * d.oStride + j * 8, ((d.out m fl i j).val).scale p) else none

/-! ### What the grid holds (R71, R72, R79, R81, R87, log entries 27 and 29) -/

/-- Weights that a cell holds: consecutive reduction positions of one output column (R72). -/
def MatD.perCell (d : MatD) : Nat := d.fA.cls.depth / 256

/-- Weight loads of a FLOW 0 instruction by number: column fold, chunk, reduction fold, and the weight piece of FP32 (R74,
R79). -/
def MatD.loadCounts (d : MatD) (w : Nat) : Nat × Nat × Nat × Nat :=
  (cdiv d.cols w, if d.red ≤ d.fA.cls.depth then 1 else cdiv d.rows 256, cdiv d.red d.fA.cls.depth, if d.fA.cls = .fp32 then 3 else 1)

/-- How many weight loads an instruction takes: none in FLOW 1 (R75, R79). -/
def MatD.loads (d : MatD) (w : Nat) : Nat :=
  let (cf, rc, rf, pc) := d.loadCounts w
  if d.flow = 0 then cf * rc * rf * pc else 0

/-- The weight at reduction position `k` and output column `j`, in element units, with its block's scale byte; for FP32 its piece
`q`. A position beyond the tile holds zero (R72, R74, R78). -/
def MatD.weight (d : MatD) (m : Nat → Byte) (k j q : Nat) : XNum × Nat :=
  if k < d.red ∧ j < d.cols then
    let b := d.posB k j
    ((pieces d.fA.cls (d.rB.elemAt d.fB m b.1 b.2)).getD q .zero,
      if d.fB.mx then (m (d.rB.scaleAddr b.1 (b.2 / 32))).toNat else 0x7F)
  else (.zero, 0x7F)

/-- The weights of load `n` on array `a` of the unit, cell by cell (R71, R72, R79, R81). -/
def MatD.loadWeights (d : MatD) (m : Nat → Byte) (w a n : Nat) : List (Nat × List (XNum × Nat)) :=
  let (_, rc, rf, pc) := d.loadCounts w
  let fold := n / (rc * rf * pc)
  let red := n / pc % rf * d.fA.cls.depth
  (List.range 256).flatMap fun r => (List.range (Nat.min w 256)).map fun c =>
    (r * 256 + c, (List.range d.perCell).map fun q => d.weight m (red + r * d.perCell + q) (fold * w + a * 256 + c) (n % pc))

/-- The accumulators of rows and columns, row by row. -/
def MatD.bank (d : MatD) (m : Nat → Byte) (fl : List Flaw) (rows cols : List Nat) : Bank :=
  rows.flatMap fun i => cols.map fun j => (d.accum m fl i j).map fun x => (x.1, x.2.sum)

/-- Rows of the chunk of 256 that holds set `n` of a FLOW 0 instruction (R79). -/
def MatD.chunkRows (d : MatD) (n : Nat) : List Nat :=
  ((List.range 256).map (n % cdiv d.rows 16 / 16 * 256 + ·)).filter fun i => decide (i < d.rows)

/-- The grid of array `a` of the unit when set `n` has been checked: the weights of the set's last fold with their row sums, the bank
or the lanes that hold the set, the scores of its columns. -/
def MatD.gridAt (d : MatD) (m : Nat → Byte) (fl : List Flaw) (w a n : Nat) (g : Grid) : Grid :=
  let rows := d.setRows w n
  let cols := d.setCols w n a
  let (_, rc, rf, pc) := d.loadCounts w
  let load := (d.setFold w n + 1) * (rc * rf * pc) - 1
  let red := (rf - 1) * d.fA.cls.depth
  let g : Grid := { g with
    shadow := [], loads := none, filling := none, swapped := [], stallCounted := false, lineWaits := 0,
    scoreRow := cols.map fun j => scoreVal (d.colAccs m fl rows j) (d.colTerms m rows j) }
  if d.flow = 0 then
    let k : Fin 2 := Fin.ofNat 2 (d.setFold w n * cdiv d.rows 256 + n % cdiv d.rows 16 / 16)
    { g with
      active := d.loadWeights m w a load, lanes := [], banks := g.banks.set k (d.bank m fl (d.chunkRows n) cols),
      scoreCol := (List.range (Nat.min d.fA.cls.depth (d.red - red))).map fun k => xsum (cols.map (d.feedB m (red + k))) }
  else { g with
    active := [], lanes := d.bank m fl rows cols
    scoreCol := rows.map fun i => scoreVal (d.rowAccs m fl cols i) (d.rowTerms m cols i) }

/-- The grid of array `a` of the unit when load `n` begins: where its fold starts new outputs, the accumulating bank holds their window
tops and no sums yet (R81). -/
def MatD.topsAt (d : MatD) (m : Nat → Byte) (w a n : Nat) (g : Grid) : Grid :=
  let (_, rc, rf, pc) := d.loadCounts w
  if n % (rf * pc) ≠ 0 then g
  else
    let fold := n / (rf * pc) / rc
    let chunk := n / (rf * pc) % rc
    let rows := ((List.range 256).map (chunk * 256 + ·)).filter fun i => decide (i < d.rows)
    let cols := ((List.range (Nat.min w 256)).map (fold * w + a * 256 + ·)).filter fun j => decide (j < d.cols)
    let k : Fin 2 := Fin.ofNat 2 (fold * cdiv d.rows 256 + chunk)
    { g with banks := g.banks.set k (rows.flatMap fun i => cols.map fun j => (d.bottom m i j).map fun b => (b, 0)) }

/-- The operand blocks, as their bytes with their plane bytes, that set `n` reads: those of its rows of A and of its columns of B over the
whole reduction (R75, R95). -/
def MatD.setReads (d : MatD) (w n : Nat) : List Nat :=
  let blk := fun (r : Rect) (f : Fmt) (p : Nat × Nat) =>
    span (r.blockAddr f p.1 (p.2 / 32)) f.blockBytes ++ [r.sumAddr p.1 (p.2 / 32)] ++ (if f.mx then [r.scaleAddr p.1 (p.2 / 32)] else [])
  let cols := ((List.range w).map (d.setFold w n * w + ·)).filter fun j => decide (j < d.cols)
  (List.range d.red).flatMap fun k =>
    (d.setRows w n).flatMap (fun i => blk d.rA d.fA (d.posA i k)) ++ cols.flatMap fun j => blk d.rB d.fB (d.posB k j)

/-- How many sets are checked before the first that reads a failing byte (R190). -/
def MatD.setsBefore (d : MatD) (w : Nat) (fails : Nat → Bool) : Nat :=
  ((List.range (d.groups w)).takeWhile fun n => !(d.setReads w n).any fails).length

/-- What rests in the gradient buffer from set `n` of a ganged instruction, as (offset, byte): for each output of its chunk and
column fold the sum over all but the last reduction fold, and the window top (R39, R87). -/
def MatD.restAt (d : MatD) (m : Nat → Byte) (w n : Nat) : List (Nat × Byte) :=
  let fold := d.setFold w n
  let part := (cdiv d.red d.fA.cls.depth - 1) * d.fA.cls.depth
  let base := (fold * cdiv d.rows 256 + n % cdiv d.rows 16 / 16) % 2 * 0x400000
  (indexed (d.chunkRows n)).flatMap fun i => ((List.range w).filter fun c => decide (fold * w + c < d.cols)).flatMap fun c =>
    let (top, sum) : Int × Int := match d.bottom m i.2 (fold * w + c) with
      | none => (0, 0)
      | some bot => (bot + 95, (d.sum m i.2 (fold * w + c) part bot).sum)
    (indexed (leBytes 14 (toTwos 112 sum) ++ leBytes 2 (toTwos 16 top))).map fun b => (base + (i.1 * 1024 + c) * 16 + b.1, b.2)

/-- What a ganged instruction leaves in the gradient buffer when it has checked the sets before `lim` (R87). -/
def MatD.rests (d : MatD) (m : Nat → Byte) (w lim : Nat) : List (Nat × Byte) :=
  if w = 1024 ∧ d.fA.cls.depth < d.red then
    ((List.range lim).filter fun n => decide (n % cdiv d.rows 16 % 16 = 0)).flatMap (d.restAt m w)
  else []

end Sys2Proof.Machine
end

