-- ==== Sys2Proof/Machine/Wire.lean ====
section
/-! DEFINITION. Frames as they stand on the wire: check sequences, tags, IP, UDP and RoCEv2 headers (R278, R281, R282, R284, R287,
R299). The formats are those of the standards that the rules name (log entry 39). -/

namespace Sys2Proof.Machine

/-! ### Check sequences -/

/-- One bit of the CRC-32 of IEEE 802.3, least significant bit first. -/
def crcBit (c : Nat) : Nat := if c % 2 = 1 then (c / 2) ^^^ 0xEDB88320 else c / 2

/-- One byte of the CRC-32. -/
def crcByte (c : Nat) (b : Byte) : Nat :=
  crcBit (crcBit (crcBit (crcBit (crcBit (crcBit (crcBit (crcBit (c ^^^ b.toNat))))))))

/-- The CRC-32 of IEEE 802.3 over bytes. -/
def crc32 (b : List Byte) : Nat := b.foldl crcByte 0xFFFFFFFF ^^^ 0xFFFFFFFF

/-- The four bytes of a check sequence over bytes, as they follow them: the FCS of a frame (R278), the ICRC of a packet (R299). -/
def checkBytes (b : List Byte) : List Byte := leBytes 4 (crc32 b)

/-- Ones' complement sum of 16-bit words; the number is how many. -/
def onesSum : Nat → List Byte → Nat
  | 0, _ => 0
  | n + 1, b => beNat (slice b 0 2) + onesSum n (b.drop 2)

/-- The Internet checksum over bytes. -/
def inetSum (b : List Byte) : Nat :=
  let x := onesSum (cdiv b.length 2) b
  let y := x % 65536 + x / 65536
  65535 - (y % 65536 + y / 65536)

/-! ### Addresses -/

/-- An IPv4 address in the IPv4-mapped form (R304). -/
def mapped (a : List Byte) : List Byte := List.replicate 10 0 ++ [0xFF, 0xFF] ++ a

/-- Whether 16 bytes are an IPv4-mapped address. -/
def isV4 (a : List Byte) : Bool := a.take 12 = mapped []

/-! ### IP and UDP (R287) -/

/-- An IPv4 packet of a protocol: DF set, header checksum generated; `tos` holds DSCP and ECN. -/
def ipv4Packet (tos proto : Nat) (src dst payload : List Byte) : List Byte :=
  let head := fun (sum : Nat) => beBytes 1 0x45 ++ beBytes 1 tos ++ beBytes 2 (20 + payload.length) ++ beBytes 4 0x4000 ++
    beBytes 1 64 ++ beBytes 1 proto ++ beBytes 2 sum ++ src ++ dst
  head (inetSum (head 0)) ++ payload

/-- An IPv6 packet of a next header; `tc` holds DSCP and ECN. -/
def ipv6Packet (tc next hops : Nat) (src dst payload : List Byte) : List Byte :=
  beBytes 4 (0x60000000 + tc * 2 ^ 20) ++ beBytes 2 payload.length ++ beBytes 1 next ++ beBytes 1 hops ++ src ++ dst ++ payload

/-- The pseudo-header of a checksum over an upper-layer protocol, addresses in 4 or 16 bytes. -/
def pseudoHeader (proto len : Nat) (src dst : List Byte) : List Byte := src ++ dst ++ beBytes 4 len ++ beBytes 4 proto

/-- An ICMPv6 message in an IPv6 packet with its checksum. -/
def icmp6Packet (tc : Nat) (src dst body : List Byte) : List Byte :=
  let sum := inetSum (pseudoHeader 58 body.length src dst ++ body)
  ipv6Packet tc 58 255 src dst (body.take 2 ++ beBytes 2 sum ++ body.drop 4)

/-- A UDP datagram between addresses of 4 or 16 bytes; `sum`: its checksum is generated, else it is 0. -/
def udpDatagram (src dst : List Byte) (sport dport : Nat) (sum : Bool) (payload : List Byte) : List Byte :=
  let n := 8 + payload.length
  let head := fun (k : Nat) => beBytes 2 sport ++ beBytes 2 dport ++ beBytes 2 n ++ beBytes 2 k
  let c := inetSum (pseudoHeader 17 n src dst ++ head 0 ++ payload)
  head (if !sum then 0 else if c = 0 then 65535 else c) ++ payload

/-- A UDP datagram in an IP packet between addresses of 16 bytes, with its EtherType (R287, R310). -/
def udpPacket (tos : Nat) (src dst : List Byte) (sport dport : Nat) (sum4 : Bool) (payload : List Byte) : Nat × List Byte :=
  if isV4 dst then
    let a := src.drop 12
    let b := dst.drop 12
    (0x0800, ipv4Packet tos 17 a b (udpDatagram a b sport dport sum4 payload))
  else (0x86DD, ipv6Packet tos 17 64 src dst (udpDatagram src dst sport dport true payload))

/-! ### RoCEv2 packets (R299) -/

/-- Opcodes of the reliable-connected service. -/
def opSendFirst : Nat := 0x00
def opSendMiddle : Nat := 0x01
def opSendLast : Nat := 0x02
def opSendOnly : Nat := 0x04
def opWriteFirst : Nat := 0x06
def opWriteMiddle : Nat := 0x07
def opWriteLast : Nat := 0x08
def opWriteOnly : Nat := 0x0A
def opReadRequest : Nat := 0x0C
def opReadFirst : Nat := 0x0D
def opReadMiddle : Nat := 0x0E
def opReadLast : Nat := 0x0F
def opReadOnly : Nat := 0x10
def opAck : Nat := 0x11
def opFlush : Nat := 0x1C
def opCnp : Nat := 0x81

/-- First, middle, last or only packet `i` of `n`, of a message whose four opcodes stand in that order. -/
def pktOp (first middle last only i n : Nat) : Nat :=
  if n ≤ 1 then only else if i = 0 then first else if i + 1 = n then last else middle

/-- Whether an opcode is a requester's. -/
def isRequest (op : Nat) : Bool := op ≤ 0x0C || op = opFlush || decide (0x12 < op ∧ op < 0x1C) || decide (0x1C < op ∧ op < 0x20)

/-- Whether a port's engine takes a packet with an opcode: a request, a response or a CNP of the reliable-connected service (R299). A packet of any
other service, or an atomic acknowledgement, which answers nothing that a port requests, is none. -/
def roceTakes (op : Nat) : Bool := isRequest op || decide (opReadFirst ≤ op ∧ op ≤ opAck) || decide (op = opCnp)

/-- The base transport header; the packet asks for an acknowledgement with its message's last packet. -/
def bth (op destQp psn pad : Nat) (ack : Bool) : List Byte :=
  beBytes 1 op ++ beBytes 1 (0x40 + pad * 16) ++ beBytes 2 0xFFFF ++ beBytes 4 destQp ++ beBytes 4 (b2n ack * 2 ^ 31 + psn)

/-- The RDMA extended transport header. -/
def reth (va rkey len : Nat) : List Byte := beBytes 8 va ++ beBytes 4 rkey ++ beBytes 4 len

/-- The flush extended transport header: persistence placement over a range of a region. -/
def feth : List Byte := beBytes 4 2

/-- The acknowledge extended transport header. -/
def aeth (syndrome msn : Nat) : List Byte := beBytes 4 (syndrome * 2 ^ 24 + msn % 2 ^ 24)

/-- The invariant CRC of a packet: over its IP packet with the fields that may change on the way set to ones. -/
def icrc (ip : List Byte) : List Byte :=
  let ones := List.replicate 8 (0xFF : Byte)
  let set := fun (b : List Byte) (o k : Nat) => b.take o ++ List.replicate k 0xFF ++ b.drop (o + k)
  if nbits (rdLE ip 0 1) 7 4 = 4 then checkBytes (ones ++ set (set (set (set (set ip 1 1) 8 1) 10 2) 26 2) 32 1)
  else checkBytes (ones ++ set (set (set (set ([BitVec.ofNat 8 0x6F] ++ ip.drop 1) 1 3) 7 1) 46 2) 52 1)

/-- A RoCEv2 packet in an IP packet, its ICRC included. The ICRC leaves the UDP checksum out, and the checksum takes the ICRC in (R287). -/
def rocePacket (tos : Nat) (src dst : List Byte) (sport : Nat) (bytes : List Byte) : Nat × List Byte :=
  let p := (udpPacket tos src dst sport 4791 false (bytes ++ List.replicate 4 0)).2
  udpPacket tos src dst sport 4791 false (bytes ++ icrc (p.take (p.length - 4)))

/-! ### A received frame taken apart (R282, R284) -/

/-- The network header of a received frame; an `options` header carries IPv4 options or IPv6 extension headers. -/
structure IpHeader where
  v6 : Bool
  src : List Byte
  dst : List Byte
  headerOk : Bool
  options : Bool
  fragment : Bool
  ecn : Nat
  proto : Nat
  udpSrc : Nat
  udpDst : Nat
  udpChecksumZero : Bool
  udpChecksumOk : Bool
  udpLength : Nat
  deriving DecidableEq, Repr, Inhabited

/-- A received frame: length on the wire, addresses, tags as (TPID, control field), type, network header, and its payload past the
headers; `stripped` is the frame without its tags, `packet` its IP packet. -/
structure RxFrame where
  wireLen : Nat
  fcsOk : Bool
  dst : List Byte
  src : List Byte
  tags : List (Nat × Nat)
  etherType : Nat
  pfc : Option (Nat × List Nat)
  ip : Option IpHeader
  packet : List Byte
  payload : List Byte
  stripped : List Byte
  deriving DecidableEq, Repr, Inhabited

/-- The tags after the addresses, and what follows them. The number is fuel. -/
def splitTags : Nat → List Byte → List (Nat × Nat) × List Byte
  | 0, b => ([], b)
  | n + 1, b =>
    let ty := beNat (slice b 0 2)
    if ty = 0x8100 ∨ ty = 0x88A8 then
      let r := splitTags n (b.drop 4)
      ((ty, beNat (slice b 2 2)) :: r.1, r.2)
    else ([], b)

/-- The upper-layer part of a packet in a network header. -/
def ipUpper (v6 : Bool) (b : List Byte) : List Byte :=
  if v6 then (b.drop 40).take (beNat (slice b 4 2))
  else let n := nbits (rdLE b 0 1) 3 0 * 4; (b.drop n).take (beNat (slice b 2 2) - n)

/-- IPv6 next headers that are extension headers. -/
def extensionHeaders : List Nat := [0, 43, 44, 50, 51, 60, 135, 139, 140]

/-- The network header of an IP packet (R284, R287). -/
def ipHeaderOf (v6 : Bool) (b : List Byte) : IpHeader :=
  let u := ipUpper v6 b
  let proto := if v6 then rdLE b 6 1 else rdLE b 9 1
  let src := if v6 then slice b 8 16 else slice b 12 4
  let dst := if v6 then slice b 24 16 else slice b 16 4
  let n := nbits (rdLE b 0 1) 3 0 * 4
  let total := beNat (slice b 2 2)
  let sum := beNat (slice u 6 2)
  { v6 := v6, src := src, dst := dst, proto := proto
    headerOk := if v6 then decide (nbits (rdLE b 0 1) 7 4 = 6 ∧ 40 + beNat (slice b 4 2) ≤ b.length)
      else decide (nbits (rdLE b 0 1) 7 4 = 4 ∧ 20 ≤ n ∧ n ≤ total ∧ total ≤ b.length ∧ inetSum (b.take n) = 0)
    options := if v6 then extensionHeaders.contains proto else decide (20 < n)
    fragment := if v6 then decide (proto = 44) else decide (beNat (slice b 6 2) % 0x4000 ≠ 0)
    ecn := if v6 then nbits (beNat (slice b 0 4)) 21 20 else nbits (rdLE b 1 1) 1 0
    udpSrc := beNat (slice u 0 2), udpDst := beNat (slice u 2 2), udpChecksumZero := decide (sum = 0)
    udpChecksumOk := decide (inetSum (pseudoHeader 17 (beNat (slice u 4 2)) src dst ++ u.take (beNat (slice u 4 2))) = 0)
    udpLength := beNat (slice u 4 2) }

/-- What a PFC frame carries: its class-enable vector and eight pause times. -/
def pfcOf (ty : Nat) (b : List Byte) : Option (Nat × List Nat) :=
  if ty = 0x8808 ∧ beNat (slice b 0 2) = 0x0101 then
    some (beNat (slice b 2 2) % 256, (List.range 8).map fun c => beNat (slice b (4 + 2 * c) 2))
  else none

/-- A frame from its bytes on the wire, destination address through FCS (R278); `sound` tells that the PCS and the FEC found nothing
wrong with them (R277, R284). -/
def parseFrame (sound : Bool) (b : List Byte) : RxFrame :=
  let body := b.take (b.length - 4)
  let t := splitTags body.length (body.drop 12)
  let ty := beNat (slice t.2 0 2)
  let rest := t.2.drop 2
  let v6 := decide (ty = 0x86DD)
  let ip := if ty = 0x0800 ∨ ty = 0x86DD then some (ipHeaderOf v6 rest) else none
  { wireLen := b.length, fcsOk := sound && decide (b.drop (b.length - 4) = checkBytes body), dst := slice b 0 6, src := slice b 6 6
    tags := t.1, etherType := ty, pfc := pfcOf ty rest, ip := ip, packet := rest
    payload := match ip with
      | some h => let u := ipUpper v6 rest; if h.proto = 17 then (u.drop 8).take (h.udpLength - 8) else u
      | none => rest
    stripped := b.take 12 ++ t.2 ++ b.drop (b.length - 4) }

end Sys2Proof.Machine
end

