-- ==== Sys2Proof/Machine/Ports.lean ====
section
/-! DEFINITION. Operations of the port dies: configuration of subports, counters, frames to send, gates and the port clock
(R274-R297). -/

namespace Sys2Proof.Machine

/-! ### Configuration in force (R382) -/

/-- Field `n` of a configuration record, counted along its row (R382): the port of a PORT record is its byte 0; where the row gives no places,
the layout is the part's own (log entry 9). -/
def recField (ty n : Nat) (v : List Byte) : Nat := if ty = 0x20 ∧ n = 0 then rdLE v 0 1 else Config.recordField ty n v

/-- The records of a type in the configuration in force. -/
def State.cfgRecs (s : State) (ty : Nat) : List (List Byte) := (s.mc.cfg.filter fun r => r.1 = ty).map Prod.snd

/-- The SUBPORT_ADDR record of a subport. -/
def State.subRec (s : State) (t q : Nat) : Option (List Byte) :=
  (s.cfgRecs 0x22).find? fun v => recField 0x22 0 v = t ∧ recField 0x22 1 v = q

/-- Field `i` of a subport's SUBPORT_ADDR record, 0 without one. -/
def State.subField (s : State) (t q i : Nat) : Nat := ((s.subRec t q).map fun v => recField 0x22 i v).getD 0

/-- The unicast MAC address of a subport (R280). -/
def State.subMac (s : State) (t q : Nat) : List Byte := beBytes 6 (s.subField t q 2)

/-- The IP addresses of a subport as 16 bytes each: its IPv4 address and up to two IPv6 addresses (R287). -/
def State.subIps (s : State) (t q : Nat) : List (List Byte) :=
  (if s.subField t q 3 = 0 then [] else [mapped (beBytes 4 (s.subField t q 3))]) ++
    (([5, 7].map fun i => s.subField t q i).filter (· ≠ 0)).map (beBytes 16)

/-- The PORT_CLASS record of a class of a subport. -/
def State.classRec (s : State) (t q c : Nat) : Option (List Byte) :=
  (s.cfgRecs 0x21).find? fun v =>
    recField 0x21 0 v = t ∧ recField 0x21 1 v = q ∧ recField 0x21 2 v = c

/-- XON and XOFF of a class in bytes (R297): fields 8 and 9 of its record. -/
def State.classField (s : State) (t q c i : Nat) : Nat := ((s.classRec t q c).map fun v => recField 0x21 i v).getD 0

/-- Subports of a port's mode (R274). -/
def State.subCount (s : State) (t : Nat) : Nat :=
  match s.regFld (portCtl t) 1 0 with
  | 0 => 1
  | 1 => 2
  | _ => 4

/-- Receive buffer of a port die in bytes (R279). -/
def rxBuffer : Nat := 8388608

/-- Transmit buffer of a port die in bytes (R279). -/
def txBuffer : Nat := 4194304

/-- Shares that a port's PORT_CLASS records give. -/
def State.givenShares (s : State) (t : Nat) : List Nat :=
  ((s.cfgRecs 0x21).filter fun v => decide (recField 0x21 0 v = t)).map (recField 0x21 7)

/-- Share of a class in the receive buffer (R279): field 7 of its record; the classes without one share evenly what the records leave of the
buffer's 8 MiB (log entry 40). -/
def State.classShare (s : State) (t q c : Nat) : Nat :=
  match s.classRec t q c with
  | some v => recField 0x21 7 v
  | none => (rxBuffer - (s.givenShares t).foldl (· + ·) 0) / (8 * s.subCount t - (s.givenShares t).length)

/-- Field `i` of a port's PTP record, 0 without one: MODE 1, transport 2, STEP_LIMIT 3, PERIOD 4, PULSE_NS 5. -/
def State.ptpField (s : State) (t i : Nat) : Nat :=
  (((s.cfgRecs 0x25).find? fun v => recField 0x25 0 v = t).map fun v => recField 0x25 i v).getD 0

/-! ### Ports -/

/-- The state with a port changed through `f`. -/
def State.updPort (s : State) (t : PortId) (f : Port → Port) : State := { s with ports := s.ports.set t (f s.ports[t]) }

/-- Port counter `n` advances by `k` (R302). -/
def State.portCount (s : State) (t : PortId) (n k : Nat) : State := s.count (portCnt t n) k

/-- A 64-bit port counter in the pair `n`, `n + 1` advances by `k`. -/
def State.portCount2 (s : State) (t : PortId) (n k : Nat) : State := s.count64 (portCnt t n) (portCnt t (n + 1)) k

/-- OT counter `n` of a port advances by `k` (R332). -/
def State.otCount (s : State) (t : PortId) (n k : Nat) : State := s.count (portOtCnt t n) k

/-- Whether the link of a subport is up (R276). -/
def State.linkUp (s : State) (t q : Nat) : Bool := bitAt (s.reg (portStat t)) q

/-- Bits per ns of a subport, the rate of R274. -/
def State.subRate (s : State) (t : Nat) : Nat :=
  match s.regFld (portCtl t) 1 0 with
  | 0 => 400
  | 1 => 200
  | _ => 100

/-- Whether a subport exists in the port's mode and is enabled (R274, R302). -/
def State.subOn (s : State) (t q : Nat) : Bool :=
  decide (q < s.subCount t) && bitAt (s.reg (portCtl t)) (16 + q)

/-- Time of a port in units of 2^-16 ns that no step of its clock moves: the MC counter, refined by the port's clock within the loop
period. -/
def State.now (s : State) (t : PortId) : Nat := s.mc.time * 65536 + (s.ports[t].clock - s.ports[t].tick)

/-- A frame joins those that wait to be sent (R279, R281, R283). -/
def State.send (s : State) (t : PortId) (f : TxFrame) : State := s.updPort t fun p => { p with tx := p.tx ++ [f] }

/-- The class of MC frames (R281). -/
def State.mgmtClass (s : State) (t : Nat) : Nat := s.regFld (portCtl t) 15 13

/-- Whether `a` lies in the prefix of `n` bits of `net`. -/
def samePrefix (n : Nat) (a net : List Byte) : Bool := beNat a / 2 ^ (128 - n) = beNat net / 2 ^ (128 - n)

/-- The next hop to an address: itself on a subport's own network, else the gateway (R287). -/
def State.nextHop (s : State) (t q : Nat) (a : List Byte) : List Byte :=
  let v4 := s.subField t q 3 ≠ 0 && samePrefix (96 + s.subField t q 4) a (mapped (beBytes 4 (s.subField t q 3)))
  let v6 := [5, 7].any fun i => s.subField t q i ≠ 0 && samePrefix (s.subField t q (i + 1)) a (beBytes 16 (s.subField t q i))
  if v4 || v6 || s.subField t q 9 = 0 then a else beBytes 16 (s.subField t q 9)

/-- The hardware address of a neighbour: static (R287) or resolved. -/
def State.neighbour (s : State) (t : PortId) (q : Nat) (a : List Byte) : Option (List Byte) :=
  match (s.cfgRecs 0x23).find? fun v => recField 0x23 0 v = t.val ∧ recField 0x23 1 v = q ∧
      beBytes 16 (recField 0x23 2 v) = a with
  | some v => some (beBytes 6 (recField 0x23 3 v))
  | none => (s.ports[t].neigh.find? fun e => e.1 = a).map Prod.snd

/-! ### Gates (R288-R291) -/

/-- Units of port time in a nanosecond. -/
def nsUnits : Nat := 65536

/-- A bank's entries `start` to `start + len - 1` as (gate states, duration). -/
def State.gateList (s : State) (t : Nat) (oper : Bool) (start len : Nat) : List (Nat × Nat) :=
  (List.range len).map fun i =>
    let at_ := fun w => if oper then portGateOper t ((start + i) % 256) w else portGateEnt t ((start + i) % 256) w
    (s.regFld (at_ 0) 7 0, (s.reg (at_ 1)).toNat * nsUnits)

/-- Entries fitted to a cycle: cut at its end, the last one holding until then (R288). -/
def fitCycle : List (Nat × Nat) → Nat → List (Nat × Nat)
  | [], _ => []
  | [(g, _)], left => [(g, left)]
  | (g, d) :: e :: r, left => if left ≤ d then [(g, left)] else (g, d) :: fitCycle (e :: r) (left - d)

/-- Whether class `c` stays open for `need` from `skip` into a run of entries. -/
def spanOpen (c : Nat) : List (Nat × Nat) → Nat → Nat → Bool
  | [], _, need => decide (need = 0)
  | (g, d) :: r, skip, need =>
    if d ≤ skip then spanOpen c r (skip - d) need
    else if need = 0 then true
    else if g.testBit c then (if need ≤ d - skip then true else spanOpen c r 0 (need - (d - skip)))
    else false

/-- The longest unbroken open run of class `c` in a list of entries: what runs now and the longest so far. -/
def longestRun (c : Nat) : List (Nat × Nat) → Nat → Nat → Nat
  | [], cur, best => Nat.max cur best
  | (g, d) :: r, cur, best => if g.testBit c then longestRun c r (cur + d) best else longestRun c r 0 (Nat.max cur best)

/-- Position of a time in the cycles of a base (R288). -/
def cyclePos (now base cycle : Nat) : Nat := (((now : Int) - (base : Int)) % ((Nat.max 1 cycle : Nat) : Int)).toNat

/-- Entry position in force and what is left of it, at a position of a cycle. -/
def entryAt : List (Nat × Nat) → Nat → Nat × Nat
  | [], _ => (0, 0)
  | (_, d) :: r, pos => if pos < d then (0, d - pos) else let e := entryAt r (pos - d); (e.1 + 1, e.2)

/-- Whether schedule `k` of a port runs. -/
def State.schedOn (s : State) (t k : Nat) : Bool := bitAt (s.reg (portGateCtl t k)) 31

/-- The schedule that gates a subport (R288). -/
def State.schedOf (s : State) (t q : Nat) : Option (Fin 2) :=
  [(0 : Fin 2), 1].find? fun k => s.schedOn t k.val && bitAt (s.reg (portGateCtl t k.val)) (24 + q)

/-- The operating list of a schedule over one cycle. -/
def State.operList (s : State) (t : PortId) (k : Fin 2) : List (Nat × Nat) :=
  let c := s.ports[t].sched[k]
  fitCycle (s.gateList t true c.start c.len) c.cycle

/-- The administrative list of a schedule over one cycle. -/
def State.adminList (s : State) (t : PortId) (k : Fin 2) : List (Nat × Nat) :=
  let w := portGateCtl t k.val
  fitCycle (s.gateList t false (s.regFld w 23 16) (s.regFld w 8 0)) ((s.reg (portGateCycle t k.val)).toNat * nsUnits)

/-- Gate states of a schedule and the entry in force at the port's time (R288, PORT_GATE_STAT). -/
def State.gateNow (s : State) (t : PortId) (k : Fin 2) : Nat × Nat :=
  let c := s.ports[t].sched[k]
  let l := s.operList t k
  if s.schedOn t k.val && !l.isEmpty then
    let e := (entryAt l (cyclePos s.ports[t].clock c.base c.cycle)).1
    ((c.start + e) % 256, (l.getD e (0xFF, 0)).1)
  else (0, 0xFF)

/-- Whether the gate of class `c` of a subport stays open for `need` from the port's time on: through the operating list, a
pending change and the next cycle (R289). -/
def State.gateOpen (s : State) (t : PortId) (q c need : Nat) : Bool :=
  match s.schedOf t q with
  | none => true
  | some k =>
    let p := s.ports[t]
    let h := p.sched[k]
    let l := s.operList t k
    if l.isEmpty then true
    else
      let pos := cyclePos p.clock h.base h.cycle
      if h.pending && decide (h.changeAt < p.clock + need) then
        let before := h.changeAt - p.clock
        let a := s.adminList t k
        spanOpen c (l ++ l ++ l) pos before && (a.isEmpty || spanOpen c (a ++ a ++ a) 0 (need - before))
      else spanOpen c (l ++ l ++ l) pos need

/-- Whether a frame of duration `need` exceeds the longest open period of its class in the operating list (R289). -/
def State.gateNever (s : State) (t : PortId) (q c need : Nat) : Bool :=
  match s.schedOf t q with
  | none => false
  | some k =>
    let l := s.operList t k
    !(l.isEmpty || l.all fun e => e.1.testBit c) && decide (longestRun c (l ++ l) 0 0 < need)

/-- DSCP of a class with an ECN codepoint, as the octet of an IP header (R287). -/
def State.tosOf (s : State) (t c ecn : Nat) : Nat := s.regFld (portTag t c) 29 24 * 4 + ecn

/-- The C-tag of a class (R281): PCP the class, DEI 0, the class's VID. -/
def State.tagOf (s : State) (t c : Nat) : List Byte :=
  if bitAt (s.reg (portTag t c)) 31 then beBytes 2 0x8100 ++ beBytes 2 (c * 8192 + s.regFld (portTag t c) 11 0) else []

/-- The UDP port of RoCEv2 packets of a queue pair as a source (log entry 39). -/
def roceSport (n : Nat) : Nat := 49152 + n % 1024

/-- Payload of a RoCEv2 packet padded to whole words. -/
def pad4 (b : List Byte) : List Byte := b ++ List.replicate ((4 - b.length % 4) % 4) 0

/-- Own address that a packet to `a` carries as its source (R287): the IPv4 address, or of the IPv6 addresses the one in whose prefix
`a` lies, else the last. -/
def State.srcIp (s : State) (t q : Nat) (a : List Byte) : List Byte :=
  if isV4 a then mapped (beBytes 4 (s.subField t q 3))
  else
    let own := [5, 7].filter fun i => s.subField t q i ≠ 0
    let i := (own.find? fun i => samePrefix (s.subField t q (i + 1)) a (beBytes 16 (s.subField t q i))).getD (own.getLastD 5)
    beBytes 16 (s.subField t q i)

/-- EtherType of a frame and what follows it (R281, R287, R297, R299, R310): OT and RoCEv2 are ECT(0), what the MC sends is not. -/
def State.frameBody (s : State) (t : PortId) (f : TxFrame) : Nat × List Byte :=
  match f.body with
  | .mc ty b => (ty, b)
  | .pfc c quanta => (0x8808, beBytes 2 0x0101 ++ beBytes 2 (2 ^ c) ++ (List.range 8).flatMap fun k => beBytes 2 (if k = c then quanta else 0))
  | .ot src dst b =>
    let port := s.regFld (portOtCtl t.val) 31 16
    udpPacket (s.tosOf t.val f.cls 2) src dst port port true b
  | .roce op psn ack ext data =>
    let n := match f.src with | .roce n => n | _ => 0
    let ctx := ((mapGet s.ports[t].qps n).getD {}).ctx
    let far := if nbits (rdLE ctx 4 4) 15 15 = 1 then slice ctx 0x10 16 else mapped (slice ctx 0x1C 4)
    rocePacket (s.tosOf t.val f.cls 2) (s.srcIp t.val f.sub.val far) far (roceSport n)
      (bth op (nbits (rdLE ctx 0 4) 23 0) psn ((4 - data.length % 4) % 4) ack ++ ext ++ pad4 data)

/-- The bytes of a frame on the wire, destination address through FCS, at least 64 (R278, R281); a PFC frame carries no tag. -/
def State.frameBytes (s : State) (t : PortId) (f : TxFrame) : List Byte :=
  let b := s.frameBody t f
  let tag := match f.body with | .pfc _ _ => [] | _ => s.tagOf t.val f.cls
  let head := slice f.mac 0 6 ++ s.subMac t.val f.sub.val ++ tag ++ beBytes 2 b.1
  let whole := head ++ b.2 ++ List.replicate (60 - (head.length + b.2.length)) 0
  whole ++ checkBytes whole

/-- Length of a frame on the wire, an inserted C-tag included (R281). -/
def State.wireLen (s : State) (t : PortId) (f : TxFrame) : Nat := (s.frameBytes t f).length

/-- Duration d of a frame in units of port time (R289). -/
def State.frameTime (s : State) (t : PortId) (f : TxFrame) : Nat := (s.wireLen t f + 20) * 8 * nsUnits / s.subRate t.val

/-- The frames that wait in the transmit buffer, whole: those that queued first, as far as it holds them (R279). The number is the
room left. -/
def State.inTxBuffer (s : State) (t : PortId) : Nat → List TxFrame → List TxFrame
  | _, [] => []
  | room, f :: r => let n := s.wireLen t f; if n ≤ room then f :: State.inTxBuffer s t (room - n) r else []

/-- The frames in a port's transmit buffer. -/
def State.stored (s : State) (t : PortId) : List TxFrame := s.inTxBuffer t txBuffer s.ports[t].tx

/-- Length of a loop period in units of port time under the frequency correction (R292, R293). -/
def State.portPeriod (s : State) (t : Nat) : Nat := (65536000000 + sext 32 (s.reg (portPtpFreq t)).toNat).toNat

/-- The port's time moves on to a moment within the loop period under way; none if it lies beyond (log entry 11). -/
def State.portReach (s : State) (t : PortId) (at_ : Nat) : Option State :=
  let p := s.ports[t]
  if p.clock ≤ at_ ∧ at_ ≤ p.tick + s.portPeriod t then some (s.updPort t fun p => { p with clock := at_ }) else none

/-! ### Links (R274-R276) -/

/-- Lanes of subport `q` of a port (R274). -/
def State.lanesOf (s : State) (t q : Nat) : List Nat :=
  let n := 4 / s.subCount t
  (List.range n).map fun k => n * q + k

/-- What a subport does to bring its link up (R275): CR and KR advertise their own type when AN_EN is 1, else train at once; a
chip-to-module subport takes the transmit equalisation of its lanes from the PORT record. -/
def State.linkStart (s : State) (t : PortId) (q : SubId) : LinkMode :=
  if !s.subOn t.val q.val then .idle
  else if s.regFld (portCtl t.val) 5 4 ≤ 1 then
    if bitAt (s.reg (portCtl t.val)) 11 then .negotiating (s.regFld (portCtl t.val) 1 0) (s.regFld (portCtl t.val) 5 4) else .training
  else
    let v := ((s.cfgRecs 0x20).find? fun v => decide (recField 0x20 0 v = t.val)).getD []
    .equalised ((s.lanesOf t.val q.val).map fun l => rdLE v (8 + l) 1)

/-- Whether a subport negotiates or trains, TRAINING of PORT_STAT (R302). -/
def LinkMode.trains : LinkMode → Bool
  | .negotiating _ _ | .training => true
  | _ => false

/-- A subport's link takes a mode, and TRAINING shows it. -/
def State.setLink (s : State) (t : PortId) (q : SubId) (m : LinkMode) : State :=
  (s.updPort t fun p => { p with links := p.links.set q m }).setFld (portStat t.val) (16 + q.val) (16 + q.val) (b2n m.trains)

/-- A subport's link goes down (R276): what the transmit buffer holds for it is discarded and counted, and the event comes. -/
def State.subDown (s : State) (t : PortId) (q : SubId) (cause : Nat) : State :=
  let held := (s.stored t).length
  let lost := (s.ports[t].tx.take held).filter fun f => decide (f.sub = q)
  let s := s.updPort t fun p => { p with
    tx := (p.tx.take held).filter (fun f => decide (f.sub ≠ q)) ++ p.tx.drop held, paused := p.paused.filter fun k => decide (k.1 / 8 ≠ q.val)
    pausing := p.pausing.filter fun k => decide (k / 8 ≠ q.val), onWire := p.onWire.filter fun e => decide (e.sub ≠ q) }
  let s := ((s.setFld (portStat t.val) q.val q.val 0).portCount t 13 lost.length).portCount t 23 1
  s.raise (.port t.val) none 0x6002 [t.val, q.val, cause]

/-- Every link of a port that is up goes down, none comes up again by itself, and what the port holds is gone (R21, R276). -/
def State.portSilent (s : State) (t : PortId) (cause : Nat) : State :=
  let s := (List.finRange 4).foldl (fun s q =>
    (if s.linkUp t.val q.val then s.subDown t q cause else s).setLink t q .idle) s
  (s.updPort t fun p => { p with tx := [], rings := [], onWire := [], otIn := [], roceIn := [], ptpIn := [], ptp := {} }).setFld
    (portStat t.val) 31 28 0

/-! ### What the MC sends (R281) -/

/-- A frame of the MC to a hardware address: an EtherType and what follows it. -/
def State.sendMc (s : State) (t : PortId) (q : SubId) (mac : List Byte) (ty : Nat) (payload : List Byte) : State :=
  s.send t ⟨q, s.mgmtClass t.val, .mc, [], mac, .mc ty payload⟩

/-- The octet of DSCP and ECN in what the MC sends: Not-ECT (R287). -/
def State.mcTos (s : State) (t : PortId) : Nat := s.tosOf t.val (s.mgmtClass t.val) 0

/-- An LLDP frame (R281): chassis and port by their MAC address, a time to live, the end (log entry 39). -/
def State.sendLldp (s : State) (t : PortId) (q : SubId) : State :=
  let mac := s.subMac t.val q.val
  s.sendMc t q [0x01, 0x80, 0xC2, 0, 0, 0x0E] 0x88CC
    (beBytes 2 (1 * 512 + 7) ++ [4] ++ mac ++ beBytes 2 (2 * 512 + 7) ++ [3] ++ mac ++ beBytes 2 (3 * 512 + 2) ++ beBytes 2 120 ++ beBytes 2 0)

/-! ### The receive buffer (R279, R297) -/

/-- Bytes that a class of a subport holds in the receive buffer. -/
def State.rxFill (s : State) (t : PortId) (q c : Nat) : Nat :=
  ((s.ports[t].otIn.filter fun f => decide (f.sub = q ∧ f.cls = c)).map OtIn.wire).foldl (· + ·) 0 +
    ((s.ports[t].roceIn.filter fun f => decide (f.sub = q ∧ f.cls = c)).map RoceIn.wire).foldl (· + ·) 0

/-- A PFC frame for a class with a number of quanta (R297). -/
def State.sendPfc (s : State) (t : PortId) (q : SubId) (c quanta : Nat) : State :=
  s.send t ⟨q, 7, .mc, [], [0x01, 0x80, 0xC2, 0, 0, 0x01], .pfc c quanta⟩

/-- The receive buffer of a class against XOFF and XON, after it has filled or drained (R297). -/
def State.pfcWatch (s : State) (t : PortId) (q : SubId) (c : Nat) : State :=
  let k := q.val * 8 + c
  let n := s.rxFill t q.val c
  if !(s.regFld (portCtl t.val) 31 24).testBit c then s
  else if s.classField t.val q.val c 9 < n ∧ !s.ports[t].pausing.contains k then
    (s.sendPfc t q c 65535).updPort t fun p => { p with pausing := p.pausing ++ [k] }
  else if n < s.classField t.val q.val c 8 ∧ s.ports[t].pausing.contains k then
    (s.sendPfc t q c 0).updPort t fun p => { p with pausing := p.pausing.filter (· ≠ k) }
  else s

/-- What the buffers of a port hold is gone; a pause whose class has drained with it ends (R279, R297). -/
def State.buffersLost (s : State) (t : PortId) : State :=
  let s := s.updPort t fun p => { p with tx := [], rings := [], onWire := [], otIn := [], roceIn := [], ptpIn := [] }
  (List.finRange 4).foldl (fun s q => (List.range 8).foldl (fun s c => s.pfcWatch t q c) s) s

end Sys2Proof.Machine
end

