-- ==== Sys2Proof/Machine/Rdma.lean ====
section
/-! DEFINITION. Queue pairs of the RoCEv2 subset as a requester: contexts, work requests, packets (R299, R301). -/

namespace Sys2Proof.Machine

/-! ### Contexts (R301) -/

/-- Queue pair `n` of a port. -/
def State.qp (s : State) (t : PortId) (n : Nat) : Qp := (mapGet s.ports[t].qps n).getD {}

/-- The state with a queue pair changed through `f`. -/
def State.updQp (s : State) (t : PortId) (n : Nat) (f : Qp → Qp) : State :=
  s.updPort t fun p => { p with qps := mapSet p.qps n (f ((mapGet p.qps n).getD {})) }

/-- Field `[hi:lo]` of the context word at offset `o`. -/
def Qp.fld (q : Qp) (o hi lo : Nat) : Nat := nbits (rdLE q.ctx o 4) hi lo

/-- The queue pair with its STATE field holding `v`. -/
def Qp.setState (q : Qp) (v : Nat) : Qp :=
  { q with ctx := leBytes 4 (rdLE q.ctx 0 4 % 2 ^ 30 + v * 2 ^ 30) ++ q.ctx.drop 4 }

/-- STATE is RTS. -/
def Qp.rts (q : Qp) : Bool := decide (q.fld 0 31 30 = 1)

/-- Path MTU in bytes. -/
def Qp.mtu (q : Qp) : Nat := match q.fld 4 28 27 with | 0 => 1024 | 1 => 2048 | _ => 4096

/-- The remote address in 16 bytes. -/
def Qp.remote (q : Qp) : List Byte :=
  if q.fld 4 15 15 = 1 then slice q.ctx 0x10 16 else mapped (slice q.ctx 0x1C 4)

/-- The neighbour's hardware address, empty where it is to be resolved. -/
def Qp.mac (q : Qp) : List Byte := let m := slice q.ctx 0x20 6; if leNat m = 0 then [] else m

/-! ### Packets -/

/-- A packet of queue pair `n` joins the frames to send (R281, R299). -/
def State.sendRoce (s : State) (t : PortId) (n op psn : Nat) (ack : Bool) (ext data : List Byte) : State :=
  let q := s.qp t n
  let sub : SubId := Fin.ofNat 4 (q.fld 0 27 26)
  s.send t ⟨sub, q.fld 4 31 29, .roce n, if q.mac = [] then s.nextHop t.val sub.val q.remote else [], q.mac, .roce op psn ack ext data⟩

/-- Syndromes of an acknowledge header. -/
def synAck : Nat := 0x1F
def synRnr : Nat := 0x21
def synSeq : Nat := 0x60
def synInvalid : Nat := 0x61
def synAccess : Nat := 0x62

/-- An acknowledgement or a NAK of queue pair `n` as a responder (R299, R300). -/
def State.sendAeth (s : State) (t : PortId) (n syndrome psn : Nat) : State :=
  s.sendRoce t n opAck psn false (aeth syndrome (s.qp t n).msn) []

/-- PSNs that a work request takes (R299). -/
def wqePkts (mtu op len : Nat) : Nat := if op = 0 ∨ op = 1 then Nat.max 1 (cdiv len mtu) else 1

/-- PSN arithmetic is modulo 2^24. -/
def psnAdd (a b : Nat) : Nat := (a + b) % 2 ^ 24

/-- How far PSN `b` lies past `a`. -/
def psnDist (a b : Nat) : Nat := (b + 2 ^ 24 - a % 2 ^ 24) % 2 ^ 24

/-- The packets of a work request from its packet `k` on are sent; the last of a message asks for an acknowledgement. -/
def State.sendWqe (s : State) (t : PortId) (n : Nat) (w : Wqe) (k : Nat) : State :=
  let mtu := (s.qp t n).mtu
  match w.op with
  | 0 => (List.range (w.pkts - k)).foldl (fun s i =>
      let o := (k + i) * mtu
      s.sendRoce t n (pktOp opWriteFirst opWriteMiddle opWriteLast opWriteOnly (k + i) w.pkts) (psnAdd w.psn (k + i))
        (decide (k + i + 1 = w.pkts)) (if k + i = 0 then reth w.va w.rkey w.len else []) (slice w.data o (Nat.min mtu (w.len - o)))) s
  | 1 => s.sendRoce t n opReadRequest (psnAdd w.psn k) true (reth (w.va + k * mtu) w.rkey (w.len - k * mtu)) []
  | 2 => s.sendRoce t n opFlush w.psn true (feth ++ reth w.va w.rkey w.len) []
  | _ => s.sendRoce t n opSendOnly w.psn true [] w.data

/-- The first work request that has not been sent, if the limit of 16 outstanding reads lets it go. -/
def Qp.nextSend (q : Qp) : Option Wqe :=
  match q.wqes.find? fun w => !w.sent with
  | none => none
  | some w => if w.op = 1 ∧ 16 ≤ (q.wqes.filter fun x => x.sent && decide (x.op = 1)).length then none else some w

/-- Work requests are sent in order, while the limit on outstanding reads lets them. The list is the fuel. -/
def State.pushQp (t : PortId) (n : Nat) : List Wqe → State → State
  | [], s => s
  | _ :: r, s =>
    match (s.qp t n).nextSend with
    | none => s
    | some w =>
      let s := s.updQp t n fun q => { q with wqes := q.wqes.map fun x => if x.psn = w.psn then { x with sent := true } else x }
      State.pushQp t n r (s.sendWqe t n w 0)

/-- What waits at a queue pair is sent. -/
def State.runQp (s : State) (t : PortId) (n : Nat) : State := State.pushQp t n (s.qp t n).wqes s

/-- A work request is posted. -/
def State.postWqe (s : State) (t : PortId) (n op : Nat) (owner : WqeOwner) (loc va rkey len : Nat) (data : List Byte) : State :=
  let q := s.qp t n
  let k := wqePkts q.mtu op len
  let w : Wqe := { op := op, owner := owner, loc := loc, va := va, rkey := rkey, len := len, psn := q.psn, pkts := k, data := data }
  (s.updQp t n fun q => { q with psn := psnAdd q.psn k, wqes := q.wqes ++ [w] }).runQp t n

/-- Lengths of the messages that a transfer is split into: whole up to 2^31 bytes, else at 1 GiB boundaries (R299). The
first number is fuel. -/
def splitLens : Nat → Nat → List Nat
  | 0, _ => []
  | f + 1, n => if n ≤ 2 ^ 30 then [n] else 2 ^ 30 :: splitLens f (n - 2 ^ 30)

/-- Pieces of a transfer as (offset, length). -/
def pieces1G (len : Nat) : List (Nat × Nat) :=
  if len ≤ 2 ^ 31 then [(0, len)] else
    let l := splitLens (len / 2 ^ 30 + 1) len
    (indexed l).map fun e => (e.1 * 2 ^ 30, e.2)

/-- A READ from remote memory to the physical place `loc`, in its pieces. -/
def State.postRead (s : State) (t : PortId) (n : Nat) (owner : WqeOwner) (loc va rkey len : Nat) : State :=
  (pieces1G len).foldl (fun s e => s.postWqe t n 1 owner (loc + e.1) (va + e.1) rkey e.2 []) s

/-- A WRITE of bytes to remote memory, in its pieces. -/
def State.postWrite (s : State) (t : PortId) (n : Nat) (owner : WqeOwner) (va rkey : Nat) (bs : List Byte) : State :=
  (pieces1G bs.length).foldl (fun s e => s.postWqe t n 0 owner 0 (va + e.1) rkey e.2 (slice bs e.1 e.2)) s

/-- A flush over a written range is requested as FLUSH_MODE gives (R301). -/
def State.postFlush (s : State) (t : PortId) (n : Nat) (owner : WqeOwner) (va rkey len : Nat) : State :=
  let q := s.qp t n
  if q.fld 0 29 28 = 1 then s.postWqe t n 2 owner 0 va rkey len []
  else
    let id := (q.flushId + 1) % 2 ^ 32
    let msg := leBytes 4 1 ++ leBytes 4 id ++ leBytes 8 va ++ leBytes 8 len
    (s.updQp t n fun q => { q with flushId := id }).postWqe t n 3 owner id va rkey len msg

/-- Whether any work request of an owner is left on a queue pair. -/
def Qp.owes (q : Qp) (o : WqeOwner) : Bool := q.wqes.any fun w => decide (w.owner = o)

end Sys2Proof.Machine
end

