-- ==== Sys2Proof/Machine/Jobs.lean ====
section
/-! DEFINITION. Jobs over partitions: translation and steering of addresses, what a job may name, event counters, signals and
notices (R160, R207-R212, R217-R231, R242). -/

namespace Sys2Proof.Machine

/-- KIND of the core plan record as a number (R217). -/
def JobKind.code : JobKind → Nat
  | .train => 1
  | .run => 2
  | .loop => 3

/-- The commit number of the step under way (R55): one past the committed one in a TRAIN job, 0 otherwise (R259). -/
def Job.commitUnder (j : Job) : Nat := if j.kind = .train then (j.step.commit + 1) % 2 ^ 32 else 0

/-- The physical core that serves a logical core. -/
def Job.serve (j : Job) (l : Nat) : Option Serve := (j.serves[l]?).join

/-- Bytes of a guest area (R227). -/
def guestBytes : Nat := 0x110000000

/-- Steering of one byte of an access into bank A of a banked region: a read goes to the live bank, a write to the shadow,
and before the first step begins a write goes to the live bank (R160, R161). -/
def Job.steer (j : Job) (write : Bool) (a : Nat) : Nat :=
  match j.upd with
  | none => a
  | some u =>
    match u.regions.find? fun r => decide (r.a ≤ a ∧ a < r.a + r.len) with
    | none => a
    | some r =>
      let toB := if write && j.step.started then !j.step.liveB else j.step.liveB
      if toB then r.b + (a - r.a) else a

/-- Whether an address lies in a B bank of the job (R159, R160). -/
def Job.inB (j : Job) (a : Nat) : Bool :=
  match j.upd with
  | none => false
  | some u => u.regions.any fun r => decide (r.b ≤ a ∧ a < r.b + r.len)

/-- Translation of a logical core's memory: to its physical core, or into its guest area (R224, R227). -/
def translate (serves : List (Option Serve)) (guests : List (Option Nat)) (a : Nat) : Nat :=
  let go (l base win : Nat) : Nat :=
    match (serves[l]?).join with
    | none => a
    | some v =>
      if v.guest then (((guests[l]?).join).getD 0) + win + (a - base)
      else a - base + (if win = 0 then crumbBase v.core.val else wmBase v.core.val)
  match regionOf a with
  | .crumb c => go c.val (crumbBase c.val) 0
  | .wm c | .gb c | .side c => go c.val (wmBase c.val) 0x100000000
  | _ => a

/-- The physical byte that a byte of an access of a job reaches. -/
def Job.phys (j : Job) (write : Bool) (a : Nat) : Nat := translate j.serves j.guests (j.steer write a)

/-- A byte as a descriptor of the job reads it. -/
def State.lrd (s : State) (j : Job) (a : Nat) : Byte := s.rd (j.phys false a)

/-- Bytes as a descriptor of the job reads them. -/
def State.lrdBytes (s : State) (j : Job) (a n : Nat) : List Byte := (List.range n).map fun i => s.lrd j (a + i)

/-- (address, byte) pairs written by a descriptor of the job. -/
def State.lput (s : State) (j : Job) (w : List (Nat × Byte)) : State := s.put (w.map fun e => (j.phys true e.1, e.2))

/-- Bytes written by a descriptor of the job from an address on. -/
def State.lputBytes (s : State) (j : Job) (a : Nat) (bs : List Byte) : State :=
  s.lput j ((indexed bs).map fun e => (a + e.1, e.2))

/-- The first byte of a read that finds an uncorrectable error, as its physical address (R190). -/
def State.lbad (s : State) (j : Job) (as : List Nat) : Option Nat := s.firstBad (as.map (j.phys false))

/-! ### What a job may name (R170, R171, R184, R223, R224) -/

/-- Whether an HBM4E address lies in the ranges of partition `p` (R223). -/
def State.inRanges (s : State) (p : PartId) (a : Nat) : Bool :=
  s.parts[p].ranges.any fun r => decide (r.1 * 2 ^ 30 ≤ a ∧ a < (r.1 + r.2) * 2 ^ 30)

/-- The partition whose host context region holds an address (R171). -/
def State.hctxOf (s : State) (a : Nat) : Option PartId :=
  allParts.find? fun p => decide (s.hctx p ≤ a ∧ a < s.hctx p + 0x4000000)

/-- Whether a job of partition `p` with `n` logical cores may name the byte at `a` (R224). -/
def State.mayName (s : State) (p : PartId) (n : Nat) (a : Nat) : Bool :=
  match regionOf a with
  | .crumb c | .wm c | .gb c | .side c => decide (c.val < n)
  | .hbm _ => match s.hctxOf a with
    | some q => decide (q = p)
    | none => s.inRanges p a
  | _ => false

/-- Whether an address is a hole or a register (R170). -/
def isHole (a : Nat) : Bool := match regionOf a with | .regs | .hole => true | _ => false

/-- A named part of a descriptor: its field's offset and top bit, and the bytes it names. -/
abbrev Named : Type := Nat × Nat × List Nat

/-- All the bytes that parts of a descriptor name. -/
def namedBytes (ns : List Named) : List Nat := ns.flatMap fun x => x.2.2

/-- The rules that hold for every class on the bytes that a descriptor names: holes, the partition's reach, B banks with the field
that names one; then the class's own region rule `own` (R160, R168, R170, R224). -/
def State.checkNames (s : State) (p : PartId) (j : Job) (lcore index : Nat) (ns : List Named) (own : Option DErr) : Option DErr :=
  match (namedBytes ns).find? isHole with
  | some a => some ⟨0x5001, index :: two a⟩
  | none => match (namedBytes ns).find? fun a => !s.mayName p j.lcores a with
    | some a => some ⟨0x4509, lcore :: index :: two a⟩
    | none => match ns.find? fun x => x.2.2.any j.inB with
      | some x => some ⟨0x4407, [index, Config.fieldWord 0x4407 x.1 x.2.1]⟩
      | none => own

/-- The memory of a fenced core, or of an unusable stack, that an access would reach (R184, R205); none is usable while the
rails are off (R407, R417). -/
def State.unusable (s : State) (a : Nat) : Option (Nat × Nat) :=
  match regionOf a with
  | .crumb c | .wm c | .gb c | .side c => if s.cores[c].inService && s.mc.hubRailOn then none else some (0, c.val)
  | .hbm k => if s.mc.stacksUp.getLsbD k.val && s.mc.hubRailOn then none else some (1, k.val)
  | _ => none

/-- MEM_TARGET_UNUSABLE for the first byte that reaches unusable memory (R184). -/
def State.checkUsable (s : State) (j : Job) (write : Bool) (as : List Nat) : Option DErr :=
  as.findSome? fun a => (s.unusable (j.phys write a)).map fun u => ⟨0x5004, [u.1, u.2] ++ two a⟩

/-! ### Event counters (R207-R209) -/

/-- The half of the core that serves a logical core, changed through `f`. -/
def State.updLCtx (s : State) (v : Serve) (f : LCtx → LCtx) : State := s.updCore v.core fun k => k.updHalf v.guest f

/-- The half of the core that serves a logical core. -/
def State.lctx (s : State) (v : Serve) : LCtx := s.cores[v.core].half v.guest

/-- Value of counter `n` of a logical core (R207). -/
def LCtx.counter (l : LCtx) (n : Nat) : Word := (mapGet l.cnt n).getD 0

/-- The logical core with counter `n` at `v`. -/
def LCtx.setCounter (l : LCtx) (n : Nat) (v : Word) : LCtx := { l with cnt := mapPut 0 l.cnt n v }

/-- A counter takes an addition, modulo 2^32 (R207). -/
def LCtx.addCounter (l : LCtx) (n : Nat) (k : Word) : LCtx := l.setCounter n (l.counter n + k)

/-- A wait with target `t` on value `v` is satisfied (R208). -/
def waitMet (v t : Word) : Bool := decide ((v - t).toNat < 2 ^ 31)

/-- A signal reaches counter `n` of logical core `l` of partition `p` (R207, R209). -/
def State.signal (s : State) (p : PartId) (l n inc : Nat) : State :=
  match (s.job p).bind fun j => j.serve l with
  | none => s
  | some v => s.updLCtx v fun c => c.addCounter n (BitVec.ofNat 32 inc)

/-! ### The header of a descriptor (R206) -/

/-- CLASS. -/
def hClass (d : List Word) : Nat := dfld d 0 31 28
/-- SIG_INC. -/
def hInc (d : List Word) : Nat := dfld d 0 27 24
/-- S1_REMOTE. -/
def hRemote (d : List Word) : Bool := dbit d 0 23
/-- S1_CORE. -/
def hS1Core (d : List Word) : Nat := dfld d 0 22 20
/-- NOTIFY. -/
def hNotify (d : List Word) : Bool := dbit d 0 16
/-- TAG. -/
def hTag (d : List Word) : Nat := dfld d 0 15 8

/-- The header field that breaks R206, as its byte offset and its top bit. -/
def headerError (lcores : Nat) (d : List Word) : Option (Nat × Nat) :=
  if ¬ (1 ≤ hClass d ∧ hClass d ≤ 6) then some (0, 31)
  else if (dbit d 0 2 || dbit d 0 3) && decide (hInc d = 0) then some (0, 27)
  else if !hRemote d && decide (hS1Core d ≠ 0) then some (0, 22)
  else if hRemote d && decide (lcores ≤ hS1Core d) then some (0, 22)
  else if dfld d 0 19 17 ≠ 0 then some (0, 19)
  else if dfld d 0 7 4 ≠ 0 then some (0, 7)
  else none

/-- A wait of a descriptor that is enabled and not satisfied: which, its counter, its target (R208). -/
def unmet (l : LCtx) (d : List Word) : Option (Bool × Nat × Word) :=
  if dbit d 0 0 && !waitMet (l.counter (dfld d 4 31 24)) (wordAt d 2) then some (false, dfld d 4 31 24, wordAt d 2)
  else if dbit d 0 1 && !waitMet (l.counter (dfld d 4 23 16)) (wordAt d 3) then some (true, dfld d 4 23 16, wordAt d 3)
  else none

/-! ### Notices (R206, R259, R262) -/

/-- A descriptor notice is written, or dropped when only reserved room is left (R262). -/
def State.notice (s : State) (p : PartId) (j : Job) (e : Issued) : State :=
  let i := s.parts[p].iface
  let tag := e.index + e.list * 2 ^ 20 + e.lcore * 2 ^ 24 + hTag e.words * 2 ^ 32
  if i.reserved < s.cplRoom p then s.writeCpl p (cplRecord 2 0 0 0 0 tag 0 j.commitUnder 0)
  else
    let s := s.dropCpl p
    if j.cplLostRaised then s
    else (s.raise .usb (some p) 0x2005 [p.val, j.id]).updJob p fun j => { j with cplLostRaised := true }

/-- A completed descriptor performs its enabled signals and writes its NOTIFY record; after a stop it does neither (R209,
R212, R220). A remote signal is under way until COUNTER_SIGNAL_REMOTE. -/
def State.perform (s : State) (e : Issued) : State :=
  match s.job e.part with
  | none => s
  | some j =>
    if e.mute || decide (j.stop ≠ .none) then s
    else
      let d := e.words
      let s := if dbit d 0 2 then s.signal e.part e.lcore (dfld d 4 15 8) (hInc d) else s
      let s :=
        if dbit d 0 3 then
          if hRemote d then s.updPart e.part fun q => { q with flying := q.flying ++ [(hS1Core d, dfld d 4 7 0, hInc d)] }
          else s.signal e.part e.lcore (dfld d 4 7 0) (hInc d)
        else s
      if hNotify d then s.notice e.part j e else s

/-! ### Matrix units (R86, R88, R97) -/

/-- Service of a unit: a native array has the worse of its halves (R97, R104). -/
def CoreS.serviceable (k : CoreS) (u : MatUnit) : Bool :=
  let a := k.arrays[u.array]
  if u.half = 0 then !a.split && decide (a.halves[0].service = .inService) && decide (a.halves[1].service = .inService)
  else a.split && decide ((if u.half = 1 then a.halves[0] else a.halves[1]).service = .inService)

/-- Whole arrays in ascending order. -/
def wholeUnits : List MatUnit := (List.finRange 4).map fun a => ⟨a, 0⟩

/-- Halves in the order of R86. -/
def halfUnits : List MatUnit := (List.finRange 4).flatMap fun a => [⟨a, 1⟩, ⟨a, 2⟩]

/-- The in-service units of a core. -/
def CoreS.unitsUp (k : CoreS) : List MatUnit := (wholeUnits ++ halfUnits).filter k.serviceable

/-! ### Issued descriptors -/

/-- Every issued descriptor of a partition, with its physical core. -/
def State.issuedOf (s : State) (p : PartId) : List (CoreId × Issued) :=
  allCores.flatMap fun c => (s.cores[c].issued.filter fun e => decide (e.part = p)).map fun e => (c, e)

/-- The issued descriptor `seq` of a core, changed through `f`. -/
def State.updIssued (s : State) (c : CoreId) (seq : Nat) (f : Issued → Issued) : State :=
  s.updCore c fun k => { k with issued := k.issued.map fun e => if e.seq = seq then f e else e }

/-- The issued descriptor `seq` leaves its core. -/
def State.dropIssued (s : State) (c : CoreId) (seq : Nat) : State :=
  s.updCore c fun k => { k with issued := k.issued.filter fun e => decide (e.seq ≠ seq) }

/-- The first descriptor waiting in a queue of a core (R211). -/
def State.headOf (s : State) (c : CoreId) (q : QueueId) : Option Issued :=
  s.cores[c].issued.find? fun e => decide (e.queue = q ∧ e.phase ≠ .finished)

/-- How many descriptors a queue of a core holds (R211): those that have not finished. -/
def State.queued (s : State) (c : CoreId) (q : QueueId) : Nat :=
  (s.cores[c].issued.filter fun e => decide (e.queue = q ∧ e.phase ≠ .finished)).length

/-- The weight tensor entry of an identifier (R258). -/
def Job.wtensor (j : Job) (id : Nat) : Option WTensor := j.wts.find? fun w => decide (w.id = id)

/-- Position of a weight tensor in its table. -/
def Job.wpos (j : Job) (id : Nat) : Nat := j.wts.findIdx fun w => decide (w.id = id)

/-- The pre-scale exponent p_t of a weight tensor (R64). -/
def Job.prescale (j : Job) (id : Nat) : Nat := fld (j.num.words.getD (j.wpos id) 0) 20 16

/-- The tile record of a tile of a logical core (R142). -/
def Job.tileOf (j : Job) (l t : Nat) : Option TileRec := j.tiles.find? fun r => decide (r.core = l ∧ r.tile = t)

/-- The slot whose buffer range begins at an offset. -/
def LCtx.slotAt (l : LCtx) (off : Nat) : Option Nat := l.slots.findIdx? fun g => decide (g.off = off)

/-- A slot changed through `f`. -/
def LCtx.updSlot (l : LCtx) (k : Nat) (f : GbSlot → GbSlot) : LCtx := { l with slots := modifyAt f k l.slots }

/-- Bytes of a tile in its slot (R142). -/
def TileRec.bytes (t : TileRec) : Nat := t.rows * t.cols * 8

/-- STATE of a gradient-buffer slot as a number (R144, R166). -/
def SlotState.code : SlotState → Nat
  | .empty => 0
  | .filling => 1
  | .live => 2
  | .spilling => 3

end Sys2Proof.Machine
end

