-- ==== Sys2Proof/Machine/Ot.lean ====
section
/-! DEFINITION. The Onaden transport: connections, virtual channels, frames, messages (R307-R320). -/

namespace Sys2Proof.Machine

/-! ### Connections (R304, R307) -/

/-- The cluster of a partition's job. -/
def State.cluster (s : State) (p : PartId) : Option Cluster := (s.job p).bind Job.cluster

/-- The state with the cluster of a partition's job changed through `f`. -/
def State.updCluster (s : State) (p : PartId) (f : Cluster → Cluster) : State :=
  s.updJob p fun j => { j with cluster := j.cluster.map f }

/-- JOB_TAG (R310). -/
def ClRec.tag (c : ClRec) : Nat := (c.key % 2 ^ 32) ^^^ (c.key / 2 ^ 32)

/-- The connection entry at an index. -/
def ClRec.conn (c : ClRec) (i : Nat) : ConnRec := c.conns.getD i default

/-- A link slot of a member entry as (slot, port, subport, address) (R304). -/
def ClRec.slot (c : ClRec) (e l : Nat) : Nat × Nat × Nat × List Byte :=
  ((c.members.getD e default).slots.find? fun x => x.1 = l).getD (0, 0, 0, [])

/-- Own slot and far entry and slot of connection `i`, none if it does not join this member (R307). -/
def Cluster.ends (c : Cluster) (i : Nat) : Option (Nat × Nat × Nat) :=
  match c.cl.conns[i]? with
  | none => none
  | some r => if r.entryA = c.self then some (r.slotA, r.entryB, r.slotB)
    else if r.entryB = c.self then some (r.slotB, r.entryA, r.slotA) else none

/-- Port, subport and own address of connection `i`, and the far address. -/
def Cluster.path (c : Cluster) (i : Nat) : Option (PortId × SubId × List Byte × List Byte) :=
  (c.ends i).map fun e =>
    let m := c.cl.slot c.self e.1
    (Fin.ofNat 8 m.2.1, Fin.ofNat 4 m.2.2.1, m.2.2.2, (c.cl.slot e.2.1 e.2.2).2.2.2)

/-- The connections that join this member to an entry, in ascending index. -/
def Cluster.connsTo (c : Cluster) (e : Nat) : List Nat :=
  (List.range c.cl.conns.length).filter fun i => match c.ends i with | some x => decide (x.2.1 = e) | none => false

/-- The connections of this member. -/
def Cluster.mine (c : Cluster) : List Nat := (List.range c.cl.conns.length).filter fun i => (c.ends i).isSome

/-- The state of connection `i`. -/
def Cluster.run (c : Cluster) (i : Nat) : ConnRun := c.conns.getD i {}

/-- The cluster with connection `i` changed through `f`. -/
def Cluster.updConn (c : Cluster) (i : Nat) (f : ConnRun → ConnRun) : Cluster := { c with conns := modifyAt f i c.conns }

/-- The connection with virtual channel `v` changed through `f`. -/
def ConnRun.updVc (r : ConnRun) (v : Nat) (f : VcRun → VcRun) : ConnRun := { r with vcs := modifyAt f v r.vcs }

/-- Virtual channel `v` of a connection. -/
def ConnRun.vc (r : ConnRun) (v : Nat) : VcRun := r.vcs.getD v {}

/-- Credits of a VC (R308). -/
def ClRec.credits (c : ClRec) (v : Nat) : Nat := (c.vcs.getD v default).credits

/-- The lowest connection that joins this member to an entry, which gathers take (R348). -/
def Cluster.lowest (c : Cluster) (e : Nat) : Option Nat := (c.connsTo e).head?

/-- The connection that control and pipeline messages to an entry take: the lowest that is up, else the lowest. -/
def Cluster.route (c : Cluster) (e : Nat) : Option Nat :=
  match (c.connsTo e).find? fun i => (c.run i).up with
  | some i => some i
  | none => c.lowest e

/-- PSNs and numbers compare modulo 2^32 (R314): `a ≤ b`. -/
def leMod (a b : Nat) : Bool := decide ((b + 2 ^ 32 - a % 2 ^ 32) % 2 ^ 32 < 2 ^ 31)

/-! ### OT frames (R310, R312) -/

/-- The 32-byte OT header. -/
def otHeader (type vc flags conn tag epoch psn msg offset len : Nat) : List Byte :=
  leBytes 4 (1 * 2 ^ 28 + type * 2 ^ 24 + vc * 2 ^ 20 + flags * 2 ^ 16 + conn) ++ leBytes 4 tag ++ leBytes 4 epoch ++
    leBytes 4 psn ++ leBytes 4 msg ++ leBytes 4 offset ++ leBytes 4 len ++ leBytes 4 0

/-- An OT datagram of connection `i` goes to its port (R281, R310). -/
def State.otSend (s : State) (p : PartId) (c : Cluster) (i vc : Nat) (bytes : List Byte) : State :=
  match c.path i with
  | none => s
  | some (t, q, own, far) =>
    s.send t ⟨q, (c.cl.vcs.getD vc default).tc, .ot p.val i vc, s.nextHop t.val q.val far, [], .ot own far bytes⟩

/-- OPEN on connection `i` (R312, R313). -/
def State.sendOpen (s : State) (p : PartId) (c : Cluster) (i : Nat) (reply : Bool) : State :=
  match c.ends i with
  | none => s
  | some (mine, e, far) =>
    let w := b2n reply * 2 ^ 31 + c.self * 2 ^ 24 + mine * 2 ^ 16 + e * 2 ^ 8 + far
    s.otSend p c i 0 (otHeader 1 0 0 i c.cl.tag c.epoch 0 0 0 16 ++ leBytes 8 c.cl.key ++ leBytes 4 w ++ leBytes 4 0)

/-- CUM_PSN, CREDIT_PSN and SACK of a virtual channel (R312, R315). -/
def VcRun.sack (v : VcRun) : Nat :=
  v.rxHeld.foldl (fun acc f => let d := (f.psn + 2 ^ 32 - (v.rxCum + 1)) % 2 ^ 32; if d < 64 then acc ||| 2 ^ d else acc) 0

/-- An ACK of a virtual channel of connection `i`, with what the connection owes of ECE and NEW (R312, R315). -/
def State.sendAck (s : State) (p : PartId) (i vc : Nat) : State :=
  match s.cluster p with
  | none => s
  | some c =>
    let r := c.run i
    let v := r.vc vc
    let credit := (v.rxCum + 2 ^ 32 - 1 + c.cl.credits vc) % 2 ^ 32
    let s := s.otSend p c i vc (otHeader 3 vc 0 i c.cl.tag c.epoch 0 0 0 32 ++ leBytes 4 v.rxCum ++ leBytes 4 credit ++
      leBytes 8 v.sack ++ leBytes 4 (Nat.min 65535 r.ece * 2 ^ 16 + Nat.min 65535 r.newRx) ++ leBytes 12 0)
    s.updCluster p fun c => c.updConn i fun r =>
      { r.updVc vc (fun v => { v with sinceAck := 0, creditSent := credit }) with ece := 0, newRx := 0 }

/-! ### Sending messages (R310, R314) -/

/-- The payload bytes of one frame. -/
def otPayload : Nat := 9088

/-- A message cut into frames; the fuel is its length, and an empty message is one empty frame. -/
def cutMsg (epoch msg : Nat) : Nat → Nat → List Byte → List OtFrame
  | 0, off, bs => [⟨0, decide (off = 0), true, msg, off, epoch, bs, 0, false, false, false⟩]
  | n + 1, off, bs =>
    if bs.length ≤ otPayload then [⟨0, decide (off = 0), true, msg, off, epoch, bs, 0, false, false, false⟩]
    else ⟨0, decide (off = 0), false, msg, off, epoch, bs.take otPayload, 0, false, false, false⟩ ::
      cutMsg epoch msg n (off + otPayload) (bs.drop otPayload)

/-- The datagram of a DATA frame (R310). -/
def dataBytes (c : Cluster) (i vc : Nat) (f : OtFrame) : List Byte :=
  otHeader 2 vc (b2n f.retx * 4 + b2n f.last * 2 + b2n f.first) i c.cl.tag f.epoch f.psn f.msg f.offset f.payload.length ++
    f.payload

/-- Frames that wait for credit are sent, with the epoch that then holds, while CREDIT_PSN lets them; those that it does not let are
counted once each (R314, R318). The list is the fuel. -/
def State.pumpGo (p : PartId) (i vc : Nat) : List OtFrame → State → State
  | [], s => s
  | f :: rest, s =>
    match s.cluster p with
    | none => s
    | some c =>
      let r := c.run i
      let v := r.vc vc
      if !r.up then s
      else if leMod v.txNext v.txCredit then
        let f := { f with psn := v.txNext, epoch := c.epoch }
        let s := s.otSend p c i vc (dataBytes c i vc f)
        State.pumpGo p i vc rest (s.updCluster p fun c => c.updConn i fun r => r.updVc vc fun v =>
          { v with txNext := (v.txNext + 1) % 2 ^ 32, inflight := v.inflight ++ [f], sendq := v.sendq.drop 1 })
      else
        let n := (v.sendq.filter fun g => !g.waited).length
        let s := match c.path i with | some (t, _) => s.otCount t 9 n | none => s
        s.updCluster p fun c => c.updConn i fun r => r.updVc vc fun v =>
          { v with sendq := v.sendq.map fun g => { g with waited := true } }

/-- The waiting frames of a virtual channel are sent as far as credit allows. -/
def State.pump (s : State) (p : PartId) (i vc : Nat) : State :=
  match s.cluster p with
  | none => s
  | some c => State.pumpGo p i vc ((c.run i).vc vc).sendq s

/-- A message of connection `i` on a virtual channel is cut into frames and sent (R310, R314). -/
def State.sendOn (s : State) (p : PartId) (i vc : Nat) (bytes : List Byte) : State :=
  match s.cluster p with
  | none => s
  | some c =>
    let msg := ((c.run i).vc vc).msgTx
    let fs := cutMsg c.epoch msg (bytes.length / otPayload) 0 bytes
    (s.updCluster p fun c => c.updConn i fun r => r.updVc vc fun v =>
      { v with sendq := v.sendq ++ fs, msgTx := (msg + 1) % 2 ^ 32 }).pump p i vc

/-- A message to a member entry: to oneself it is received at once (R351), to another it takes its route. -/
def State.sendTo (s : State) (p : PartId) (e vc : Nat) (bytes : List Byte) : State :=
  match s.cluster p with
  | none => s
  | some c =>
    if e = c.self then s.updCluster p fun c => { c with inbox := c.inbox ++ [⟨e, vc, bytes, none⟩] }
    else match c.route e with
      | some i => s.sendOn p i vc bytes
      | none => s

/-- The 16-byte header of a control message and its body (R320). -/
def ctlMsg (type self epoch commit : Nat) (body : List Byte) : List Byte :=
  leBytes 1 type ++ leBytes 1 self ++ leBytes 2 0 ++ leBytes 4 epoch ++ leBytes 4 commit ++ leBytes 4 0 ++ body

/-- A control message to a member entry (R320). -/
def State.sendCtl (s : State) (p : PartId) (e type : Nat) (body : List Byte) : State :=
  match s.job p, s.cluster p with
  | some j, some c => s.sendTo p e 0 (ctlMsg type c.self c.epoch j.step.commit body)
  | _, _ => s

/-- A NET message (R339): its kind, status, COMMIT, ID, A, B, C and payload. -/
def netMsg (kind status commit id a b c : Nat) (payload : List Byte) : List Byte :=
  leBytes 4 (kind * 2 ^ 24 + status * 2 ^ 16) ++ leBytes 4 commit ++ leBytes 4 id ++ leBytes 4 a ++ leBytes 4 b ++
    leBytes 8 (c % 2 ^ 48) ++ leBytes 4 0 ++ payload

/-- A NET message to a member entry. -/
def State.sendNet (s : State) (p : PartId) (e vc kind status id a b c : Nat) (payload : List Byte) : State :=
  match s.job p with
  | some j => s.sendTo p e vc (netMsg kind status j.step.commit id a b c payload)
  | none => s

/-- A gather message to another member's entry takes the lowest connection between the two (R348). -/
def State.sendGather (s : State) (p : PartId) (e vc kind status id a b : Nat) (payload : List Byte) : State :=
  match s.job p, (s.cluster p).bind fun c => c.lowest e with
  | some j, some i => s.sendOn p i vc (netMsg kind status j.step.commit id a b 0 payload)
  | _, _ => s

/-! ### Receiving (R311, R314, R319) -/

/-- What the OT engine reads from a datagram: the job's partition, the connection, and the header fields. -/
structure OtHdr where
  part : PartId
  conn : Nat
  type : Nat
  vc : Nat
  retx : Bool
  last : Bool
  first : Bool
  epoch : Nat
  psn : Nat
  msg : Nat
  offset : Nat
  payload : List Byte
  deriving DecidableEq, Repr, Inhabited

/-- The partition whose loaded job a JOB_TAG and CONN name, with the remote slot's address as the source (R311). -/
def State.otJob (s : State) (tag conn : Nat) (src : List Byte) : Option PartId :=
  allParts.find? fun p => match s.cluster p with
    | none => false
    | some c => decide (c.cl.tag = tag) && (match c.path conn with
      | some (_, _, _, far) => decide (far = src)
      | none => false)

/-- Whether the reserved fields of a payload are 0 (R311, R312). -/
def otPayloadOk (type : Nat) (b : List Byte) : Bool :=
  match type with
  | 1 => decide (rdLE b 8 4 &&& 0x40F8C0F8 = 0) && decide (rdLE b 12 4 = 0)
  | 3 => decide (rdLE b 0x14 12 = 0)
  | 4 => decide (rdLE b 0 8 = 0)
  | _ => true

/-- The checks of R311 on a datagram; none where it is discarded. -/
def State.otParse (s : State) (f : OtIn) : Option OtHdr :=
  let w := rdLE f.bytes 0 4
  let type := nbits w 27 24
  let len := rdLE f.bytes 0x18 4
  if f.zeroSum || decide (f.bytes.length < 32) then none
  else if nbits w 31 28 ≠ 1 ∨ type = 0 ∨ 5 < type then none
  else if nbits w 19 19 ≠ 0 ∨ len / 2 ^ 16 ≠ 0 ∨ rdLE f.bytes 0x1C 4 ≠ 0 then none
  else if len % 2 ^ 16 ≠ f.bytes.length - 32 then none
  else if !otPayloadOk type (f.bytes.drop 32) then none
  else match s.otJob (rdLE f.bytes 4 4) (nbits w 15 0) f.src with
    | none => none
    | some p => some ⟨p, nbits w 15 0, type, nbits w 23 20, w.testBit 18, w.testBit 17, w.testBit 16, rdLE f.bytes 8 4,
        rdLE f.bytes 0x0C 4, rdLE f.bytes 0x10 4, rdLE f.bytes 0x14 4, f.bytes.drop 32⟩

/-- A message is discarded and counted at the port it came by (R320, R350). -/
def State.otBad (s : State) (port : Option PortId) : State :=
  match port with
  | some t => s.otCount t 6 1
  | none => s

/-- Whether a message is one that R320, R339 or R350 defines: its first byte on VC0, its KIND elsewhere. -/
def knownMsg (vc : Nat) (bs : List Byte) : Bool :=
  if vc = 0 then
    let k := rdLE bs 0 1
    decide (16 ≤ bs.length) && (decide (1 ≤ k ∧ k ≤ 9) || decide (0x20 ≤ k ∧ k ≤ 0x28))
  else decide (32 ≤ bs.length) && decide (1 ≤ rdLE bs 3 1 ∧ rdLE bs 3 1 ≤ 8)

/-- A whole message is received (R314); one of no defined type is discarded and counted (R320). The header of a control message tells
its sender's committed number (R320). -/
def State.takeMsg (s : State) (p : PartId) (t : PortId) (e vc : Nat) (bs : List Byte) : State :=
  if knownMsg vc bs then s.updCluster p fun c => { c with
    inbox := c.inbox ++ [⟨e, vc, bs, some t⟩], numbers := if vc = 0 then mapSet c.numbers e (rdLE bs 8 4) else c.numbers }
  else s.otBad (some t)

/-- The payload of the next frame in PSN order joins its message; the last one completes it (R314). -/
def State.joinFrame (s : State) (p : PartId) (t : PortId) (i e vc : Nat) (f : OtFrame) : State :=
  match s.cluster p with
  | none => s
  | some c =>
    let v := (c.run i).vc vc
    let m := if f.dropped then [] else (if f.first then [] else v.partMsg) ++ f.payload
    let s := s.updCluster p fun c => c.updConn i fun r => r.updVc vc fun v =>
      { v with rxCum := (v.rxCum + 1) % 2 ^ 32, partMsg := if f.last then [] else m,
               rxHeld := v.rxHeld.filter fun g => decide (g.psn ≠ f.psn) }
    if f.last ∧ !f.dropped then s.takeMsg p t e vc m else s

/-- Held frames whose turn has come are delivered (R314); the list of held frames is the fuel. -/
def State.drain (p : PartId) (t : PortId) (i e vc : Nat) : List OtFrame → State → State
  | [], s => s
  | _ :: rest, s =>
    match s.cluster p with
    | none => s
    | some c =>
      let v := (c.run i).vc vc
      match v.rxHeld.find? fun g => decide (g.psn = v.rxCum) with
      | none => s
      | some g => State.drain p t i e vc rest (s.joinFrame p t i e vc g)

/-- The port by which the first received message of a sender and virtual channel came. -/
def State.msgPort (s : State) (p : PartId) (e vc : Nat) : Option PortId :=
  (s.cluster p).bind fun c => (c.inbox.find? fun m => decide (m.entry = e ∧ m.vc = vc)).bind InMsg.port

/-- The first received message of a sender and virtual channel whose kind is `k`, and the state without it. -/
def State.popMsg (s : State) (p : PartId) (e vc k : Nat) : Option (List Byte × State) :=
  match s.cluster p with
  | none => none
  | some c =>
    match c.inbox.findIdx? fun m => decide (m.entry = e ∧ m.vc = vc) with
    | none => none
    | some n =>
      let m := c.inbox.getD n default
      let kind := if vc = 0 then rdLE m.bytes 0 1 else rdLE m.bytes 3 1
      if kind = k then some (m.bytes, s.updCluster p fun c => { c with inbox := c.inbox.eraseIdx n }) else none

end Sys2Proof.Machine
end

