-- ==== Sys2Proof/Machine/Units.lean ====
section
/-! DEFINITION. Ranks, ownership units and their slots, rebalancing (R306, R345-R349, R358, R359). -/

namespace Sys2Proof.Machine

/-- Whether entry `e` is in a roster mask. -/
def inMask (m : BitVec 64) (e : Nat) : Bool := m.getLsbD e

/-- The members of a roster in ascending entry index; the position is the rank (R306). -/
def rosterList (m : BitVec 64) : List Nat := (List.range 64).filter (inMask m)

/-- Rank of an entry in a roster. -/
def rankOf (m : BitVec 64) (e : Nat) : Nat := (rosterList m).findIdx fun x => decide (x = e)

/-- The owner of unit `k` under a roster (R306). -/
def ownerOf (m : BitVec 64) (k : Nat) : Nat := let l := rosterList m; l.getD (k % Nat.max 1 l.length) 0

/-- The mirror of unit `k` under a roster (R347). -/
def mirrorOf (mirror : Bool) (m : BitVec 64) (k : Nat) : Option Nat :=
  let l := rosterList m
  if mirror && decide (2 ≤ l.length) then some (l.getD ((k % l.length + 1) % l.length) 0) else none

/-- The holders of unit `k` under a roster: its owner, then its mirror. -/
def holdersOf (mirror : Bool) (m : BitVec 64) (k : Nat) : List Nat := ownerOf m k :: (mirrorOf mirror m k).toList

/-- What UNIT_MAP declares (R336, R345): state and publication region, slots, slot bytes of each. -/
structure UnitMap where
  state : BankRec
  pub : BankRec
  slots : Nat
  stateBytes : Nat
  pubBytes : Nat
  deriving DecidableEq, Repr, Inhabited

/-- A word of descriptor `i` of a list as it was loaded. -/
def ListRec.desc (l : ListRec) (i : Nat) : List Word := (l.image.drop (16 * i)).take 16

/-- The list `k` of a logical core. -/
def Job.listOf (j : Job) (l k : Nat) : Option ListRec := j.lists.find? fun r => decide (r.lcore = l ∧ r.list = k)

/-- The job's UNIT_MAP, read at load (R345). -/
def Job.unitMap (j : Job) : Option UnitMap :=
  match j.listOf 0 4, j.upd with
  | some l, some u =>
    let d := l.desc 0
    if hClass d = 5 ∧ dfld d 0x10 31 24 = 8 then
      some ⟨u.regions.getD (dfld d 0x10 7 0) default, u.regions.getD (dfld d 0x10 15 8) default, dfld d 0x24 31 0,
        dfld d 0x28 31 0 * 4096, dfld d 0x2C 31 0 * 4096⟩
    else none
  | _, _ => none

/-- The slot that holds unit `k` on this member. -/
def Cluster.slotOf (c : Cluster) (k : Nat) : Option Nat := mapGet c.units k

/-- The lowest free slot. -/
def Cluster.freeSlot (c : Cluster) (slots : Nat) : Option Nat :=
  (List.range slots).find? fun n => !c.units.any fun u => decide (u.2 = n)

/-- Physical bytes `off` to `off + n - 1` of a slot's live bank (R160, R161). -/
def Job.liveAddrs (j : Job) (r : BankRec) (base n : Nat) : List Nat :=
  (List.range n).map fun i => translate j.serves j.guests ((if j.step.liveB then r.b else r.a) + base + i)

/-- Physical bytes of a unit's live slots, state then publication (R339, R358). -/
def Job.unitAddrs (j : Job) (u : UnitMap) (slot : Nat) : List Nat :=
  j.liveAddrs u.state (slot * u.stateBytes) u.stateBytes ++ j.liveAddrs u.pub (slot * u.pubBytes) u.pubBytes

/-- A unit written into the live banks of a slot (R358). -/
def State.putUnit (s : State) (j : Job) (u : UnitMap) (slot : Nat) (bs : List Byte) : State := s.put ((j.unitAddrs u slot).zip bs)

/-- The lowest VC of a group (R308, R358). -/
def ClRec.vcOf (c : ClRec) (g : Nat) : Nat := c.vcs.findIdx fun v => decide (v.group = g)

/-- The source of unit `k` at a change of roster: its old owner if it stays, else its old mirror, else none (R358, R359). -/
def sourceOf (mirror : Bool) (old new : BitVec 64) (k : Nat) : Option Nat :=
  (holdersOf mirror old k).find? fun e => inMask new e

/-- The new holders that lack unit `k` (R358). -/
def lacking (mirror : Bool) (old new : BitVec 64) (k : Nat) : List Nat :=
  (holdersOf mirror new k).filter fun e => !(holdersOf mirror old k).contains e

/-- The lowest unit with no source (R359). -/
def lostUnit (cl : ClRec) (old new : BitVec 64) : Option Nat :=
  if old = 0 then none else (List.range cl.shards).find? fun k => (sourceOf cl.mirror old new k).isNone

/-- Units this member must send, in ascending order, with their new holders (R358). -/
def Cluster.sends (c : Cluster) (old new : BitVec 64) : List (Nat × Nat) :=
  if old = 0 then [] else
  (List.range c.cl.shards).flatMap fun k =>
    if sourceOf c.cl.mirror old new k = some c.self then (lacking c.cl.mirror old new k).map fun e => (k, e) else []

/-- Units this member must receive (R358). -/
def Cluster.receipts (c : Cluster) (old new : BitVec 64) : List Nat :=
  if old = 0 then [] else (List.range c.cl.shards).filter fun k => (lacking c.cl.mirror old new k).contains c.self

/-- The units that this member holds under a roster, owned and mirrored. -/
def Cluster.holdings (c : Cluster) (m : BitVec 64) : List Nat :=
  if inMask m c.self then (List.range c.cl.shards).filter fun k => (holdersOf c.cl.mirror m k).contains c.self else []

/-- One UNIT_XFER to a new holder (R358). DESIGN CHOICE: a unit whose bytes cannot be read (R190) is not sent; the member has lost
committed state, and leaves as R353 gives for that (log entry 102). -/
def State.sendUnit (s : State) (p : PartId) (ke : Nat × Nat) : State :=
  match s.job p, s.cluster p with
  | some j, some c => match j.unitMap, c.slotOf ke.1 with
    | some u, some slot =>
      let as := j.unitAddrs u slot
      match s.firstBad as with
      | some a => (s.uncorrectable (some p) a).updJob p fun j => { j with cmt := { j.cmt with stateLost := true } }
      | none =>
        (((s.touchAll as).meetReads as).sendNet p ke.2 (c.cl.vcOf 5) 8 0 ke.1 u.stateBytes u.pubBytes 0 (as.map s.rd)).updCluster p
          fun c => { c with sent := c.sent + 1 }
    | _, _ => s
  | _, _ => s

/-- Slots of units no longer held are freed, but not while checkpoint reads run (R358, R360). -/
def State.freeUnits (s : State) (p : PartId) : State :=
  match s.job p with
  | some j => if j.cmt.ckptReading then s else s.updCluster p fun c =>
      let keep := c.holdings c.roster
      { c with units := c.units.filter fun u => keep.contains u.1 }
  | none => s

/-- A unit that has been received is placed in the lowest free slot (R358); without one the receipt waits. -/
def State.placeUnit (s : State) (p : PartId) (m : InMsg) : State :=
  match s.job p, s.cluster p with
  | some j, some c => match j.unitMap with
    | some u =>
      let k := rdLE m.bytes 8 4
      match c.freeSlot u.slots with
      | some slot => (s.putUnit j u slot (m.bytes.drop 32)).updCluster p fun c =>
          { c with units := mapSet c.units k slot, awaiting := c.awaiting.filter (· ≠ k), received := c.received + 1 }
      | none => s.updCluster p fun c => { c with heldXfers := c.heldXfers ++ [m] }
    | none => s
  | _, _ => s

/-- Receipts that waited for a slot are tried again. -/
def State.retryXfers (s : State) (p : PartId) : State :=
  match s.cluster p with
  | some c => c.heldXfers.foldl (fun s m => s.placeUnit p m) (s.updCluster p fun c => { c with heldXfers := [] })
  | none => s

/-- REBALANCED goes to the starter, and REBALANCE_DONE is raised (R358, R362, R369); the job then holds, or stays paused. -/
def State.sendRebalanced (s : State) (p : PartId) : State :=
  match s.job p, s.cluster p with
  | some j, some c =>
    let s := s.raise .mc (some p) 0x7108 [c.epoch, c.received, c.sent]
    let s := s.updJob p fun j => { j with cmt := { j.cmt with phase := if j.paused then .paused else .holding } }
    (s.updCluster p fun c => { c with reb := false }).sendCtl p c.starter 0x27 (leBytes 4 c.epoch)
  | _, _ => s

/-- A member that has received and sent every unit sends REBALANCED (R358). -/
def State.rebalanceEnd (s : State) (p : PartId) : State :=
  match s.cluster p with
  | some c => if c.reb ∧ c.awaiting = [] ∧ c.heldXfers = [] then s.sendRebalanced p else s
  | none => s

/-- The units of a partition's job begin to move for a roster (R358, R368). -/
def State.rebalanceBegin (s : State) (p : PartId) : State :=
  (s.updJob p fun j => { j with cmt := { j.cmt with phase := .rebalancing } }).updCluster p fun c => { c with reb := true }

/-- A ROSTER takes effect: epoch, starter, successor, ranks, ownership; then the units move (R306, R324, R358, R359). The
first roster of a job moves none: its members hold what they own from the image that MODEL_LOAD reads (R362). A member that
joins a running job held none, and takes the roster's commit number. -/
def State.applyRoster (s : State) (p : PartId) (r : RosterMsg) (first : Bool) : State :=
  match s.job p, s.cluster p with
  | some j, some c =>
    let old := c.roster
    let joins := !first && decide (c.state = .admitting)
    let added := (rosterList r.mask).filter fun e => !inMask old e
    let s := s.updCluster p fun c =>
      { c with roster := r.mask, epoch := r.epoch, starter := r.starter, successor := r.successor, rosters := c.rosters + 1,
               heldRosters := c.heldRosters.filter (· ≠ r), received := 0, sent := 0, begun := true
               takeovers := c.takeovers + b2n (!first && decide (r.starter ≠ c.starter))
               state := if inMask r.mask c.self && !j.paused then .member else .paused
               lostStarter := !inMask r.mask c.self
               admitted := c.admitted.filter fun e => !inMask r.mask e }
    let s := if first then s else s.updJob p fun j => { j with cmt := { j.cmt with needReb := true, rebalanced := [] } }
    let s := added.foldl (fun s e => s.raise .mc (some p) 0x7003 [e, j.step.commit, r.epoch]) s
    match j.unitMap with
    | none => if first then s else
        (s.rebalanceBegin p).rebalanceEnd p
    | some u =>
      if first then s.updCluster p fun c => { c with units := (c.holdings r.mask).zip (List.range u.slots) }
      else match (if joins then none else lostUnit c.cl old r.mask) with
      | some k => s.updJob p fun j => { j with cmt := { j.cmt with phase := .holding, lostUnit := some k } }
      | none =>
        let s := (s.rebalanceBegin p).updCluster p fun c =>
          let due := if joins then c.holdings r.mask else c.receipts old r.mask
          { c with units := if joins then [] else c.units
                   awaiting := ((c.awaiting.filter fun k => (c.holdings r.mask).contains k) ++ due).eraseDups }
        let s := if joins then s else (c.sends old r.mask).foldl (fun s ke => s.sendUnit p ke) s
        ((s.freeUnits p).retryXfers p).rebalanceEnd p
  | _, _ => s

end Sys2Proof.Machine
end

