-- ==== Sys2Proof/Machine/Commit.lean ====
section
/-! DEFINITION. How jobs and long operations end; the change of step, its COMMIT and its ABORT (R145, R161-R164, R219, R220,
R254, R268, R350-R363). -/

namespace Sys2Proof.Machine

/-! ### Handles and final records (R254, R267-R271) -/

/-- The live handle `h`. -/
def State.handleOf (s : State) (h : Nat) : Option Handle := s.handles.find? fun x => x.num = h

/-- The state with handle `h` changed through `f`. -/
def State.updHandle (s : State) (h : Nat) (f : Handle → Handle) : State :=
  { s with handles := s.handles.map fun x => if x.num = h then f x else x }

/-- The final record of a command that was taken (R254, R259). -/
def State.finalRecord (s : State) (p : PartId) (c : TakenCmd) (status handle event d0 d1 : Nat) : State :=
  (s.updIface p fun i => { i with taken := i.taken.filter (· ≠ c) }).reservedRecord p
    (cplRecord 0 (if status = 0 then c.level else 3) status handle c.index c.hostTag event d0 d1)

/-- A long operation reaches DONE: its final record, or OP_DONE for one that MGMT_OP_START started (R268). -/
def State.opDone (s : State) (h status event d0 : Nat) : State :=
  match s.handleOf h with
  | none => s
  | some x =>
    if x.state = .done then s
    else
      let s := s.updHandle h fun x =>
        { x with state := .done, status := status, event := event, xfers := [], suspendPending := false, cmd := none }
      match x.cmd, x.part with
      | some c, some p => s.finalRecord p c status h event d0 0
      | _, _ => if x.owner = 0 then s.raise .usb none 0x2008 [h, x.kind, status, event] else s

/-! ### Re-plans (R26, R410) -/

/-- Rail and fence record of core `c`, changed through `f`. -/
def State.updRail (s : State) (c : CoreId) (f : CoreRail → CoreRail) : State :=
  { s with mc := { s.mc with rails := s.mc.rails.set c (f s.mc.rails[c]) } }

/-- The code of a family under a plan: the smallest of 0 to 63 that gives at least 15 % margin, 63 where none does (R410). -/
def planCode (p : Plan) (f : Nat) : Nat := Nat.min 63 ((p.margins.getD f []).findIdx fun m => decide (15 ≤ m))

/-- The codes of the eight families (R25, R410). -/
def planCodes (p : Plan) : List Nat := (List.range 8).map (planCode p)

/-- The floor of a plan in mV: the lowest voltage on the 5 mV grid from 500 to 850 mV at which every family keeps 15 % (R25, R410). -/
def planFloor (p : Plan) : Nat := Nat.min 850 (500 + 5 * p.keeps.findIdx fun m => decide (15 ≤ m))

/-- A re-plan sets a core's codes and floor, and raises REPLAN_DONE when a code changes; the first of a part's life sets the
commissioning floor (R410, R412). -/
def State.replan (s : State) (c : CoreId) (plan : Plan) : State :=
  let old := s.mc.rails[c]
  let s := s.updRail c fun r => { r with
    codes := planCodes plan, floor := planFloor plan, volt := Nat.max r.volt (planFloor plan), wantReplan := false, quiesce := none, raising := false, commission := some (r.commission.getD (planFloor plan)) }
  let s := s.countFld (coreMargin c.val) 23 16 1
  let s := if old.commission.isNone then s.fixedLog else s
  if old.codes = planCodes plan then s
  else s.raise (.core c.val) s.cores[c].part 0x4005
    [c.val, (planCodes plan).foldl Nat.min ((planCodes plan).headD 0), (planCodes plan).foldl Nat.max 0, planFloor plan]

/-- Quiesced cores with nothing left in flight are re-planned (R26). -/
def State.quiesceDone (s : State) : State :=
  allCores.foldl (fun s c => match s.mc.rails[c].quiesce with
    | some plan => if s.cores[c].issued.isEmpty then s.replan c plan else s
    | none => s) s

/-! ### The end of a job (R219, R220, R269, R385) -/

/-- What a stream keeps when its job has ended: its counts and its latest failure (R230). -/
def Stream.rest (t : Stream) : Stream :=
  { issued := t.issued, qstall := t.qstall, faultEvent := t.faultEvent, faultClass := t.faultClass, faultIdx := t.faultIdx }

/-- A half of a core without a job: the event counters keep their values (R207). -/
def LCtx.rest (l : LCtx) : LCtx := { streams := l.streams.map Stream.rest, cnt := l.cnt }

/-- RETRY_S of partition `p`'s standing job if it has RESTART set (R384). -/
def State.standingRetry (s : State) (p : PartId) : Option Nat :=
  ((s.cfgRecs 0x40).find? fun v => nbits (rdLE v 0 4) 1 0 = p.val).bind fun v =>
    if nbits (rdLE v 0 4) 6 6 = 1 then some (rdLE v 4 2) else none

/-- The job of a partition ends: its handle reaches DONE, the partition becomes free, and a standing job with RESTART that
was not cancelled is due again RETRY_S later (R219, R269, R385). -/
def State.finishJob (s : State) (p : PartId) : State :=
  match s.job p with
  | none => s
  | some j =>
    let s := s.mapCores fun k =>
      if k.part = some p then
        { k with first := k.first.rest, guest := k.guest.rest, ganged := false, arrays := k.arrays.map fun a => { a with split := false } }
      else k
    let s := s.updPart p fun q => { q with job := none, left := j.cluster.isSome, flying := [] }
    let s := s.opDone j.handle j.endStatus j.endEvent (if j.kind = .train then j.step.commit else 0)
    match j.standing, s.standingRetry p with
    | some _, some r =>
      if j.endStatus = 2 then s
      else { s with mc := { s.mc with restartAt := mapSet s.mc.restartAt p.val (s.mc.time + r * 1000000000) } }
    | _, _ => s

/-- A job that is to end does so once no descriptor of it is left (R220). -/
def State.settle (s : State) (p : PartId) : State :=
  let s := s.quiesceDone
  match s.job p with
  | none => s
  | some j => if (j.stop = .cancel ∨ j.stop = .failed) ∧ s.issuedOf p = [] then s.finishJob p else s

/-! ### Stopping (R220, R338) -/

/-- The streams of a job, changed through `f`. -/
def State.mapStreams (s : State) (p : PartId) (f : Stream → Stream) : State :=
  s.mapCores fun k =>
    if k.part = some p then
      { k with first := if k.first.lcore.isSome then { k.first with streams := k.first.streams.map f } else k.first
               guest := if k.guest.lcore.isSome then { k.guest with streams := k.guest.streams.map f } else k.guest }
    else k

/-- Every stream of a job stops issuing at its next descriptor boundary (R220). -/
def State.stopStreams (s : State) (p : PartId) : State :=
  s.mapStreams p fun t => match t.state with
    | .issuing | .waitCounter | .waitQueue | .waitFence => { t with state := .stopping }
    | _ => t

/-- Whether the owner held the request of a GATHER of core `c` is not in any message to its requester: CORE_NET_GHELD takes a free 0 or
1 for it (R348, R367; log entry 46). -/
def State.freeGheld (s : State) (c : CoreId) : State :=
  let (i, s) := s.fresh
  if Config.free i % 2 = 1 then s.count (coreNetGheld c.val) 1 else s

/-- Every NET descriptor that has issued and not completed is cancelled, and counted (R338); the request of a GATHER that runs may stand
held at its owner (R348). -/
def State.cancelNet (s : State) (p : PartId) : State :=
  let mine := fun (e : Issued) => decide (e.part = p) && decide (e.queue = .net)
  let asks := fun (e : Issued) => mine e && decide (e.phase = .running) && decide (dfld e.words 0x10 31 24 = 0x02)
  let s := allCores.foldl (fun s c => (s.cores[c].issued.filter asks).foldl (fun s _ => s.freeGheld c) s) s
  let s := allCores.foldl (fun s c =>
    s.count (coreNetCancel c.val) (s.cores[c].issued.filter mine).length) s
  let s := s.mapCores fun k => { k with issued := k.issued.filter fun e => !mine e }
  (s.updCluster p fun c => { c with reds := [], heldReds := [], posts := [], sendNext := [], recvDone := [] }).quiesceDone

/-! ### The change of step (R145, R150) -/

/-- The slots of a logical core are cleared: rotating ones become EMPTY, resident ones stay LIVE and their tiles turn to +0;
until GB_CLEAR_DONE their clearing runs (R145). -/
def State.clearSlots (s : State) (j : Job) (l : Nat) : State :=
  match j.serve l with
  | none => s
  | some v =>
    let slots := (s.lctx v).slots
    let s := slots.foldl (fun s g =>
      if g.resident then
        let n := ((j.tileOf l g.tile).map TileRec.bytes).getD g.len
        s.zeroRange (translate j.serves j.guests (gbBase l + g.off)) n
      else s) s
    s.updLCtx v fun c => { c with slots := c.slots.map fun g =>
      if g.resident then { g with state := .live, ties := 0, clearing := true }
      else { g with state := .empty, tile := 0, ties := 0, clearing := false } }

/-- The step under way changes: slots clear, additions that wait add nothing (R144, R145). -/
def State.changeStep (s : State) (p : PartId) : State :=
  match s.job p with
  | none => s
  | some j =>
    let s := (List.range j.lcores).foldl (fun s l => s.clearSlots j l) s
    s.mapCores fun k =>
      { k with issued := k.issued.map fun e => if e.part = p then { e with adds := [], mute := true } else e }

/-- Every counter clears and all four streams of every logical core start at index 0 (R219). A new iteration of a LOOP numbers its
messages from 0 again, as a new step does (R364, DEDUCED; log entry 103). -/
def State.startStreams (s : State) (p : PartId) : State :=
  let fresh := fun (t : Stream) => { t.rest with state := .issuing }
  let half := fun (l : LCtx) => if l.lcore.isSome then { l with cnt := [], streams := l.streams.map fresh } else l
  let s := s.mapCores fun k => if k.part = some p then { k with first := half k.first, guest := half k.guest } else k
  let s := s.updPart p fun q => { q with flying := [] }
  let s := s.updCluster p fun c => { c with sendNext := [], recvDone := [] }
  s.updJob p fun j => { j with
    stop := .none, paused := false
    step := { j.step with started := true, updating := false, decision := .pending }
    cmt := { j.cmt with restart := false, phase := if j.kind = .train then .running else .noStep } }

/-- Whether a logical core of a job is served by a core that is out of service (R226). -/
def State.needsRemap (s : State) (p : PartId) : Bool :=
  (s.job p).any fun j => j.serves.any fun v => match v with | some v => !s.cores[v.core].inService | none => false

/-- Whether the streams of a partition's job may restart: none of its descriptors is left, every logical core is served,
the job is not paused, and cascade start does not hold the device (R219, R228, R229, R330). -/
def State.mayRestart (s : State) (p : PartId) : Bool :=
  decide (s.issuedOf p = []) && !s.needsRemap p && decide (s.mc.cascade ≠ .held) && !(s.job p).any Job.paused

/-- The streams of a job restart as soon as they may (R219). -/
def State.restartWhenClear (s : State) (p : PartId) : State :=
  if s.mayRestart p then s.startStreams p else s.updJob p fun j => { j with cmt := { j.cmt with restart := true } }

/-! ### Checkpoints (R360-R363) -/

/-- MAGIC of checkpoint headers (R361). -/
def ckptMagic : Nat := 0x30343854

/-- Bytes of a bank of the job state area (R164). -/
def Job.jstateLen (j : Job) : Nat := cdiv (64 + 4 * j.wts.length) 4096 * 4096

/-- Address of the live bank of the job state area (R164). -/
def Job.jstateLive (j : Job) : Nat := (j.upd.getD {}).jstate + (if j.step.jbank then j.jstateLen else 0)

/-- Address of the shadow bank of the job state area (R164). -/
def Job.jstateShadow (j : Job) : Nat := (j.upd.getD {}).jstate + (if j.step.jbank then 0 else j.jstateLen)

/-- Address of a banked region's live bank (R161). -/
def Job.liveBase (j : Job) (r : BankRec) : Nat :=
  translate j.serves j.guests (if j.step.liveB then r.b else r.a)

/-- The digest that a checkpoint header carries: the job digest, or that of R363. -/
def Job.ckptDigest (j : Job) : List Byte := match j.cluster with | some c => c.cl.digest | none => j.digest

/-- A header padded to 4 KiB. -/
def pad4K (b : List Byte) : List Byte := slice b 0 4096

/-- The job header of a checkpoint image (R361, R363). -/
def Job.ckptHeader (j : Job) (conduct : Nat) : List Byte :=
  let u := j.unitMap
  let key := (j.cluster.map fun c => c.cl.key).getD 0
  let n := (j.cluster.map fun c => (rosterList c.roster).length).getD 1
  let shards := (j.cluster.map fun c => c.cl.shards).getD 0
  let regions := if j.cluster.isNone then (j.upd.getD {}).regions.length else 0
  pad4K (leBytes 4 ckptMagic ++ leBytes 4 1 ++ leBytes 8 key ++ leBytes 4 j.step.commit ++ leBytes 4 (conduct * 2 ^ 24 + n) ++
    leBytes 4 shards ++ leBytes 4 ((u.map fun m => m.stateBytes / 4096).getD 0) ++
    leBytes 4 ((u.map fun m => m.pubBytes / 4096).getD 0) ++ leBytes 4 j.jstateLen ++ leBytes 4 regions ++ leBytes 4 0 ++ j.ckptDigest)

/-- A run of device memory cut into transfers of at most 64 MiB; the first number is fuel. -/
def cutXfers : Nat → Nat → Nat → Nat → List Xfer
  | 0, _, _, _ => []
  | f + 1, a, o, n =>
    if n ≤ 0x4000000 then [⟨a, false, [], o, n⟩] else ⟨a, false, [], o, 0x4000000⟩ :: cutXfers f (a + 0x4000000) (o + 0x4000000)
      (n - 0x4000000)

/-- Device memory `a` to `a + n - 1` goes to offset `o` of the image. -/
def memXfers (a o n : Nat) : List Xfer := cutXfers (n / 0x4000000 + 1) a o n

/-- Bytes go to offset `o` of the image. -/
def bytesXfer (o : Nat) (b : List Byte) : Xfer := ⟨0, true, b, o, b.length⟩

/-- Header of unit `k` in an image (R361). -/
def unitHeader (k commit key : Nat) : List Byte :=
  leBytes 4 ckptMagic ++ leBytes 4 k ++ leBytes 4 commit ++ leBytes 8 key ++ leBytes 44 0

/-- Header of region `r` in an image (R363). -/
def regionHeader (r commit kind len : Nat) : List Byte :=
  leBytes 4 ckptMagic ++ leBytes 4 r ++ leBytes 4 commit ++ leBytes 4 kind ++ leBytes 8 len ++ leBytes 40 0

/-- Offsets of the region parts of an image without a cluster (R363). -/
def regionOffsets : Nat → List BankRec → List (Nat × BankRec)
  | _, [] => []
  | o, r :: rs => (o, r) :: regionOffsets (o + 4096 + cdiv r.len 4096 * 4096) rs

/-- What a member reads and writes for a checkpoint, each header after its data (R360, R361, R363). -/
def Job.ckptXfers (j : Job) (conduct : Nat) : List Xfer :=
  let l := j.jstateLen
  let own := memXfers j.jstateLive 0x1000 l ++ [bytesXfer 0 (j.ckptHeader conduct)]
  match j.cluster with
  | none =>
    (indexed (regionOffsets (0x1000 + l) (j.upd.getD {}).regions)).flatMap (fun e =>
      memXfers (j.liveBase e.2.2) (e.2.1 + 4096) e.2.2.len ++
        [bytesXfer e.2.1 (pad4K (regionHeader e.1 j.step.commit e.2.2.kind e.2.2.len))]) ++ own
  | some c =>
    let units := match j.unitMap with
      | none => []
      | some u => (List.range c.cl.shards).flatMap fun k =>
          match (if ownerOf c.roster k = c.self then c.slotOf k else none) with
          | none => []
          | some slot =>
            let o := 0x1000 + l + k * (4096 + u.stateBytes + u.pubBytes)
            memXfers (j.liveBase u.state + slot * u.stateBytes) (o + 4096) u.stateBytes ++
              memXfers (j.liveBase u.pub + slot * u.pubBytes) (o + 4096 + u.stateBytes) u.pubBytes ++
              [bytesXfer o (pad4K (unitHeader k j.step.commit c.cl.key))]
    units ++ (if rankOf c.roster c.self = 0 then own else [])

/-- Port and queue pair of a storage operation, from its work list. -/
def Handle.path (h : Handle) : PortId × Nat := (Fin.ofNat 8 (h.work.getD 0 0), h.work.getD 1 0)

/-- A storage operation has moved `n` more bytes; its progress is in units of 64 MiB (R271). -/
def Handle.move (h : Handle) (n : Nat) : Handle := { h with moved := h.moved + n, progress := (h.moved + n) / 0x4000000 }

/-- READY leaves for the starter (R350, R351). -/
def State.sendReady (s : State) (p : PartId) : State :=
  match s.job p, s.cluster p with
  | some j, some c =>
    let n := j.step.shadow.getD j.num
    let dec := if j.step.decision = .skip then 2 else 1
    let body := leBytes 4 (j.step.commit + 1) ++ leBytes 1 j.step.attempt ++ leBytes 1 dec ++ leBytes 1 (toTwos 8 n.sg) ++
      leBytes 1 0 ++ leBytes 4 (if dec = 2 then 0 else j.step.norm)
    (s.updJob p fun j => { j with cmt := { j.cmt with phase := .readySent, spoke := true, readyWait := false } }).sendCtl p
      c.starter 0x21 body
  | _, _ => s

/-- The member has read every byte of its checkpoint: CKPT_READ, slots that waited are freed, a READY that waited goes
(R360). -/
def State.ckptRead (s : State) (p : PartId) : State :=
  match s.job p with
  | none => s
  | some j =>
    if !j.cmt.ckptReading || s.handles.any fun x => decide (x.kind = 2 ∧ x.part = some p ∧ x.xfers ≠ []) then s
    else
      let s := s.updJob p fun j => { j with cmt := { j.cmt with ckptReading := false } }
      match j.cluster with
      | none => s
      | some c =>
        let s := s.sendCtl p c.starter 0x26 (leBytes 4 j.cmt.lastCkpt)
        let s := ((s.freeUnits p).retryXfers p).rebalanceEnd p
        if j.cmt.readyWait ∧ !j.cmt.spoke then s.sendReady p else s

/-- A CHECKPOINT ends FAILED with an event; it reads nothing more (R254, R360). -/
def State.ckptFail (s : State) (p : PartId) (h event : Nat) : State := (s.opDone h 3 event 0).ckptRead p

/-- The next transfer of a CHECKPOINT is read and posted; with its last, the member has read all it must. A read that finds an
uncorrectable error or unusable memory ends it (R184, R190, R360, R361). -/
def State.ckptNext (s : State) (h : Nat) : State :=
  match s.handleOf h with
  | none => s
  | some x =>
    match x.xfers, x.part with
    | f :: r, some p =>
      if x.state ≠ .running then s
      else
        let as := if f.inline then [] else (List.range f.len).map fun i => f.loc + i
        match s.firstBad as with
        | some a => (s.uncorrectable (some p) a).ckptFail p h 0x5011
        | none =>
          if as.any fun a => (s.unusable a).isSome then s.ckptFail p h 0x5004
          else
            let bs := if f.inline then f.bytes else s.rdBytes f.loc f.len
            let s := ((s.touchAll as).meetRange f.loc as.length).updHandle h fun x => { x with xfers := r }
            let s := s.postWrite x.path.1 x.path.2 (.op h) (x.work.getD 2 0 + f.off) (x.work.getD 3 0) bs
            if r = [] then s.ckptRead p else s
    | _, _ => s

/-- A CHECKPOINT goes on once all it has posted is acknowledged: its next transfer, then the flush of a DURABLE one over the
written range, then DONE (R260, R301, R360). -/
def State.ckptGo (s : State) (h : Nat) : State :=
  match s.handleOf h with
  | none => s
  | some x =>
    if x.state ≠ .running ∨ x.work.getD 4 0 ≠ 1 ∨ (s.qp x.path.1 x.path.2).owes (.op h) = true then s
    else if x.xfers ≠ [] then s.ckptNext h
    else if x.work.getD 6 0 = 0 ∧ x.work.getD 5 0 ≠ 0 ∧ (x.cmd.any fun c => decide (c.level = 2)) = true then
      (s.updHandle h fun x => { x with work := x.work.take 6 ++ [1] }).postFlush x.path.1 x.path.2 (.op h) (x.work.getD 2 0)
        (x.work.getD 3 0) (x.work.getD 5 0)
    else s.opDone h 0 0 0

/-- The checkpoints of a partition that wait for their commit begin to read (R360); a member that has nothing to write has read all of it
at once, and its CHECKPOINT is DONE. -/
def State.startCheckpoints (s : State) (p : PartId) : State :=
  match s.job p with
  | none => s
  | some j =>
    let waiting := s.handles.filter fun x => decide (x.kind = 2 ∧ x.part = some p ∧ x.state ≠ .done ∧ x.work.getD 4 0 = 0)
    let xs := j.ckptXfers s.mc.conduct
    let total := xs.foldl (fun n f => Nat.max n (f.off + f.len)) 0
    if waiting = [] then s
    else
      let s := waiting.foldl (fun s x => s.updHandle x.num fun x => { x with xfers := xs, work := x.work.take 4 ++ [1, total, 0] }) s
      let s := s.updJob p fun j =>
        { j with cmt := { j.cmt with ckptPend := false, ckptReading := true, lastCkpt := j.step.commit } }
      waiting.foldl (fun s x => s.ckptGo x.num) (if xs = [] then s.ckptRead p else s)

/-! ### Applying COMMIT and ABORT (R161-R164, R351-R356) -/

/-- The job goes to SUSPENDED at its suspend point (R268, R269, R357). -/
def State.suspendJob (s : State) (p : PartId) : State :=
  match s.job p with
  | none => s
  | some j =>
    let s := s.updHandle j.handle fun x =>
      if x.state = .running then { x with state := .suspended, suspendPending := false } else x
    s.updJob p fun j => { j with cmt := { j.cmt with phase := if j.kind = .train then .holding else .noStep, holdNext := false } }

/-- The job pauses: its handle stays RUNNING with no stream active (R226, R326, R352). -/
def State.pauseJob (s : State) (p : PartId) : State :=
  (s.updJob p fun j => { j with paused := true, cmt := { j.cmt with phase := .paused } }).updCluster p fun c =>
    { c with state := if c.state = .left then .left else .paused }

/-- The job is to end with a status and an event; a member of a cluster goes to LEFT (R220, R222, R321, R357). -/
def State.endJob (s : State) (p : PartId) (why : StopWhy) (status event : Nat) : State :=
  let s := s.updJob p fun j => { j with stop := why, endStatus := status, endEvent := event }
  let s := s.updCluster p fun c => { c with state := .left }
  ((s.stopStreams p).cancelNet p).settle p

/-- Frames of VC4 to VC15 that have not been sent, frames and messages of those channels that have been received, belong to an old
epoch and go, no PSN being skipped (R318, R319, R338). -/
def State.dropEpoch (s : State) (p : PartId) : State :=
  s.updCluster p fun c => { c with
    conns := c.conns.map fun r => { r with vcs := (indexed r.vcs).map fun v =>
      if 4 ≤ v.1 then { v.2 with sendq := [], partMsg := [], rxHeld := v.2.rxHeld.map fun f => { f with dropped := true } } else v.2 }
    inbox := c.inbox.filter fun m => decide (m.vc < 4) }

/-- The held ROSTER that takes effect after commit number `n`. -/
def Cluster.dueRoster (c : Cluster) (n : Nat) : Option RosterMsg := c.heldRosters.find? fun r => r.after = n

/-- What COMMIT makes of the step and the numerics (R60-R63, R145, R161-R164, R351). -/
def Job.committed (j : Job) (n : Nat) : Job :=
  let go := decide (j.step.decision = .proceed)
  { j with
    num := j.step.shadow.getD j.num
    step := { j.step with
      commit := n, attempt := 0, liveB := if go then !j.step.liveB else j.step.liveB, jbank := !j.step.jbank
      optSteps := if go then j.step.optSteps + 1 else j.step.optSteps, decision := .pending, redNonfin := false
      zcounts := [], reduced := [], overflow := false, shadow := none, silent := [], updating := false }
    cmt := { j.cmt with
      commits := j.cmt.commits + 1, runAborts := 0, abortsHere := 0, diverged := 0, namedLate := [], readies := [], timer := false
      decided := false, spoke := false } }

/-- Events of a committed step (R60, R63). -/
def State.commitEvents (s : State) (p : PartId) (j : Job) (n : Nat) : State :=
  let sh := j.step.shadow.getD j.num
  let s := if j.num.sg < sh.sg then s.raise .mc (some p) 0x3012 [n, toTwos 32 sh.sg] else s
  j.step.silent.foldl (fun s t => s.raise .mc (some p) 0x3020 [t, fld (sh.words.getD (j.wpos t) 0) 20 16]) s

/-- An ABORT_REQ for the step under way (R350, R353). -/
def State.sendAbortReq (s : State) (p : PartId) (code entry : Nat) : State :=
  match s.job p, s.cluster p with
  | some j, some c =>
    (s.updJob p fun j => { j with cmt := { j.cmt with spoke := true } }).sendCtl p c.starter 0x22
      (leBytes 4 (j.step.commit + 1) ++ leBytes 1 j.step.attempt ++ leBytes 1 0 ++ leBytes 2 code ++ leBytes 1 entry)
  | _, _ => s

/-- A failure that followed READY is reported against the next step, or, where it cost committed state, as a LEAVE (R353). -/
def State.reportOwed (s : State) (p : PartId) : State :=
  match s.job p, s.cluster p with
  | some j, some c =>
    if j.cmt.stateLost then
      ((s.updCluster p fun c => { c with state := .left }).sendCtl p c.starter 0x04 (leBytes 4 2)).pauseJob p
    else match j.cmt.owed with
      | some (code, entry) =>
        (s.updJob p fun j => { j with cmt := { j.cmt with owed := none } }).sendAbortReq p code entry
      | none => s
  | _, _ => s

/-- A member applies COMMIT `n` with its flags: HOLD, CKPT, END, CANCEL (R350, R351, R353, R357, R358, R360). -/
def State.applyCommit (s : State) (p : PartId) (n flags : Nat) : State :=
  match s.job p with
  | none => s
  | some j =>
    let s := s.commitEvents p j n
    let s := s.updJob p fun j => j.committed n
    let s := s.updHandle j.handle fun x => { x with progress := j.cmt.commits + 1 }
    let s := s.changeStep p
    let s := s.updCluster p fun c => { c with
      heldReds := c.heldReds.filter fun m => decide (n ≤ rdLE m.bytes 4 4)
      posts := c.posts.filter fun m => decide (n ≤ m.commit), sendNext := [], recvDone := [], reds := [] }
    let s := if flags.testBit 1 then s.startCheckpoints p else s
    if flags.testBit 3 then s.endJob p .cancel 2 0
    else if flags.testBit 2 then s.endJob p .cancel 0 0
    else
      match (s.cluster p).bind fun c => c.dueRoster n with
      | some r =>
        let s := if flags.testBit 0 then s.suspendJob p else s
        (s.applyRoster p r false).reportOwed p
      | none =>
        if flags.testBit 0 then (s.suspendJob p).reportOwed p
        else (s.updJob p fun j => { j with cmt := { j.cmt with restart := true, phase := .running } }).reportOwed p

/-- Causes of an ABORT with HOLD that pauses the job (R326, R352, R354, R359, R362). -/
def pausing (cause : Nat) : Bool := [0x7104, 0x710A, 0x7106, 0x7107, 0x7007].contains cause

/-- What ABORT makes of the step; one that takes the attempt count to its limit lets the commit number never start again (R145, R352,
R353). -/
def Job.aborted (j : Job) (a cause entry : Nat) : Job :=
  { j with
    stop := .abort, paused := false
    step := { j.step with
      attempt := a, decision := .pending, redNonfin := false, zcounts := [], reduced := [], overflow := false, shadow := none
      silent := [], updating := false }
    cmt := { j.cmt with
      limit := j.cmt.limit || decide (254 ≤ a), aborts := j.cmt.aborts + 1, runAborts := j.cmt.runAborts + 1, abortsHere := j.cmt.abortsHere + 1, lastEvent := cause
      lastEntry := entry, diverged := if cause = 0x7103 then j.cmt.diverged + 1 else 0, namedLate := if cause = 0x7102 then j.cmt.namedLate else [], readies := [], timer := false
      decided := false, spoke := false, readyWait := false, owed := none, phase := .running } }

/-- A member applies ABORT of the step under way: new attempt `a`, flags HOLD and CANCEL, cause, entry at fault, and the
epoch that then holds (R145, R150, R318, R353, R354). -/
def State.applyAbort (s : State) (p : PartId) (a flags cause entry epoch : Nat) : State :=
  match s.job p with
  | none => s
  | some j =>
    let s := s.raise .mc (some p) 0x7101 [j.step.commit + 1, a, cause, entry]
    let toPause := pausing cause || decide (8 ≤ j.cmt.abortsHere) || decide (3 ≤ j.cmt.diverged)
    let s := s.updJob p fun j => j.aborted a cause entry
    let s := (((s.stopStreams p).cancelNet p).changeStep p).dropEpoch p
    let s := s.updCluster p fun c => { c with epoch := epoch }
    if flags.testBit 3 then s.endJob p .cancel 2 0
    else
      match (s.cluster p).bind fun c => c.dueRoster j.step.commit with
      | some r =>
        let s := s.updJob p fun j => { j with cmt := { j.cmt with abortsHere := 0 } }
        let s := if flags.testBit 0 then (if toPause then s.pauseJob p else s.suspendJob p) else s
        (s.applyRoster p r false).reportOwed p
      | none =>
        if flags.testBit 0 then (if toPause then s.pauseJob p else s.suspendJob p)
        else s.updJob p fun j => { j with cmt := { j.cmt with restart := true } }

/-- A job without a cluster applies its own ABORT; the retry and attempt limits pause it (R352, R356). -/
def State.abortAlone (s : State) (p : PartId) (cause : Nat) : State :=
  match s.job p with
  | none => s
  | some j =>
    let a := j.step.attempt + 1
    let last := decide (254 ≤ a)
    let stop := last || decide (8 ≤ j.cmt.abortsHere)
    let held := (s.handleOf j.handle).any fun x => x.suspendPending
    let s := if stop then s.raise .mc (some p) 0x7104 [j.step.commit + 1] else s
    s.applyAbort p a (b2n (stop || held)) (if last then 0x7104 else cause) 0 0

/-- A member reports a failure for the step under way, with the entry at fault (R23, R222, R353, R356). -/
def State.reportAbort (s : State) (p : PartId) (code : Nat) (entry : Option Nat) : State :=
  match s.job p with
  | none => s
  | some j =>
    if j.stop = .cancel ∨ j.stop = .failed then s
    else match j.cluster with
      | none => s.abortAlone p code
      | some c =>
        if j.cmt.phase = .readySent then
          s.updJob p fun j => { j with cmt := { j.cmt with owed := some (j.cmt.owed.getD (code, entry.getD c.self)) } }
        else if j.cmt.spoke then s
        else s.sendAbortReq p code (entry.getD c.self)

/-- Flags of the next COMMIT of a job alone, or of a starter (R352, R356, R357, R360). -/
def Job.commitFlags (j : Job) (hold ckpt : Bool) : Nat :=
  b2n hold + 2 * b2n ckpt + 4 * b2n (decide (j.steps ≠ 0 ∧ j.cmt.commits + 1 = j.steps))

/-- A job alone applies its own COMMIT (R356). -/
def State.commitAlone (s : State) (p : PartId) : State :=
  match s.job p with
  | none => s
  | some j =>
    let held := (s.handleOf j.handle).any fun x => x.suspendPending
    let s := s.updJob p fun j => { j with cmt := { j.cmt with readyWait := false } }
    s.applyCommit p ((j.step.commit + 1) % 2 ^ 32) (j.commitFlags held j.cmt.ckptPend)

/-- The update lists of a member are complete, or the step is skipped: a cluster member sends READY, a job alone applies its own COMMIT,
each unless checkpoint reads of the live banks still run (R351, R356, R360). -/
def State.stepDone (s : State) (p : PartId) : State :=
  match s.job p with
  | none => s
  | some j =>
    if j.cluster.isSome && j.cmt.spoke then s
    else if j.cmt.ckptReading then s.updJob p fun j => { j with cmt := { j.cmt with readyWait := true } }
    else if j.cluster.isSome then s.sendReady p
    else s.commitAlone p

/-- A job alone whose COMMIT waited for checkpoint reads applies it once they are done (R360). -/
def State.commitWaiting (s : State) (p : PartId) : State :=
  if (s.job p).any fun j => j.cluster.isNone && j.cmt.readyWait && !j.cmt.ckptReading then s.commitAlone p else s

/-! ### Failures of descriptors (R222) -/

/-- The entry at fault that a NET failure names (R349, R352, R369). -/
def DErr.entry (e : DErr) : Option Nat :=
  if e.code = 0x7105 then e.words[3]? else if e.code = 0x710A then e.words[1]? else none

/-- Number of a class as the header gives it. -/
def Issued.cls (e : Issued) : Nat := hClass e.words

/-- A MAT that has failed and still owes additions of sets that passed (R96). -/
def Issued.owing (e : Issued) : Bool := decide (hClass e.words = 1 ∧ e.prog.head? = some 3)

/-- A descriptor that has failed leaves its core, unless it still owes additions (R96). -/
def State.retire (s : State) (c : CoreId) (seq : Nat) : State :=
  s.updCore c fun k => { k with issued := k.issued.filter fun e => decide (e.seq ≠ seq) || e.owing }

/-- A descriptor that has issued fails, its class's event raised: its stream faults, STREAM_FAULT is raised, and the kind of
the job decides what follows; a failure under a stop ends the descriptor alone (R144, R220, R222). -/
def State.failQuiet (s : State) (c : CoreId) (e : Issued) (code : Nat) (entry : Option Nat) : State :=
  match s.job e.part with
  | none => s.dropIssued c e.seq
  | some j =>
    let s := ((s.retire c e.seq).updCluster e.part fun k => { k with
      reds := k.reds.filter fun r => !decide (r.core = c ∧ r.seq = e.seq) }).quiesceDone
    if e.mute ∨ j.stop ≠ .none then s.settle e.part
    else
      let s := s.raise (.core c.val) (some e.part) 0x4503 [e.lcore, (ctxStream e.ctx).val, e.index, code]
      let s := s.updStream c e.ctx fun t => { t with
        state := .faulted, faultEvent := BitVec.ofNat 16 code, faultClass := BitVec.ofNat 4 e.cls, faultIdx := e.index }
      if j.kind = .train then s.reportAbort e.part code entry
      else s.endJob e.part .failed 3 code

/-- Whether a stop keeps a descriptor from raising its events (R144, R220). -/
def State.muted (s : State) (e : Issued) : Bool := e.mute || (s.job e.part).any fun j => decide (j.stop ≠ .none)

/-- A descriptor fails with the event of its class (R222). -/
def State.failDescriptor (s : State) (c : CoreId) (e : Issued) (err : DErr) : State :=
  (if s.muted e then s else s.raise (.core c.val) (some e.part) err.code err.words).failQuiet c e err.code err.entry

/-! ### Fencing (R23, R402-R404) -/

/-- Powered hours over the part's life (R412). -/
def State.poweredHours (s : State) : Nat := s.mc.poweredNs / 3600000000000

/-- The memories of a core lose their contents (R403). -/
def State.loseCore (s : State) (c : CoreId) : State := (s.zeroRange (wmBase c.val) 0x10000000).zeroRange (crumbBase c.val) 0x100000000

/-- A step that a fence aborts halts before its ABORT comes: the streams stop, NET descriptors are cancelled, the others complete without
signals (R220, R226, R229). -/
def State.haltStep (s : State) (p : PartId) : State :=
  ((s.stopStreams p).cancelNet p).mapCores fun k =>
    { k with issued := k.issued.map fun e => if e.part = p then { e with mute := true } else e }

/-- The job of a partition after a core of it is fenced: a step under way is reported aborted and halts, a RUN or LOOP stops and starts
its iteration again after remapping (R23, R226, R353; log entry 12). -/
def State.jobFenced (s : State) (p : PartId) : State :=
  match s.job p with
  | none => s
  | some j =>
    if j.stop ≠ .none ∨ j.paused then s.settle p
    else if j.kind = .train then
      if j.cmt.restart ∨ (j.cmt.phase ≠ .running ∧ j.cmt.phase ≠ .readySent) then s
      else
        let s := s.reportAbort p 0x4001 none
        if j.cluster.isSome ∧ j.cmt.phase = .running then s.haltStep p else s
    else ((s.updJob p fun j => { j with stop := .abort }).stopStreams p).cancelNet p

/-- Core `c` is fenced with a cause code (R403, R404), and its rates read 0 (R405); a core out of service stays as it is. -/
def State.fenceCore (s : State) (c : CoreId) (cause : Nat) (byProof : Bool) : State :=
  if !s.cores[c].inService then s
  else
    let part := s.cores[c].part
    let id := ((part.bind s.job).map Job.id).getD 0
    let s := s.updCore c fun k => { k with inService := false, issued := [] }
    let s := match part with
      | some p => s.updCluster p fun k => { k with reds := k.reds.filter fun r => r.core ≠ c }
      | none => s
    let s := s.loseCore c
    let hour := s.poweredHours
    let s := s.updRail c fun r => { r with on := false, quiesce := none, byProof := byProof, fences := ((hour, cause) :: r.fences).take 4 }
    let s := (List.range 4).foldl (fun s n => s.setReg (coreRateArr c.val + 4 * n) 0) s
    let s := (s.setFld (coreFence c.val) 31 31 1).setFld (coreFence c.val) 29 29 (b2n byProof)
    let s := s.setFld (coreFence c.val) 15 0 cause
    let s := { s with mc := { s.mc with fenceCount := satAdd 16 s.mc.fenceCount 1 } }
    let s := s.raise (.core c.val) part 0x4001 [c.val, cause, id]
    let recent := s.mc.rails[c].fences.filter fun f => decide (hour ≤ f.1 + 720)
    let s :=
      if 3 ≤ recent.length ∧ !s.mc.rails[c].retired then
        ((s.updRail c fun r => { r with retired := true }).setFld (coreFence c.val) 30 30 1).raise (.core c.val) part 0x4002
          [c.val, hour]
      else s
    let s := s.fixedLog
    match part with
    | some p => s.jobFenced p
    | none => s

/-- The fourth line of a core's own memory at which reads failed within 24 hours fences the core (R402). -/
def State.fenceByErrors (s : State) (a : Nat) : State :=
  let idx := (errorPlace a).2.1
  let lines := (s.mc.ueLog.filter fun e => decide (e.1 = idx)).map fun e => e.2.1
  if (errorPlace a).1 ≠ 4 ∧ 4 ≤ lines.eraseDups.length then s.fenceCore (Fin.ofNat 8 idx) 0x5011 false else s

/-- The same for every core, after reads that log their errors before the core can be fenced: those of a checkpoint and of a rebalance
(R358, R360, R402). -/
def State.fenceDue (s : State) : State := allCores.foldl (fun s c => s.fenceByErrors (wmBase c.val)) s

/-- A CHECKPOINT goes on, with what its reads make due (R360, R402). -/
def State.ckptOn (s : State) (h : Nat) : State :=
  let part := (s.handleOf h).bind Handle.part
  let s := s.ckptGo h
  (match part with | some p => s.commitWaiting p | none => s).fenceDue

/-- A descriptor's read finds an uncorrectable error at a physical address (R190, R222, R402). -/
def State.failRead (s : State) (c : CoreId) (e : Issued) (a : Nat) : State :=
  ((s.uncorrectable (some e.part) a).failQuiet c e 0x5011 none).fenceByErrors a

/-- A descriptor has done all its class asks for; DESCRIPTOR_COMPLETE performs its signals (R212). -/
def State.finish (s : State) (c : CoreId) (e : Issued) : State := s.updIssued c e.seq fun x => { x with phase := .finished }

/-- An access of a running descriptor to these logical bytes: retained cores wake (R180); the error of memory that has become
unusable (R184), or the physical address of a read that finds an uncorrectable error (R190). -/
def State.access (s : State) (j : Job) (reads writes : List Nat) : State × Option (DErr ⊕ Nat) :=
  let s := s.touchAll (reads.map (j.phys false) ++ writes.map (j.phys true))
  match (s.checkUsable j false reads).orElse fun _ => s.checkUsable j true writes with
  | some e => (s, some (.inl e))
  | none => (s, (s.lbad j reads).map .inr)

/-- A command runs for a job of partition `p`, which reads these bytes: the errors that the memories have taken up, and those that
its reads correct (R188, R189). -/
def State.takeFor (s : State) (env : MemEnv) (p : PartId) (as : List Nat) : State :=
  s.takeReads env (match s.job p with | some j => as.map (j.phys false) | none => [])

/-- A descriptor fails as its access did. -/
def State.failAccess (s : State) (c : CoreId) (e : Issued) : DErr ⊕ Nat → State
  | .inl err => s.failDescriptor c e err
  | .inr a => s.failRead c e a

end Sys2Proof.Machine
end

