-- ==== Sys2Proof/Machine/Starter.lean ====
section
/-! DEFINITION. What the starter of a cluster job does with the messages of an attempt and with its roster
(R322-R327, R350-R359). -/

namespace Sys2Proof.Machine

/-- The member is its job's starter. -/
def Cluster.leads (c : Cluster) : Bool := decide (c.starter = c.self)

/-- Whether a MODEL_LOAD waits for the first roster of the partition's job (R362). -/
def State.loadWaits (s : State) (p : PartId) : Bool :=
  s.handles.any fun x => decide (x.kind = 3 ∧ x.part = some p ∧ x.state ≠ .done)

/-- A control message whose header carries an epoch of its own, to each entry in ascending order and to oneself last (R318,
R320, R351). -/
def State.sendAll (s : State) (p : PartId) (es : List Nat) (epoch type : Nat) (body : List Byte) : State :=
  match s.job p, s.cluster p with
  | some j, some c =>
    ((es.filter (· ≠ c.self)) ++ (es.filter (· = c.self))).foldl
      (fun s e => s.sendTo p e 0 (ctlMsg type c.self epoch j.step.commit body)) s
  | _, _ => s

/-- The body of a ROSTER message (R320). -/
def RosterMsg.body (r : RosterMsg) : List Byte :=
  leBytes 4 r.epoch ++ leBytes 4 r.after ++ leBytes 1 r.starter ++ leBytes 1 r.successor ++ leBytes 2 0 ++ leBytes 8 r.mask.toNat

/-- The ROSTER message that a body holds. -/
def rosterOf (m : List Byte) : RosterMsg :=
  ⟨rdLE m 16 4, rdLE m 20 4, rdLE m 24 1, rdLE m 25 1, BitVec.ofNat 64 (rdLE m 28 8)⟩

/-- A roster with entries added. -/
def addEntries (m : BitVec 64) (es : List Nat) : BitVec 64 := es.foldl (fun m e => m ||| BitVec.ofNat 64 (2 ^ e)) m

/-- A roster without an entry. -/
def delEntry (m : BitVec 64) (e : Nat) : BitVec 64 := m &&& ~~~(BitVec.ofNat 64 (2 ^ e))

/-- The successor that a new roster names: the one it had, or the lowest entry other than the starter (R325). -/
def successorIn (m : BitVec 64) (starter succ : Nat) : Nat :=
  if inMask m succ && decide (succ ≠ starter) then succ else ((rosterList m).find? fun e => decide (e ≠ starter)).getD starter

/-- The members that an attempt's messages go to: the roster, or before the first one those admitted. -/
def Cluster.targets (c : Cluster) : List Nat :=
  if c.roster = 0 then (List.range 64).filter fun e => decide (e = c.self) || c.admitted.contains e else rosterList c.roster

/-- The starter sends ABORT of the step under way, unless it has already decided the attempt (R318, R352, R354). -/
def State.starterAbort (s : State) (p : PartId) (cause entry flags : Nat) (targets : List Nat) : State :=
  match s.job p, s.cluster p with
  | some j, some c =>
    if j.cmt.decided then s
    else
      let n := j.step.commit + 1
      let a := j.step.attempt + 1
      let last := decide (254 ≤ a)
      let many := decide (8 ≤ j.cmt.abortsHere)
      let split := decide (3 ≤ j.cmt.diverged)
      let hold := last || many || split || j.cmt.holdNext || pausing cause
      let s := if last || many then s.raise .mc (some p) 0x7104 [n] else s
      let s := if split then s.raise .mc (some p) 0x7103 [n, j.step.attempt, entry] else s
      let body := leBytes 4 n ++ leBytes 1 a ++ leBytes 1 (b2n hold ||| flags) ++ leBytes 2 (if last then 0x7104 else cause) ++
        leBytes 1 entry
      let s := s.updJob p fun j => { j with cmt := { j.cmt with decided := true, readies := [], timer := false } }
      s.sendAll p targets ((c.epoch + 1) % 2 ^ 32) 0x24 body
  | _, _ => s

/-- The starter removes a member: a ROSTER without it after the last committed number, then ABORT of the step under way; too
small a roster holds the job (R324-R326). While an attempt is decided the removal waits. -/
def State.removeMember (s : State) (p : PartId) (e cause abortCause : Nat) : State :=
  match s.job p, s.cluster p with
  | some j, some c =>
    if !inMask c.roster e then s.updCluster p fun c => { c with admitted := c.admitted.filter (· ≠ e) }
    else if j.cmt.decided then
      s.updJob p fun j => { j with cmt := { j.cmt with toRemove := j.cmt.toRemove ++ [(e, cause, abortCause)] } }
    else
      let m := delEntry c.roster e
      let epoch := (c.epoch + 1) % 2 ^ 32
      let n := (rosterList m).length
      let below := decide (n < c.cl.minMembers) || !c.cl.shrink
      let r : RosterMsg := ⟨epoch, j.step.commit, c.starter, successorIn m c.starter c.successor, m⟩
      let s := s.raise .mc (some p) 0x7004 [e, cause, epoch]
      let s := if below then s.raise .mc (some p) 0x7007 [n, c.cl.minMembers] else s
      let s := s.sendAll p (rosterList m) c.epoch 0x03 r.body
      s.starterAbort p (if below then 0x7007 else abortCause) e 0 (rosterList m)
  | _, _ => s

/-- The starter sends COMMIT of the step under way, and before it a ROSTER that takes in those admitted (R324, R351, R352). -/
def State.sendCommit (s : State) (p : PartId) (flags : Nat) : State :=
  match s.job p, s.cluster p with
  | some j, some c =>
    if j.cmt.decided then s
    else
      let n := (j.step.commit + 1) % 2 ^ 32
      let m := addEntries c.roster c.admitted
      let s := s.updJob p fun j => { j with cmt := { j.cmt with
        decided := true, timer := false, ckptWait := flags.testBit 1, ckptReads := []
        ckptReqs := if flags.testBit 1 then [] else j.cmt.ckptReqs } }
      let s := if c.admitted = [] then s else
        s.sendAll p (rosterList m) c.epoch 0x03
          (RosterMsg.mk ((c.epoch + 1) % 2 ^ 32) n c.starter (successorIn m c.starter c.successor) m).body
      s.sendAll p (rosterList m) c.epoch 0x23 (leBytes 4 n ++ leBytes 1 j.step.attempt ++ leBytes 1 flags ++ leBytes 2 0)
  | _, _ => s

/-- Whether READY of every roster member is held. -/
def Job.allReady (j : Job) (c : Cluster) : Bool := (rosterList c.roster).all fun e => j.cmt.readies.any fun r => decide (r.entry = e)

/-- The lowest member whose READY fields differ from the starter's own (R352). -/
def Job.diverging (j : Job) (c : Cluster) : Option Nat :=
  match j.cmt.readies.find? fun r => decide (r.entry = c.self) with
  | none => none
  | some o => (List.range 64).find? fun e =>
      j.cmt.readies.any fun r => decide (r.entry = e ∧ ¬ (r.decision = o.decision ∧ r.sg = o.sg ∧ r.norm = o.norm))

/-- The starter weighs the READYs it holds: divergence aborts, all of them equal commit (R351, R352, R357, R360). -/
def State.weighReady (s : State) (p : PartId) : State :=
  match s.job p, s.cluster p with
  | some j, some c =>
    match j.diverging c with
    | some e => (s.raise .mc (some p) 0x7103 [j.step.commit + 1, j.step.attempt, e]).starterAbort p 0x7103 e 0 c.targets
    | none =>
      if j.allReady c then
        let ckpt := (rosterList c.roster).all fun e => j.cmt.ckptReqs.contains e
        s.sendCommit p (j.commitFlags j.cmt.holdNext ckpt + 8 * b2n j.cmt.cancelNext)
      else s
  | _, _ => s

/-- The starter sends START of the step under way once nothing keeps it back (R351, R357, R358). -/
def State.tryStart (s : State) (p : PartId) : State :=
  match s.job p, s.cluster p with
  | some j, some c =>
    let running := (s.handleOf j.handle).any fun x => decide (x.state = .running)
    let all := !j.cmt.needReb || (rosterList c.roster).all fun e => j.cmt.rebalanced.contains e
    if c.leads && decide (c.roster ≠ 0) && running && !j.paused && !j.cmt.limit && all && !j.cmt.decided &&
        (j.cmt.needReb || decide (j.cmt.phase = .holding) || !j.step.started) then
      (s.updJob p fun j => { j with cmt := { j.cmt with needReb := false, rebalanced := [] } }).sendAll p
        (rosterList c.roster) c.epoch 0x20 (leBytes 4 (j.step.commit + 1) ++ leBytes 1 j.step.attempt ++ leBytes 3 0)
    else s
  | _, _ => s

/-- The starter begins the first step when every entry, or after START_TIMEOUT_S enough of them, has been admitted (R323,
R362). The members' committed numbers are compared as their control messages last told them; where a MODEL_LOAD waits for the roster,
each tells its own with REBALANCED (log entry 103). -/
def State.beginFirst (s : State) (p : PartId) : State :=
  match s.job p, s.cluster p with
  | some j, some c =>
    let held := (s.handleOf j.handle).any fun x => decide (x.state ≠ .running)
    let n := c.admitted.length + 1
    let enough := decide (n = c.cl.members.length) || (c.awaitMin && decide (c.cl.minMembers ≤ n))
    if c.begun || !c.leads || held || !enough then s
    else if !s.loadWaits p && c.numbers.any fun e => c.admitted.contains e.1 && decide (e.2 ≠ j.step.commit) then
      (s.raise .mc (some p) 0x7107 [Config.fieldWord 0x7107 0 0, 0]).pauseJob p
    else
      let m := addEntries 0 (c.self :: c.admitted)
      let r : RosterMsg := ⟨c.epoch, j.step.commit, c.self, successorIn m c.self c.cl.successor, m⟩
      let s := s.updCluster p fun c => { c with begun := true }
      let s := s.sendAll p (rosterList m) c.epoch 0x03 r.body
      if s.loadWaits p then s.updJob p fun j => { j with cmt := { j.cmt with needReb := true, rebalanced := [] } }
      else s.sendAll p (rosterList m) c.epoch 0x20 (leBytes 4 (j.step.commit + 1) ++ leBytes 1 j.step.attempt ++ leBytes 3 0)
  | _, _ => s

/-- A job that paused for want of members, or of a pipeline peer, goes on when those admitted suffice, or bring that peer back: a
ROSTER with them, then ABORT (R324, R326, R354). -/
def State.restoreRoster (s : State) (p : PartId) : State :=
  match s.job p, s.cluster p with
  | some j, some c =>
    let m := addEntries c.roster c.admitted
    let n := (rosterList m).length
    let enough := (decide (j.cmt.lastEvent = 0x710A) && inMask m j.cmt.lastEntry) ||
      (decide (j.cmt.lastEvent = 0x7007 ∧ c.cl.minMembers ≤ n) && (c.cl.shrink || decide (n = c.cl.members.length)))
    if c.leads && c.begun && j.paused && !j.cmt.limit && decide (c.admitted ≠ []) && enough && !j.cmt.decided then
      let r : RosterMsg := ⟨(c.epoch + 1) % 2 ^ 32, j.step.commit, c.starter, successorIn m c.starter c.successor, m⟩
      (s.sendAll p (rosterList m) c.epoch 0x03 r.body).starterAbort p 0x7003 c.self 0 (rosterList m)
    else s
  | _, _ => s

/-- The lowest roster member other than this one to which every connection is down (R325). -/
def Cluster.unreached (c : Cluster) : Option Nat :=
  (rosterList c.roster).find? fun e => decide (e ≠ c.self) && decide (c.connsTo e ≠ []) && (c.connsTo e).all fun k => !(c.run k).up

/-- The starter removes a roster member that no connection reaches any more (R325). -/
def State.removeUnreached (s : State) (p : PartId) : State :=
  match s.cluster p with
  | some c => match (if c.leads then c.unreached else none) with
    | some e => s.removeMember p e 0x6102 0x7004
    | none => s
  | none => s

/-- What the starter had to put off while an attempt was decided, done once it has applied its own COMMIT or ABORT: a
cancellation, a removal, a unit without a source (R325, R357, R359). -/
def State.afterDecision (s : State) (p : PartId) : State :=
  match s.job p, s.cluster p with
  | some j, some c =>
    if !c.leads then s
    else if j.cmt.cancelNext then s.starterAbort p 0 c.self 8 c.targets
    else match j.cmt.toRemove with
      | (e, cause, ac) :: r => (s.updJob p fun j => { j with cmt := { j.cmt with toRemove := r } }).removeMember p e cause ac
      | [] => match j.cmt.lostUnit with
        | some k =>
          let s := s.updJob p fun j => { j with cmt := { j.cmt with lostUnit := none } }
          (s.raise .mc (some p) 0x7106 [k, c.epoch]).starterAbort p 0x7106 c.self 0 c.targets
        | none => s.removeUnreached p
  | _, _ => s

/-- A member goes to PAUSED for want of a starter (R327). -/
def State.noStarter (s : State) (p : PartId) : State :=
  match s.job p, s.cluster p with
  | some j, some c =>
    let s := s.raise .mc (some p) 0x7006 [c.self, j.step.commit]
    let s := s.updJob p fun j => { j with stop := if j.stop = .none then .abort else j.stop }
    (((s.stopStreams p).cancelNet p).pauseJob p).updCluster p fun c => { c with lostStarter := true }
  | _, _ => s

/-- JOIN to the starter (R320, R322). -/
def State.sendJoin (s : State) (p : PartId) : State :=
  match s.cluster p with
  | some c =>
    (s.updCluster p fun c => { c with state := .joining, lostStarter := false }).sendCtl p c.starter 0x01
      (leBytes 8 Config.serial.toNat ++ leBytes 1 s.mc.conduct ++ leBytes 3 0 ++ c.cl.digest)
  | none => s

/-- The successor takes over: it completes the highest committed number on every member that its AGREE does not show to hold it, then
removes the old starter (R327, R352, R355; log entry 45). -/
def State.takeover (s : State) (p : PartId) : State :=
  match s.job p, s.cluster p with
  | some j, some c =>
    let old := c.starter
    let cmax := (c.agrees.map Prod.snd).foldl Nat.max j.step.commit
    let m := delEntry c.roster old
    let epoch := (c.epoch + 1) % 2 ^ 32
    let s := s.raise .mc (some p) 0x7005 [old, c.self, epoch]
    let s := s.updCluster p fun c =>
      { c with starter := c.self, takeovers := c.takeovers + 1, queried := false, agrees := [], silent := false }
    let late := (rosterList m).filter fun e =>
      if e = c.self then decide (j.step.commit + 1 = cmax) else decide (mapGet c.agrees e ≠ some cmax)
    let s := s.sendAll p late c.epoch 0x23 (leBytes 4 cmax ++ leBytes 1 0xFF ++ leBytes 1 0 ++ leBytes 2 0)
    let n := (rosterList m).length
    let below := decide (n < c.cl.minMembers) || !c.cl.shrink
    let r : RosterMsg := ⟨epoch, cmax, c.self, successorIn m c.self old, m⟩
    let s := s.raise .mc (some p) 0x7004 [old, 0x7005, epoch]
    let s := if below then s.raise .mc (some p) 0x7007 [n, c.cl.minMembers] else s
    let s := s.sendAll p (rosterList m) c.epoch 0x03 r.body
    let a := if j.step.commit = cmax then j.step.attempt + 1 else 1
    let last := decide (254 ≤ a)
    let cause := if last then 0x7104 else if below then 0x7007 else 0x7005
    let s := if last then s.raise .mc (some p) 0x7104 [cmax + 1] else s
    let s := s.updJob p fun j => { j with cmt := { j.cmt with decided := true, readies := [], timer := false } }
    s.sendAll p (rosterList m) epoch 0x24
      (leBytes 4 (cmax + 1) ++ leBytes 1 a ++ leBytes 1 (b2n (below || last)) ++ leBytes 2 cause ++ leBytes 1 old)
  | _, _ => s

end Sys2Proof.Machine
end

