-- ==== Sys2Proof/Machine/Gather.lean ====
section
/-! DEFINITION. Parameter gathers at the owner of a unit (R348). -/

namespace Sys2Proof.Machine

/-- Logical addresses of published bytes of a unit in its slot: bank A, steered on the way (R160, R345). -/
def pubAddrs (u : UnitMap) (slot off len : Nat) : List Nat := span (u.pub.a + slot * u.pubBytes + off) len

/-- How the owner deals with a request for `len` bytes at `off` of unit `k` under tag `n`: none holds it, else the status of the
reply and the logical addresses of its bytes (R339, R348). -/
def gatherAnswer (j : Job) (c : Cluster) (k off len n : Nat) : Option (Nat × List Nat) :=
  match j.unitMap, c.slotOf k with
  | some u, some slot =>
    if ownerOf c.roster k ≠ c.self then some (2, [])
    else if u.pubBytes < off + len then some (3, [])
    else if n = j.step.commit then some (0, pubAddrs u slot off len)
    else if n = j.step.commit + 1 ∧ j.cmt.phase = .readySent then none
    else some (1, [])
  | _, _ => some (2, [])

/-- A GATHER_REQ is served, held, or answered without data (R348). DESIGN CHOICE: an owner whose read finds an uncorrectable error sends no
reply and reports the failure for its step (R190, R353; log entry 102). -/
def State.serveGather (s : State) (p : PartId) (m : InMsg) : State :=
  match s.job p, s.cluster p with
  | some j, some c =>
    let k := rdLE m.bytes 8 4
    let off := rdLE m.bytes 12 4
    let len := rdLE m.bytes 16 4
    match gatherAnswer j c k off len (rdLE m.bytes 4 4) with
    | none => s.updCluster p fun c => { c with heldGathers := c.heldGathers ++ [m] }
    | some (st, as) =>
      match s.lbad j as with
      | some a => ((s.uncorrectable (some p) a).reportAbort p 0x5011 none).fenceByErrors a
      | none =>
        let s := (s.touchAll (as.map (j.phys false))).meetReads (as.map (j.phys false))
        s.sendGather p m.entry m.vc 4 st k off len (as.map (s.lrd j))
  | _, _ => s

/-- Requests held for the COMMIT or ABORT are dealt with once it is applied (R348). -/
def State.serveHeldGathers (s : State) (p : PartId) : State :=
  match s.cluster p with
  | some c => c.heldGathers.foldl (fun s m => s.serveGather p m) (s.updCluster p fun c => { c with heldGathers := [] })
  | none => s

end Sys2Proof.Machine
end

