-- ==== Sys2Proof/Machine/Trees.lean ====
section
/-! DEFINITION. The reduction trees over a roster (R340-R342). -/

namespace Sys2Proof.Machine

/-- Virtual rank of a rank in segment `s` of `n` members (R341). -/
def virtualRank (n r s : Nat) : Nat := (r + n - s % n) % n

/-- Rank of virtual rank `v` in segment `s`. -/
def realRank (n v s : Nat) : Nat := (v + s) % n

/-- Rounds that a tree of up to 64 ranks has. -/
def treeRounds (n : Nat) : List Nat := (List.range 6).filter fun k => decide (2 ^ k < n)

/-- Round in which virtual rank `v` hands its partial on, none for the root (R341). -/
def sendRound (v : Nat) : Option Nat := (List.range 6).find? fun k => decide (v % 2 ^ (k + 1) = 2 ^ k)

/-- Rounds in which virtual rank `v` receives a partial, ascending: from `v + 2^k` (R341). -/
def recvRounds (n v : Nat) : List Nat :=
  (treeRounds n).filter fun k => decide (v % 2 ^ (k + 1) = 0 ∧ v + 2 ^ k < n)

/-- Virtual ranks that `v` shares a tree edge with. -/
def treePeers (n v : Nat) : List Nat :=
  ((sendRound v).map fun k => v - 2 ^ k).toList ++ (recvRounds n v).map fun k => v + 2 ^ k

/-- Entry of a virtual rank of segment `s` under a roster. -/
def entryOfV (m : BitVec 64) (v s : Nat) : Nat := let l := rosterList m; l.getD (realRank l.length v s) 0

/-- The connection that segment `s` of a REDUCE takes to an entry: the (s mod c)-th of those that join the pair (R342). -/
def Cluster.redConn (c : Cluster) (e s : Nat) : Option Nat := let l := c.connsTo e; l[s % Nat.max 1 l.length]?

/-- Segments of a bucket (R340). -/
def segCount (len seg : Nat) : Nat := cdiv len (Nat.max 1 seg)

/-- Whether a REDUCE of `segs` segments uses connection `i` to an entry (R341, R342). -/
def Cluster.redUses (c : Cluster) (segs e i : Nat) : Bool :=
  let n := (rosterList c.roster).length
  inMask c.roster e && (List.range segs).any fun s =>
    ((treePeers n (virtualRank n (rankOf c.roster c.self) s)).any fun v => decide (entryOfV c.roster v s = e)) &&
      decide (c.redConn e s = some i)

end Sys2Proof.Machine
end

