-- ==== Sys2Proof/Machine/Net.lean ====
section
/-! DEFINITION. NET descriptors and the messages of their exchanges (R335-R348, R364-R366). -/

namespace Sys2Proof.Machine

/-! ### Fields (R335, R336) -/

/-- OP of a NET descriptor. -/
def nOp (d : List Word) : Nat := dfld d 0x10 31 24
/-- VC. -/
def nVc (d : List Word) : Nat := dfld d 0x10 23 20
/-- ID. -/
def nId (d : List Word) : Nat := dfld d 0x10 15 0
/-- Address 0. -/
def nA0 (d : List Word) : Nat := dfld d 0x14 31 0 + dfld d 0x18 15 0 * 2 ^ 32
/-- Address 1. -/
def nA1 (d : List Word) : Nat := dfld d 0x1C 31 0 + dfld d 0x18 31 16 * 2 ^ 32
/-- PEER. -/
def nPeer (d : List Word) : Nat := dfld d 0x20 29 24
/-- QDEPTH, 0 meaning 2. -/
def nQd (d : List Word) : Nat := let q := dfld d 0x20 23 20; if q = 0 then 2 else q
/-- LENGTH. -/
def nLen (d : List Word) : Nat := dfld d 0x24 31 0
/-- PARAM_A. -/
def nPa (d : List Word) : Nat := dfld d 0x28 31 0
/-- PARAM_B. -/
def nPb (d : List Word) : Nat := dfld d 0x2C 31 0
/-- The extra address. -/
def nExt (d : List Word) : Nat := dfld d 0x30 31 0 + dfld d 0x34 31 0 * 2 ^ 32
/-- FMT is GW32. -/
def nWide (d : List Word) : Bool := decide (dfld d 0x10 19 16 = 0xE)

/-- The local bytes that a NET descriptor's own words say it reads (R336); MB_ADMIT reads further rows as its header says. -/
def netReads (d : List Word) : List Nat :=
  match nOp d with
  | 0x01 => if nA0 d = 0 then [] else span (nA0 d) (nLen d * gwBytes (nWide d))
  | 0x03 | 0x07 => span (nA0 d) (nLen d)
  | 0x05 => span (nA0 d) 16
  | _ => []

/-- The descriptor at place `k` among those of a queue that have not finished, when it is the next to start (R211, R337). -/
def State.nextIn (s : State) (c : CoreId) (q : QueueId) (k : Nat) : Option Issued :=
  let l := s.cores[c].issued.filter fun e => decide (e.queue = q ∧ e.phase ≠ .finished)
  match l[k]? with
  | some e => if decide (e.phase = .queued) && (l.take k).all fun x => decide (x.phase ≠ .queued) then some e else none
  | none => none

/-- The NET descriptor of operation `op` that starts in place `slot`, with its job. -/
def State.startNet (s : State) (c : CoreId) (slot : Nat) (op : Nat) : Option (Issued × Job) :=
  match s.nextIn c .net slot with
  | some e => if nOp e.words = op then (s.job e.part).map fun j => (e, j) else none
  | none => none

/-- A descriptor runs. -/
def State.running (s : State) (c : CoreId) (e : Issued) : State := s.updIssued c e.seq fun x => { x with phase := .running }

/-- The NET descriptor of a partition that runs and meets a condition, with its core. -/
def State.netRunning (s : State) (p : PartId) (f : List Word → Bool) : Option (CoreId × Issued) :=
  (s.issuedOf p).find? fun x => decide (x.2.queue = .net ∧ x.2.phase = .running) && f x.2.words

/-- NET_MISMATCH of a descriptor (R338, R369). -/
def mismatch (e : Issued) (kind id off : Nat) : DErr := ⟨0x710C, [e.lcore, kind, id, Config.fieldWord 0x710C off 31]⟩

/-! ### Reductions (R340-R344) -/

/-- Floor of a bucket (R340). -/
def Job.bucketFloor (j : Job) (b : Nat) : Nat :=
  match j.numr with
  | none => 0
  | some n => match n.floors[b]? with
    | some f => if f = 0xFF then (63 + j.num.sg).toNat else f
    | none => (63 + j.num.sg).toNat

/-- `n` zero blocks of a bucket (R340). -/
def Job.zeroBlocks (j : Job) (wide : Bool) (b n : Nat) : List Byte :=
  (List.range n).flatMap fun _ => gwPrint wide ⟨j.bucketFloor b, List.replicate 32 0⟩

/-- Two runs of blocks added block by block, the lower virtual rank first (R51, R341). -/
def nodeAdd (wide : Bool) (a b : List Byte) : List Byte :=
  let k := gwBytes wide
  (List.range (a.length / k)).flatMap fun i =>
    gwPrint wide (gwAdd wide (gwParse wide (slice a (k * i) k)) (gwParse wide (slice b (k * i) k))).1

/-- Partials that are held join in the order of the rounds (R341); the first number is fuel. -/
def RedSeg.join (wide : Bool) (rounds : List Nat) : Nat → RedSeg → RedSeg
  | 0, g => g
  | f + 1, g => match rounds[g.round]? with
    | none => g
    | some k => match g.held.find? fun h => decide (h.1 = k) with
      | none => g
      | some h => RedSeg.join wide rounds f { g with
          acc := nodeAdd wide g.acc h.2, round := g.round + 1, held := g.held.filter fun x => decide (x.1 ≠ k) }

/-- The REDUCE that runs for a bucket. -/
def Cluster.red (c : Cluster) (b : Nat) : Option RedRun := c.reds.find? fun r => decide (r.bucket = b)

/-- The state with a REDUCE changed through `f`. -/
def State.updRed (s : State) (p : PartId) (b : Nat) (f : RedRun → RedRun) : State :=
  s.updCluster p fun c => { c with reds := c.reds.map fun r => if r.bucket = b then f r else r }

/-- Blocks of segment `i` of a bucket (R340). -/
def RedRun.segBlocks (r : RedRun) (i : Nat) : Nat := Nat.min r.seg (r.len - i * r.seg)

/-- A reduction message to an entry takes its segment's connection (R342). -/
def State.redSend (s : State) (p : PartId) (c : Cluster) (r : RedRun) (kind status e i : Nat) (bs : List Byte) : State :=
  match s.job p, c.redConn e i with
  | some j, some k => s.sendOn p k r.vc (netMsg kind status j.step.commit r.bucket i r.len r.seg bs)
  | _, _ => s

/-- A result has been reduced or has arrived: it is written, forwarded down the broadcast tree; with the last segment the
descriptor completes (R337, R341, R344). -/
def State.redResult (s : State) (p : PartId) (b i : Nat) (bs : List Byte) : State :=
  match s.job p, s.cluster p with
  | some j, some c => match c.red b with
    | none => s
    | some r =>
      let k := gwBytes r.wide
      let ovf := (List.range (r.segBlocks i)).any fun x => decide (rdLE bs (k * x) 1 = 0xFF)
      let s := s.lputBytes j (r.dst + i * r.seg * k) bs
      let s := s.updJob p fun j => { j with step := { j.step with overflow := j.step.overflow || ovf } }
      let s := s.updRed p b fun r => { r with segs := modifyAt (fun g => { g with result := true, sent := true }) i r.segs }
      let n := (rosterList c.roster).length
      let v := virtualRank n (rankOf c.roster c.self) i
      let s := (recvRounds n v).reverse.foldl (fun s q => s.redSend p c r 2 0 (entryOfV c.roster (v + 2 ^ q) i) i bs) s
      if (modifyAt (fun g => { g with result := true }) i r.segs).all RedSeg.result then
        let s := s.updCluster p fun c => { c with reds := c.reds.filter fun x => decide (x.bucket ≠ b) }
        let s := s.updJob p fun j => { j with step := { j.step with reduced := j.step.reduced ++ [b] } }
        s.updIssued r.core r.seq fun x => { x with phase := .finished }
      else s
  | _, _ => s

/-- Segment `i` of a REDUCE goes on: held partials join; complete, it goes up the tree or is the result (R341). -/
def State.redStep (s : State) (p : PartId) (b i : Nat) : State :=
  match s.cluster p with
  | none => s
  | some c => match c.red b with
    | none => s
    | some r =>
      let n := (rosterList c.roster).length
      let v := virtualRank n (rankOf c.roster c.self) i
      let rounds := recvRounds n v
      let g := RedSeg.join r.wide rounds 6 (r.segs.getD i default)
      let s := s.updRed p b fun r => { r with segs := modifyAt (fun _ => g) i r.segs }
      if g.round < rounds.length ∨ g.sent then s
      else match sendRound v with
        | none => s.redResult p b i g.acc
        | some k =>
          let s := s.updRed p b fun r => { r with segs := modifyAt (fun g => { g with sent := true }) i r.segs }
          s.redSend p c r 1 0 (entryOfV c.roster (v - 2 ^ k) i) i g.acc

/-- The field in which a reduction message differs from the descriptor it belongs to (R339). -/
def RedRun.differs (r : RedRun) (m : List Byte) : Option Nat :=
  let i := rdLE m 12 4
  if segCount r.len r.seg ≤ i then some 0x0C
  else if rdLE m 16 4 ≠ r.len then some 0x10
  else if rdLE m 0x14 6 ≠ r.seg ∨ (m.length - 32) ≠ r.segBlocks i * gwBytes r.wide then some 0x14
  else none

/-- The issued descriptor of a REDUCE that runs. -/
def State.redIssued (s : State) (r : RedRun) : Issued := (s.cores[r.core].issued.find? fun e => decide (e.seq = r.seq)).getD default

/-- The two ends of a REDUCE disagree: the sender is answered with STATUS 4, the descriptor fails (R339). -/
def State.redMismatch (s : State) (p : PartId) (r : RedRun) (m : InMsg) (off : Nat) : State :=
  let e := s.redIssued r
  (s.sendNet p m.entry m.vc 2 4 r.bucket (rdLE m.bytes 12 4) (rdLE m.bytes 16 4) (rdLE m.bytes 0x14 6) []).failDescriptor r.core e
    (mismatch e (rdLE m.bytes 3 1) r.bucket off)

/-- A REDUCE_UP joins its node, or is held until the member's own REDUCE of that bucket runs (R340, R341). -/
def State.takeUp (s : State) (p : PartId) (m : InMsg) : State :=
  match s.job p, s.cluster p with
  | some j, some c =>
    let hold := s.updCluster p fun c => { c with heldReds := c.heldReds ++ [m] }
    if rdLE m.bytes 4 4 ≠ j.step.commit then hold
    else match c.red (rdLE m.bytes 8 4) with
      | none => hold
      | some r => match r.differs m.bytes with
        | some off => s.redMismatch p r m off
        | none =>
          let i := rdLE m.bytes 12 4
          let n := (rosterList c.roster).length
          let v := virtualRank n (rankOf c.roster c.self) i
          let rounds := recvRounds n v
          match rounds.find? fun k => decide (entryOfV c.roster (v + 2 ^ k) i = m.entry) with
          | none => s.otBad m.port
          | some k =>
            let g := r.segs.getD i default
            if g.held.any (fun h => decide (h.1 = k)) ∨ (rounds.take g.round).contains k then hold
            else
              let s := s.updRed p r.bucket fun r =>
                { r with segs := modifyAt (fun g => { g with held := g.held ++ [(k, m.bytes.drop 32)] }) i r.segs }
              s.redStep p r.bucket i
  | _, _ => s

/-- REDUCE starts (R336, R340-R343). -/
def execReduce (c : CoreId) (slot : Fin 16) (env : MemEnv) (s : State) : Result :=
  match s.startNet c slot.val 0x01 with
  | none => .next s
  | some (e, j) =>
    let d := e.words
    let s := s.takeFor env e.part (netReads d)
    let p := e.part
    let len := nLen d
    let wide := nWide d
    let bytes := len * gwBytes wide
    let src := if nA0 d = 0 then [] else span (nA0 d) bytes
    match s.access j src (span (nA1 d) bytes) with
    | (s, some err) => .next (s.failAccess c e err)
    | (s, none) =>
      let own := if nA0 d = 0 then j.zeroBlocks wide (nId d) len else src.map (s.lrd j)
      match j.cluster with
      | none =>
        let k := gwBytes wide
        let ovf := (List.range len).any fun x => decide (rdLE own (k * x) 1 = 0xFF)
        let s := s.lputBytes j (nA1 d) own
        let s := s.updJob p fun j => { j with step := { j.step with
          overflow := j.step.overflow || ovf, reduced := j.step.reduced ++ [nId d] } }
        .next (s.finish c e)
      | some _ =>
        let seg := Nat.max 1 (nPa d)
        let r : RedRun := { core := c, seq := e.seq, lcore := e.lcore, bucket := nId d, len := len, seg := seg, vc := nVc d
                            wide := wide, dst := nA1 d
                            segs := (List.range (segCount len seg)).map fun i =>
                              { acc := slice own (i * seg * gwBytes wide) (Nat.min seg (len - i * seg) * gwBytes wide) } }
        let s := (s.running c e).updCluster p fun k => { k with reds := k.reds ++ [r] }
        let held := ((s.cluster p).map Cluster.heldReds).getD []
        let s := s.updCluster p fun k => { k with heldReds := [] }
        let s := (List.range (segCount len seg)).foldl (fun s i => s.redStep p (nId d) i) s
        .next (held.foldl (fun s m => s.takeUp p m) s)

/-- REDUCE_UP (R340, R341). -/
def execReduceUp (p : PartId) (e : EntryId) (vc : VcId) (s : State) : Result :=
  let port := s.msgPort p e.val vc.val
  match s.popMsg p e.val vc.val 1 with
  | none => .next s
  | some (m, s) => .next (s.takeUp p ⟨e.val, vc.val, m, port⟩)

/-- REDUCE_DOWN (R339, R341): the result of a segment, or the answer that the two ends disagree. -/
def execReduceDown (p : PartId) (e : EntryId) (vc : VcId) (s : State) : Result :=
  match s.popMsg p e.val vc.val 2 with
  | none => .next s
  | some (m, s) => match s.cluster p with
    | none => .next s
    | some c => match c.red (rdLE m 8 4) with
      | none => .next s
      | some r =>
        if rdLE m 2 1 = 4 then .next (s.failDescriptor r.core (s.redIssued r) (mismatch (s.redIssued r) 2 r.bucket 0))
        else match r.differs m with
          | some off => .next (s.redMismatch p r ⟨e.val, vc.val, m, none⟩ off)
          | none => .next (s.redResult p r.bucket (rdLE m 12 4) (m.drop 32))

/-! ### Gathers (R348) -/

/-- SHARD_VERSION (R348, R369). -/
def shardVersion (unit expected got owner : Nat) : DErr := ⟨0x7105, [unit, expected, got, owner]⟩

/-- NET_OPERAND_INVALID of an issued descriptor, naming the field at an offset. -/
def netInvalid (lcore index off top : Nat) : DErr := ⟨0x710D, [lcore, index, Config.fieldWord 0x710D off top]⟩

/-- GATHER starts (R336, R348): a request to the owner, or the same rule at once on a unit of one's own. -/
def execGather (c : CoreId) (slot : Fin 16) (env : MemEnv) (s : State) : Result :=
  match s.startNet c slot.val 0x02 with
  | none => .next s
  | some (e, j) => match j.cluster, j.unitMap with
    | some k, some u =>
      let d := e.words
      let s := s.takeFor env e.part (netReads d)
      let owner := ownerOf k.roster (nId d)
      if owner ≠ k.self then
        .next ((s.running c e).sendGather e.part owner (nVc d) 3 0 (nId d) (nPa d) (nLen d) [])
      else if u.pubBytes < nPa d + nLen d then .next (s.failDescriptor c e (netInvalid e.lcore e.index 0x28 31))
      else
        let src := pubAddrs u ((k.slotOf (nId d)).getD 0) (nPa d) (nLen d)
        match (s.meetReads (src.map (j.phys false))).access j src (span (nA1 d) (nLen d)) with
        | (s, some err) => .next (s.failAccess c e err)
        | (s, none) => .next ((s.lputBytes j (nA1 d) (src.map (s.lrd j))).finish c e)
    | _, _ => .next (s.failDescriptor c e (netInvalid e.lcore e.index 0x10 31))

/-- GATHER_REQ (R348). -/
def execGatherReq (p : PartId) (e : EntryId) (vc : VcId) (s : State) : Result :=
  match s.popMsg p e.val vc.val 3 with
  | none => .next s
  | some (m, s) => .next (s.serveGather p ⟨e.val, vc.val, m, none⟩)

/-- The GATHER that a reply belongs to: the one that runs with its unit on its VC and agrees with it in every field, else the first with
its unit (R339). -/
def State.gatherOf (s : State) (p : PartId) (vc : Nat) (m : List Byte) : Option (CoreId × Issued) :=
  let mine := fun d => decide (nOp d = 0x02 ∧ nVc d = vc ∧ nId d = rdLE m 8 4)
  ((s.netRunning p fun d => mine d && decide (nPa d = rdLE m 12 4 ∧ nLen d = rdLE m 16 4))).or (s.netRunning p mine)

/-- The field in which a reply differs from its GATHER (R339). -/
def gatherDiffers (d : List Word) (m : List Byte) : Option Nat :=
  if rdLE m 12 4 ≠ nPa d then some 0x0C
  else if rdLE m 16 4 ≠ nLen d then some 0x10
  else if rdLE m 0x14 6 ≠ 0 then some 0x14
  else none

/-- Whether a reply can answer a request that its owner had held: the owner then stood at n − 1, so that its committed number is now n, or
still n − 1 after an ABORT (R348). -/
def heldReply (st tag n : Nat) : Bool := decide (st ≤ 1) && (decide (tag = n) || decide (tag + 1 = n))

/-- GATHER_REPLY (R339, R348): its fields and its tag are checked and its bytes are written, or the gather fails. Whether the owner held
the request is not in the reply: where it may have, that is a free value (log entry 46). -/
def execGatherReply (p : PartId) (e : EntryId) (vc : VcId) (s : State) : Result :=
  match s.popMsg p e.val vc.val 4 with
  | none => .next s
  | some (m, s) => match s.job p, s.gatherOf p vc.val m with
    | some j, some (c, x) =>
      let d := x.words
      match gatherDiffers d m with
      | some off => .next ((s.sendGather p e.val vc.val 4 4 (nId d) (nPa d) (nLen d) []).failDescriptor c x (mismatch x 4 (nId d) off))
      | none =>
        let st := rdLE m 2 1
        let tag := rdLE m 4 4
        let s := if heldReply st tag j.step.commit then s.freeGheld c else s
        if st = 2 ∨ st = 4 then .next (s.failDescriptor c x (mismatch x 4 (nId d) 0))
        else if st = 3 then .next (s.failDescriptor c x (netInvalid x.lcore x.index 0x28 31))
        else if st = 1 ∨ tag ≠ j.step.commit then
          .next (s.failDescriptor c x (shardVersion (nId d) j.step.commit tag e.val))
        else match s.access j [] (span (nA1 d) (nLen d)) with
          | (s, some err) => .next (s.failAccess c x err)
          | (s, none) => .next ((s.lputBytes j (nA1 d) (slice m 32 (nLen d))).finish c x)
    | _, _ => .next s

/-! ### Pipelines (R364, R365) -/

/-- The key of a peer and a virtual channel. -/
def pipeKey (peer vc : Nat) : Nat := peer * 16 + vc

/-- Number of the next message to a peer on a VC. -/
def Cluster.nextSend (c : Cluster) (peer vc : Nat) : Nat := (mapGet c.sendNext (pipeKey peer vc)).getD 0

/-- SENDs that wait on a peer and VC go on: the next in number transmits once its post is there, and lets the one after it
follow (R364). The number is fuel. -/
def State.sendGo (p : PartId) (peer vc : Nat) : Nat → State → State
  | 0, s => s
  | f + 1, s =>
    match s.job p, s.cluster p with
    | some j, some c =>
      let m := c.nextSend peer vc
      match s.netRunning p fun d => decide (nOp d = 0x03 ∧ nPeer d = peer ∧ nVc d = vc ∧ nPa d = m),
          c.posts.find? fun q => decide (q.entry = peer ∧ q.vc = vc ∧ q.m = m ∧ q.commit = j.step.commit) with
      | some (k, e), some q =>
        let d := e.words
        let s := s.updCluster p fun c => { c with posts := c.posts.filter (· ≠ q) }
        if q.len ≠ nLen d ∨ q.b ≠ 0 ∨ q.dst ≠ nA1 d then
          let s := s.sendNet p peer vc 5 4 m (nLen d) 0 (nA1 d) []
          s.failDescriptor k e (mismatch e 6 m (if q.len ≠ nLen d then 0x0C else if q.b ≠ 0 then 0x10 else 0x14))
        else
          let src := span (nA0 d) (nLen d)
          match s.access j src [] with
          | (s, some err) => s.failAccess k e err
          | (s, none) =>
            let s := s.sendNet p peer vc 5 0 m (nLen d) 0 (nA1 d) (src.map (s.lrd j))
            State.sendGo p peer vc f (s.updCluster p fun c => { c with sendNext := mapSet c.sendNext (pipeKey peer vc) (m + 1) })
      | _, _ => s
    | _, _ => s

/-- SENDs of a member that may run at once: 16 on each of 8 cores. -/
def sendFuel : Nat := 128

/-- SEND starts (R364): it transmits with its post, else it waits for it and counts. -/
def execSend (c : CoreId) (slot : Fin 16) (env : MemEnv) (s : State) : Result :=
  match s.startNet c slot.val 0x03 with
  | none => .next s
  | some (e, j) => match j.cluster with
    | none => .next (s.failDescriptor c e (netInvalid e.lcore e.index 0x10 31))
    | some k =>
      let d := e.words
      let s := (s.takeFor env e.part (netReads d)).running c e
      let posted := k.posts.any fun q => decide (q.entry = nPeer d ∧ q.vc = nVc d ∧ q.m = nPa d ∧ q.commit = j.step.commit)
      let s := if posted then s else s.count (coreNetPstall c.val) 1
      .next (State.sendGo e.part (nPeer d) (nVc d) sendFuel s)

/-- RECV starts (R364): it has posted itself when it issued, and awaits its message. -/
def execRecv (c : CoreId) (slot : Fin 16) (s : State) : Result :=
  match s.startNet c slot.val 0x04 with
  | none => .next s
  | some (e, _) => .next (s.running c e)

/-- Whether a RECV of a partition that matches a PIPE message has issued and waits for its engine: the message waits for it (R364). -/
def State.recvQueued (s : State) (p : PartId) (e vc m : Nat) : Bool :=
  (s.issuedOf p).any fun x => decide (x.2.queue = .net ∧ x.2.phase = .queued ∧ nOp x.2.words = 0x04 ∧ nPeer x.2.words = e ∧
    nVc x.2.words = vc ∧ nPa x.2.words = m)

/-- PIPE_POST (R364). -/
def execPipePost (p : PartId) (e : EntryId) (vc : VcId) (s : State) : Result :=
  match s.popMsg p e.val vc.val 6 with
  | none => .next s
  | some (m, s) =>
    let q : PipePost := ⟨e.val, vc.val, rdLE m 8 4, rdLE m 12 4, rdLE m 0x14 6, rdLE m 4 4, rdLE m 16 4⟩
    .next (State.sendGo p e.val vc.val sendFuel (s.updCluster p fun c => { c with posts := c.posts ++ [q] }))

/-- PIPE (R364, R365): the bytes are written for the matching RECV, which completes; its wait is added to the bubble. -/
def execPipe (p : PartId) (e : EntryId) (vc : VcId) (s : State) : Result :=
  match s.popMsg p e.val vc.val 5 with
  | none => .next s
  | some (m, s') => if s'.recvQueued p e.val vc.val (rdLE m 8 4) then .next s else
    let s := s'
    match s.job p, s.netRunning p fun d =>
      decide (nOp d = 0x04 ∧ nPeer d = e.val ∧ nVc d = vc.val ∧ nPa d = rdLE m 8 4) with
    | some j, some (c, x) =>
      let d := x.words
      let off := if rdLE m 2 1 = 4 then some 0 else if rdLE m 12 4 ≠ nLen d then some 0x0C
        else if rdLE m 16 4 ≠ 0 then some 0x10 else if rdLE m 0x14 6 ≠ nA1 d then some 0x14 else none
      match off with
      | some o =>
        let s := if o = 0 then s else s.sendNet p e.val vc.val 7 4 (nPa d) 0 0 0 []
        .next (s.failDescriptor c x (mismatch x 5 (nPa d) o))
      | none => match s.access j [] (span (nA1 d) (nLen d)) with
        | (s, some err) => .next (s.failAccess c x err)
        | (s, none) =>
          let s := s.lputBytes j (nA1 d) (slice m 32 (nLen d))
          let s := s.sendNet p e.val vc.val 7 0 (nPa d) 0 0 0 []
          let s := s.count64 (coreNetBubbleLo c.val) (coreNetBubbleHi c.val) ((s.mc.time - x.prog.headD s.mc.time) / 1000)
          let s := s.updCluster p fun k => { k with recvDone := k.recvDone ++ [(pipeKey e.val vc.val, nPa d)] }
          .next (s.finish c x)
    | _, _ => .next s

/-- PIPE_DONE (R337, R364): the matching SEND completes, or fails where the ends disagree. -/
def execPipeDone (p : PartId) (e : EntryId) (vc : VcId) (s : State) : Result :=
  match s.popMsg p e.val vc.val 7 with
  | none => .next s
  | some (m, s) => match s.netRunning p fun d =>
      decide (nOp d = 0x03 ∧ nPeer d = e.val ∧ nVc d = vc.val ∧ nPa d = rdLE m 8 4) with
    | none => .next s
    | some (c, x) =>
      if rdLE m 2 1 = 4 then .next (s.failDescriptor c x (mismatch x 7 (nPa x.words) 0)) else .next (s.finish c x)

/-! ### Storage (R336, R337) -/

/-- Port and queue pair that a storage descriptor names. -/
def nQp (d : List Word) : PortId × Nat := (Fin.ofNat 8 (nbits (nPb d) 18 16), nbits (nPb d) 9 0)

/-- ROCE_QP_ERROR of a descriptor whose queue pair is not the partition's or cannot serve (R299, R336). -/
def State.qpRefuses (s : State) (p : PartId) (q : PortId × Nat) : Option DErr :=
  let x := s.qp q.1 q.2
  if x.rts ∧ x.fld 0 25 24 = p.val then none else some ⟨0x6008, [q.1.val, q.2, 0]⟩

/-- STORE_READ: an RDMA READ over a queue pair of the partition. -/
def execNetStoreRead (c : CoreId) (slot : Fin 16) (s : State) : Result :=
  match s.startNet c slot.val 0x06 with
  | none => .next s
  | some (e, j) =>
    let d := e.words
    let q := nQp d
    match s.qpRefuses e.part q with
    | some err => .next (s.failDescriptor c e err)
    | none => match s.access j [] (span (nA0 d) (nLen d)) with
      | (s, some err) => .next (s.failAccess c e err)
      | (s, none) => .next ((s.running c e).postRead q.1 q.2 (.net c.val e.seq) (nA0 d) (nExt d) (nPa d) (nLen d))

/-- STORE_WRITE: an RDMA WRITE over a queue pair of the partition. -/
def execNetStoreWrite (c : CoreId) (slot : Fin 16) (env : MemEnv) (s : State) : Result :=
  match s.startNet c slot.val 0x07 with
  | none => .next s
  | some (e, j) =>
    let d := e.words
    let q := nQp d
    let src := span (nA0 d) (nLen d)
    match s.qpRefuses e.part q with
    | some err => .next (s.failDescriptor c e err)
    | none => match (s.takeFor env e.part src).access j src [] with
      | (s, some err) => .next (s.failAccess c e err)
      | (s, none) => .next ((s.running c e).postWrite q.1 q.2 (.net c.val e.seq) (nExt d) (nPa d) (src.map (s.lrd j)))

end Sys2Proof.Machine
end

