-- ==== Sys2Proof/Machine/VecCalc.lean ====
section
/-! DEFINITION. What the vector engine computes: elements, masks, reductions, updates, tables (spec/04 R107-R120, R132-R138). -/

namespace Sys2Proof.Machine

/-! ### Function tables (R132-R134) -/

/-- The header of a table pair: LO, the modes, W (R132). -/
structure TabHdr where
  func : Nat
  lo : Nat
  rr : Bool
  dAbove : Nat
  dBelow : Nat
  vAbove : Nat
  vBelow : Nat
  w : Int
  deriving DecidableEq, Repr, Inhabited

/-- The header read from its 64 bytes (R132). -/
def tabHdr (b : List Byte) : TabHdr :=
  let m := rdLE b 8 4
  ⟨rdLE b 0 4, rdLE b 4 4, decide (nbits m 16 16 = 1), nbits m 15 14, nbits m 13 12, nbits m 11 10, nbits m 9 8, sext 8 m⟩

/-- Whether a table image's first 64 bytes pass the checks of TBL_LOAD (R135): reserved fields zero, W from -24 to 24, and
the conditions of EXP2_RR (R134). -/
def tabHdrOk (b : List Byte) : Bool :=
  let h := tabHdr b
  decide (nbits (rdLE b 8 4) 31 17 = 0) && (slice b 12 52).all (· == 0) && decide (-24 ≤ h.w ∧ h.w ≤ 24) &&
    (!h.rr || (decide (h.lo = 0) && decide (h.w = -8)))

/-- A loaded table pair: its header and its segments as a function of (derivative, segment). -/
structure Tab where
  hdr : TabHdr
  seg : Bool → Nat → List Nat

/-- The cubic of a segment at `t` (R134): three fused multiply-adds. -/
def cubic (c : List Nat) (t : XNum) : Nat :=
  let step (acc k : Nat) : Nat := toF32 (numAdd (numMul (f32 acc) t) (f32 k))
  step (step (step (c.getD 3 0) (c.getD 2 0)) (c.getD 1 0)) (c.getD 0 0)

/-- An out-of-domain mode (R134): edge value, y = x, y = 0, y = 1. -/
def outMode (mode : Nat) (x : XNum) (edge : Nat) : Nat :=
  match mode with
  | 0 => edge
  | 1 => toF32 x
  | 2 => 0
  | _ => 0x3F800000

/-- floor of a finite value. -/
def XNum.floor : XNum → Int
  | .fin n m e => if 0 ≤ e then signed n (alignUp m e 0) else signed n m / (2 ^ (-e).toNat : Nat)
  | _ => 0

/-- The value less its floor, exactly. -/
def XNum.frac : XNum → XNum
  | .fin n m e => numAdd (.fin n m e) (XNum.ofInt (-(XNum.fin n m e).floor) 0)
  | x => x

/-- A table or its derivative within its own domain rules (R134). -/
def Tab.plain (t : Tab) (d : Bool) (above below : Nat) (x : XNum) : Nat :=
  let lowEdge := cubic (t.seg d 0) .zero
  let highEdge := cubic (t.seg d 255) (.fin false 1 0)
  match x with
  | .nan => nanF32
  | .inf n => if n then outMode below x lowEdge else outMode above x highEdge
  | .fin _ _ _ =>
    let dd := f32 (toF32 (numAdd x (numNeg (f32 t.hdr.lo))))
    let q := dd.scale (-t.hdr.w)
    match dd with
    | .inf n => if n then outMode below x lowEdge else outMode above x highEdge
    | _ =>
      if q.floor < 0 then outMode below x lowEdge
      else if 256 ≤ q.floor then outMode above x highEdge
      else cubic (t.seg d q.floor.toNat) q.frac

/-- A table pair evaluated at `x`, its value or its derivative (R134). DESIGN CHOICE: where u - ⌊u⌋ rounds to 1.0 under EXP2_RR, so that
q is 256, the value takes the mode of V_ABOVE and the derivative its edge value (log entry 97, unsafe). -/
def Tab.eval (t : Tab) (d : Bool) (x : XNum) : Nat :=
  if t.hdr.rr then
    match x with
    | .nan => nanF32
    | .inf n => if n then 0 else 0x7F800000
    | .fin _ _ _ =>
      let k := x.floor
      if k < -149 then 0
      else if 127 < k then 0x7F800000
      else toF32 ((f32 (t.plain d (if d then 0 else t.hdr.vAbove) (if d then 0 else t.hdr.vBelow) x.frac)).scale k)
  else if d then t.plain true t.hdr.dAbove t.hdr.dBelow x
  else t.plain false t.hdr.vAbove t.hdr.vBelow x

/-! ### The VEC body and its parameter block (R137, R138) -/

/-- The fields of a VEC descriptor (R137); strides in bytes. -/
structure VecD where
  op : Nat
  fD : Nat
  f0 : Nat
  f1 : Nat
  f2 : Nat
  sr : Bool
  trD : Bool
  s1s : Bool
  s2s : Bool
  dA : Nat
  dS : Nat
  a0 : Nat
  st0 : Nat
  a1 : Nat
  st1 : Nat
  a2 : Nat
  st2 : Nat
  cols : Nat
  rows : Nat
  param : Nat
  deriving DecidableEq, Repr, Inhabited

/-- The VEC body read from its words (R137). -/
def vecD (d : List Word) : VecD where
  op := dfld d 0x10 31 24
  fD := dfld d 0x10 23 20
  f0 := dfld d 0x10 19 16
  f1 := dfld d 0x10 15 12
  f2 := dfld d 0x10 11 8
  sr := dbit d 0x10 7
  trD := dbit d 0x10 6
  s1s := dbit d 0x10 5
  s2s := dbit d 0x10 4
  dA := daddr d 0x14 0x18
  dS := dfld d 0x18 31 16 * 64
  a0 := daddr d 0x1C 0x20
  st0 := dfld d 0x20 31 16 * 64
  a1 := daddr d 0x24 0x28
  st1 := dfld d 0x28 31 16 * 64
  a2 := daddr d 0x2C 0x30
  st2 := dfld d 0x30 31 16 * 64
  cols := (dfld d 0x34 31 16 + 1) * 32
  rows := dfld d 0x34 15 0 + 1
  param := daddr d 0x38 0x3C

/-- The fields of a VEC parameter block (R138). -/
structure VecP where
  tensor : Nat
  salt : Nat
  micro : Nat
  tbl : Nat
  origin : Nat
  lcols : Nat
  m0 : Nat
  mD : Nat
  m1 : Nat
  m2 : Nat
  expAdj : Int
  maskStride : Nat
  a : Nat
  b : Nat
  threshold : Nat
  clip : Nat
  vIn : Nat
  mOut : Nat
  vOut : Nat
  floorSet : Bool
  floor : Nat
  lr : Nat
  beta1 : Nat
  ombeta1 : Nat
  beta2 : Nat
  ombeta2 : Nat
  eps : Nat
  wd : Nat
  mu : Nat
  c1 : Nat
  c2 : Nat
  deriving DecidableEq, Repr, Inhabited

/-- The parameter block read from its 128 bytes (R138). -/
def vecP (b : List Byte) : VecP where
  tensor := rdLE b 0 4
  salt := rdLE b 7 1
  micro := rdLE b 5 2
  tbl := rdLE b 4 1 % 64
  origin := rdLE b 8 4 + rdLE b 12 4 % 1024 * 2 ^ 32
  lcols := rdLE b 16 4
  m0 := rdLE b 0x16 2 * 4096
  mD := rdLE b 0x14 2 * 4096
  m1 := rdLE b 0x18 2 * 4096
  m2 := rdLE b 0x1A 2 * 4096
  expAdj := sext 16 (rdLE b 0x1C 2)
  maskStride := rdLE b 0x1E 2 * 64
  a := rdLE b 0x20 4
  b := rdLE b 0x24 4
  threshold := rdLE b 0x28 4
  clip := rdLE b 0x2C 4
  vIn := rdLE b 0x30 6
  mOut := rdLE b 0x38 6
  vOut := rdLE b 0x40 6
  floorSet := decide (rdLE b 0x49 1 % 2 = 1)
  floor := rdLE b 0x48 1
  lr := rdLE b 0x50 4
  beta1 := rdLE b 0x54 4
  ombeta1 := rdLE b 0x58 4
  beta2 := rdLE b 0x5C 4
  ombeta2 := rdLE b 0x60 4
  eps := rdLE b 0x64 4
  wd := rdLE b 0x68 4
  mu := rdLE b 0x6C 4
  c1 := rdLE b 0x78 4
  c2 := rdLE b 0x7C 4

/-- What a VEC descriptor takes from its job at its moment: the seed, the commit number, the default wire floor (R50, R114), and
whether its destination lies in a publication region (R53, R159). -/
structure VecEnv where
  seed : Nat
  commit : Nat
  floor : Nat
  pub : Bool
  deriving DecidableEq, Repr, Inhabited

/-! ### Sources (R108, R109) -/

/-- Bytes of an element, or of a block of 32 for the block formats, by format code (R109). -/
def codeBlockBytes (code : Nat) : Nat :=
  match fmtOf code with
  | some f => f.blockBytes
  | none => if code = 12 then 256 else if code = 13 then 97 else if code = 14 then 129 else if code = 15 then 192 else 0

/-- Address of block `b` of row `i` in a stored tensor of any code. -/
def blockAt (code base stride i b : Nat) : Nat := base + i * stride + b * codeBlockBytes code

/-- The data and scale bytes that the block of (row `i`, block `b`) takes in reading. -/
def blockReads (code : Nat) (r : Rect) (i b : Nat) : List Nat :=
  span (blockAt code r.base r.stride i b) (codeBlockBytes code) ++
    (match fmtOf code with | some f => if f.mx then [r.scaleAddr i b] else [] | none => [])

/-- The value of element (row `i`, column `c`) of a stored tensor of any code (R109, R47, R49, R52). -/
def elemOf (code : Nat) (r : Rect) (m : Nat → Byte) (i c : Nat) : XNum :=
  match fmtOf code with
  | some f => r.valAt f m i c
  | none =>
    let a := blockAt code r.base r.stride i (c / 32)
    if code = 12 then wgDecode (rdN m (a + c % 32 * 8) 8)
    else if code = 13 ∨ code = 14 then
      gwElem (decide (code = 14)) (gwParse (decide (code = 14)) ((List.range (codeBlockBytes code)).map fun k => m (a + k))) (c % 32)
    else if code = 15 then m40Decode (rdN m (a + c % 32 * 6) 4) (rdN m (a + c % 32 * 6 + 4) 2)
    else .zero

/-- The mantissa of element (row `i`, column `c`) of a GW24 or GW32 tensor (R63). -/
def mantOf (code : Nat) (r : Rect) (m : Nat → Byte) (i c : Nat) : Int :=
  let a := blockAt code r.base r.stride i (c / 32)
  (gwParse (decide (code = 14)) ((List.range (codeBlockBytes code)).map fun k => m (a + k))).ms.getD (c % 32) 0

/-- A bit of a mask (R116). -/
def maskBit (m : Nat → Byte) (base stride i c : Nat) : Bool := (m (base + i * stride + c / 8)).getLsbD (c % 8)

/-- The rectangle of source 0. -/
def VecD.r0 (d : VecD) (p : VecP) : Rect := ⟨d.a0, d.st0, d.rows, d.cols / 32, d.a0 + p.m0⟩
/-- The rectangle of source 1. -/
def VecD.r1 (d : VecD) (p : VecP) : Rect := ⟨d.a1, d.st1, d.rows, d.cols / 32, d.a1 + p.m1⟩
/-- The rectangle of source 2. -/
def VecD.r2 (d : VecD) (p : VecP) : Rect := ⟨d.a2, d.st2, d.rows, d.cols / 32, d.a2 + p.m2⟩
/-- The rectangle of the destination, transposed under TRANS_D. -/
def VecD.rD (d : VecD) (p : VecP) : Rect :=
  if d.trD then ⟨d.dA, d.dS, d.cols, d.rows / 32, d.dA + p.mD⟩ else ⟨d.dA, d.dS, d.rows, d.cols / 32, d.dA + p.mD⟩

/-- Sources that an operation reads besides S0 (R110): S1 as a tensor, S1 as a mask, S2 as a tensor. -/
def vecUses (op : Nat) : Bool × Bool × Bool :=
  (op = 0x10 ∨ op = 0x11 ∨ op = 0x12 ∨ op = 0x13 ∨ op = 0x14 ∨ op = 0x17 ∨ op = 0x18 ∨ op = 0x21, op = 0x32, op = 0x13)

/-- The bytes that the block (row `i`, block `b`) of the tile takes from the sources. -/
def VecD.reads (d : VecD) (p : VecP) (i b : Nat) : List Nat :=
  let u := vecUses d.op
  blockReads d.f0 (d.r0 p) i b ++ (if u.1 && !d.s1s then blockReads d.f1 (d.r1 p) i b else []) ++
    (if u.2.1 then span (d.a1 + i * p.maskStride + b * 4) 4 else []) ++
    (if u.2.2 && !d.s2s then blockReads d.f2 (d.r2 p) i b else [])

/-! ### Elements (R110, R111, R116) -/

/-- The Philox key of a descriptor (R114). -/
def philoxOf (p : VecP) (e : VecEnv) (salt : Nat) : PhiloxKey := ⟨e.seed, p.tensor, e.commit, salt, p.micro⟩

/-- The element index of (row `i`, column `c`) (R114). -/
def VecP.index (p : VecP) (i c : Nat) : Nat := p.origin + i * p.lcols + c

/-- Publication of M40 weights to MX-FP8 or BF16, which rounds to nearest even and in no other way (R53): the conversion of M40 into
a publication region, `pub` (R159). DEDUCED: R53 and R113 meet in such a descriptor with SR set; a conversion of M40 to any other
place rounds as R113 states (log entry 89). -/
def VecD.publishes (d : VecD) (pub : Bool) : Bool := pub && decide (d.op = 0x01 ∧ d.f0 = 15 ∧ (d.fD = 4 ∨ d.fD = 5 ∨ d.fD = 9))

/-- Whether a descriptor rounds stochastically (R53, R113). -/
def VecD.stochastic (d : VecD) (p : VecP) (pub : Bool) : Bool :=
  !d.publishes pub && (d.sr || decide (d.fD = 15) || decide (d.op = 0x50 ∨ d.op = 0x51) || decide (0x10 ≤ p.salt ∧ p.salt ≤ 0x1F))

/-- How the element at (row `i`, column `c`) rounds (R53, R113). -/
def VecD.roundOf (d : VecD) (p : VecP) (e : VecEnv) (i c : Nat) : Round :=
  if d.stochastic p e.pub then .stoch (philox (philoxOf p e p.salt) (p.index i c)) else .nearest

/-- max of R111. -/
def numMax (a b : XNum) : XNum :=
  if a = .nan ∨ b = .nan then .nan
  else if a.isZero && b.isZero then (match a, b with | .fin true _ _, .fin true _ _ => .fin true 0 0 | _, _ => .zero)
  else if numLt a b then b else a

/-- min of R111. -/
def numMin (a b : XNum) : XNum :=
  if a = .nan ∨ b = .nan then .nan
  else if a.isZero && b.isZero then (match a, b with | .fin false _ _, .fin false _ _ => .zero | _, _ => .fin true 0 0)
  else if numLt b a then b else a

/-- Greater than zero. -/
def XNum.pos (x : XNum) : Bool := numLt .zero x

/-- The value rounded to FP32 (R110). -/
def r32 (x : XNum) : XNum := f32 (toF32 x)

/-- Result of an element operation before the destination's rounding, given S0, S1, S2 and whether the element is kept
(DROPOUT) or its mask bit is 1 (MASK_APPLY) (R110, R111). DESIGN CHOICE: no rule says who brings EXP_ADJ of a parameter block to
-(s_g + p_t) when a commit changes them (R58, R112, R158); every conversion takes it as the block holds it (log entry 34, unsafe). -/
def vecElem (p : VecP) (tab : Option Tab) (op : Nat) (x y z : XNum) (keep : Bool) : XNum :=
  match op with
  | 0x01 => x.scale p.expAdj
  | 0x10 => r32 (numAdd x y)
  | 0x11 => r32 (numAdd x (numNeg y))
  | 0x12 => r32 (numMul x y)
  | 0x13 => r32 (numAdd (numMul x y) z)
  | 0x14 => r32 (numDiv x y)
  | 0x15 => r32 (numSqrt x)
  | 0x16 => r32 (numRsqrt x)
  | 0x17 => numMax x y
  | 0x18 => numMin x y
  | 0x19 => x.abs
  | 0x20 => (match tab with | some t => f32 (t.eval false x) | none => .nan)
  | 0x21 => (match tab with | some t => r32 (numMul y (f32 (t.eval true x))) | none => .nan)
  | 0x30 => numMax x .zero
  | 0x31 => if keep then r32 (numMul x (f32 p.b)) else .zero
  | 0x32 => if keep then r32 (numMul x (f32 p.a)) else .zero
  | _ => x

/-- The sources of (row `i`, column `c`). -/
def VecD.sources (d : VecD) (p : VecP) (m : Nat → Byte) (i c : Nat) : XNum × XNum × XNum :=
  let u := vecUses d.op
  (elemOf d.f0 (d.r0 p) m i c,
   if d.s1s then f32 p.a else if u.1 then elemOf d.f1 (d.r1 p) m i c else .zero,
   if d.s2s then f32 p.b else if u.2.2 then elemOf d.f2 (d.r2 p) m i c else .zero)

/-- Whether DROPOUT keeps the element, or MASK_APPLY's bit is 1 (R110, R116). -/
def VecD.keeps (d : VecD) (p : VecP) (e : VecEnv) (m : Nat → Byte) (i c : Nat) : Bool :=
  if d.op = 0x31 then decide (philox (philoxOf p e p.salt) (p.index i c) < p.threshold)
  else if d.op = 0x32 then maskBit m d.a1 p.maskStride i c
  else true

/-- The element of the destination before its rounding (R110, R112). -/
def VecD.elem (d : VecD) (p : VecP) (e : VecEnv) (tab : Option Tab) (m : Nat → Byte) (i c : Nat) : XNum :=
  let s := d.sources p m i c
  vecElem p tab d.op s.1 s.2.1 s.2.2 (d.keeps p e m i c)

/-- The mask bit that RELU and DROPOUT write (R110). -/
def VecD.maskOut (d : VecD) (p : VecP) (e : VecEnv) (m : Nat → Byte) (i c : Nat) : Bool :=
  if d.op = 0x30 then (elemOf d.f0 (d.r0 p) m i c).pos else d.keeps p e m i c

/-! ### What a descriptor writes -/

/-- What a descriptor writes: bytes in order, the elements it counts as saturated and non-finite, the elements of zero
reduced mantissa it has seen (R155). -/
structure EngineOut where
  stores : List (Nat × Byte) := []
  sat : Nat := 0
  nonfin : Nat := 0
  zeros : Nat := 0
  deriving DecidableEq, Repr, Inhabited

/-- One after the other. -/
def EngineOut.append (a b : EngineOut) : EngineOut := ⟨a.stores ++ b.stores, a.sat + b.sat, a.nonfin + b.nonfin, a.zeros + b.zeros⟩

/-- A list of parts. -/
def EngineOut.all (l : List EngineOut) : EngineOut := l.foldl EngineOut.append {}

/-- The logical element at place (stored row `r`, stored column `k`) of the destination. -/
def VecD.logical (d : VecD) (r k : Nat) : Nat × Nat := if d.trD then (k, r) else (r, k)

/-- Position of an element in the order in which the engine takes it (R107). -/
def VecD.order (d : VecD) (i c : Nat) : Nat := i * d.cols + c

/-- An M40 block written (R52): 32 records. -/
def m40Block (vs : List (XNum × Round)) (a : Nat) : EngineOut :=
  let rs := vs.map fun v => m40Encode v.2 v.1
  ⟨(indexed rs).flatMap fun e => (indexed (leBytes 4 e.2.1 ++ leBytes 2 e.2.2.1)).map fun b => (a + e.1 * 6 + b.1, b.2),
   (rs.filter fun r => r.2.2 = .saturated).length, (rs.filter fun r => r.2.2 = .nonfinite).length, 0⟩

/-- A block of any destination code written at (stored row `r`, block `b`) (R32, R33, R50, R52). -/
def writeBlock (code floor : Nat) (rd : Rect) (r b : Nat) (vs : List (XNum × Round)) : EngineOut :=
  match fmtOf code with
  | some f => let o := f.write vs
    ⟨rd.blkBytes f r b o, o.sat, o.nonfin, 0⟩
  | none =>
    let a := blockAt code rd.base rd.stride r b
    if code = 15 then m40Block vs a
    else if code = 13 ∨ code = 14 then
      let (g, nf, st) := gwEncode (decide (code = 14)) floor vs
      ⟨(indexed (gwPrint (decide (code = 14)) g)).map fun x => (a + x.1, x.2), st, nf, 0⟩
    else {}

/-- The floor F of a conversion to the wire (R50). -/
def floorOf (p : VecP) (e : VecEnv) : Nat := if p.floorSet then p.floor else e.floor

/-- The element of a stored block of any code whose bits include bit `n` of the block, none for a shared exponent (R109, R49). -/
def elemOfBit (code n : Nat) : Option Nat :=
  match fmtOf code with
  | some f => some (n / f.bits)
  | none =>
    if code = 15 then some (n / 48)
    else if n < 8 then none
    else some ((n - 8) / (if code = 13 then 24 else 32))

/-- A byte that a block's write stores, with the bits of elements not `served` left as memory holds them; bytes outside the block's data,
its planes, are stored whole. -/
def keepOthers (code base : Nat) (served : Nat → Bool) (m : Nat → Byte) (x : Nat × Byte) : Nat × Byte :=
  if x.1 < base ∨ base + codeBlockBytes code ≤ x.1 then x
  else
    (x.1, BitVec.ofNat 8 ((List.range 8).foldl (fun acc t =>
      let new := match elemOfBit code ((x.1 - base) * 8 + t) with | some k => served k | none => true
      acc + b2n (if new then x.2.getLsbD t else (m x.1).getLsbD t) * 2 ^ t) 0))

/-- A destination block of which only some elements are served, as a transposed block may be when its descriptor stops: those are written
with the planes of a block that holds +0 at the others, and the others keep what memory holds (R107, log entry 30). -/
def VecD.cutBlock (d : VecD) (p : VecP) (e : VecEnv) (m : Nat → Byte) (r b : Nat) (vs : List (Bool × XNum × Round)) : EngineOut :=
  let o := writeBlock d.fD (floorOf p e) (d.rD p) r b (vs.map fun v => if v.1 then v.2 else (.zero, .nearest))
  { o with stores := o.stores.map (keepOthers d.fD (blockAt d.fD (d.rD p).base (d.rD p).stride r b)
      (fun k => (vs.map Prod.fst).getD k false) m) }

/-- What an element-wise descriptor writes when the elements before `lim` in its order are served (R107, R222): their blocks, the
planes padded once all are, and the masks of RELU and DROPOUT. -/
def VecD.elementwise (d : VecD) (p : VecP) (e : VecEnv) (tab : Option Tab) (m : Nat → Byte) (lim : Nat) : EngineOut :=
  let rd := d.rD p
  let blocks := (List.range rd.sr).flatMap fun r => (List.range rd.nb).filterMap fun b =>
    let os := (List.range 32).map fun k => d.logical r (b * 32 + k)
    let served := fun (o : Nat × Nat) => decide (d.order o.1 o.2 < lim)
    if os.all served then
      some (writeBlock d.fD (floorOf p e) rd r b (os.map fun o => (d.elem p e tab m o.1 o.2, d.roundOf p e o.1 o.2)))
    else if os.any served then
      some (d.cutBlock p e m r b (os.map fun o => (served o, d.elem p e tab m o.1 o.2, d.roundOf p e o.1 o.2)))
    else none
  let pads : EngineOut := if d.rows * d.cols ≤ lim then
      match fmtOf d.fD with
      | some f => { stores := (List.range rd.sr).flatMap (rd.padBytes f) }
      | none => {}
    else {}
  let masks : EngineOut := if d.op = 0x30 ∨ d.op = 0x31 then
      { stores := (List.range d.rows).flatMap fun i => (List.range (d.cols / 8)).filterMap fun k =>
          if d.order i (k * 8 + 7) < lim then
            some (d.a2 + i * p.maskStride + k,
              BitVec.ofNat 8 ((List.range 8).foldl (fun acc t => acc + b2n (d.maskOut p e m i (k * 8 + t)) * 2 ^ t) 0))
          else none }
    else {}
  let zeros : EngineOut := if p.salt = 3 ∧ (d.f0 = 13 ∨ d.f0 = 14) then
      { zeros := ((List.range (d.rows * d.cols)).filter fun n =>
          decide (n < lim) && decide (mantOf d.f0 (d.r0 p) m (n / d.cols) (n % d.cols) = 0)).length }
    else {}
  EngineOut.all (blocks ++ [pads, masks, zeros])

/-- The summaries that SUMM writes (R115). -/
def VecD.summ (d : VecD) (p : VecP) (m : Nat → Byte) (lim : Nat) : EngineOut :=
  match fmtOf d.f0 with
  | none => {}
  | some f =>
    let r := d.r0 p
    { stores := (List.range r.sr).flatMap fun i => ((List.range r.nb).filterMap fun b =>
        if d.order i (b * 32 + 31) < lim then
          let k := r.blk f m i b
          some (r.sumAddr i b, BitVec.ofNat 8 (summaryOf (f.mx && decide (k.scale = 0xFF)) (k.raws.map f.elem)))
        else none) ++
        (if d.rows * d.cols ≤ lim then (span (r.sumAddr i r.nb) (r.pitch - r.nb)).map fun a => (a, 0) else []) }

/-! ### Reductions (R117) -/

/-- One level of a pairwise tree: element 2i on the left of element 2i + 1. -/
def treeLevel (f : XNum → XNum → XNum) : List XNum → List XNum
  | a :: b :: r => f a b :: treeLevel f r
  | l => l

/-- A pairwise tree of `k` levels. -/
def tree (f : XNum → XNum → XNum) : Nat → List XNum → List XNum
  | 0, l => l
  | k + 1, l => tree f k (treeLevel f l)

/-- An FP32 sum rounded to nearest even. -/
def add32 (a b : XNum) : XNum := r32 (numAdd a b)

/-- `l` with positions up to `n` holding +0. -/
def padZero (n : Nat) (l : List XNum) : List XNum := l ++ List.replicate (n - l.length) .zero

/-- The result of a full tree over `2^k` positions. -/
def treeOf (f : XNum → XNum → XNum) (k : Nat) (l : List XNum) : XNum := (tree f k (padZero (2 ^ k) l)).headD .zero

/-- What a reduction takes of an element (R110). -/
def redElem (op : Nat) (x : XNum) : XNum := if op = 0x41 then r32 (numMul x x) else if op = 0x42 then x.abs else x

/-- How a reduction joins two values (R117): MAXABS takes exact maxima, a NaN anywhere gives NaN. -/
def redJoin (op : Nat) : XNum → XNum → XNum := if op = 0x42 then numMax else add32

/-- The partial of a chunk: 64 blocks of 1,024 over trees of 10 levels, then a tree of 6 levels (R117). -/
def chunkPartial (op : Nat) (xs : List XNum) : XNum :=
  let vs := xs.map (redElem op)
  treeOf (redJoin op) 6 ((List.range 64).map fun b => treeOf (redJoin op) 10 ((vs.drop (b * 1024)).take 1024))

/-- Levels of the tree over `n` partials: ⌈log2 n⌉ (R117). -/
def levels (n : Nat) : Nat := if n ≤ 1 then 0 else Nat.log2 (n - 1) + 1

/-- The sum of partials by the fixed tree (R117). -/
def reduceFinalOf (xs : List XNum) : XNum := treeOf add32 (levels xs.length) xs

/-- An FP32 result written without planes. -/
def writeF32 (a : Nat) (x : XNum) : EngineOut :=
  let w := fFP32.encode .nearest x
  ⟨(indexed (leBytes 4 w.1)).map fun b => (a + b.1, b.2), 0, if w.2 = .nonfinite then 1 else 0, 0⟩

/-- The element at a position of the tile in logical row-major order. -/
def VecD.flat (d : VecD) (p : VecP) (m : Nat → Byte) (n : Nat) : XNum := elemOf d.f0 (d.r0 p) m (n / d.cols) (n % d.cols)

/-- The partials of the chunks whose elements before `lim` are all served (R107, R117). DESIGN CHOICE: chunks are cut in the tile's own
row-major order, also where the tile's rows are not consecutive in the logical tensor (COLS unlike LOGICAL_COLS), which no rule refuses
or chunks otherwise (log entry 36, unsafe). -/
def VecD.reduce (d : VecD) (p : VecP) (m : Nat → Byte) (lim : Nat) : EngineOut :=
  let n := d.rows * d.cols
  EngineOut.all ((List.range (cdiv n 65536)).filterMap fun k =>
    let hi := min n ((k + 1) * 65536)
    if hi ≤ lim then
      some (writeF32 (d.dA + 4 * k) (chunkPartial d.op ((List.range (hi - k * 65536)).map fun t => d.flat p m (k * 65536 + t))))
    else none)

/-- The result of REDUCE_FINAL (R117). -/
def VecD.reduceFinal (d : VecD) (p : VecP) (m : Nat → Byte) (lim : Nat) : EngineOut :=
  let n := d.rows * d.cols
  if n ≤ lim then writeF32 d.dA (reduceFinalOf ((List.range n).map (d.flat p m))) else {}

/-! ### The optimiser update (R118-R120) -/

/-- FP32 read from contiguous memory. -/
def f32At (m : Nat → Byte) (a c : Nat) : XNum := f32 (rdN m (a + 4 * c) 4)

/-- Stochastic rounding of an exact value to FP32 with a salt (R118): the pattern and its note. -/
def srF32 (p : VecP) (e : VecEnv) (salt i : Nat) (x : XNum) : Nat × Note :=
  fFP32.encode (.stoch (philox (philoxOf p e salt) i)) x

/-- One element of UPD_ADAMW (R118): the new weight record, first and second moment. With v' and eps both +0, u is NaN. -/
def adamw (p : VecP) (e : VecEnv) (i : Nat) (g0 w40 w32 m v : XNum) : (Nat × Nat × Note) × (Nat × Note) × (Nat × Note) :=
  let g := r32 (numMul g0 (f32 p.clip))
  let m' := srF32 p e 0x11 i (numAdd (numMul (f32 p.beta1) m) (numMul (f32 p.ombeta1) g))
  let v' := srF32 p e 0x12 i (numAdd (numMul (f32 p.beta2) v) (numMul (f32 p.ombeta2) (numMul g g)))
  let mh := r32 (numMul (f32 m'.1) (f32 p.c1))
  let vh := r32 (numMul (f32 v'.1) (f32 p.c2))
  let u := if v'.1 = 0 ∧ p.eps = 0 then .nan else r32 (numDiv mh (add32 (r32 (numSqrt vh)) (f32 p.eps)))
  let d := r32 (numMul (f32 p.lr) (add32 u (r32 (numMul (f32 p.wd) w32))))
  (m40Encode (.stoch (philox (philoxOf p e 0x10) i)) (numAdd w40 (numNeg d)), m', v')

/-- One element of UPD_SGDM (R120): the new weight record and the new momentum. -/
def sgdm (p : VecP) (e : VecEnv) (i : Nat) (g0 w40 w32 b : XNum) : (Nat × Nat × Note) × (Nat × Note) :=
  let g := r32 (numMul g0 (f32 p.clip))
  let b' := srF32 p e 0x11 i (numAdd (numAdd (numMul (f32 p.mu) b) g) (numMul (f32 p.wd) w32))
  (m40Encode (.stoch (philox (philoxOf p e 0x10) i)) (numAdd w40 (numNeg (numMul (f32 p.lr) (f32 b'.1)))), b')

/-- The bytes of an FP32 pattern with its count. -/
def putF32 (a c : Nat) (w : Nat × Note) : EngineOut :=
  ⟨(indexed (leBytes 4 w.1)).map fun b => (a + 4 * c + b.1, b.2), b2n (decide (w.2 = .saturated)), b2n (decide (w.2 = .nonfinite)), 0⟩

/-- The bytes of an M40 record with its count. -/
def putM40 (a c : Nat) (w : Nat × Nat × Note) : EngineOut :=
  ⟨(indexed (leBytes 4 w.1 ++ leBytes 2 w.2.1)).map fun b => (a + 6 * c + b.1, b.2),
   b2n (decide (w.2.2 = .saturated)), b2n (decide (w.2.2 = .nonfinite)), 0⟩

/-- An update of the elements before `lim` (R118, R120): all tensors contiguous, ROWS = 1. DESIGN CHOICE: S1_SCALAR and S2_SCALAR have no
effect on an update, whose sources R118 and R120 name (log entry 98, unsafe). -/
def VecD.update (d : VecD) (p : VecP) (e : VecEnv) (m : Nat → Byte) (lim : Nat) : EngineOut :=
  EngineOut.all ((List.range (min lim d.cols)).map fun c =>
    let i := p.index 0 c
    let w := rdN m (d.a1 + 6 * c) 4
    let w40 := m40Decode w (rdN m (d.a1 + 6 * c + 4) 2)
    if d.op = 0x50 then
      let r := adamw p e i (f32At m d.a0 c) w40 (f32 w) (f32At m d.a2 c) (f32At m p.vIn c)
      ((putM40 d.dA c r.1).append (putF32 p.mOut c r.2.1)).append (putF32 p.vOut c r.2.2)
    else
      let r := sgdm p e i (f32At m d.a0 c) w40 (f32 w) (f32At m d.a2 c)
      (putM40 d.dA c r.1).append (putF32 p.mOut c r.2))

/-- The bytes that the vector of elements `n` to `n + 1023` takes from the sources (R107). -/
def VecD.vectorReads (d : VecD) (p : VecP) (v : Nat) : List Nat :=
  if d.op = 0x50 ∨ d.op = 0x51 then
    let k := min 1024 (d.cols - v * 1024)
    span (d.a0 + 4096 * v) (4 * k) ++ span (d.a1 + 6144 * v) (6 * k) ++ span (d.a2 + 4096 * v) (4 * k) ++
      (if d.op = 0x50 then span (p.vIn + 4096 * v) (4 * k) else [])
  else (List.range 32).flatMap fun k =>
    let n := v * 32 + k
    if n < d.rows * (d.cols / 32) then d.reads p (n / (d.cols / 32)) (n % (d.cols / 32)) else []

/-- Vectors of a tile (R107). -/
def VecD.vectors (d : VecD) : Nat := cdiv (d.rows * d.cols) 1024

/-- What a VEC descriptor writes when its first `v` vectors are served (R107, R110). -/
def VecD.run (d : VecD) (p : VecP) (e : VecEnv) (tab : Option Tab) (m : Nat → Byte) (v : Nat) : EngineOut :=
  let lim := v * 1024
  if d.op = 0x02 then d.summ p m lim
  else if d.op = 0x40 ∨ d.op = 0x41 ∨ d.op = 0x42 then d.reduce p m lim
  else if d.op = 0x43 then d.reduceFinal p m lim
  else if d.op = 0x50 ∨ d.op = 0x51 then d.update p e m lim
  else d.elementwise p e tab m lim

/-- Lane steps of each vector, by operation (R110). -/
def laneSteps (op : Nat) : Nat :=
  if op = 0x14 ∨ op = 0x15 then 4
  else if op = 0x16 ∨ op = 0x31 then 2
  else if op = 0x20 ∨ op = 0x21 then 3
  else if op = 0x50 then 12
  else if op = 0x51 then 6
  else 1

end Sys2Proof.Machine
end

