-- ==== Sys2Proof/Machine/RowCalc.lean ====
section
/-! DEFINITION. What the row engine computes: rows, statistics slots, column sums (spec/04 R121-R129, R139). -/

namespace Sys2Proof.Machine

/-- The fields of a ROW descriptor (R139); strides in bytes. -/
structure RowD where
  op : Nat
  fD : Nat
  fX : Nat
  fG : Nat
  mask : Nat
  rms : Bool
  affine : Bool
  fw : Bool
  tbl : Nat
  dA : Nat
  dS : Nat
  xA : Nat
  xS : Nat
  gA : Nat
  gS : Nat
  len : Nat
  rows : Nat
  micro : Nat
  statOff : Nat
  statSet : Nat
  param : Nat
  deriving DecidableEq, Repr, Inhabited

/-- The ROW body read from its words (R139). -/
def rowD (d : List Word) : RowD where
  op := dfld d 0x10 31 24
  fD := dfld d 0x10 23 20
  fX := dfld d 0x10 19 16
  fG := dfld d 0x10 15 12
  mask := dfld d 0x10 11 10
  rms := dbit d 0x10 9
  affine := dbit d 0x10 8
  fw := dbit d 0x10 7
  tbl := dfld d 0x10 5 0
  dA := daddr d 0x14 0x18
  dS := dfld d 0x18 31 16 * 64
  xA := daddr d 0x1C 0x20
  xS := dfld d 0x20 31 16 * 64
  gA := daddr d 0x24 0x28
  gS := dfld d 0x28 31 16 * 64
  len := dfld d 0x2C 31 16 + 1
  rows := dfld d 0x2C 15 0 + 1
  micro := dfld d 0x30 31 16
  statOff := dfld d 0x30 15 0 * 32
  statSet := dfld d 0x34 31 0
  param := daddr d 0x38 0x3C

/-- The fields of a ROW parameter block (R139). -/
structure RowP where
  eps : Nat
  scaleLog2 : Nat
  maskOff : Int
  tensorW : Nat
  gamma : Nat
  beta : Nat
  grad : Nat
  maskAddr : Nat
  mX : Nat
  mD : Nat
  mG : Nat
  maskStride : Nat
  tensor : Nat
  fGB : Nat
  rsvd : Nat
  mGB : Nat
  deriving DecidableEq, Repr, Inhabited

/-- The parameter block read from its 64 bytes (R139). -/
def rowP (b : List Byte) : RowP where
  eps := rdLE b 0 4
  scaleLog2 := rdLE b 4 4
  maskOff := sext 32 (rdLE b 8 4)
  tensorW := rdLE b 12 4
  gamma := rdLE b 0x10 6
  beta := rdLE b 0x18 6
  grad := rdLE b 0x20 6
  maskAddr := rdLE b 0x28 6
  mX := rdLE b 0x30 2 * 4096
  mD := rdLE b 0x32 2 * 4096
  mG := rdLE b 0x34 2 * 4096
  maskStride := rdLE b 0x36 2 * 64
  tensor := rdLE b 0x38 4
  fGB := rdLE b 0x3C 1 % 16
  rsvd := rdLE b 0x3C 2 / 16
  mGB := rdLE b 0x3E 2 * 4096

/-- Blocks that a row's storage holds (R121). -/
def RowD.nb (d : RowD) : Nat := cdiv d.len 32

/-- The rectangle of x. -/
def RowD.rX (d : RowD) (p : RowP) : Rect := ⟨d.xA, d.xS, d.rows, d.nb, d.xA + p.mX⟩
/-- The rectangle of dy. -/
def RowD.rG (d : RowD) (p : RowP) : Rect := ⟨d.gA, d.gS, d.rows, d.nb, d.gA + p.mG⟩
/-- The rectangle of the output. -/
def RowD.rD (d : RowD) (p : RowP) : Rect := ⟨d.dA, d.dS, d.rows, d.nb, d.dA + p.mD⟩
/-- Gamma, a one-row rectangle (R139). -/
def RowD.rGamma (d : RowD) (p : RowP) : Rect := ⟨p.gamma, 0, 1, d.nb, p.gamma + p.mGB⟩
/-- Beta, a one-row rectangle (R139). -/
def RowD.rBeta (d : RowD) (p : RowP) : Rect := ⟨p.beta, 0, 1, d.nb, p.beta + p.mGB⟩

/-- Backward operations. -/
def RowD.bwd (d : RowD) : Bool := decide (d.op = 0x02 ∨ d.op = 0x04)

/-- Format code of gamma and beta (R139). -/
def RowD.gbCode (d : RowD) (p : RowP) : Nat := if d.op = 0x02 then p.fGB else d.fG

/-- Byte address of the statistics slot in logical core `l`'s side memory (R128, R130). -/
def RowD.slot (d : RowD) (l : Nat) : Nat := sideBase l + 0x80000 + d.statOff

/-- KIND of a statistics slot (R128). -/
def RowD.kind (d : RowD) : Nat := if d.op = 0x03 ∨ d.op = 0x04 then 3 else if d.rms then 2 else 1

/-- Bytes of a statistics slot, rounded up to 32 (R128). -/
def RowD.slotBytes (d : RowD) : Nat := cdiv (32 + 8 * d.rows) 32 * 32

/-- The header of the statistics slot (R128). -/
def RowD.header (d : RowD) (commit : Nat) : List Byte :=
  leBytes 4 d.statSet ++ leBytes 4 (d.micro * 2 ^ 16 + d.kind * 2 ^ 8) ++ leBytes 4 commit ++ leBytes 4 (d.rows - 1) ++
    List.replicate 16 0

/-- Whether the five header fields match (R129). -/
def RowD.tagOk (d : RowD) (commit : Nat) (h : List Byte) : Bool :=
  decide (rdLE h 0 4 = d.statSet) && decide (rdLE h 6 2 = d.micro) && decide (rdLE h 5 1 = d.kind) &&
    decide (rdLE h 8 4 = commit) && decide (rdLE h 12 2 = d.rows - 1)

/-! ### Sums along a row (R122) -/

/-- Lane accumulators from +0: element k goes to lane k mod 256, in increasing k (R122). -/
def lanes (step : XNum → XNum → XNum) (xs : List XNum) : List XNum :=
  (List.range 256).map fun l =>
    ((List.range (cdiv xs.length 256)).filterMap fun k => xs[k * 256 + l]?).foldl step .zero

/-- A row sum with its own accumulation (R122). -/
def rowAcc (step : XNum → XNum → XNum) (xs : List XNum) : XNum := treeOf add32 8 (lanes step xs)

/-- rowsum (R122). -/
def rowsum (xs : List XNum) : XNum := rowAcc add32 xs

/-- Row length as a value. -/
def lenNum (n : Nat) : XNum := .fin false n 0

/-- FP32 product. -/
def mul32 (a b : XNum) : XNum := r32 (numMul a b)
/-- FP32 difference. -/
def sub32 (a b : XNum) : XNum := r32 (numAdd a (numNeg b))
/-- FP32 quotient. -/
def div32 (a b : XNum) : XNum := r32 (numDiv a b)
/-- FP32 fused multiply-add. -/
def fma32 (a b c : XNum) : XNum := r32 (numAdd (numMul a b) c)

/-- A row's values with a NaN spread over all of it (R122). -/
def spreadNan (xs ys : List XNum) : List XNum := if xs.any (· = .nan) then ys.map fun _ => .nan else ys

/-- The statistics of a norm: (mean, rstd); each line is rounded once, so the deviation in the sum of squares and q + eps under the root
are exact (R123). -/
def normStats (rms : Bool) (eps : Nat) (xs : List XNum) : XNum × XNum :=
  let n := lenNum xs.length
  let mean := if rms then .zero else div32 (rowsum xs) n
  let s2 := rowAcc (fun acc x => let d := numAdd x (numNeg mean); fma32 d d acc) xs
  let r := r32 (numSqrt (numAdd (div32 s2 n) (f32 eps)))
  if xs.any (· = .nan) then (.nan, .nan) else (mean, div32 (.fin false 1 0) r)

/-- (x - mean) × rstd, one rounding (R123, R124). -/
def normHat (st : XNum × XNum) (x : XNum) : XNum := r32 (numMul (numAdd x (numNeg st.1)) st.2)

/-- NORM_FWD over one row (R123). -/
def normFwdRow (rms : Bool) (gamma beta : Option (List XNum)) (st : XNum × XNum) (xs : List XNum) : List XNum :=
  spreadNan xs ((indexed xs).map fun e =>
    let y := normHat st e.2
    match gamma with
    | none => y
    | some g =>
      let b := if rms then XNum.zero else (beta.getD []).getD e.1 .zero
      if rms then mul32 y (g.getD e.1 .zero) else fma32 y (g.getD e.1 .zero) b)

/-- NORM_BWD over one row (R124): dx. -/
def normBwdRow (rms : Bool) (gamma : Option (List XNum)) (st : XNum × XNum) (xs dys : List XNum) : List XNum :=
  let n := lenNum xs.length
  let xh := xs.map (normHat st)
  let g := match gamma with
    | none => dys
    | some w => (indexed dys).map fun e => mul32 e.2 (w.getD e.1 .zero)
  let a := if rms then .zero else div32 (rowsum g) n
  let b := div32 (rowsum ((g.zip xh).map fun t => mul32 t.1 t.2)) n
  spreadNan (xs ++ dys) ((g.zip xh).map fun t => mul32 st.2 (sub32 (sub32 t.1 a) (mul32 t.2 b)))

/-- Whether element `k` of row `r` is masked (R125). -/
def RowD.masked (d : RowD) (p : RowP) (m : Nat → Byte) (r k : Nat) : Bool :=
  if d.mask = 1 then decide ((r : Int) + p.maskOff < k)
  else if d.mask = 2 then !maskBit m p.maskAddr p.maskStride r k
  else false

/-- The exponentials of a soft maximum under a stored maximum (R125): masked elements have +0. -/
def smaxExps (t : Tab) (c : Nat) (mx : XNum) (xs : List (XNum × Bool)) : List XNum :=
  xs.map fun x => if x.2 then .zero else f32 (t.eval false (mul32 (sub32 x.1 mx) (f32 c)))

/-- The statistics of a soft maximum: (m, s) (R125). DESIGN CHOICE: a NaN in a masked element does not spread over the row: R125 gives
masked elements +0, R122 spreads a NaN of the row (log entry 37, unsafe). -/
def smaxStats (t : Tab) (c : Nat) (xs : List (XNum × Bool)) : XNum × XNum :=
  let live := xs.filter fun x => !x.2
  if live.isEmpty then (.inf true, .zero)
  else
    let mx := live.foldl (fun acc x => numMax acc x.1) (.inf true)
    if (live.any fun x => x.1 = .nan) then (.nan, .nan) else (mx, rowsum (smaxExps t c mx xs))

/-- The outputs of a soft maximum under its stored pair (R125, R126). -/
def smaxRow (t : Tab) (c : Nat) (st : XNum × XNum) (xs : List (XNum × Bool)) : List XNum :=
  if xs.all (·.2) then xs.map fun _ => .zero
  else if (xs.any fun x => !x.2 && decide (x.1 = .nan)) then xs.map fun _ => .nan
  else (indexed (smaxExps t c st.1 xs)).map fun e => if (xs.getD e.1 (.zero, true)).2 then .zero else div32 e.2 st.2

/-- SMAX_BWD over one row (R126): dx. -/
def smaxBwdRow (y dys : List XNum) : List XNum :=
  let t := rowsum ((dys.zip y).map fun e => mul32 e.1 e.2)
  spreadNan (y ++ dys) ((y.zip dys).map fun e => mul32 e.1 (sub32 e.2 t))

/-! ### A descriptor's rows -/

/-- A row of values. -/
def rowVals (f : Nat) (r : Rect) (m : Nat → Byte) (n i : Nat) : List XNum := (List.range n).map fun c => elemOf f r m i c

/-- The values of gamma or beta. -/
def RowD.affineVals (d : RowD) (p : RowP) (r : Rect) (m : Nat → Byte) : Option (List XNum) :=
  if d.affine then some (rowVals (d.gbCode p) r m d.len 0) else none

/-- The stored pair of row `i` (R128). -/
def RowD.stored (d : RowD) (l : Nat) (m : Nat → Byte) (i : Nat) : XNum × XNum :=
  (f32 (rdN m (d.slot l + 32 + 8 * i) 4), f32 (rdN m (d.slot l + 36 + 8 * i) 4))

/-- A row of x with the masked elements marked. -/
def RowD.maskedRow (d : RowD) (p : RowP) (m : Nat → Byte) (i : Nat) : List (XNum × Bool) :=
  (indexed (rowVals d.fX (d.rX p) m d.len i)).map fun e => (e.2, d.masked p m i e.1)

/-- The statistics that a forward operation stores for row `i` (R123, R125). -/
def RowD.statsOf (d : RowD) (p : RowP) (t : Option Tab) (m : Nat → Byte) (i : Nat) : XNum × XNum :=
  if d.op = 0x01 then normStats d.rms p.eps (rowVals d.fX (d.rX p) m d.len i)
  else match t with
    | some t => smaxStats t p.scaleLog2 (d.maskedRow p m i)
    | none => (.nan, .nan)

/-- The output values of row `i` (R123-R126). -/
def RowD.outRow (d : RowD) (p : RowP) (l : Nat) (t : Option Tab) (m : Nat → Byte) (i : Nat) : List XNum :=
  let xs := rowVals d.fX (d.rX p) m d.len i
  match d.op with
  | 0x01 => normFwdRow d.rms (d.affineVals p (d.rGamma p) m) (if d.rms then none else d.affineVals p (d.rBeta p) m)
      (d.statsOf p t m i) xs
  | 0x02 => normBwdRow d.rms (d.affineVals p (d.rGamma p) m) (d.stored l m i) xs (rowVals d.fG (d.rG p) m d.len i)
  | 0x03 => (match t with
      | some t => smaxRow t p.scaleLog2 (d.statsOf p (some t) m i) (d.maskedRow p m i)
      | none => [])
  | _ => (match t with
      | some t => smaxBwdRow (smaxRow t p.scaleLog2 (d.stored l m i) (d.maskedRow p m i)) (rowVals d.fG (d.rG p) m d.len i)
      | none => [])

/-- An output row written, the rest of its last block as zero (R121). -/
def RowD.writeRow (d : RowD) (p : RowP) (i : Nat) (vs : List XNum) : EngineOut :=
  let vs := vs ++ List.replicate (d.nb * 32 - vs.length) XNum.zero
  EngineOut.all ((List.range d.nb).map fun b =>
    writeBlock d.fD 0 (d.rD p) i b (((vs.drop (b * 32)).take 32).map fun v => (v, Round.nearest)))

/-- The entry of the statistics slot for row `i` (R128). -/
def RowD.writeStat (d : RowD) (l i : Nat) (st : XNum × XNum) : List (Nat × Byte) :=
  (indexed (leBytes 4 (toF32 st.1) ++ leBytes 4 (toF32 st.2))).map fun e => (d.slot l + 32 + 8 * i + e.1, e.2)

/-- What a ROW operation writes when its first `lim` rows are served (R121-R129, R222). -/
def RowD.run (d : RowD) (p : RowP) (l commit : Nat) (t : Option Tab) (m : Nat → Byte) (lim : Nat) : EngineOut :=
  let fwd := !d.bwd
  let head : EngineOut := if fwd && decide (0 < lim) then
    { stores := (indexed (d.header commit)).map fun e => (d.slot l + e.1, e.2) } else {}
  let rows := (List.range (min lim d.rows)).map fun i =>
    let o := d.writeRow p i (d.outRow p l t m i)
    if fwd then o.append { stores := d.writeStat l i (d.statsOf p t m i) } else o
  let pads : EngineOut := match fmtOf d.fD with
    | some f => { stores := (List.range (min lim d.rows)).flatMap ((d.rD p).padBytes f) }
    | none => {}
  EngineOut.all (head :: rows ++ [pads])

/-- How often an operation reads a row from memory: once while it fits the lanes' buffers, else once for each pass (R121). -/
def RowD.passes (d : RowD) : Nat := if d.len ≤ 16384 then 1 else if d.bwd then 2 else 3

/-- The bytes that every pass over row `i` reads: x, and dy in backward (R121). -/
def RowD.passReads (d : RowD) (p : RowP) (i : Nat) : List Nat :=
  ((List.range d.nb).flatMap fun b => blockReads d.fX (d.rX p) i b) ++
    (if d.bwd then (List.range d.nb).flatMap fun b => blockReads d.fG (d.rG p) i b else [])

/-- The bytes that row `i` takes from its sources (R121). -/
def RowD.reads (d : RowD) (p : RowP) (l i : Nat) : List Nat :=
  d.passReads p i ++ (if d.bwd then span (d.slot l + 32 + 8 * i) 8 else []) ++
    (if d.affine && decide (d.op ≤ 2) then (List.range d.nb).flatMap fun b => blockReads (d.gbCode p) (d.rGamma p) 0 b else []) ++
    (if d.affine && decide (d.op = 1) && !d.rms then (List.range d.nb).flatMap fun b => blockReads d.fG (d.rBeta p) 0 b else []) ++
    (if d.op ≠ 1 ∧ d.op ≠ 2 ∧ d.mask = 2 then span (p.maskAddr + i * p.maskStride) (cdiv d.len 8) else [])

/-- Column sums of NORM_BWD with AFFINE (R124): a pairwise tree in row order. -/
def RowD.colSum (d : RowD) (f : Nat → XNum) : XNum := treeOf add32 (levels d.rows) ((List.range d.rows).map f)

/-- The contributions of a NORM_BWD with AFFINE: dgamma, then dbeta unless RMS is set (R124), scaled by the pre-scale. -/
def RowD.contributions (d : RowD) (p : RowP) (l : Nat) (m : Nat → Byte) (ps : Int) : List (Nat × XNum) :=
  let dy (i j : Nat) := elemOf d.fG (d.rG p) m i j
  let xh (i j : Nat) := let st := d.stored l m i
    normHat st (elemOf d.fX (d.rX p) m i j)
  ((List.range d.len).map fun j => (p.grad + 8 * j, (d.colSum fun i => mul32 (dy i j) (xh i j)).scale ps)) ++
    (if d.rms then [] else (List.range d.len).map fun j =>
      (p.grad + 8 * (d.len + j), (d.colSum fun i => dy i j).scale ps))

/-- Lane steps of a ROW descriptor (R121): per 256 elements, and 8 for each row's tree. -/
def RowD.laneSteps (d : RowD) : Nat :=
  let k := if d.op = 1 then 3 else if d.op = 2 then 4 else 5
  d.rows * (cdiv d.len 256 * k + 8)

end Sys2Proof.Machine
end

