-- ==== Sys2Proof/Machine/Checks.lean ====
section
/-! DEFINITION. The static checks of descriptors, which the job loader and the issue share: header, field ranges, formats, modes,
regions (R56, R72-R77, R86-R90, R101-R103, R107-R139, R148, R159, R170, R196-R198, R206, R215, R224, R335-R346). -/

namespace Sys2Proof.Machine

/-- The first error whose condition holds. -/
def firstErr : List (Bool × DErr) → Option DErr
  | [] => none
  | (b, e) :: r => if b then some e else firstErr r

/-- An error that names a descriptor index and a field, as the class events do. -/
def fieldErr (code index off top : Nat) : DErr := ⟨code, [index, Config.fieldWord code off top]⟩

/-- The first part that names a byte the class's own region rule forbids. -/
def regionErr (code index : Nat) (own : Nat → Bool) (ps : List Named) : Option DErr :=
  (ps.find? fun x => x.2.2.any fun a => !own a).map fun x => fieldErr code index x.1 x.2.1

/-- Whether a byte lies in logical core `l`'s working or crumb memory (R77). -/
def ownMem (l a : Nat) : Bool := match regionOf a with | .wm c | .crumb c => decide (c.val = l) | _ => false

/-- Whether a byte lies in logical core `l`'s gradient buffer. -/
def ownGb (l a : Nat) : Bool := match regionOf a with | .gb c => decide (c.val = l) | _ => false

/-- Regions of VEC and ROW operands: own memories, and the gradient buffer unless the core is ganged (R108, R121). -/
def ownVec (ganged : Bool) (l a : Nat) : Bool := ownMem l a || (!ganged && ownGb l a)

/-- Whether a byte lies in logical core `l`'s working memory. -/
def ownWm (l a : Nat) : Bool := match regionOf a with | .wm c => decide (c.val = l) | _ => false

/-- A code of R102 that an operand may have. -/
def fmtOk (c : Nat) : Bool := decide (1 ≤ c) && decide (c ≤ 11)

/-- Whether a logical core of a job is ganged (R87, R256). -/
def Job.ganged (j : Job) (l : Nat) : Bool := (j.arrMode.getD l 0).testBit 0

/-- Whether array `a` of a logical core of a job is split (R88, R256). -/
def Job.split (j : Job) (l a : Nat) : Bool := (j.arrMode.getD l 0).testBit (a + 1)

/-! ### MAT -/

/-- The bytes of an ACC output (R103). -/
def MatD.accAddrs (m : MatD) : List Nat := (List.range m.rows).flatMap fun i => span (m.oAddr + i * m.oStride) (m.cols * 8)

/-- The bytes that a MAT descriptor names, by field (R101, R170). -/
def MatD.names (m : MatD) : List Named :=
  [(0x14, 31, m.rA.addrs m.fA true), (0x1C, 31, m.rB.addrs m.fB true),
   (0x24, 31, if m.acc then m.accAddrs else m.rO.addrs m.fO true)]

/-- The static checks of a MAT body (R73, R77, R87, R90, R101-R103). -/
def State.matCheck (s : State) (p : PartId) (j : Job) (l index : Nat) (d : List Word) : Option DErr :=
  let m := matD d
  let f := fieldErr 0x4112 index
  let g := fieldErr 0x4110 index
  let md := fieldErr 0x4111 index
  let ganged := j.ganged l
  let anySplit := (List.range 4).any (j.split l)
  let allSplit := (List.range 4).all (j.split l)
  (firstErr [
    (decide (dfld d 0x10 31 25 ≠ 0), f 0x10 31), (dbit d 0x10 2, f 0x10 2), (decide (2 ≤ m.flow), f 0x10 1),
    (decide (m.half = 3), f 0x10 7), (decide (m.aAddr % 64 ≠ 0), f 0x14 31), (decide (m.aStride = 0), f 0x18 31),
    (decide (m.bAddr % 64 ≠ 0), f 0x1C 31), (decide (m.bStride = 0), f 0x20 31),
    (decide (m.oAddr % (if m.acc then 8 else 64) ≠ 0), f 0x24 31), (decide (m.oStride = 0), f 0x28 31),
    (decide (dfld d 0x2C 31 19 ≠ 0), f 0x2C 31), (!(decide (6 ≤ dfld d 0x2C 7 4) && decide (dfld d 0x2C 7 4 ≤ 11)), f 0x2C 7),
    (!(decide (6 ≤ dfld d 0x2C 3 0) && decide (dfld d 0x2C 3 0 ≤ 11)), f 0x2C 3), (decide (dfld d 0x34 31 16 ≠ 0), f 0x34 31),
    (!m.acc && decide (m.tensorW ≠ 0), f 0x3C 31),
    (!fmtOk m.fmtA, g 0x10 11), (!fmtOk m.fmtB, g 0x10 15), (!m.acc && !fmtOk m.fmtOut, g 0x10 19),
    (decide (m.fA.cls ≠ m.fB.cls), g 0x10 15),
    (ganged && decide (m.flow = 1), md 0x10 1), (ganged && m.acc, md 0x10 23),
    (!m.any && decide (m.half ≠ 0) && !j.split l m.array, md 0x10 7), (!m.any && decide (m.half = 0) && j.split l m.array, md 0x10 7),
    (m.any && decide (m.half = 0) && allSplit, md 0x10 7), (m.any && decide (m.half ≠ 0) && !anySplit, md 0x10 7)]).orElse fun _ =>
  let ns := m.names
  s.checkNames p j l index ns
    ((regionErr 0x4112 index (ownMem l) (ns.take 2)).orElse fun _ =>
      regionErr 0x4112 index (if m.acc then ownGb l else ownMem l) (ns.drop 2))

/-! ### VEC -/

/-- Whether an OP code of VEC is defined (R110). -/
def vecOpOk (op : Nat) : Bool :=
  [0x01, 0x02, 0x10, 0x11, 0x12, 0x13, 0x14, 0x15, 0x16, 0x17, 0x18, 0x19, 0x20, 0x21, 0x30, 0x31, 0x32, 0x40, 0x41, 0x42, 0x43,
   0x50, 0x51].contains op

/-- Updates. -/
def vecUpd (op : Nat) : Bool := decide (op = 0x50 ∨ op = 0x51)

/-- Chunk reductions. -/
def vecRed (op : Nat) : Bool := decide (op = 0x40 ∨ op = 0x41 ∨ op = 0x42)

/-- Operations that write an element tensor at D. -/
def vecElems (op : Nat) : Bool := !(vecUpd op || vecRed op || decide (op = 0x43 ∨ op = 0x02))

/-- CVT pairs (R112). -/
def cvtPair (s d : Nat) : Bool :=
  ((fmtOk s || decide (s = 15)) && fmtOk d) || (decide (s = 11) && decide (d = 15)) ||
    (decide (s = 12) && decide (d = 11 ∨ d = 13 ∨ d = 14)) || (decide (s = 13 ∨ s = 14) && decide (d = 11))

/-- The format field that a VEC descriptor breaks, by its top bit (R109, R110, R112, R118, R120). -/
def VecD.formatErr (d : VecD) : Option Nat :=
  let u := vecUses d.op
  if d.op = 0x01 then (if d.f0 = 0 then some 19 else if cvtPair d.f0 d.fD then none else some 23)
  else if vecUpd d.op then
    (if d.f0 ≠ 11 then some 19 else if d.f1 ≠ 15 then some 15 else if d.f2 ≠ 11 then some 11 else if d.fD ≠ 15 then some 23 else none)
  else if d.op = 0x43 ∧ d.f0 ≠ 11 then some 19
  else if !fmtOk d.f0 then some 19
  else if u.1 && !d.s1s && !fmtOk d.f1 then some 15
  else if u.2.2 && !d.s2s && !fmtOk d.f2 then some 11
  else if (vecRed d.op || decide (d.op = 0x43)) && decide (d.fD ≠ 11) then some 23
  else if vecElems d.op && !fmtOk d.fD then some 23
  else none

/-- Every data byte of a stored tensor of any code. -/
def dataNames (code : Nat) (r : Rect) : List Nat :=
  (List.range r.sr).flatMap fun i => span (r.base + i * r.stride) (r.nb * codeBlockBytes code)

/-- The plane bytes that the engines write for a destination (R172). -/
def outPlanes (code : Nat) (r : Rect) : List Nat :=
  match fmtOf code with
  | some f => span r.planes (r.sr * r.pitch * (if f.mx then 2 else 1))
  | none => []

/-- The scale bytes that an MX source takes (R172). -/
def scalePlanes (code : Nat) (r : Rect) : List Nat :=
  match fmtOf code with
  | some f => if f.mx then (List.range r.sr).flatMap fun i => span (r.scaleAddr i 0) r.nb else []
  | none => []

/-- The bytes that a VEC descriptor and its parameter block name, by field (R137, R138, R170). -/
def VecD.names (d : VecD) (p : VecP) : List Named :=
  if vecUpd d.op then
    [(0x1C, 31, span d.a0 (4 * d.cols)), (0x24, 31, span d.a1 (6 * d.cols)), (0x2C, 31, span d.a2 (4 * d.cols)),
     (0x14, 31, span d.dA (6 * d.cols)), (0x38, 31, span p.mOut (4 * d.cols))] ++
      (if d.op = 0x50 then [(0x38, 31, span p.vIn (4 * d.cols)), (0x38, 31, span p.vOut (4 * d.cols))] else [])
  else
    let u := vecUses d.op
    let mask (a : Nat) := (List.range d.rows).flatMap fun i => span (a + i * p.maskStride) (d.cols / 8)
    [(0x1C, 31, dataNames d.f0 (d.r0 p)), (0x38, 31, scalePlanes d.f0 (d.r0 p))] ++
      (if u.1 && !d.s1s then [(0x24, 31, dataNames d.f1 (d.r1 p)), (0x38, 31, scalePlanes d.f1 (d.r1 p))] else []) ++
      (if u.2.1 then [(0x24, 31, mask d.a1)] else []) ++
      (if u.2.2 && !d.s2s then [(0x2C, 31, dataNames d.f2 (d.r2 p)), (0x38, 31, scalePlanes d.f2 (d.r2 p))] else []) ++
      (if d.op = 0x30 ∨ d.op = 0x31 then [(0x2C, 31, mask d.a2)] else []) ++
      (if d.op = 0x02 then [(0x38, 31, span (d.r0 p).planes (d.rows * (d.r0 p).pitch))]
       else if vecRed d.op then [(0x14, 31, span d.dA (4 * cdiv (d.rows * d.cols) 65536))]
       else if d.op = 0x43 then [(0x14, 31, span d.dA 4)]
       else [(0x14, 31, dataNames d.fD (d.rD p)), (0x38, 31, outPlanes d.fD (d.rD p))])

/-- The addresses of a VEC descriptor and its parameter block that must be 64-byte aligned (R108), by field. -/
def VecD.bases (d : VecD) (p : VecP) : List (Nat × Nat) :=
  let u := vecUses d.op
  [(0x1C, d.a0)] ++ (if (u.1 && !d.s1s) || u.2.1 || vecUpd d.op then [(0x24, d.a1)] else []) ++
    (if (u.2.2 && !d.s2s) || vecUpd d.op || decide (d.op = 0x30 ∨ d.op = 0x31) then [(0x2C, d.a2)] else []) ++
    (if d.op = 0x02 then [] else [(0x14, d.dA)]) ++ (if vecUpd d.op then [(0x38, p.mOut)] else []) ++
    (if d.op = 0x50 then [(0x38, p.vIn), (0x38, p.vOut)] else [])

/-- Whether a VEC descriptor's destination begins in a publication region of its job (R159). -/
def Job.inPub (j : Job) (a : Nat) : Bool :=
  match j.upd with
  | none => false
  | some u => u.regions.any fun r => decide (r.kind = 1 ∧ r.a ≤ a ∧ a < r.a + r.len)

/-- Whether a descriptor draws Philox words under its own salt (R56); `pub`: its destination lies in a publication region. -/
def VecD.draws (d : VecD) (p : VecP) (pub : Bool) : Bool :=
  !vecUpd d.op && !d.publishes pub &&
    (decide (d.op = 0x31) || d.sr || (vecElems d.op && decide (d.fD = 15)) || decide (0x10 ≤ p.salt ∧ p.salt ≤ 0x1F))

/-- Errors of a VEC body that its words alone show (R108, R110, R112, R137, R138). -/
def vecBodyErr (index : Nat) (w : List Word) : Option DErr :=
  let d := vecD w
  let f := fieldErr 0x4203 index
  firstErr [
    (decide (dfld w 0x10 3 0 ≠ 0), f 0x10 3), (decide (dfld w 0x3C 31 16 ≠ 0), f 0x3C 31), (!vecOpOk d.op, ⟨0x4201, [index]⟩),
    (d.formatErr.isSome, fieldErr 0x4202 index 0x10 (d.formatErr.getD 0)), (vecUpd d.op && decide (d.rows ≠ 1), f 0x34 15),
    (vecElems d.op && d.trD && decide (d.rows % 32 ≠ 0), f 0x10 6),
    (decide (d.param % 64 ≠ 0), f 0x38 31)]

/-- Errors of a ROW body that its words and the job's records show (R121, R125, R127, R131, R139). -/
def rowBodyErr (j : Job) (l index : Nat) (w : List Word) : Option DErr :=
  let d := rowD w
  let f := fieldErr 0x4301 index
  let load := decide (d.op = 0x10)
  let norm := decide (d.op = 1 ∨ d.op = 2)
  firstErr [
    (dbit w 0x10 6, f 0x10 6), (decide (dfld w 0x3C 31 16 ≠ 0), f 0x3C 31), (!([0x01, 0x02, 0x03, 0x04, 0x10].contains d.op), f 0x10 31),
    (decide (d.mask = 3), f 0x10 11),
    (load && !d.fw && decide (d.xA % 64 ≠ 0), f 0x1C 31),
    (!load && !fmtOk d.fX, f 0x10 19), (!load && !fmtOk d.fD, f 0x10 23),
    (!load && d.bwd && decide (d.fD = 5 ∨ d.fD = 7), f 0x10 23), (!load && d.bwd && !fmtOk d.fG, f 0x10 15),
    (norm && !d.bwd && d.affine && !fmtOk d.fG, f 0x10 15),
    (!load && decide (d.xA % 64 ≠ 0), f 0x1C 31), (!load && decide (d.dA % 64 ≠ 0), f 0x14 31),
    (!load && d.bwd && decide (d.gA % 64 ≠ 0), f 0x24 31),
    (!load && decide (1572864 < d.statOff + d.slotBytes), f 0x30 15),
    (!load && j.stats.any (fun r => decide (r.lcore = l ∧ r.off ≠ d.statOff ∧ r.off < d.statOff + d.slotBytes ∧
      d.statOff < r.off + r.bytes)), f 0x30 15),
    (!load && decide (d.param % 64 ≠ 0), f 0x38 31)]

/-! ### Parameter blocks -/

/-- Bytes of the parameter block that a descriptor's engine reads (R138, R139). -/
def paramBytes (d : List Word) : Nat :=
  if hClass d = 2 then (if vecUpd (vecD d).op then 128 else 0x50) else if hClass d = 3 ∧ (rowD d).op ≠ 0x10 then 64 else 0

/-- The bytes of the parameter block that a descriptor's engine reads. -/
def paramAddrs (d : List Word) : List Nat := span (daddr d 0x38 0x3C) (paramBytes d)

/-- The bytes of the parameter block that are read: none where the block lies outside its logical core's working memory (R138). -/
def paramReads (l : Nat) (d : List Word) : List Nat := if (paramAddrs d).all (ownWm l) then paramAddrs d else []

/-- Why the parameter block of a VEC or ROW descriptor is not looked at: its words break a rule of the class, or the block lies where
no descriptor of the job may name memory (R137-R139, R170, R224). -/
def State.paramErr (s : State) (p : PartId) (j : Job) (l index : Nat) (w : List Word) : Option DErr :=
  (match hClass w with
    | 2 => vecBodyErr index w
    | 3 => rowBodyErr j l index w
    | _ => none).orElse fun _ => s.checkNames p j l index [(0x38, 31, paramAddrs w)] none

/-- The rules on what a VEC or ROW descriptor names: those of every class on all of it come before the class's own, the first of which
is that of the parameter block (R138, R139, R224); `more` are the descriptor's other checks. -/
def State.engineNames (s : State) (p : PartId) (j : Job) (l index code : Nat) (w : List Word) (ns : List Named)
    (more own : Option DErr) : Option DErr :=
  (s.checkNames p j l index ns (regionErr code index (ownWm l) [(0x38, 31, paramAddrs w)])).orElse fun _ => more.orElse fun _ => own

/-- The static checks of a VEC descriptor with its parameter block (R56, R108-R117, R137, R138). -/
def State.vecCheck (s : State) (p : PartId) (j : Job) (l index : Nat) (w : List Word) (pb : List Byte) : Option DErr :=
  let d := vecD w
  let q := vecP pb
  let f := fieldErr 0x4203 index
  (s.paramErr p j l index w).orElse fun _ =>
  let ns := d.names q
  s.engineNames p j l index 0x4203 w ns
   ((firstErr [
    (d.draws q (j.inPub d.dA) && decide (q.salt = 0 ∨ (4 ≤ q.salt ∧ q.salt ≤ 0x0F)), ⟨0x3004, [index]⟩),
    (vecRed d.op && decide (q.origin % 65536 ≠ 0), f 0x38 31),
    (decide (d.op = 0x01 ∧ d.f0 = 12 ∧ d.fD ≠ 11) && (decide (q.expAdj ≠ 0) || (q.floorSet && decide (q.floor = 255))), f 0x38 31)] |>.orElse
    fun _ => ((d.bases q).find? fun b => decide (b.2 % 64 ≠ 0)).map fun b => f b.1 31))
   (regionErr 0x4203 index (ownVec (j.ganged l) l) ns)

/-! ### ROW -/

/-- The bytes that a ROW descriptor and its parameter block name, by field (R121, R139, R170). -/
def RowD.names (d : RowD) (p : RowP) : List Named :=
  if d.op = 0x10 then (if d.fw then [] else [(0x1C, 31, span d.xA 8256)])
  else
    let side (r : Rect) : List Named := [(0x38, 31, dataNames (d.gbCode p) r ++ scalePlanes (d.gbCode p) r)]
    [(0x1C, 31, dataNames d.fX (d.rX p)), (0x38, 31, scalePlanes d.fX (d.rX p)), (0x14, 31, dataNames d.fD (d.rD p)),
     (0x38, 31, outPlanes d.fD (d.rD p))] ++
      (if d.bwd then [(0x24, 31, dataNames d.fG (d.rG p)), (0x38, 31, scalePlanes d.fG (d.rG p))] else []) ++
      (if d.affine && decide (d.op ≤ 2) then side (d.rGamma p) else []) ++
      (if d.affine && decide (d.op = 1) && !d.rms then side (d.rBeta p) else []) ++
      (if (d.op = 3 ∨ d.op = 4) ∧ d.mask = 2 then
        [(0x38, 31, (List.range d.rows).flatMap fun i => span (p.maskAddr + i * p.maskStride) (cdiv d.len 8))] else [])

/-- The gradient-buffer bytes of a NORM_BWD with AFFINE set (R124). -/
def RowD.gradNames (d : RowD) (p : RowP) : List Named :=
  if d.affine ∧ d.op = 0x02 then [(0x38, 31, span p.grad (8 * d.len * (if d.rms then 1 else 2)))] else []

/-- What the engine, not the loader, refuses of a ROW parameter block: FMT_GB (R139). DESIGN CHOICE: a NORM_BWD without AFFINE has no gamma
and beta, so it counts among R139's other cases and its FMT_GB must be 0 (log entry 99, unsafe). -/
def rowGbErr (index : Nat) (w : List Word) (pb : List Byte) : Option DErr :=
  let d := rowD w
  let gb := decide (d.op = 2) && d.affine
  if (gb && !fmtOk (rowP pb).fGB) || (!gb && decide (d.op ≠ 0x10 ∧ (rowP pb).fGB ≠ 0)) then some (fieldErr 0x4301 index 0x38 31) else none

/-- The static checks of a ROW descriptor with its parameter block, but for FMT_GB (R121, R124, R139). -/
def State.rowCheck (s : State) (p : PartId) (j : Job) (l index : Nat) (w : List Word) (pb : List Byte) : Option DErr :=
  let d := rowD w
  let q := rowP pb
  let f := fieldErr 0x4301 index
  (s.paramErr p j l index w).orElse fun _ =>
  let load := decide (d.op = 0x10)
  let aff := d.affine && decide (d.op ≤ 2)
  let ns := d.names q
  let gr := d.gradNames q
  s.engineNames p j l index 0x4301 w (ns ++ gr) (firstErr [
    (aff && decide (q.gamma % 64 ≠ 0), f 0x38 31), (aff && decide (d.op = 1) && !d.rms && decide (q.beta % 64 ≠ 0), f 0x38 31),
    (decide ((d.op = 3 ∨ d.op = 4) ∧ d.mask = 2) && decide (q.maskAddr % 64 ≠ 0), f 0x38 31),
    (aff && decide (d.op = 2) && decide (q.grad % 64 ≠ 0), f 0x38 31)])
    ((regionErr 0x4301 index (if load then ownWm l else ownVec (j.ganged l) l) ns).orElse fun _ =>
      regionErr 0x4301 index (fun a => !j.ganged l && ownGb l a) gr)

/-! ### MOV -/

/-- The fields of a MOV descriptor (R196). -/
structure MovD where
  op : Nat
  fmt : Nat
  src : Nat
  dst : Nat
  rows : Nat
  sStride : Nat
  dStride : Nat
  bytes : Nat
  smeta : Nat
  mpitch : Nat
  sdist : Nat
  dmeta : Nat
  pattern : Word
  micro : Nat
  tile : Nat
  deriving DecidableEq, Repr, Inhabited

/-- The MOV body read from its words (R196). -/
def movD (d : List Word) : MovD where
  op := dfld d 0x10 31 28
  fmt := dfld d 0x10 27 24
  src := daddr d 0x14 0x18
  dst := daddr d 0x1C 0x20
  rows := dfld d 0x20 31 16 + 1
  sStride := dfld d 0x24 31 0
  dStride := dfld d 0x28 31 0
  bytes := dfld d 0x2C 31 0
  smeta := daddr d 0x30 0x34
  mpitch := dfld d 0x34 31 16
  sdist := dfld d 0x38 31 0 * 64
  dmeta := dfld d 0x18 31 16 * 4096
  pattern := wordAt d 12
  micro := dfld d 0x3C 31 16
  tile := dfld d 0x3C 15 0

/-- The fields that operation `op` leaves unused, as (offset, top bit, bottom bit) (R196, R197). -/
def movUnused (op : Nat) : List (Nat × Nat × Nat) :=
  let fmt := [(0x10, 27, 24)]
  let src := [(0x14, 31, 0), (0x18, 15, 0)]
  let dm := [(0x18, 31, 16)]
  let dst := [(0x1C, 31, 0), (0x20, 15, 0)]
  let rows := [(0x20, 31, 16)]
  let ss := [(0x24, 31, 0)]
  let tail := [(0x28, 31, 0), (0x2C, 31, 0)]
  let meta_ := [(0x30, 31, 0), (0x34, 31, 0)]
  let sd := [(0x38, 31, 0)]
  let mb := [(0x3C, 31, 16)]
  let tile := [(0x3C, 15, 0)]
  match op with
  | 0x0 => fmt ++ dm ++ meta_ ++ sd ++ mb ++ tile
  | 0x1 => mb ++ tile
  | 0x2 => fmt ++ src ++ dm ++ ss ++ [(0x34, 31, 0)] ++ sd ++ mb ++ tile
  | 0x8 => fmt ++ src ++ dm ++ dst ++ rows ++ ss ++ tail ++ meta_ ++ sd ++ mb
  | 0x9 | 0xA => fmt ++ src ++ dm ++ dst ++ rows ++ ss ++ tail ++ meta_ ++ sd
  | 0xB => fmt ++ src ++ dm ++ dst ++ rows ++ ss ++ tail ++ meta_ ++ [(0x38, 31, 16)] ++ mb
  | _ => []

/-- Gradient operations (R197). -/
def movGrad (op : Nat) : Bool := decide (8 ≤ op)

/-- Format of a COPY_RECT. -/
def MovD.ff (m : MovD) : Fmt := (fmtOf m.fmt).getD default

/-- Blocks per row of a COPY_RECT. -/
def MovD.nb (m : MovD) : Nat := m.bytes / Nat.max 1 m.ff.blockBytes

/-- The destination rectangle of a COPY_RECT (R172, R197). -/
def MovD.rD (m : MovD) : Rect := ⟨m.dst, m.dStride, m.rows, m.nb, m.dst + m.dmeta⟩

/-- The source bytes of row `i`. -/
def MovD.rowSrc (m : MovD) (i : Nat) : List Nat := if m.op = 0x2 then [] else span (m.src + i * m.sStride) m.bytes

/-- The source plane bytes of row `i` of a COPY_RECT: summaries, then scales of an MX format (R197). -/
def MovD.rowPlanes (m : MovD) (i : Nat) : List Nat :=
  if m.op = 0x1 then
    span (m.smeta + i * m.mpitch) m.nb ++ (if m.ff.mx then span (m.smeta + i * m.mpitch + m.sdist) m.nb else [])
  else []

/-- The destination bytes of row `i`. -/
def MovD.rowDst (m : MovD) (i : Nat) : List Nat := span (m.dst + i * m.dStride) m.bytes

/-- The bytes that a copying MOV names, by field (R170, R197); sources first. -/
def MovD.names (m : MovD) : List Named × List Named :=
  let all (f : Nat → List Nat) := (List.range m.rows).flatMap f
  (if m.op = 0x2 then [] else [(0x14, 31, all m.rowSrc), (0x30, 31, all m.rowPlanes)],
   [(0x1C, 31, all m.rowDst), (0x18, 31, if m.op = 0x1 then outPlanes m.fmt m.rD else [])])

/-- The byte at which a copying MOV names a region that R198 forbids. -/
def movDenied (src dst : List Nat) : Option Nat :=
  let gb (a : Nat) : Bool := match regionOf a with | .gb _ => true | _ => false
  let table (a : Nat) : Bool := match regionOf a with | .side _ => decide (a % 0x10000000 < 0xC080000) | _ => false
  (src.find? gb).orElse fun _ => dst.find? fun a => gb a || table a

/-- The address checks of a descriptor that reads and writes these parts under the region rules of MOV (R170, R198, R224). -/
def State.moveNames (s : State) (p : PartId) (j : Job) (l index : Nat) (ns : List Named × List Named) : Option DErr :=
  s.checkNames p j l index (ns.1 ++ ns.2) ((movDenied (namedBytes ns.1) (namedBytes ns.2)).map fun a => ⟨0x5002, index :: two a⟩)

/-- The field that a gradient operation breaks (R148). -/
def Job.gradErr (j : Job) (l : Nat) (d : List Word) : Option (Nat × Nat) :=
  let m := movD d
  match j.tileOf l m.tile with
  | none => some (0x3C, 15)
  | some t =>
    if m.op ≠ 0xB then none
    else match j.tileOf l (dfld d 0x38 15 0) with
      | none => some (0x38, 15)
      | some u =>
        if t.use ≠ 0 then some (0x3C, 15)
        else if u.use = 0 ∨ u.tensor ≠ t.tensor ∨ u.origin ≠ t.origin ∨ u.rows ≠ t.rows ∨ u.cols ≠ t.cols then some (0x38, 15)
        else none

/-- The static checks of a MOV body (R148, R170, R196-R198). -/
def State.movCheck (s : State) (p : PartId) (j : Job) (l index : Nat) (d : List Word) : Option DErr :=
  let m := movD d
  let f := fieldErr 0x5003 index
  (firstErr ([(decide (dfld d 0x10 23 0 ≠ 0), f 0x10 23), (!([0x0, 0x1, 0x2, 0x8, 0x9, 0xA, 0xB].contains m.op), f 0x10 31)] ++
    (movUnused m.op).map (fun u => (decide (dfld d u.1 u.2.1 u.2.2 ≠ 0), f u.1 u.2.1)))).orElse fun _ =>
  if movGrad m.op then (j.gradErr l d).map fun x => f x.1 x.2
  else
    (firstErr [(decide (m.bytes = 0), f 0x2C 31), (decide (m.op = 0x2) && decide (m.dst % 4 ≠ 0), f 0x1C 31),
      (decide (m.op = 0x2) && decide (m.bytes % 4 ≠ 0), f 0x2C 31), (decide (m.op = 0x1) && !fmtOk m.fmt, f 0x10 27),
      (decide (m.op = 0x1) && decide (m.bytes % Nat.max 1 m.ff.blockBytes ≠ 0), f 0x2C 31)]).orElse fun _ =>
    s.moveNames p j l index m.names

/-! ### NET -/

/-- The group of a VC of the job, 0 without a cluster record (R308, R336). -/
def Job.vcGroup (j : Job) (vc : Nat) : Nat := match j.cluster with | none => 0 | some c => (c.cl.vcs.getD vc default).group

/-- The fields that NET operation `op` leaves unused, as (offset, top bit, bottom bit) (R335, R336). -/
def netUnused (op : Nat) : List (Nat × Nat × Nat) :=
  let vc := [(0x10, 23, 20)]
  let fmt := [(0x10, 19, 16)]
  let id := [(0x10, 15, 0)]
  let a0 := [(0x14, 31, 0), (0x18, 15, 0)]
  let a1 := [(0x1C, 31, 0), (0x18, 31, 16)]
  let peer := [(0x20, 29, 24)]
  let qd := [(0x20, 23, 20)]
  let pol := [(0x20, 19, 18)]
  let len := [(0x24, 31, 0)]
  let pb := [(0x2C, 31, 0)]
  let ext := [(0x30, 31, 0), (0x34, 31, 0)]
  match op with
  | 0x01 => peer ++ qd ++ pol ++ pb ++ ext
  | 0x02 => fmt ++ a0 ++ peer ++ qd ++ pol ++ pb ++ ext
  | 0x03 => fmt ++ id ++ pol ++ pb ++ ext
  | 0x04 => fmt ++ id ++ a0 ++ pol ++ pb ++ ext
  | 0x05 => vc ++ fmt ++ id ++ peer ++ qd ++ pb
  | 0x06 | 0x07 => vc ++ fmt ++ id ++ a1 ++ peer ++ qd ++ pol
  | 0x08 => vc ++ fmt ++ a0 ++ a1 ++ peer ++ qd ++ pol ++ ext
  | 0x09 => vc ++ fmt ++ a0 ++ a1 ++ peer ++ qd ++ pol ++ len ++ pb ++ ext
  | _ => []

/-- The local bytes that a NET descriptor's own words name, by field: reads, then writes (R336). What a micro-batch names beside
is checked when its header has been read (`execMbAdmit`). -/
def netNames (d : List Word) : List Named × List Named :=
  let n := nLen d
  let src : List Named := [(0x14, 31, netReads d)]
  match nOp d with
  | 0x01 => (src, [(0x1C, 31, span (nA1 d) (n * gwBytes (nWide d)))])
  | 0x02 | 0x04 => (src, [(0x1C, 31, span (nA1 d) n)])
  | 0x05 => (src, [(0x1C, 31, span (nA1 d) (nPa d * n)), (0x30, 31, span (nExt d) 16)])
  | 0x06 => (src, [(0x14, 31, span (nA0 d) n)])
  | _ => (src, [])

/-- Errors of a NET body that its words and the job's records show (R335, R336, R340, R345). -/
def Job.netBodyErr (j : Job) (l list index : Nat) (d : List Word) : Option DErr :=
  let op := nOp d
  let f := fun off top => netInvalid l index off top
  let cl := j.cluster.isSome
  let g := j.vcGroup (nVc d)
  let shards := (j.cluster.map fun c => c.cl.shards).getD 0
  let pipe := decide (op = 3 ∨ op = 4)
  firstErr ([
    (!(decide (1 ≤ op) && decide (op ≤ 9)), f 0x10 31), (decide (dfld d 0x20 31 30 ≠ 0), f 0x20 31),
    (decide (dfld d 0x20 17 0 ≠ 0), f 0x20 17), (decide (dfld d 0x38 31 0 ≠ 0), f 0x38 31), (decide (dfld d 0x3C 31 0 ≠ 0), f 0x3C 31)] ++
    (netUnused op).map (fun u => (decide (dfld d u.1 u.2.1 u.2.2 ≠ 0), f u.1 u.2.1)) ++ [
    (!cl && decide (op = 2 ∨ op = 3 ∨ op = 4 ∨ op = 8 ∨ op = 9), f 0x10 31), (!cl && decide (nVc d ≠ 0), f 0x10 23),
    (cl && decide (op = 1 ∧ g ≠ 2), f 0x10 23), (cl && decide (op = 2 ∧ g ≠ 5), f 0x10 23),
    (cl && pipe && !([3, 4, 6, 7].contains g), f 0x10 23),
    (decide (op = 1) && (match j.numr with
      | some n => decide (nWide d ≠ n.wide) || decide (dfld d 0x10 19 16 ≠ 0xD ∧ dfld d 0x10 19 16 ≠ 0xE)
      | none => decide (dfld d 0x10 19 16 ≠ 0xD ∧ dfld d 0x10 19 16 ≠ 0xE)), f 0x10 19),
    (decide (op = 1) && (match j.numr with | some n => decide (j.kind = .train ∧ n.floors.length ≤ nId d) | none => false), f 0x10 15),
    (decide (op = 1) && decide (nLen d = 0 ∨ 16777216 < nLen d), f 0x24 31),
    (decide (op = 1) && decide (nPa d = 0 ∨ nLen d < nPa d), f 0x28 31),
    (decide (op = 2) && decide (nLen d = 0), f 0x24 31), (decide (op = 2 ∨ op = 9) && decide (shards ≤ nId d), f 0x10 15),
    (pipe && decide (8 < dfld d 0x20 23 20), f 0x20 23),
    (decide (op = 5) && decide (nLen d % 64 ≠ 0 ∨ nLen d = 0), f 0x24 31),
    (decide (op = 5) && decide (nPa d = 0 ∨ 65536 < nPa d), f 0x28 31), (decide (op = 5) && decide (dfld d 0x20 19 18 = 3), f 0x20 19),
    (decide (op = 5) && decide (dfld d 0x34 31 16 ≠ 0), f 0x34 31),
    (decide (op = 6 ∨ op = 7) && decide (dfld d 0x2C 31 19 ≠ 0 ∨ dfld d 0x2C 15 10 ≠ 0), f 0x2C 31),
    (decide (op = 8) && !(decide (l = 0 ∧ list = 4 ∧ index = 0)), f 0x10 31),
    (decide (op = 9) && decide (list ≠ 4), f 0x10 31), (decide (op = 9) && decide (nPa d = 0 ∨ 1048575 < nPa d), f 0x28 31),
    (decide (op = 1 ∨ op = 3 ∨ 5 ≤ op ∧ op ≤ 7) && decide (nA0 d % 64 ≠ 0), f 0x14 31),
    (decide (op = 1 ∨ op = 3 ∨ op = 4 ∨ op = 5) && decide (nA1 d % 64 ≠ 0), f 0x1C 31),
    (decide (5 ≤ op ∧ op ≤ 7) && decide (nExt d % 64 ≠ 0), f 0x30 31)])

/-- The static checks of a NET descriptor (R198, R224, R335, R336). -/
def State.netCheck (s : State) (p : PartId) (j : Job) (l list index : Nat) (d : List Word) : Option DErr :=
  (j.netBodyErr l list index d).orElse fun _ => s.moveNames p j l index (netNames d)

/-! ### SYN and the header -/

/-- OP, CNT and VALUE of a SYN descriptor (R215). -/
def sOp (d : List Word) : Nat := dfld d 0x10 31 24
/-- CNT. -/
def sCnt (d : List Word) : Nat := dfld d 0x10 7 0

/-- SYN_OPERAND_INVALID of a descriptor (R232). -/
def synErr (l list index off top : Nat) : DErr := ⟨0x4502, [l, list, index, Config.fieldWord 0x4502 off top]⟩

/-- STEP_END or END. -/
def isEnding (d : List Word) : Bool := decide (hClass d = 6) && decide (sOp d = 0x20 ∨ sOp d = 0x21)

/-- The ending of a list: STEP_END for the step lists of a TRAIN job, END for any other (R218). -/
def Job.endingOf (j : Job) (r : ListRec) : Nat := if j.kind = .train ∧ r.list < 4 then 0x20 else 0x21

/-- Whether a descriptor is the ending `want`. -/
def endsAs (want : Nat) (d : List Word) : Bool := isEnding d && decide (sOp d = want)

/-- The static checks of a SYN body (R215, R216). -/
def synCheck (l list index : Nat) (d : List Word) : Option DErr :=
  firstErr ([(decide (dfld d 0x10 23 8 ≠ 0), synErr l list index 0x10 23),
    (!([0x00, 0x01, 0x02, 0x10, 0x11, 0x20, 0x21].contains (sOp d)), synErr l list index 0x10 31)] ++
    (List.range 10).map fun k => (decide (wordAt d (6 + k) ≠ 0), synErr l list index (0x18 + 4 * k) 31))

/-- The static checks of a whole descriptor with the parameter block it names (R206 and its class's rules). -/
def State.descCheck (s : State) (p : PartId) (j : Job) (l list index : Nat) (d : List Word) (pb : List Byte) : Option DErr :=
  match headerError j.lcores d with
  | some x => some ⟨0x4501, [l, list, index, Config.fieldWord 0x4501 x.1 x.2]⟩
  | none => match hClass d with
    | 1 => s.matCheck p j l index d
    | 2 => s.vecCheck p j l index d pb
    | 3 => s.rowCheck p j l index d pb
    | 4 => s.movCheck p j l index d
    | 5 => s.netCheck p j l list index d
    | _ => synCheck l list index d

/-- The words of a descriptor of a list as memory holds them. -/
def State.descWords (s : State) (j : Job) (a i : Nat) : List Word := toWords 16 (s.lrdBytes j (a + 64 * i) 64)

end Sys2Proof.Machine
end

