-- ==== Sys2Proof/Machine/Admit.lean ====
section
/-! DEFINITION. Admission of micro-batches (R366). -/

namespace Sys2Proof.Machine

/-- What admission takes: (first row, rows) of each sample taken, and (sample, first token not admitted) of each deferred. -/
structure Admission where
  takes : List (Nat × Nat) := []
  defers : List (Nat × Nat) := []
  total : Nat := 0
  closed : Bool := false
  deriving DecidableEq, Repr, Inhabited

/-- One sample under POLICY: 0 SKIP, 1 SPLIT (R366). -/
def Admission.sample (policy maxTok : Nat) (a : Admission) (x : Nat × Nat × Nat) : Admission :=
  let i := x.1
  let start := x.2.1
  let t := x.2.2
  if !a.closed && decide (a.total + t ≤ maxTok) then { a with takes := a.takes ++ [(start, t)], total := a.total + t }
  else if policy = 0 then { a with defers := a.defers ++ [(i, 0)] }
  else if a.closed ∨ a.total = maxTok then { a with defers := a.defers ++ [(i, 0)], closed := true }
  else { takes := a.takes ++ [(start, maxTok - a.total)], defers := a.defers ++ [(i, maxTok - a.total)], total := maxTok
         closed := true }

/-- First row of each sample. -/
def sampleStarts : Nat → List Nat → List Nat
  | _, [] => []
  | n, t :: r => n :: sampleStarts (n + t) r

/-- The bytes that an admission of these rows names, by field: the header and the rows that it reads, the buffer and the record that it
writes (R336, R366). -/
def admitNames (d : List Word) (head : Nat) (src : List Nat) (len : Nat) : List Named × List Named :=
  ([(0x14, 31, span (nA0 d) head ++ src)], [(0x1C, 31, span (nA1 d) (nPa d * nLen d)), (0x30, 31, span (nExt d) len)])

/-- The rows that are admitted come to the input buffer, padded with rows of +0, and the admission record is written; the bytes beyond
the header are held to the region and partition rules like every local address (R198, R224, R336, R366). -/
def State.takeBatch (s : State) (c : CoreId) (e : Issued) (j : Job) (head tokens : Nat) (ad : Admission) : State :=
  let d := e.words
  let row := nLen d
  let rows := nA0 d + (head + 63) / 64 * 64
  let src := ad.takes.flatMap fun t => span (rows + t.1 * row) (t.2 * row)
  let rec_ := leBytes 4 ad.total ++ leBytes 4 ad.takes.length ++ leBytes 4 ad.defers.length ++ leBytes 4 tokens ++
    ad.defers.flatMap fun x => leBytes 4 x.1 ++ leBytes 4 x.2
  let ns := admitNames d head src rec_.length
  match s.moveNames e.part j e.lcore e.index ns with
  | some err => s.failDescriptor c e err
  | none => match s.access j (namedBytes ns.1) (namedBytes ns.2) with
    | (s, some err) => s.failAccess c e err
    | (s, none) =>
      let s := s.meetReads (src.map (j.phys false))
      let data := src.map (s.lrd j) ++ List.replicate ((nPa d - ad.total) * row) 0
      let s := (s.lputBytes j (nA1 d) data).lputBytes j (nExt d) rec_
      let s := s.updJob e.part fun j =>
        { j with cmt := { j.cmt with deferred := satAdd 16 j.cmt.deferred ad.defers.length } }
      s.finish c e

/-- MB_ADMIT (R366). -/
def execMbAdmit (c : CoreId) (slot : Fin 16) (env : MemEnv) (s : State) : Result :=
  match s.startNet c slot.val 0x05 with
  | none => .next s
  | some (e, j) =>
    let d := e.words
    let s := s.takeFor env e.part (netReads d)
    let a := nA0 d
    let maxTok := nPa d
    let policy := dfld d 0x20 19 18
    match s.access j (span a 16) [] with
    | (s, some err) => .next (s.failAccess c e err)
    | (s, none) =>
      let tokens := leNat (s.lrdBytes j a 4)
      let samples := leNat (s.lrdBytes j (a + 4) 4)
      let list := span (a + 16) (4 * samples)
      if samples = 0 ∨ 4096 < samples then .next (s.failDescriptor c e (netInvalid e.lcore e.index 0x14 31))
      else match s.moveNames e.part j e.lcore e.index ([(0x14, 31, list)], []) with
        | some err => .next (s.failDescriptor c e err)
        | none => match s.access j list [] with
          | (s, some err) => .next (s.failAccess c e err)
          | (s, none) =>
            let s := s.meetReads (list.map (j.phys false))
            let ts := (List.range samples).map fun i => leNat (s.lrdBytes j (a + 16 + 4 * i) 4)
            if ts.sum ≠ tokens then .next (s.failDescriptor c e (netInvalid e.lcore e.index 0x14 31))
            else
              let ovf := decide (maxTok < tokens)
              let s := if ovf then s.updJob e.part fun j =>
                  { j with cmt := { j.cmt with oversize := satAdd 16 j.cmt.oversize 1 } } else s
              let big : DErr := ⟨0x7109, [e.lcore, tokens, maxTok, policy]⟩
              if ovf ∧ policy = 2 then .next (s.failDescriptor c e big)
              else
                let s := if ovf ∧ !s.muted e then s.raise (.core c.val) (some e.part) big.code big.words else s
                let ad : Admission := if ovf then
                    ((indexed ((sampleStarts 0 ts).zip ts)).foldl (Admission.sample policy maxTok) {})
                  else { takes := (sampleStarts 0 ts).zip ts, total := tokens }
                .next (s.takeBatch c e j (16 + 4 * samples) tokens ad)

end Sys2Proof.Machine
end

