-- ==== Sys2Proof/Machine/Census.lean ====
section
/-! DEFINITION. The census, the ageing state and the fixed area of the ageing log (R401, R412, R413). -/

namespace Sys2Proof.Machine

/-! ### Blocks in service -/

/-- How many of `n` flags hold. -/
def countIf (n : Nat) (f : Nat → Bool) : Nat := ((List.range n).filter f).length

/-- A mask with bit `i` set where `f i` holds. -/
def maskOf (n : Nat) (f : Nat → Bool) : Nat := (List.range n).foldl (fun a i => a + b2n (f i) * 2 ^ i) 0

/-- Core `i` of the device. -/
def coreId (i : Nat) : CoreId := Fin.ofNat 8 i

/-- Whether core `i` is in service. -/
def State.coreIn (s : State) (i : Nat) : Bool := s.cores[coreId i].inService

/-- Whether core `i` is fenced (CORE_FENCE). -/
def State.fenced (s : State) (i : Nat) : Bool := bitAt (s.reg (coreFence i)) 31

/-- Arrays of a core that are out until reset (R98, R401). -/
def CoreS.arraysOut (k : CoreS) : Nat :=
  maskOf 4 fun a => ((k.arrays[a]?).map fun r => r.halves.toList.any fun h => decide (h.service = .out)).getD false

/-- Only the start minimum passed: one core, one stack, hub 0 and nothing else (R399, R401). -/
def State.minOnly (s : State) : Bool :=
  decide (countIf 8 s.coreIn = 1) && decide (countIf 8 (fun i => s.mc.stacksUp.getLsbD i) = 1) && decide (s.mc.hubsUp = 1) &&
    decide (s.mc.portsUp = 0)

/-! ### Census (R401) -/

/-- The word of a core. -/
def State.censusCore (s : State) (c : CoreId) : Nat :=
  let k := s.cores[c]
  let r := s.mc.rails[c]
  k.spares.getD 3 0 * 2 ^ 24 + (k.spares.getD 1 0 + k.spares.getD 2 0) * 2 ^ 16 + k.spares.getD 0 0 * 2 ^ 8 +
    b2n r.passed * 2 ^ 7 + r.crumbFail % 4 * 2 ^ 4 + k.arraysOut

/-- The word of a stack. -/
def State.censusStack (s : State) (k : Nat) : Nat :=
  b2n (s.mc.stacksUp.getLsbD k) * 2 ^ 16 + Nat.min 255 ((mapGet s.mc.repairsLife k).getD 0) * 2 ^ 8 +
    Nat.min 255 ((mapGet s.mc.repairsNow k).getD 0)

/-- The half-word of a port. -/
def State.censusPort (s : State) (p : Nat) : Nat := b2n (s.mc.portsUp.getLsbD p) * 16 + (mapGet s.mc.lanes p).getD 0 % 16

/-- Whether a start publishes a census and an ageing state: it has reached stage 6 (R373). -/
def State.publishes (s : State) : Bool := decide (6 ≤ s.mc.stage) && decide (s.mc.failStage = 0 ∨ 6 ≤ s.mc.failStage)

/-- The census of 128 bytes; zeros while a start publishes none (R373, R401). -/
def State.census (s : State) : List Byte :=
  if !s.publishes then List.replicate 128 0
  else
    leBytes 4 (b2n s.minOnly * 256 + 1) ++
    leBytes 4 (maskOf 8 (fun i => s.mc.rails[coreId i].retired) * 2 ^ 16 + maskOf 8 s.fenced * 2 ^ 8 + maskOf 8 s.coreIn) ++
    leBytes 4 (s.mc.portsUp.toNat * 2 ^ 24 + s.mc.meshUp.toNat * 2 ^ 16 + s.mc.regsUp.toNat * 2 ^ 12 + s.mc.hubsUp.toNat * 2 ^ 8 +
      s.mc.stacksUp.toNat) ++
    leBytes 4 (s.mc.usbMax % 16) ++
    allCores.flatMap (fun c => leBytes 4 (s.censusCore c)) ++
    (List.range 8).flatMap (fun k => leBytes 4 (s.censusStack k)) ++
    (List.range 8).flatMap (fun p => leBytes 2 (s.censusPort p)) ++
    leBytes 4 s.mc.proofMs ++ leBytes 4 (s.mc.firstFail % 65536) ++ List.replicate 24 0

/-! ### Ageing state (R412) -/

/-- An hour in nanoseconds. -/
def hourNs : Nat := 3600000000000

/-- STATE of a core in the ageing state. -/
def State.ageState (s : State) (c : CoreId) : Nat :=
  if s.mc.rails[c].retired then 2 else if s.fenced c.val then (if s.mc.rails[c].byProof then 3 else 1) else 0

/-- The word of a core. -/
def State.ageCore (s : State) (c : CoreId) : Nat :=
  let r := s.mc.rails[c]
  Nat.min 255 (r.floor - r.commission.getD r.floor) * 2 ^ 24 + r.codes.foldl (· + ·) 0 / 8 % 256 * 2 ^ 16 + r.worst % 256 * 2 ^ 8 +
    s.ageState c

/-- Rows of stack `k` in the repair list. -/
def State.repairPending (s : State) (k : Nat) : Nat := (s.mc.repairs.filter fun r => decide (r.1 = k)).length

/-- The ageing state of 64 bytes. -/
def State.ageing (s : State) : List Byte :=
  leBytes 4 (s.mc.poweredNs / hourNs) ++ leBytes 4 (s.mc.hotNs / hourNs) ++
  leBytes 4 (Nat.min 65535 s.mc.trips * 2 ^ 16 + Nat.min 255 s.mc.tjPeak) ++ leBytes 4 (s.mc.fenceCount % 65536 * 2 ^ 16) ++
  allCores.flatMap (fun c => leBytes 4 (s.ageCore c)) ++
  (List.range 8).flatMap fun k =>
    leBytes 2 (Nat.min 255 ((mapGet s.mc.repairsLife k).getD 0) * 256 + Nat.min 255 (s.repairPending k))

/-! ### The fixed area of the ageing log (R413) -/

/-- Bytes padded with zeros to `n`. -/
def padTo (n : Nat) (b : List Byte) : List Byte := slice b 0 n

/-- MAGIC of the fixed area. -/
def ageMagic : Nat := 0x41473834

/-- A fence entry: powered hour and cause code. -/
def fenceEntry (f : Nat × Nat) : List Byte := leBytes 4 f.1 ++ leBytes 4 (f.2 % 65536)

/-- An entry of the HBM4E repair list: stack, pseudo-channel, bank, row. -/
def repairEntry (r : Nat × Nat × Nat × Nat) : List Byte := leBytes 1 r.1 ++ leBytes 1 r.2.1 ++ leBytes 2 r.2.2.1 ++ leBytes 4 r.2.2.2

/-- An entry of the knead remap list: core, memory, spare, region. -/
def remapEntry (r : Nat × Nat × Nat × Nat) : List Byte := leBytes 1 r.1 ++ leBytes 1 r.2.1 ++ leBytes 2 r.2.2.1 ++ leBytes 4 r.2.2.2

/-- Bytes 0x0000 to 0xFFBF of the fixed area with sequence number `q`. -/
def State.fixedBody (s : State) (q : Nat) : List Byte :=
  let head := padTo 0x10 (leBytes 4 ageMagic ++ leBytes 4 q ++ leBytes 4 (maskOf 8 fun i => s.mc.rails[coreId i].retired))
  let floors := allCores.flatMap fun c => leBytes 2 (s.mc.rails[c].commission.getD 0)
  let fences := allCores.flatMap fun c => padTo 32 ((s.mc.rails[c].fences.take 4).flatMap fenceEntry)
  let a := padTo 0x40 (head ++ floors) ++ s.ageing ++ fences
  let repairs := leBytes 8 s.mc.repairs.length ++ (s.mc.repairs.take 512).flatMap repairEntry
  let remaps := leBytes 8 s.mc.remapLog.length ++ (s.mc.remapLog.take 656).flatMap remapEntry
  padTo 0xFFC0 (padTo 0x2000 (padTo 0x200 a ++ repairs) ++ remaps)

/-- Entry `i` of four numbers at an offset of the fixed area. -/
def readQuad (b : List Byte) (o i : Nat) : Nat × Nat × Nat × Nat :=
  (rdLE b (o + 8 * i) 1, rdLE b (o + 8 * i + 1) 1, rdLE b (o + 8 * i + 2) 2, rdLE b (o + 8 * i + 4) 4)

/-- The fence entries of core `c` in the fixed area; an entry without a cause is empty. -/
def readFences (b : List Byte) (c : Nat) : List (Nat × Nat) :=
  ((List.range 4).map fun i => (rdLE b (0x80 + 32 * c + 8 * i) 4, rdLE b (0x84 + 32 * c + 8 * i) 2)).filter fun f => f.2 ≠ 0

/-- What the fixed area says of a core. -/
def CoreRail.restore (r : CoreRail) (b : List Byte) (c : Nat) : CoreRail :=
  let k := rdLE b (0x10 + 2 * c) 2
  { r with retired := (rdLE b 8 4).testBit c, fences := readFences b c, commission := if k = 0 then none else some k }

/-- The MC takes what the fixed area of the ageing log says: what lies above the whole hours was not written. -/
def State.restoreFixed (s : State) (b : List Byte) : State :=
  { s with mc := { s.mc with
      poweredNs := rdLE b 0x40 4 * hourNs, hotNs := rdLE b 0x44 4 * hourNs, trips := rdLE b 0x4A 2, tjPeak := rdLE b 0x48 1
      fenceCount := rdLE b 0x4E 2
      repairsLife := (List.range 8).map fun k => (k, rdLE b (0x71 + 2 * k) 1)
      repairs := (List.range (rdLE b 0x200 4)).map (readQuad b 0x208)
      remapLog := (List.range (rdLE b 0x2000 4)).map (readQuad b 0x2008)
      rails := Vector.ofFn fun c => s.mc.rails[c].restore b c.val } }

end Sys2Proof.Machine
end

