-- ==== Sys2Proof/Machine/Streams.lean ====
section
/-! DEFINITION. Streams: issue, completion, SYN descriptors, lists and restarts (R83, R86, R88, R206-R222, R345, R346). -/

namespace Sys2Proof.Machine

/-! ### Sections of units (R346) -/

/-- The unit whose section holds descriptor `i` of an update list: the latest UNIT_BEGIN before it that reaches it. -/
def ListRec.sectionOf (r : ListRec) (i : Nat) : Option Nat :=
  (List.range i).reverse.findSome? fun q =>
    let d := r.desc q
    if hClass d = 5 ∧ nOp d = 9 ∧ i ≤ q + nPa d then some (nId d) else none

/-- How far a section moves an address: by the slot of its unit, within slot 0 of either region (R346). -/
def UnitMap.shift (u : UnitMap) (slot a : Nat) : Nat :=
  if u.state.a ≤ a ∧ a < u.state.a + u.stateBytes then a + slot * u.stateBytes
  else if u.pub.a ≤ a ∧ a < u.pub.a + u.pubBytes then a + slot * u.pubBytes
  else a

/-- A word pair of a descriptor that holds a 48-bit address, moved (R101, R346). -/
def moveAddr (f : Nat → Nat) (d : List Word) (lo hi : Nat) : List Word :=
  let a := f (daddr d lo hi)
  (d.set (lo / 4) (BitVec.ofNat 32 a)).set (hi / 4) (putFld (wordAt d (hi / 4)) 15 0 (a / 2 ^ 32))

/-- The offsets of the address fields that a VEC or MOV descriptor's operation uses; a word that it leaves unused names nothing. -/
def addressFields (d : List Word) : List Nat :=
  match hClass d with
  | 2 => (((vecD d).bases (vecP [])).map Prod.fst).filter (fun o => decide (o ≠ 0x38)) ++ [0x38]
  | 4 => match (movD d).op with
    | 0 => [0x14, 0x1C]
    | 1 => [0x14, 0x1C, 0x30]
    | 2 => [0x1C]
    | _ => []
  | _ => []

/-- A VEC or MOV descriptor of a section, relocated (R346). -/
def relocate (f : Nat → Nat) (d : List Word) : List Word :=
  (addressFields d).foldl (fun d o => moveAddr f d o (o + 4)) d

/-- A parameter block that the VEC operation `op` of a section reads, relocated (R138, R346): only updates take addresses from it. -/
def relocateParam (f : Nat → Nat) (op : Nat) (b : List Byte) : List Byte :=
  (if op = 0x50 then [0x30, 0x38, 0x40] else if op = 0x51 then [0x38] else []).foldl (fun b o => b.take o ++ leBytes 6 (f (rdLE b o 6)) ++ b.drop (o + 6)) b

/-- The slot of the unit whose section holds a descriptor, with the map of the job. -/
def Job.relocation (j : Job) (r : ListRec) (i : Nat) : Option (UnitMap × Nat) :=
  match r.sectionOf i, j.unitMap, j.cluster with
  | some k, some u, some c => (c.slotOf k).map fun slot => (u, slot)
  | _, _, _ => none

/-! ### Queues (R83, R86, R88, R211) -/

/-- The unit of a list with the shortest queue, the first on a tie (R86, R88). -/
def State.shortest (s : State) (c : CoreId) : List MatUnit → Option MatUnit
  | [] => none
  | u :: r => match s.shortest c r with
    | none => some u
    | some v => if s.queued c (.mat v) < s.queued c (.mat u) then some v else some u

/-- The unit on which a MAT descriptor is placed when it issues (R86-R88). A gang is named by its first array. -/
def State.placeMat (s : State) (c : CoreId) (m : MatD) : MatUnit :=
  let k := s.cores[c]
  if k.ganged then ⟨0, 0⟩
  else
    let whole := wholeUnits.filter k.serviceable
    let halves := halfUnits.filter k.serviceable
    if m.any then
      let (own, other) := if m.half = 0 then (whole, halves) else (halves, whole)
      (s.shortest c own).getD (other.headD ⟨0, 0⟩)
    else
      let named : MatUnit := ⟨Fin.ofNat 4 m.array, Fin.ofNat 3 m.half⟩
      if k.serviceable named then named
      else
        let (own, other) := if m.half = 0 then (whole, halves) else (halves, whole)
        (own ++ other).headD named

/-- The queue that a descriptor enters when it issues (R210, R211). -/
def State.queueOf (s : State) (c : CoreId) (d : List Word) : QueueId :=
  match hClass d with
  | 1 => .mat (s.placeMat c (matD d))
  | 2 => .vec
  | 3 => .row
  | 4 => .mov
  | 5 => if nOp d = 8 ∨ nOp d = 9 then .syn else .net
  | _ => .syn

/-- Depth of an engine queue (R211). -/
def queueDepth : QueueId → Nat
  | .mov | .net => 32
  | _ => 16

/-- The two report registers of a stream take the report of a MAT (R104, R105). -/
def State.matReport (s : State) (c : CoreId) (x : CtxId) (u : MatUnit) (count : Nat) (failed retried : Bool) : State :=
  (s.setReg (coreMatRptWt c.val x.val) (BitVec.ofNat 32 (satAdd 32 0 count))).setReg (coreMatRptInfo c.val x.val)
    (BitVec.ofNat 32 (512 * b2n failed + 256 * b2n retried + 16 * u.half.val + u.array.val))

/-! ### Issue (R210, R218, R221, R222) -/

/-- Whether a core issues at all: it runs, neither a thermal halt nor a supply halt holds, and it is not quiesced (R26, R407,
R416). -/
def State.mayIssue (s : State) (c : CoreId) : Bool :=
  s.coreUp c && decide (s.mc.therm ≠ .halted ∧ s.mc.therm ≠ .tripped) && !s.mc.vinHalt && s.mc.rails[c].quiesce.isNone

/-- NET_PEER_ABSENT: the peer, or the owner of a unit, is not in the roster (R338). -/
def Job.peerErr (j : Job) (l : Nat) (d : List Word) : Option DErr :=
  match j.cluster with
  | none => none
  | some c =>
    let miss (e : Nat) : Option DErr := if inMask c.roster e then none else some ⟨0x710A, [l, e]⟩
    match nOp d with
    | 2 => miss (ownerOf c.roster (nId d))
    | 3 | 4 => miss (nPeer d)
    | _ => none

/-- Whether RECV m of a channel may issue: RECV m - QDEPTH has completed (R364). -/
def Job.recvReady (j : Job) (d : List Word) : Bool :=
  match j.cluster with
  | none => true
  | some c => decide (nOp d ≠ 4) || decide (nPa d < nQd d) || c.recvDone.contains (pipeKey (nPeer d) (nVc d), nPa d - nQd d)

/-- The words that descriptor `i` of a list has when it is fetched. A list changed under a running job gives an undefined
descriptor: each of its words is a free value (R218). -/
def State.fetchDesc (s : State) (j : Job) (r : ListRec) (i : Nat) : List Word × State :=
  let w := s.descWords j r.addr i
  if w = r.desc i then (w, s)
  else ((List.range 16).map (fun k => BitVec.ofNat 32 (Config.free (s.freeCtr + k))), { s with freeCtr := s.freeCtr + 16 })

/-- An entry for a descriptor that issues, or fails as it does. -/
def mkIssued (seq : Nat) (x : CtxId) (p : PartId) (l list index : Nat) (d : List Word) (q : QueueId) (pb : List Byte) : Issued :=
  { seq := seq, ctx := x, part := p, lcore := l, list := list, index := index, words := d, queue := q, param := pb }

/-- A stream whose list was changed so that its last descriptor is not that list's ending faults after issuing it (R218). -/
def State.endFault (s : State) (c : CoreId) (x : CtxId) (p : PartId) (j : Job) (l : Nat) (r : ListRec) (d : List Word) (i : Nat) : State :=
  if i + 1 = r.count ∧ !endsAs (j.endingOf r) d then
    s.failDescriptor c (mkIssued s.cores[c].nextSeq x p l r.list i d .syn []) (synErr l r.list i 0x10 31)
  else s

/-- What a gradient operation works on: its tile, the half that serves its logical core, the slot of the tile. -/
def State.gradTarget (s : State) (j : Job) (e : Issued) (tile : Nat) : Option (TileRec × Serve × Nat × GbSlot) :=
  match j.tileOf e.lcore tile, j.serve e.lcore with
  | some t, some v => match (s.lctx v).slotAt t.off with
    | some k => some (t, v, k, (s.lctx v).slots.getD k {})
    | none => none
  | _, _ => none

/-- A slot of a half changed through `f`. -/
def State.updGbSlot (s : State) (v : Serve) (k : Nat) (f : GbSlot → GbSlot) : State := s.updLCtx v fun h => h.updSlot k f

/-- A SPILL that issues turns its slot SPILLING, if the slot is LIVE with its tile (R148). -/
def State.spillIssues (s : State) (j : Job) (e : Issued) : State :=
  let m := movD e.words
  if hClass e.words = 4 ∧ m.op = 0xA then
    match s.gradTarget j e m.tile with
    | some (t, v, k, g) =>
      if !t.resident ∧ g.state = .live ∧ g.tile = m.tile then
        s.updGbSlot v k fun g => { g with state := .spilling, spiller := e.seq }
      else s
    | none => s
  else s

/-- A descriptor issues into its queue and the stream moves on (R210). -/
def State.issueInto (s : State) (c : CoreId) (x : CtxId) (e : Issued) : State :=
  let wait := decide (e.queue = .syn) && decide (hClass e.words = 6) && decide (0x10 ≤ sOp e.words)
  (s.updCore c fun k => { k with issued := k.issued ++ [e], nextSeq := k.nextSeq + 1 }).updStream c x fun t =>
    { t with state := if wait then .waitFence else .issuing, index := t.index + 1, issued := BitVec.ofNat 32 (satAdd 32 t.issued.toNat 1)
             stalledHere := false, longRaised := false }

/-- The next descriptor of a stream, fetched, with its waits satisfied, is checked and issued, or fails at issue, or waits for
room in its queue (R206, R210, R211, R222); a RECV that issues posts itself (R364). -/
def State.tryIssue (s : State) (c : CoreId) (x : CtxId) (p : PartId) (j : Job) (l : Nat) (r : ListRec) (i : Nat) (d : List Word) :
    State :=
  let mv := j.relocation r i
  let f : Nat → Nat := match mv with | some (u, slot) => u.shift slot | none => id
  let d := relocate f d
  let q := s.queueOf c d
  let pa := paramAddrs d
  let fail := fun (s : State) (err : DErr) =>
    let s := match q with | .mat u => s.matReport c x u 0 true false | _ => s
    s.failDescriptor c (mkIssued s.cores[c].nextSeq x p l r.list i d q []) err
  if decide (q ≠ .syn) && decide (queueDepth q ≤ s.queued c q) then
    let t := s.stream c x
    s.updStream c x fun t' => { t' with
      state := .waitQueue, stalledHere := true, qstall := if t.stalledHere then t'.qstall else BitVec.ofNat 32 (satAdd 32 t'.qstall.toNat 1) }
  else if !(decide (hClass d ≠ 5) || j.recvReady d) then s.updStream c x fun t => { t with state := .waitQueue }
  else match headerError j.lcores d with
  | some e => fail s ⟨0x4501, [l, r.list, i, Config.fieldWord 0x4501 e.1 e.2]⟩
  | none => match (if hClass d = 5 then j.peerErr l d else none) with
    | some err => fail s err
    | none => match s.paramErr p j l i d with
      | some err => fail s err
      | none => match s.access j (paramReads l d) [] with
        | (s, some err) => s.failAccess c (mkIssued s.cores[c].nextSeq x p l r.list i d q []) err
        | (s, none) =>
          let s := s.meetReads ((paramReads l d).map (j.phys false))
          let pb := pa.map (s.lrd j)
          let pb := if hClass d = 2 then relocateParam f (vecD d).op pb else pb
          match (s.descCheck p j l r.list i d pb).orElse fun _ => if hClass d = 3 then rowGbErr i d pb else none with
          | some err => fail s err
          | none =>
            let e := { mkIssued s.cores[c].nextSeq x p l r.list i d q pb with stamp := (j.commitUnder, j.step.attempt) }
            let e := if hClass d = 5 ∧ nOp d = 4 then { e with prog := [s.mc.time] } else e
            let s := (s.issueInto c x e).spillIssues j e
            let s := if hClass d = 5 ∧ nOp d = 4 then s.sendNet p (nPeer d) (nVc d) 6 0 (nPa d) (nLen d) 0 (nA1 d) [] else s
            s.endFault c x p j l r d i

/-- The list that a stream runs, once the stream may issue from it: it is at work with none of its SYN descriptors executing, neither its
core nor its job is stopped, and the list has a descriptor left (R210, R216, R220). -/
def State.turn (s : State) (c : CoreId) (x : CtxId) : Option (PartId × Job × Nat × ListRec) :=
  let k := s.cores[c]
  let h := k.half (ctxGuest x)
  let t := s.stream c x
  match k.part, h.lcore with
  | some p, some l => (s.job p).bind fun j =>
    let active := decide (t.state = .issuing ∨ t.state = .waitCounter ∨ t.state = .waitQueue)
    let busy := k.issued.any fun e => decide (e.ctx = x ∧ e.queue = .syn)
    if !active || busy || !s.mayIssue c || decide (j.stop ≠ .none) || j.paused then none
    else (j.listOf l (if t.update then 4 else (ctxStream x).val)).bind fun r =>
      if r.count ≤ t.index then none else some (p, j, l, r)
  | _, _ => none

/-- Whether a stream is ready: its next descriptor's waits are satisfied and its queue has room (R208, R210, R211, R229). -/
def State.ready (s : State) (c : CoreId) (x : CtxId) : Bool :=
  match s.turn c x with
  | none => false
  | some (_, j, l, r) =>
    let d := r.desc (s.stream c x).index
    let q := s.queueOf c d
    (unmet (s.cores[c].half (ctxGuest x)) d).isNone && !(decide (q ≠ .syn) && decide (queueDepth q ≤ s.queued c q)) &&
      (decide (hClass d ≠ 5) || j.recvReady d) && decide (l < j.lcores)

/-- Whether a ready stream lets another go first: on a core that hosts a guest, the ready streams of the lower logical core go first
(R229). -/
def State.yields (s : State) (c : CoreId) (x : CtxId) : Bool :=
  let k := s.cores[c]
  match (k.half (ctxGuest x)).lcore, (k.half (!ctxGuest x)).lcore with
  | some l, some m => decide (m < l) && (List.finRange 8).any fun y => (ctxGuest y != ctxGuest x) && s.ready c y
  | _, _ => false

/-- DESCRIPTOR_ISSUE (R208, R210, R229): the stream's next descriptor is fetched and issues when its waits are satisfied, its queue has
room, no SYN descriptor of the stream still executes and no stream of a lower logical core on the same core is ready; otherwise the
stream shows what it waits for. -/
def execDescriptorIssue (c : CoreId) (x : CtxId) (s : State) : Result :=
  match s.turn c x with
  | none => .next s
  | some (p, j, l, r) =>
    let i := (s.stream c x).index
    let as := span (r.addr + 64 * i) 64
    match s.access j as [] with
    | (s, some err) => .next (s.failAccess c (mkIssued s.cores[c].nextSeq x p l r.list i (r.desc i) .syn []) err)
    | (s, none) =>
      let (d, s) := (s.meetReads (as.map (j.phys false))).fetchDesc j r i
      match unmet (s.cores[c].half (ctxGuest x)) d with
      | some (w, n, tgt) => .next (s.updStream c x fun t => { t with
          state := .waitCounter, waitWhich := w, waitCnt := BitVec.ofNat 8 n, waitTgt := tgt })
      | none => .next (if s.yields c x then s else s.tryIssue c x p j l r i d)

/-- STREAM_WAIT_LONG (R221): raised once for a descriptor at which the stream waits for a counter. -/
def execStreamWaitLong (c : CoreId) (x : CtxId) (s : State) : Result :=
  let h := s.cores[c].half (ctxGuest x)
  let t := s.stream c x
  match s.cores[c].part, h.lcore with
  | some p, some l =>
    if t.state = .waitCounter ∧ !t.longRaised then
      let s := s.raise (.core c.val) (some p) 0x4504 [l, (ctxStream x).val, t.waitCnt.toNat, (h.counter t.waitCnt.toNat).toNat,
        t.waitTgt.toNat]
      .next (s.updStream c x fun t => { t with longRaised := true })
    else .next s
  | _, _ => .next s

/-- COUNTER_SIGNAL_REMOTE (R209): the `k`-th signal under way arrives and adds SIG_INC. -/
def execCounterSignalRemote (p : PartId) (k : Nat) (s : State) : Result :=
  match s.parts[p].flying[k]? with
  | none => .next s
  | some (l, n, inc) => .next ((s.updPart p fun q => { q with flying := q.flying.eraseIdx k }).signal p l n inc)

/-- A descriptor that has finished performs its signals and leaves its core, one of class NET counted (R209, R212, R367). -/
def State.complete (s : State) (c : CoreId) (e : Issued) : State :=
  let s := s.perform e
  let s := if e.cls = 5 then s.count (coreNetDone c.val) 1 else s
  s.dropIssued c e.seq

/-- DESCRIPTOR_COMPLETE (R212): the descriptor at place `k` of the core's issued ones completes if its class's work is done. -/
def execDescriptorComplete (c : CoreId) (k : Nat) (s : State) : Result :=
  match s.cores[c].issued[k]? with
  | none => .next s
  | some e => if e.phase = .finished then .next ((s.complete c e).settle e.part) else .next s

/-! ### SYN descriptors (R216) -/

/-- The SYN descriptor of operation `op`, or NET descriptor handled at issue, that a stream executes. -/
def State.synEntry (s : State) (c : CoreId) (x : CtxId) (f : List Word → Bool) : Option Issued :=
  s.cores[c].issued.find? fun e => decide (e.ctx = x ∧ e.queue = .syn) && f e.words

/-- SYN of an operation code. -/
def synIs (op : Nat) (d : List Word) : Bool := decide (hClass d = 6 ∧ sOp d = op)

/-- Every earlier descriptor of the stream has completed. -/
def State.streamClear (s : State) (c : CoreId) (e : Issued) : Bool :=
  s.cores[c].issued.all fun x => !decide (x.ctx = e.ctx ∧ x.seq < e.seq)

/-- Every descriptor issued before by any stream of the logical core has completed. -/
def State.coreClear (s : State) (c : CoreId) (e : Issued) : Bool :=
  s.cores[c].issued.all fun x => !decide (x.part = e.part ∧ x.lcore = e.lcore ∧ x.seq < e.seq)

/-- A SYN descriptor completes and its stream goes on. -/
def State.synDone (s : State) (c : CoreId) (e : Issued) : State :=
  let s := s.complete c e
  let s := s.updStream c e.ctx fun t => if t.state = .waitFence ∨ t.state = .issuing then { t with state := .issuing } else t
  s.settle e.part

/-- An action of a SYN descriptor on the counters of its logical core; after a stop it still takes place, as the work of every issued
descriptor does (R207, R216, R220). -/
def State.synAct (s : State) (e : Issued) (f : LCtx → LCtx) : State :=
  match (s.job e.part).bind fun j => j.serve e.lcore with
  | some v => s.updLCtx v f
  | none => s

/-- SYN NOP (R216). -/
def execSynNop (c : CoreId) (x : CtxId) (s : State) : Result :=
  match s.synEntry c x (synIs 0x00) with
  | none => .next s
  | some e => .next (s.synDone c e)

/-- SYN SET (R207, R216). -/
def execSynSet (c : CoreId) (x : CtxId) (s : State) : Result :=
  match s.synEntry c x (synIs 0x01) with
  | none => .next s
  | some e => .next ((s.synAct e fun l => l.setCounter (sCnt e.words) (wordAt e.words 5)).synDone c e)

/-- SYN ADD (R207, R216). -/
def execSynAdd (c : CoreId) (x : CtxId) (s : State) : Result :=
  match s.synEntry c x (synIs 0x02) with
  | none => .next s
  | some e => .next ((s.synAct e fun l => l.addCounter (sCnt e.words) (wordAt e.words 5)).synDone c e)

/-- SYN FENCE_STREAM (R216). -/
def execFenceStream (c : CoreId) (x : CtxId) (s : State) : Result :=
  match s.synEntry c x (synIs 0x10) with
  | none => .next s
  | some e => if s.streamClear c e then .next (s.synDone c e) else .next s

/-- SYN FENCE_CORE (R216). -/
def execFenceCore (c : CoreId) (x : CtxId) (s : State) : Result :=
  match s.synEntry c x (synIs 0x11) with
  | none => .next s
  | some e => if s.coreClear c e then .next (s.synDone c e) else .next s

/-- An ending completes and parks its stream, unless a stop holds it (R216, R219). -/
def State.park (s : State) (c : CoreId) (e : Issued) : State :=
  (s.complete c e).updStream c e.ctx fun t => if t.state = .stopping ∨ t.state = .faulted then t else { t with state := .parked }

/-- Whether every stream of every logical core of a job has parked (R219). -/
def State.allParked (s : State) (j : Job) : Bool :=
  (List.range j.lcores).all fun l => match j.serve l with
    | none => false
    | some v => (s.lctx v).streams.toList.all fun t => decide (t.state = .parked)

/-- SYN STEP_END (R216, R219). -/
def execStepEnd (c : CoreId) (x : CtxId) (s : State) : Result :=
  match s.synEntry c x (synIs 0x20) with
  | none => .next s
  | some e => if s.streamClear c e then .next ((s.park c e).settle e.part) else .next s

/-- What follows when every stream has parked at END: the end of a RUN, the next iteration of a LOOP, READY or COMMIT of a TRAIN
job whose update lists are complete (R219, R351). -/
def State.allEnded (s : State) (p : PartId) : State :=
  match s.job p with
  | none => s
  | some j =>
    if !s.allParked j || decide (j.stop ≠ .none) then s
    else match j.kind with
      | .run => s.finishJob p
      | .loop => if (s.handleOf j.handle).any fun x => x.suspendPending then s.suspendJob p else s.startStreams p
      | .train => if j.step.updating then (s.stepDone p).fenceDue else s

/-- SYN END (R216, R219). -/
def execEndRun (c : CoreId) (x : CtxId) (s : State) : Result :=
  match s.synEntry c x (synIs 0x21) with
  | none => .next s
  | some e => if s.streamClear c e then .next (((s.park c e).settle e.part).allEnded e.part) else .next s

/-- NET UNIT_MAP (R345): it does nothing at issue. -/
def execUnitMap (c : CoreId) (x : CtxId) (s : State) : Result :=
  match s.synEntry c x fun d => decide (hClass d = 5 ∧ nOp d = 8) with
  | none => .next s
  | some e => .next (s.synDone c e)

/-- NET UNIT_BEGIN (R346): the section of a unit that the member holds runs; otherwise the stream skips it. -/
def execUnitBegin (c : CoreId) (x : CtxId) (s : State) : Result :=
  match s.synEntry c x fun d => decide (hClass d = 5 ∧ nOp d = 9) with
  | none => .next s
  | some e =>
    let held := (s.cluster e.part).any fun k => (k.slotOf (nId e.words)).isSome
    let s := if held then s else s.updStream c x fun t => { t with index := t.index + nPa e.words }
    .next (s.synDone c e)

/-- STREAMS_RESTART (R219): once no descriptor is left, the counters clear and the streams start at index 0. -/
def execStreamsRestart (p : PartId) (s : State) : Result :=
  match s.job p with
  | some j => if j.cmt.restart && s.mayRestart p then .next (s.startStreams p) else .next s
  | none => .next s

end Sys2Proof.Machine
end

