-- ==== Sys2Proof/Machine/Tables.lean ====
section
/-! DEFINITION. Function tables in side memory, preloads, gradient slots of a logical core: what a load and a remap restore
(R130-R136, R142, R145, R228). -/

namespace Sys2Proof.Machine

/-- Bytes of a table image (R132). -/
def imageBytes : Nat := 0x2040

/-- Address of pair slot `n` of logical core `l` (R130). -/
def tablePlace (l n : Nat) : Nat := sideBase l + n * 0x2000

/-- Bytes of segment `i` of a pair, value or derivative (R133). -/
def segAddrs (l n : Nat) (d : Bool) (i : Nat) : List Nat := span (tablePlace l n + (if d then 0x1000 else 0) + 16 * i) 16

/-- A loaded pair as the engines evaluate it: its header entry and the coefficients that side memory holds (R133, R134). -/
def State.tableAt (s : State) (j : Job) (l n : Nat) : Option Tab :=
  match (j.serve l).bind fun v => mapGet (s.lctx v).tables n with
  | none => none
  | some h => some ⟨tabHdr h, fun d i =>
      let bs := (segAddrs l n d i).map (s.lrd j)
      (List.range 4).map fun k => rdLE bs (4 * k) 4⟩

/-- The segment of a table whose coefficients an evaluation at `x` takes, none where it takes a mode's own value (R134). -/
def Tab.segOf (t : Tab) (above below : Nat) (x : XNum) : Option Nat :=
  let edge (mode seg : Nat) : Option Nat := if mode = 0 then some seg else none
  match x with
  | .nan => none
  | .inf n => if n then edge below 0 else edge above 255
  | .fin _ _ _ => match f32 (toF32 (numAdd x (numNeg (f32 t.hdr.lo)))) with
    | .inf n => if n then edge below 0 else edge above 255
    | dd =>
      let q := (dd.scale (-t.hdr.w)).floor
      if q < 0 then edge below 0 else if 256 ≤ q then edge above 255 else some q.toNat

/-- The segment that a pair takes at `x`, by value or derivative (R134). -/
def Tab.uses (t : Tab) (d : Bool) (x : XNum) : Option Nat :=
  if t.hdr.rr then
    match x with
    | .fin _ _ _ => if x.floor < -149 ∨ 127 < x.floor then none else t.segOf 0 0 x.frac
    | _ => none
  else if d then t.segOf t.hdr.dAbove t.hdr.dBelow x else t.segOf t.hdr.vAbove t.hdr.vBelow x

/-- A table image fills a pair slot: coefficients into side memory, its header entry, its valid bit and FUNC_ID (R133, R140).
What the header store holds is written whole, so an error of the entry before is gone. -/
def State.fillTable (s : State) (j : Job) (l n : Nat) (img : List Byte) : State :=
  match j.serve l with
  | none => s
  | some v =>
    let s := s.put ((indexed (slice img 0x40 0x2000)).map fun e =>
      (translate j.serves j.guests (tablePlace l n + e.1), e.2))
    let s := if v.guest then s else s.updCore v.core fun k => { k with
      headWeak := k.headWeak.filter (· ≠ n), headBad := k.headBad.filter (· ≠ n) }
    s.updLCtx v fun c => { c with tables := mapSet c.tables n (slice img 0 64) }

/-- An evaluation of slot `n` by a core for the logical core it serves first reads the header entry: a corrected error is counted under
unit 16 of side memory (R133, R189). -/
def State.meetHead (s : State) (c : CoreId) (guest : Bool) (n : Nat) : State :=
  if !guest && s.cores[c].headWeak.contains n then s.correctedAt 2 c.val 16 0 else s

/-- Whether the header entry of slot `n` has an uncorrectable error (R133, R190). -/
def State.headFails (s : State) (c : CoreId) (guest : Bool) (n : Nat) : Bool := !guest && s.cores[c].headBad.contains n

/-- A descriptor's read finds an uncorrectable error of the header store, which has no device address: those that the event and
CORE_MEM_UE_ADDR give are free values (R133, R190). -/
def State.failHead (s : State) (c : CoreId) (e : Issued) : State :=
  let (a, s) := s.fresh
  let w := Config.free a % 2 ^ 48
  let s := s.raise (.core c.val) (some e.part) 0x5011 ([2, c.val] ++ two w)
  let s := { s with mc := { s.mc with
    ueLog := (s.mc.ueLog.filter fun (x : Nat × Nat × Nat) => decide (s.mc.time < x.2.2 + dayNs)) ++ [(c.val, w, s.mc.time)] } }
  let s := (s.setFld (coreMemUe c.val) 31 30 2).countFld (coreMemUe c.val) 15 0 1
  let s := (s.setReg (coreMemUeAddrLo c.val) (BitVec.ofNat 32 w)).setReg (coreMemUeAddrHi c.val) (BitVec.ofNat 32 (w / 2 ^ 32))
  (s.failQuiet c e 0x5011 none).fenceByErrors (sideBase c.val)

/-- Function of the firmware standard set (R136). -/
def standardFunc (f : Nat) : Bool := decide (1 ≤ f) && decide (f ≤ 6)

/-- LO, W, modes (value below and above, derivative below and above) and EXP2_RR of a function of the standard set (R132, R136). -/
def standardDomain : Nat → Nat × Int × (Nat × Nat × Nat × Nat) × Bool
  | 1 => (0xC1000000, -4, (2, 1, 2, 3), false)
  | 2 => (0xC1800000, -3, (2, 1, 2, 3), false)
  | 3 => (0xC1000000, -4, (0, 0, 2, 2), false)
  | 4 => (0xC1800000, -3, (2, 3, 2, 2), false)
  | 5 => (0, -8, (0, 0, 0, 0), true)
  | _ => (0xC1800000, -3, (2, 1, 2, 3), false)

/-- The image of a function of the standard set: its header is the table's of R136, its coefficients are the firmware's. -/
def standardImage (f : Nat) : List Byte :=
  let (lo, w, (vb, va, db, da), rr) := standardDomain f
  leBytes 4 f ++ leBytes 4 lo ++
    leBytes 4 (toTwos 8 w + 0x100 * vb + 0x400 * va + 0x1000 * db + 0x4000 * da + 0x10000 * b2n rr) ++ leBytes 52 0 ++
    (List.range 0x2000).map (Config.standardTable f)

/-- What a table load finds: the image, or the FUNC_ID of one that fails its checks (R135). -/
def tableImage (fw : Bool) (func : Nat) (img : List Byte) : Except Nat (List Byte) :=
  if fw then (if standardFunc func then .ok (standardImage func) else .error func)
  else if tabHdrOk img then .ok img else .error (rdLE img 0 4)

/-- Whether an address lies in the memories of logical core `l`. -/
def inLcore (l a : Nat) : Bool := match regionOf a with | .crumb c | .wm c | .gb c | .side c => decide (c.val = l) | _ => false

/-- The preload records whose destination lies in a logical core's memories are copied; none where a source read finds an
uncorrectable error, with its address (R228). -/
def State.copyPreloads (s : State) (j : Job) (sel : Preload → Bool) : State × Option Nat :=
  (j.preloads.filter sel).foldl (fun (acc : State × Option Nat) r =>
    match acc.2 with
    | some _ => acc
    | none =>
      let s := (acc.1.touchAll [j.phys true r.dst]).touchAll ((span r.src r.len).map (j.phys false))
      match s.lbad j (span r.src r.len) with
      | some a => (s, some a)
      | none =>
        let s := s.meetReads ((span r.src r.len).map (j.phys false))
        (s.lputBytes j r.dst (s.lrdBytes j r.src r.len), none)) (s, none)

/-- The halves that serve a job hold no table: those of a load that is refused are not valid (R140). -/
def State.dropTables (s : State) (j : Job) : State :=
  (j.serves.filterMap id).foldl (fun s v => s.updLCtx v fun c => { c with tables := [] }) s

/-- The tables that a job names are loaded into the slots of the logical cores selected, up to the first that fails: its logical core,
slot and FUNC_ID where the image is not sound, the physical address where it cannot be read (R135, R190, R228). -/
def State.loadTables (s : State) (j : Job) (sel : TabRec → Bool) : State × Option ((Nat × Nat × Nat) ⊕ Nat) :=
  (j.tabs.filter sel).foldl (fun (acc : State × Option ((Nat × Nat × Nat) ⊕ Nat)) r =>
    match acc.2 with
    | some _ => acc
    | none =>
      let as := if r.fw then [] else span r.image imageBytes
      match acc.1.lbad j as with
      | some a => (acc.1, some (.inr a))
      | none =>
        let s := acc.1.meetReads (as.map (j.phys false))
        match tableImage r.fw r.func (s.lrdBytes j r.image as.length) with
        | .ok img => (s.fillTable j r.lcore r.slot img, none)
        | .error f => (s, some (.inl (r.lcore, r.slot, f)))) (s, none)

/-- The slots of a logical core: its distinct buffer ranges in ascending offset (R142, R166). -/
def Job.slotsOf (j : Job) (l : Nat) : List GbSlot :=
  let mine := j.tiles.filter fun t => decide (t.core = l)
  let offs := ((mine.map TileRec.off).eraseDups).mergeSort (· ≤ ·)
  offs.map fun o =>
    let here := mine.filter fun t => decide (t.off = o)
    let len := (here.map TileRec.bytes).foldl Nat.max 0
    match here.find? fun t => t.resident with
    | some t => { off := o, len := len, resident := true, state := .live, tile := t.tile }
    | none => { off := o, len := len }

/-- A logical core as it starts on the core that serves it: counters zero, streams idle, slots as R145 leaves them. -/
def Job.freshLCtx (j : Job) (l : Nat) (old : LCtx) : LCtx := { old.rest with lcore := some l, cnt := [], slots := j.slotsOf l }

/-- The resident tiles of a logical core hold +0 (R145). -/
def State.zeroResident (s : State) (j : Job) (l : Nat) : State :=
  ((j.tiles.filter fun t => decide (t.core = l) && t.resident).foldl (fun s t =>
    s.zeroRange (translate j.serves j.guests (gbBase l + t.off)) t.bytes) s)

end Sys2Proof.Machine
end

