-- ==== Sys2Proof/Machine/Decision.lean ====
section
/-! DEFINITION. The decision of a step and the numerics state it leaves in the shadow; remapping after a fence (R59-R64,
R119, R156-R158, R164, R225-R229). -/

namespace Sys2Proof.Machine

/-! ### The numerics of a committed step (R59, R60, R63) -/

/-- What one weight tensor's silent counter and pre-scale become in a step that proceeds (R63, R64): the word, whether the alarm
is raised, whether the pre-scale rises. -/
def silentStep (raise : Bool) (threshold : Nat) (silent : Bool) (w : Word) : Word × Bool × Bool :=
  let k := fld w 15 0
  let ps := fld w 20 16
  if !silent then (mkFld ps 16, false, false)
  else if k + 1 < threshold then (mkFld ps 16 ||| BitVec.ofNat 32 (k + 1), false, false)
  else if raise && decide (ps < 24) then (mkFld (ps + 8) 16, true, true)
  else (mkFld ps 16, true, false)

/-- Whether a step is silent for a tensor: all zero, or Z × 1,000 > 999 × n (R63). -/
def WTensor.silent (t : WTensor) (z : Nat) : Bool := decide (t.elems ≤ z) || decide (999 * t.elems < z * 1000)

/-- The numerics state that a skip commits (R59). -/
def NumState.skipped (n : NumState) : NumState :=
  { n with sg := if n.sg ≤ -32 then n.sg else n.sg - 1, clean := 0, skips := satAdd 32 n.skips 1 }

/-- The numerics state that a step which proceeds commits, and the tensors whose alarm is raised (R60, R63). -/
def Job.proceeded (j : Job) : NumState × List Nat :=
  let r := j.numr.getD {}
  let n := j.num
  let full := decide (1999 ≤ n.clean)
  let steps := (indexed j.wts).map fun e =>
    (e.2.id, silentStep r.raise r.threshold (e.2.silent ((mapGet j.step.zcounts e.2.id).getD 0)) (n.words.getD e.1 0))
  let alarms := (steps.filter fun e => e.2.2.1).map Prod.fst
  ({ n with
    sg := if full ∧ n.sg < 32 then n.sg + 1 else n.sg
    clean := if full then 0 else n.clean + 1
    words := steps.map fun e => e.2.1
    raises := satAdd 16 n.raises (steps.filter fun e => e.2.2.2).length
    silentEvents := satAdd 16 n.silentEvents alarms.length
    silentLast := alarms.getLast?.getD n.silentLast }, alarms)

/-! ### Job state banks (R119, R158, R164) -/

/-- The bytes of a job state bank (R164). -/
def bankBytes (commit opt norm : Nat) (n : NumState) (b1t b2t c1 c2 : Nat) (tensors : Nat) : List Byte :=
  leBytes 4 commit ++ leBytes 1 (toTwos 8 n.sg) ++ leBytes 1 0 ++ leBytes 2 n.clean ++ leBytes 4 opt ++ leBytes 4 b1t ++ leBytes 4 b2t ++
    leBytes 4 c1 ++ leBytes 4 c2 ++ leBytes 4 tensors ++ leBytes 4 norm ++ leBytes 28 0 ++ n.words.flatMap fun w => leBytes 4 w.toNat

/-- C1 or C2 of a product (R119): 1 / (1 - beta^t) by correctly rounded operations. -/
def corrOf (bt : Nat) : Nat := divF32 0x3F800000 (subF32 0x3F800000 bt)

/-- The four step constants of a bank: BETA1_T, BETA2_T, C1, C2 (R164). -/
def constsOf (b : List Byte) : List Nat := [rdLE b 0x0C 4, rdLE b 0x10 4, rdLE b 0x14 4, rdLE b 0x18 4]

/-- The shadow bank of the job state is written (R119, R164). -/
def State.writeShadowBank (s : State) (p : PartId) (n : NumState) (go : Bool) (norm : Nat) : State :=
  match s.job p with
  | none => s
  | some j =>
    let u := j.upd.getD {}
    let live := s.rdBytes j.jstateLive 0x40
    let old := constsOf live
    let b1 := if go then mulF32 (old.getD 0 0) u.beta1 else old.getD 0 0
    let b2 := if go then mulF32 (old.getD 1 0) u.beta2 else old.getD 1 0
    let c1 := if go then corrOf b1 else old.getD 2 0
    let c2 := if go then corrOf b2 else old.getD 3 0
    s.putBytes j.jstateShadow (bankBytes ((j.step.commit + 1) % 2 ^ 32) (j.step.optSteps + b2n go) norm n b1 b2 c1 c2 j.wts.length)

/-- The step constants go to the STEPC block of every logical core and to the parameter blocks of the VEC descriptors of the
update lists (R158). -/
def State.writeConsts (s : State) (p : PartId) (clip : Nat) : State :=
  match s.job p with
  | none => s
  | some j =>
    let u := j.upd.getD {}
    let k := constsOf (s.rdBytes j.jstateLive 0x40)
    let block := leBytes 4 clip ++ k.flatMap (leBytes 4) ++ leBytes 12 0
    let s := (List.range j.lcores).foldl (fun s l => s.lputBytes j (wmBase l + u.stepcOff) block) s
    (j.lists.filter fun r => decide (r.list = 4)).foldl (fun s r =>
      (List.range r.count).foldl (fun s i =>
        let d := r.desc i
        if hClass d = 2 then
          let a := daddr d 0x38 0x3C
          (s.lputBytes j (a + 0x2C) (leBytes 4 clip)).lputBytes j (a + 0x70) (k.flatMap (leBytes 4))
        else s) s) s

/-! ### The decision sequence (R155-R158) -/

/-- The addresses of the norm list (R156). -/
def Job.normAddrs (j : Job) : List Nat :=
  let u := j.upd.getD {}
  span (wmBase 0 + u.normOff) (4 * u.normCount)

/-- The global norm from the partials (R117, R157). -/
def State.normOf (s : State) (j : Job) : Nat :=
  let u := j.upd.getD {}
  toF32 (numSqrt (reduceFinalOf ((List.range u.normCount).map fun i => f32 (leNat (s.lrdBytes j (wmBase 0 + u.normOff + 4 * i) 4)))))

/-- The clip factor of a norm (R157). -/
def clipOf (maxNorm norm : Nat) : Nat :=
  if maxNorm = 0x7F800000 ∨ (!numLt (f32 maxNorm) (f32 norm) ∧ !isNanF32 norm ∧ !isNanF32 maxNorm) then 0x3F800000
  else divF32 maxNorm norm

/-- Whether the decision of a job's step is due: every step list complete and every bucket reduced (R157), and no fenced core serves the job,
whose step is then aborted (R226). -/
def State.decisionDue (s : State) (p : PartId) (j : Job) : Bool :=
  decide (j.kind = .train) && j.step.started && !j.step.updating && decide (j.step.decision = .pending) && decide (j.stop = .none) &&
    !j.paused && !s.needsRemap p && decide (j.cmt.phase = .running) && s.allParked j && decide (s.issuedOf p = []) &&
    (List.range ((j.numr.map fun n => n.floors.length).getD 0)).all fun b => j.step.reduced.contains b

/-- A step that overflows is skipped (R59, R157). -/
def State.decideSkip (s : State) (p : PartId) (j : Job) : State :=
  let n := j.num.skipped
  let commit := (j.step.commit + 1) % 2 ^ 32
  let s := s.raise .mc (some p) 0x3010 [commit, toTwos 32 n.sg]
  let s := if j.num.sg ≤ -32 then s.raise .mc (some p) 0x3011 [commit] else s
  let s := s.writeShadowBank p n false 0
  let s := s.updJob p fun j => { j with step := { j.step with
    decision := .skip, cause := b2n j.step.overflow + 2 * b2n j.step.redNonfin, norm := 0, shadow := some n, silent := [] } }
  (s.stepDone p).fenceDue

/-- A step proceeds: constants, job-state shadow, update lists (R157, R158). -/
def State.decideProceed (s : State) (p : PartId) (j : Job) : State :=
  let norm := s.normOf j
  let clip := clipOf (j.upd.getD {}).maxNorm norm
  let (n, alarms) := j.proceeded
  let s := if norm = 0x7F800000 then s.raise .mc (some p) 0x4409 [(j.step.commit + 1) % 2 ^ 32] else s
  let s := (s.writeConsts p clip).writeShadowBank p n true norm
  let s := s.updJob p fun j => { j with step := { j.step with
    decision := .proceed, norm := norm, clip := clip, shadow := some n, silent := alarms, updating := true } }
  (List.range j.lcores).foldl (fun s l => match j.serve l with
    | none => s
    | some v => s.updLCtx v fun c => { c with
        streams := c.streams.set 0 { c.streams[0] with state := .issuing, index := 0, update := true } }) s

/-- DECISION_SEQUENCE (R157). An uncorrectable error among the partials or the job state aborts the step (R190). -/
def execDecisionSequence (p : PartId) (env : MemEnv) (s : State) : Result :=
  match s.job p with
  | none => .next s
  | some j =>
    if !s.decisionDue p j then .next s
    else
      let s := s.takeReads env (j.normAddrs.map (j.phys false) ++ span j.jstateLive 0x40)
      let s := s.touchAll (j.normAddrs.map (j.phys false))
      match (s.lbad j j.normAddrs).orElse fun _ => s.firstBad (span j.jstateLive 0x40) with
      | some a => .next (((s.uncorrectable (some p) a).reportAbort p 0x5011 none).fenceByErrors a)
      | none => .next (if j.step.overflow || j.step.redNonfin then s.decideSkip p j else s.decideProceed p j)

/-! ### Remapping (R225-R229) -/

/-- The in-service cores of a partition in ascending order (R223, R225). -/
def State.liveCores (s : State) (p : PartId) : List CoreId :=
  allCores.filter fun c => decide (s.cores[c].part = some p) && s.cores[c].inService

/-- How many logical cores of a map a physical core serves, and whether one is a guest. -/
def servedBy (m : List (Option Serve)) (c : CoreId) : Nat × Bool :=
  let l := m.filterMap fun v => v.bind fun v => if v.core = c then some v.guest else none
  (l.length, l.any id)

/-- The lowest-numbered in-service core of a partition that no logical core uses (R225, R226). -/
def State.spareFor (s : State) (p : PartId) (m : List (Option Serve)) : Option CoreId :=
  (s.liveCores p).find? fun c => decide ((servedBy m c).1 = 0)

/-- The core that hosts a guest: one that serves one logical core and no guest, on the given hub first (R226). -/
def State.hostFor (s : State) (p : PartId) (m : List (Option Serve)) (hub : Option Nat) : Option CoreId :=
  let ok := (s.liveCores p).filter fun c => decide (servedBy m c = (1, false))
  (ok.find? fun c => decide (hub = some (c.val / 2))).orElse fun _ => ok.head?

/-- The logical cores of a job whose physical core is out of service, in ascending order. -/
def State.orphans (s : State) (j : Job) : List (Nat × CoreId) :=
  (indexed j.serves).filterMap fun e => e.2.bind fun v => if s.cores[v.core].inService then none else some (e.1, v.core)

/-- The array modes of a logical core's job on a physical core (R86-R88, R104). -/
def State.setModes (s : State) (c : CoreId) (j : Job) (l : Nat) : State :=
  s.updCore c fun k => { k with
    ganged := j.ganged l
    arrays := Vector.ofFn fun a => { k.arrays[a] with split := j.split l a.val } }

/-- A core that serves a logical core of a job with no unit left in service in the modes it has taken is fenced (R99). -/
def State.checkUnits (s : State) (p : PartId) : State :=
  match s.job p with
  | none => s
  | some j => (j.serves.filterMap id).foldl (fun s v =>
      if s.cores[v.core].inService ∧ s.cores[v.core].unitsUp = [] then s.fenceCore v.core 0x4104 false else s) s

/-- A job that cannot be served pauses, and its starter hears that it cannot retry (R226, R325). -/
def State.remapFailed (s : State) (p : PartId) (l : Nat) : State :=
  let s := s.raise .mc (some p) 0x4506 [p.val, l]
  let s := match s.cluster p with
    | some c => if c.state = MemberState.left then s else (s.updCluster p fun (c : Cluster) => { c with state := MemberState.left }).sendCtl p c.starter 0x04 (leBytes 4 1)
    | none => s
  s.pauseJob p

/-- Committed state in crumb memory of a remapped logical core is lost (R228, R353). -/
def State.remapLost (s : State) (p : PartId) (j : Job) (l : Nat) : State :=
  let lost := (indexed (j.upd.getD {}).regions).filter fun e => inLcore l e.2.a || inLcore l e.2.b
  match lost with
  | [] => s
  | _ :: _ =>
    let s := lost.foldl (fun s r => s.raise .mc (some p) 0x4507 [p.val, l, r.1]) s
    match s.cluster p with
    | none => s.pauseJob p
    | some _ =>
      let s := s.updJob p fun j => { j with cmt := { j.cmt with stateLost := true } }
      if j.cmt.phase = .readySent then s else s.reportOwed p

/-- Logical core `l` moves to another physical core, with its preloads, tables and slots restored; where they cannot be, the job pauses
with the logical core not served, and a later remap restores it (R226, R228, R229). -/
def State.remapTo (s : State) (p : PartId) (l : Nat) (old : CoreId) (v : Serve) : State :=
  let was := (s.job p).bind fun j => j.serve l
  let undo := fun (s : State) =>
    ((s.updJob p fun j => { j with serves := j.serves.set l was }).updLCtx v LCtx.rest).pauseJob p
  let s := s.updJob p fun j => { j with serves := j.serves.set l (some v), remaps := BitVec.ofNat 32 (satAdd 32 j.remaps.toNat 1) }
  let s := s.updCore old fun k => { k with first := if k.first.lcore = some l then k.first.rest else k.first
                                           guest := if k.guest.lcore = some l then k.guest.rest else k.guest }
  let s := s.raise (.core v.core.val) (some p) 0x4505 [l, old.val, v.core.val, b2n v.guest]
  match s.job p with
  | none => s
  | some j =>
    let s := (s.touch v.core).updLCtx v (j.freshLCtx l)
    let s := if v.guest then s else s.setModes v.core j l
    let s := s.remapLost p j l
    match s.copyPreloads j fun r => inLcore l r.dst with
    | (s, some a) => undo ((s.uncorrectable (some p) a).fenceByErrors a)
    | (s, none) => match s.loadTables j fun r => decide (r.lcore = l) with
      | (s, some (.inr a)) => undo ((s.uncorrectable (some p) a).fenceByErrors a)
      | (s, some (.inl (_, n, f))) => undo (s.raise (.core v.core.val) (some p) 0x4304 [v.core.val, n, f])
      | (s, none) => s.zeroResident j l

/-- The orphans of a job find their cores in ascending logical order; one that finds none pauses the job (R226). -/
def State.remapAll (p : PartId) : List (Nat × CoreId) → State → State
  | [], s => s
  | (l, old) :: r, s => match s.job p with
    | none => s
    | some j =>
      match s.spareFor p j.serves with
      | some c => State.remapAll p r (s.remapTo p l old ⟨c, false⟩)
      | none => match (if ((j.guests[l]?).join).isSome then s.hostFor p j.serves (some (old.val / 2)) else none) with
        | some c => State.remapAll p r (s.remapTo p l old ⟨c, true⟩)
        | none => s.remapFailed p l

/-- Whether a remap awaits the ABORT of the step: a cluster member has reported, or is to report, a fence for a step whose ABORT it has not
applied (R23, R226, R353). -/
def Job.awaitsAbort (j : Job) : Bool :=
  decide (j.kind = .train) && j.cluster.isSome && decide (j.stop = .none) && decide (j.cmt.phase = .running ∨ j.cmt.phase = .readySent) &&
    (!j.cmt.restart || j.cmt.spoke)

/-- CORE_REMAP (R23, R226-R229): once the step is aborted and the issued descriptors have completed after a fence, the device remaps the
fenced logical cores. A RUN or LOOP job then starts its iteration again (log entry 12). -/
def execCoreRemap (p : PartId) (s : State) : Result :=
  match s.job p with
  | none => .next s
  | some j => match s.orphans j with
    | [] => .next s
    | (l, c) :: r =>
      if s.issuedOf p ≠ [] ∨ j.paused ∨ j.awaitsAbort = true then .next s
      else if (List.range j.lcores).any j.ganged then .next (s.remapFailed p l)
      else
        let s := (State.remapAll p ((l, c) :: r) s).checkUnits p
        match s.job p with
        | none => .next s
        | some j' =>
          if j'.kind ≠ .train ∧ !j'.paused ∧ j'.stop = .abort then
            .next (s.updJob p fun j => { j with cmt := { j.cmt with restart := true } })
          else .next s

end Sys2Proof.Machine
end

