-- ==== Sys2Proof/Machine/Keccak.lean ====
section
/-! DEFINITION. SHA3-512 and KMAC256 as FIPS 202 and SP 800-185 give them (R375, R378). -/

namespace Sys2Proof.Machine

/-- A lane of the Keccak state. -/
abbrev Lane : Type := BitVec 64

/-- Rotation offsets of rho, lane x + 5y. -/
def rhoOffsets : List Nat :=
  [0, 1, 62, 28, 27, 36, 44, 6, 55, 20, 3, 10, 43, 25, 39, 41, 45, 15, 21, 8, 18, 2, 61, 56, 14]

/-- Round constants of iota. -/
def iotaConsts : List Nat :=
  [0x0000000000000001, 0x0000000000008082, 0x800000000000808A, 0x8000000080008000, 0x000000000000808B, 0x0000000080000001,
   0x8000000080008081, 0x8000000000008009, 0x000000000000008A, 0x0000000000000088, 0x0000000080008009, 0x000000008000000A] ++
  [0x000000008000808B, 0x800000000000008B, 0x8000000000008089, 0x8000000000008003, 0x8000000000008002, 0x8000000000000080,
   0x000000000000800A, 0x800000008000000A, 0x8000000080008081, 0x8000000000008080, 0x0000000080000001, 0x8000000080008008]

/-- Lane (x, y) of a state, coordinates modulo 5. -/
def lane (a : List Lane) (x y : Nat) : Lane := a.getD (x % 5 + 5 * (y % 5)) 0

/-- A state from its lanes. -/
def lanesOf (f : Nat → Nat → Lane) : List Lane := (List.range 25).map fun i => f (i % 5) (i / 5)

/-- One round of Keccak-f[1600]. -/
def keccakRound (a : List Lane) (rc : Nat) : List Lane :=
  let c := (List.range 5).map fun x => lane a x 0 ^^^ lane a x 1 ^^^ lane a x 2 ^^^ lane a x 3 ^^^ lane a x 4
  let d := (List.range 5).map fun x => c.getD ((x + 4) % 5) 0 ^^^ (c.getD ((x + 1) % 5) 0).rotateLeft 1
  let t := lanesOf fun x y => lane a x y ^^^ d.getD x 0
  let r := lanesOf fun x y =>
    let x' := (x + 3 * y) % 5
    (lane t x' x).rotateLeft (rhoOffsets.getD (x' + 5 * x) 0)
  let k := lanesOf fun x y => lane r x y ^^^ (~~~(lane r (x + 1) y) &&& lane r (x + 2) y)
  (k.headD 0 ^^^ BitVec.ofNat 64 rc) :: k.drop 1

/-- Keccak-f[1600]. -/
def keccakF (a : List Lane) : List Lane := iotaConsts.foldl keccakRound a

/-- A block of bytes absorbed into a state. -/
def absorbBlock (a : List Lane) (b : List Byte) : List Lane :=
  keccakF ((indexed a).map fun e => e.2 ^^^ BitVec.ofNat 64 (rdLE b (8 * e.1) 8))

/-- Whole blocks absorbed; the first number is fuel. -/
def absorb (rate : Nat) : Nat → List Lane → List Byte → List Lane
  | 0, a, _ => a
  | f + 1, a, m => if m = [] then a else absorb rate f (absorbBlock a (m.take rate)) (m.drop rate)

/-- The sponge with a domain byte and pad10*1, output shorter than the rate. -/
def sponge (rate : Nat) (dom : Byte) (out : Nat) (m : List Byte) : List Byte :=
  let k := rate - m.length % rate
  let pad : List Byte := if k = 1 then [dom ||| 0x80] else dom :: List.replicate (k - 2) 0 ++ [0x80]
  let a := absorb rate (m.length / rate + 1) (List.replicate 25 0) (m ++ pad)
  (a.flatMap fun l => leBytes 8 l.toNat).take out

/-- SHA3-512. -/
def sha3_512 (m : List Byte) : List Byte := sponge 72 0x06 64 m

/-- left_encode of SP 800-185 for a number below 2^32. -/
def leftEncode (n : Nat) : List Byte :=
  let k := if n < 2 ^ 8 then 1 else if n < 2 ^ 16 then 2 else if n < 2 ^ 24 then 3 else 4
  BitVec.ofNat 8 k :: beBytes k n

/-- right_encode of SP 800-185 for a number below 2^32. -/
def rightEncode (n : Nat) : List Byte := let e := leftEncode n; e.drop 1 ++ e.take 1

/-- encode_string. -/
def encodeString (s : List Byte) : List Byte := leftEncode (8 * s.length) ++ s

/-- bytepad. -/
def bytePad (w : Nat) (x : List Byte) : List Byte :=
  let z := leftEncode w ++ x
  z ++ List.replicate ((w - z.length % w) % w) 0

/-- KMAC256 with key, message, output length in bytes, customisation string. -/
def kmac256 (key m : List Byte) (out : Nat) (custom : List Byte) : List Byte :=
  let x := bytePad 136 (encodeString key) ++ m ++ rightEncode (8 * out)
  sponge 136 0x04 out (bytePad 136 (encodeString ([0x4B, 0x4D, 0x41, 0x43]) ++ encodeString custom) ++ x)

end Sys2Proof.Machine
end

