-- ==== Sys2Proof/Machine/RegView.lean ====
section
/-! DEFINITION. What each register shows: those that show state held elsewhere are computed from it, all others stand in the
register table (R9-R14 and the register tables of spec/). -/

namespace Sys2Proof.Machine

/-- Instance and offset within it of an offset in a group of `n` register sets of a stride. -/
def within (o base n stride : Nat) : Option (Nat × Nat) :=
  if base ≤ o ∧ o < base + n * stride then some ((o - base) / stride, (o - base) % stride) else none

/-- A word from fields given as value and lowest bit. -/
def pack (fs : List (Nat × Nat)) : Word := BitVec.ofNat 32 (fs.foldl (fun a f => a + f.1 * 2 ^ f.2) 0)

/-- A word that shows a count, stopping at all ones. -/
def word (n : Nat) : Word := BitVec.ofNat 32 (Nat.min n (2 ^ 32 - 1))

/-! ### Partitions: numerics, update, mapping, cluster, commit (R67, R167, R231, R333, R368) -/

/-- MC_NUM_*_p (R67). -/
def State.numView (s : State) (p : PartId) (r : Nat) : Word :=
  match s.job p with
  | none => if r = 8 then 0x40 else 0
  | some j =>
    let n := j.numr.getD {}
    match r with
    | 0x00 => pack [(j.num.clean, 16), (toTwos 8 j.num.sg, 0)]
    | 0x04 => word j.num.skips
    | 0x08 => pack [(b2n n.raise, 16), (n.threshold, 0)]
    | 0x0C => pack [(Nat.min 65535 j.num.raises, 16), (Nat.min 65535 j.num.silentEvents, 0)]
    | 0x10 => word j.num.silentLast
    | _ => 0

/-- DECISION as a number (R167). -/
def Decision.code : Decision → Nat
  | .pending => 0
  | .proceed => 1
  | .skip => 2

/-- MC_UPD_*_p (R167). -/
def State.updView (s : State) (p : PartId) (r : Nat) : Word :=
  match s.job p with
  | none => 0
  | some j =>
    let t := j.step
    match r with
    | 0x00 => pack [(t.attempt % 256, 24), (t.cause, 4), (t.decision.code, 2), (b2n t.jbank, 1), (b2n t.liveB, 0)]
    | 0x04 => word t.commit
    | 0x08 => word t.optSteps
    | 0x0C => word t.norm
    | 0x10 => word t.clip
    | _ => 0

/-- MC_PART_*_p (R231). -/
def State.partView (s : State) (p : PartId) (r : Nat) : Word :=
  let q := s.parts[p]
  let mine := fun i => q.phys.getLsbD i && s.coreIn i
  match r, q.job with
  | 0x00, none => pack [(maskOf 8 mine, 0)]
  | 0x00, some j =>
    let used := fun i => j.serves.any fun v => match v with | some w => decide (w.core.val = i) | none => false
    pack [(j.kind.code, 28), (j.lcores, 16), (maskOf 8 (fun i => mine i && !used i), 8), (maskOf 8 mine, 0)]
  | 0x04, some j => pack ((List.range 8).map fun l => match j.serve l with
      | some v => (8 + v.core.val, 4 * l)
      | none => (0, 4 * l))
  | 0x08, some j => pack [(maskOf 8 (fun l => match j.serve l with | some v => v.guest | none => false), 0)]
  | 0x0C, some j => j.remaps
  | _, _ => 0

/-- STATE of MC_CL_STATE_p (R333). -/
def MemberState.code : MemberState → Nat
  | .opening => 1
  | .joining => 2
  | .admitting => 3
  | .member => 4
  | .paused => 5
  | .left => 6

/-- MC_CL_*_p (R333). -/
def State.clView (s : State) (p : PartId) (r : Nat) : Word :=
  match s.cluster p with
  | none => if r = 0 ∧ s.parts[p].left then pack [(6, 27)] else 0
  | some c =>
    match r with
    | 0x00 =>
      let role := if c.self = c.starter then 2 else if c.self = c.successor then 1 else 0
      pack [(role, 30), (c.state.code, 27), (c.starter, 18), (c.self, 12),
        (if inMask c.roster c.self then rankOf c.roster c.self else 0, 6), ((rosterList c.roster).length - 1, 0)]
    | 0x04 => word c.epoch
    | 0x08 => BitVec.ofNat 32 c.roster.toNat
    | 0x0C => BitVec.ofNat 32 (c.roster.toNat / 2 ^ 32)
    | 0x10 => pack [(Nat.min 65535 c.takeovers, 16), (Nat.min 65535 c.rosters, 0)]
    | _ => 0

/-- PHASE of MC_CMT_STATE_p (R368). -/
def CmtPhase.code : CmtPhase → Nat
  | .noStep => 0
  | .running => 1
  | .readySent => 2
  | .holding => 3
  | .rebalancing => 4
  | .paused => 5

/-- Units owned and mirrored by a member (R306, R347). -/
def Cluster.unitCounts (c : Cluster) : Nat × Nat :=
  let ks := List.range c.cl.shards
  if inMask c.roster c.self then
    ((ks.filter fun k => decide (ownerOf c.roster k = c.self)).length,
     (ks.filter fun k => decide (mirrorOf c.cl.mirror c.roster k = some c.self)).length)
  else (0, 0)

/-- MC_CMT_*_p (R368): zero without a TRAIN job. -/
def State.cmtView (s : State) (p : PartId) (r : Nat) : Word :=
  match (s.job p).filter fun j => decide (j.kind = .train) with
  | none => 0
  | some j =>
    let m := j.cmt
    match r with
    | 0x00 => pack [(m.phase.code, 29), (Nat.min 255 m.runAborts, 16), (b2n m.ckptReading, 1), (b2n m.ckptPend, 0)]
    | 0x04 => word m.commits
    | 0x08 => word m.aborts
    | 0x0C => pack [(m.lastEvent % 65536, 16), (m.lastEntry % 64, 8)]
    | 0x10 => match j.cluster with
      | some c => pack [(Nat.min 65535 c.unitCounts.2, 16), (Nat.min 65535 c.unitCounts.1, 0)]
      | none => 0
    | 0x14 => match j.cluster, j.unitMap with
      | some c, some u => pack [(Nat.min 65535 (u.slots - c.units.length), 0)]
      | _, _ => 0
    | 0x18 => pack [(Nat.min 65535 m.deferred, 16), (Nat.min 65535 m.oversize, 0)]
    | _ => 0

/-! ### The MC block (R5, R204, R333, R395, R423, R438) -/

/-- MC_DEVICE_ID (R5). -/
def deviceId : Word := pack [(0x0840, 16), (2, 12), (0, 8), (if Config.gradeE then 2 else 1, 4), (1, 0)]

/-- The SYNC_IO record with a claim (R382). -/
def State.syncRec (s : State) (claim : Nat) : Option (List Byte) := (s.cfgRecs 0x30).find? fun v => decide (rdLE v 0 1 = claim)

/-- STATE of MC_CASCADE (R333). -/
def CascadeState.code : CascadeState → Nat
  | .held => 0
  | .byCount => 1
  | .byTimeout => 2
  | .notApplied => 3

/-- STATE of MC_THERM (R423). -/
def ThermState.code : ThermState → Nat
  | .normal => 0
  | .lowering => 1
  | .halted => 2
  | .tripped => 3

/-- Whether the device holds SYNC_IO low as GPIO (R438). -/
def State.syncDrive (s : State) : Bool :=
  let w := s.reg mcSyncIo
  decide (fld w 31 30 = 3) && bitAt w 8 && bitAt w 1

/-- Whether a pulse of the periodic output holds SYNC_IO low now: its falling edge marks the second (R295, R436). -/
def State.ppsLow (s : State) : Bool := match s.mc.ppsTill with | some (t, till) => decide (s.now t < till) | none => false

/-- Level of the SYNC_IO land (R436, R438): low while the device drives it, as GPIO or for a pulse of the claimed periodic output; else
as the board has it, a free value (log entry 21). -/
def State.syncLevel (s : State) : Bool := !(s.syncDrive || s.ppsLow) && decide (Config.free s.freeCtr % 2 = 1)

/-- Whether ALERT_N is asserted (R437). -/
def State.alertAsserted (s : State) : Bool := bitAt (s.reg mcAlert) 0 && bitAt (s.reg mcAlert) 1

/-- A register of the MC block at an offset (R5, R67, R167, R204, R231, R333, R368, R395, R423, R438). -/
def State.mcView (s : State) (o : Nat) : Word :=
  let m := s.mc
  match within o 0x4000 4 0x40 with
  | some (p, r) => s.numView (Fin.ofNat 4 p) r
  | none => match within o 0x5000 4 0x40 with
  | some (p, r) => s.updView (Fin.ofNat 4 p) r
  | none => match within o 0x7000 4 0x20 with
  | some (p, r) => s.partView (Fin.ofNat 4 p) r
  | none => match within o 0x8000 4 0x20 with
  | some (p, r) => s.clView (Fin.ofNat 4 p) r
  | none => match within o 0x9000 4 0x40 with
  | some (p, r) => s.cmtView (Fin.ofNat 4 p) r
  | none => match within o 0xB400 32 4 with
  | some (w, _) => BitVec.ofNat 32 (rdLE s.census (4 * w) 4)
  | none => match within o 0xB480 16 4 with
  | some (w, _) => if s.publishes then BitVec.ofNat 32 (rdLE s.ageing (4 * w) 4) else 0
  | none =>
    if o = mcDeviceId then deviceId
    else if o = mcSerialLo then Config.serial.truncate 32
    else if o = mcSerialHi then (Config.serial >>> 32).truncate 32
    else if o = mcMemHctx then pack [(m.hctx.val, 0)]
    else if o = mcCascade then
      pack [(m.cascade.code, 30), (Nat.min 63 m.pulses, 8), (((s.syncRec 1).map fun v => rdLE v 3 1 % 64).getD 0, 0)]
    else if o = mcStartStat then
      pack [(b2n m.complete, 31), (b2n m.recovery, 30), (m.failStage, 16), (m.cause % 256, 8), (m.stage, 0)]
    else if o = mcCfgInfo then
      pack [(m.conduct, 28), (maskOf 4 (fun p => (s.cfgRecs 0x40).any fun v => decide (rdLE v 0 1 % 4 = p)), 24)]
    else if o = mcTimeLo then BitVec.ofNat 32 m.time
    else if o = mcTimeHi then BitVec.ofNat 32 (m.time / 2 ^ 32)
    else if o = mcTherm then putFld (s.reg o) 1 0 m.therm.code
    else if o = mcLogStat then putFld (s.reg o) 23 0 m.logNext
    else if o = mcSyncIo then putFld (s.reg o) 0 0 (b2n s.syncLevel)
    else s.reg o

/-! ### The hub, USB, PWR and SEC blocks (R203, R272, R396, R424, R438) -/

/-- A register of the HUB block of hub `h` (R203). -/
def State.hubView (s : State) (h o : Nat) : Word :=
  match within o 0x1000 2 0x100 with
  | some (k, 0) =>
    let n := 2 * h + k
    pack [(Nat.min 255 ((mapGet s.mc.repairsLife n).getD 0), 8), (b2n !s.mc.stacksUp.getLsbD n, 0)]
  | _ => s.reg (hubBase h + o)

/-- A register of a job interface's group (R272). -/
def State.ifaceView (s : State) (p : PartId) (r : Nat) : Word :=
  let i := s.parts[p].iface
  match r with
  | 0x00 => BitVec.ofNat 32 i.base
  | 0x04 => pack [(i.gen, 16), (i.base / 2 ^ 32 % 65536, 0)]
  | 0x08 => i.landed
  | 0x0C => pack [(b2n i.fault, 31), (b2n i.resetBusy, 30), (i.held.length, 16), (i.hdr.cmdTail, 0)]
  | _ => s.reg (usbBase + 0x100 + p.val * 0x40 + r)

/-- A register of the USB block. -/
def State.usbView (s : State) (o : Nat) : Word :=
  match within o 0x100 4 0x40 with
  | some (p, r) => s.ifaceView (Fin.ofNat 4 p) r
  | none => if o = 0 then putFld (s.reg usbLink) 12 12 (b2n s.usb.vbus) else s.reg (usbBase + o)

/-- A register of the PWR block (R424, R438). -/
def State.pwrView (s : State) (o : Nat) : Word :=
  let m := s.mc
  if o = 4 then
    pack [(if m.lost then m.lostRail else 0, 8), (b2n m.lost, 6), (b2n m.vinHalt, 5), (b2n m.vinThrottle, 4),
      (b2n (m.auxInhibit || m.vinInhibit), 3)]
  else if o = 8 then putFld (s.reg (pwrBase + o)) 8 8 (b2n m.pwrReq)
  else s.reg (pwrBase + o)

/-! ### The NVM as it is read (R374) -/

/-- A byte of the NVM; an erased byte reads all ones. -/
def State.nvmAt (s : State) (a : Nat) : Byte := (mapGet s.nvm a).getD 0xFF

/-- `n` bytes of the NVM. -/
def State.nvmRd (s : State) (a n : Nat) : List Byte := (List.range n).map fun i => s.nvmAt (a + i)

/-- Counter `n` of the flash as SEC_COUNTER_n mirrors it (R375). -/
def State.counter (s : State) (n : Nat) : Nat := s.counters.getD n 0

/-- The seed of the identity key of a generation (R389). -/
def identitySeed (gen : Nat) : List Byte := (sha3_512 (Config.pufRoot ++ [0x54, 0x38, 0x34, 0x30, 0x2D, 0x49, 0x44] ++ leBytes 4 gen)).take 32

/-- The identity public key (R389). -/
def State.identityPub (s : State) : List Byte := Config.mldsaPublic (identitySeed (s.counter 3))

/-- Bytes of an endorsement: one signature (R378). -/
def endorsementBytes : Nat := 4627

/-- Where the endorsement lies in the helper data area at 0x3_0000 of the NVM (R374, R389; DESIGN CHOICE, log entry 54). -/
def endorsementAt : Nat := 0x30000 + Config.endorsementPlace % (0x10000 - endorsementBytes + 1)

/-- A vendor endorsement for the current IDENTITY_GEN exists (R378, R389, R396): the bytes in the helper data area are the manufacturing key's
signature, with context T840-END, of the digest of serial number, IDENTITY_GEN and identity public key. DEDUCED: 8, 4 and 2,592 bytes in
that order; the identity key must be available (log entry 54). -/
def State.endorsed (s : State) : Bool :=
  let b := s.nvmRd endorsementAt endorsementBytes
  s.mc.identityKey && decide (b ≠ List.replicate endorsementBytes 0xFF) && Config.mldsaVerify Config.manufacturingKey
    [0x54, 0x38, 0x34, 0x30, 0x2D, 0x45, 0x4E, 0x44] (sha3_512 (leBytes 8 Config.serial.toNat ++ leBytes 4 (s.counter 3) ++ s.identityPub)) b

/-- The owner key record is valid: magic, epoch, and the tag under the storage key (R388). -/
def State.ownerKey (s : State) : Option (List Byte) := if s.mc.ownerKey = [] then none else some s.mc.ownerKey

/-- A register of the SEC block (R396). -/
def State.secView (s : State) (o : Nat) : Word :=
  let m := s.mc
  match within o 0x100 8 4 with
  | some (n, _) => word (s.counter n)
  | none => match within o 0x3000 648 4 with
  | some (w, _) => if m.identityKey then BitVec.ofNat 32 (rdLE s.identityPub (4 * w) 4) else 0
  | none =>
    if o = 0 then
      pack [(b2n m.testz, 7), (b2n m.debug, 6), (b2n m.identityKey, 5), (b2n s.endorsed, 4),
        (b2n (m.on && s.ownerKey.isNone), 3), (b2n (m.aux && m.sealIntact), 2), (b2n m.armedUntil.isSome, 1), (b2n (decide (1 ≤ s.counter 4)), 0)]
    else if o = 4 then match m.armedUntil with
      | some t => pack [(Nat.min 255 (cdiv (t - m.time) 1000000000), 0)]
      | none => 0
    else if o = 0x200 then
      let v := putFld (s.reg secAttCtl) 30 30 (b2n m.attBusy)
      if m.on && !m.identityKey then putFld v 7 0 2 else v
    else s.reg (secBase + o)

/-! ### The core blocks (R104, R140, R166, R202, R230, R367, R422) -/

/-- SERVICE as a number (R104). -/
def Service.code : Service → Nat
  | .inService => 0
  | .suspect => 1
  | .out => 2

/-- Mismatches of a half within 24 hours, stopping at 255. -/
def HalfS.recent (h : HalfS) (now : Nat) : Nat := Nat.min 255 (h.mismatches.filter fun t => decide (now < t + dayNs)).length

/-- CORE_ARR_STAT_a (R104). -/
def ArrS.stat (r : ArrS) (now : Nat) : Word :=
  let a := r.halves[0].service.code
  let b := r.halves[1].service.code
  pack [(if r.split then r.halves[1].recent now else 0, 16), (r.halves[0].recent now, 8), (b, 4), (a, 2), (Nat.max a b, 0)]

/-- STATE of a stream context (R230). -/
def StrState.code : StrState → Nat
  | .idle => 0
  | .issuing => 1
  | .waitCounter => 2
  | .waitQueue => 3
  | .waitFence => 4
  | .parked => 5
  | .faulted => 6
  | .stopping => 7

/-- A register of a stream context (R230). -/
def Stream.view (t : Stream) (lcore : Option Nat) (r : Nat) : Word :=
  match r with
  | 0x00 => pack [(t.state.code, 29), (b2n lcore.isSome, 28), (lcore.getD 0, 24), (t.index % 2 ^ 20, 0)]
  | 0x04 => if t.state = .waitCounter then pack [(b2n t.waitWhich, 8), (t.waitCnt.toNat, 0)] else 0
  | 0x08 => if t.state = .waitCounter then t.waitTgt else 0
  | 0x0C => pack [(t.faultEvent.toNat, 16), (t.faultClass.toNat, 12)]
  | 0x10 => pack [(t.faultIdx, 0)]
  | 0x14 => t.issued
  | 0x18 => t.qstall
  | _ => 0

/-- CORE_GB_SLOT_s: the slots in ascending buffer offset (R166). -/
def LCtx.slotView (l : LCtx) (n : Nat) : Word :=
  match l.slots[n]? with
  | none => 0
  | some g => pack [(g.state.code, 30), (b2n g.resident, 29), (1, 28), (g.ties % 4, 16), (if g.state = .empty then 0 else g.tile, 0)]

/-- STATE of CORE_MEM_RET (R202). -/
def RetState.code : RetState → Nat
  | .active => 0
  | .entering => 1
  | .retained => 2
  | .waking => 3

/-- The statistics bytes that the job's slots claim on a logical core (R131, R140). -/
def State.sideClaim (s : State) (k : CoreS) : Nat :=
  match k.part.bind s.job, k.first.lcore with
  | some j, some l => ((j.stats.filter fun r => decide (r.lcore = l)).map StatRec.bytes).foldl (· + ·) 0
  | _, _ => 0

/-- NET descriptors of a core in a phase (R367). -/
def CoreS.netIn (k : CoreS) (ph : Phase) : Nat := (k.issued.filter fun e => decide (e.queue = .net ∧ e.phase = ph)).length

/-- A register of the CORE block of core `c`. -/
def State.coreView (s : State) (c : CoreId) (o : Nat) : Word :=
  let k := s.cores[c]
  let r := s.mc.rails[c]
  match within o 0x7000 8 0x20 with
  | some (x, f) => let l := k.half (ctxGuest (Fin.ofNat 8 x)); (l.streams[ctxStream (Fin.ofNat 8 x)]).view l.lcore f
  | none => match within o 0x8000 256 4 with
  | some (n, _) => k.first.counter n
  | none => match within o 0x8400 256 4 with
  | some (n, _) => if k.guest.lcore.isSome then k.guest.counter n else 0
  | none => match within o 0x5000 16 4 with
  | some (n, _) => k.first.slotView n
  | none => match within o 0x5100 16 4 with
  | some (n, _) => k.guest.slotView n
  | none => match within o 0x4300 64 4 with
  | some (n, _) => match mapGet k.first.tables n with
    | some h => BitVec.ofNat 32 (rdLE h 0 4)
    | none => 0
  | none => match within o 0x3100 4 0x40 with
  | some (a, 0) => k.arrays[Fin.ofNat 4 a].stat s.mc.time
  | _ =>
    if o = 0x3000 then
      pack ((b2n k.ganged, 8) :: (List.range 4).map fun a => (b2n (k.arrays[Fin.ofNat 4 a]).split, 2 * a))
    else if o = 0x3300 then pack [(Nat.min 2 (k.marks.filter fun t => decide (s.mc.time < t + dayNs)).length, 0)]
    else if o = 0x4200 then pack [(maskOf 32 (fun n => (mapGet k.first.tables n).isSome), 0)]
    else if o = 0x4204 then pack [(maskOf 32 (fun n => (mapGet k.first.tables (32 + n)).isSome), 0)]
    else if o = 0x4208 then pack [(s.sideClaim k, 0)]
    else if o = 0x6000 then putFld (s.reg (coreBase c.val + o)) 1 0 k.ret.code
    else if o = 0x6024 then
      putFld (pack [(k.spares.getD 0 0, 24), (k.spares.getD 1 0 + k.spares.getD 2 0, 16), (k.spares.getD 3 0, 8)]) 2 2
        (s.regFld (coreMemKneadStat c.val) 2 2)
    else if o = 0x9018 then pack [(k.netIn .running, 16), (k.netIn .queued, 0)]
    else if o = 0xA010 then pack [(r.floor, 16), (if r.on then r.volt else 0, 0)]
    else if o = 0xA018 then
      pack [(r.worst % 256, 24), (s.regFld (coreMargin c.val) 23 16, 16), (r.codes.foldl Nat.max 0, 8),
        (r.codes.foldl Nat.min (r.codes.headD 0), 0)]
    else s.reg (coreBase c.val + o)

/-! ### The port blocks (R302, R332) -/

/-- Connections of loaded jobs on a port, and how many of them are up (R332). -/
def State.portConns (s : State) (t : PortId) : Nat × Nat :=
  let cs := allParts.flatMap fun p => match s.cluster p with
    | none => []
    | some c => (c.mine.filter fun i => (c.path i).any fun q => decide (q.1 = t)).map fun i => (c.run i).up
  (cs.length, (cs.filter (· = true)).length)

/-- USE of comparator `n` of a port (R294, R302). -/
def State.cmpUse (s : State) (t n : Nat) : Nat :=
  if (n = 0 ∨ n = 1) ∧ s.schedOn t 0 then 1
  else if (n = 2 ∨ n = 3) ∧ s.schedOn t 1 then 2
  else if n = 2 ∧ s.ptpField t 4 ≠ 0 then 3
  else if n = 3 ∧ bitAt (s.reg (portOtCtl t)) 0 then 4
  else 0

/-- A register of the PORT block of a port. -/
def State.portView (s : State) (t : PortId) (o : Nat) : Word :=
  let p := s.ports[t]
  match within o 0x1000 2 0x20 with
  | some (k, 0x00) => putFld (s.reg (portBase t.val + o)) 28 28 (b2n p.sched[Fin.ofNat 2 k].pending)
  | some (k, 0x10) => let g := s.gateNow t (Fin.ofNat 2 k); pack [(g.1, 8), (g.2, 0)]
  | _ => match within o 0x3100 4 4 with
  | some (n, _) => pack [(s.cmpUse t.val n, 0)]
  | none =>
    if o = 0x3004 then pack [(p.clock / nsUnits % 1000000000, 0)]
    else if o = 0x5004 then let n := s.portConns t; pack [(Nat.min 255 n.2, 16), (Nat.min 255 n.1, 0)]
    else s.reg (portBase t.val + o)

/-! ### Any register -/

/-- What the register at an offset shows; 0 where a block's span holds none (R239). -/
def State.regView (s : State) (o : Nat) : Word :=
  if o < 0x100000 then s.mcView o
  else match within o 0x100000 4 0x10000 with
  | some (h, r) => s.hubView h r
  | none => match within o 0x1000000 8 0x100000 with
  | some (c, r) => s.coreView (Fin.ofNat 8 c) r
  | none => match within o 0x2000000 8 0x10000 with
  | some (t, r) => s.portView (Fin.ofNat 8 t) r
  | none => match within o usbBase 1 0x100000 with
  | some (_, r) => s.usbView r
  | none => match within o pwrBase 1 0x100000 with
  | some (_, r) => s.pwrView r
  | none => match within o secBase 1 0x100000 with
  | some (_, r) => s.secView r
  | none => 0

/-- Whether the register at an offset is the `_LO` half of a pair (R14). -/
def isLo (o : Nat) : Bool :=
  if o < 0x100000 then
    o = 0x8 || o = 0xB000 || o = 0xB008 || (within o 0x8008 4 0x20).any fun e => e.2 = 0
  else match within o 0x100000 4 0x10000 with
  | some (_, r) => r = 0x100C || r = 0x110C
  | none => match within o 0x1000000 8 0x100000 with
  | some (_, r) =>
    [0x2000, 0x4000, 0x4100, 0x4200, 0x504C, 0x6018, 0x900C].contains r || (within r 0x3104 4 0x40).any fun e => e.2 = 0
  | none => match within o 0x2000000 8 0x10000 with
  | some (_, r) => [0x400, 0x408, 0x410, 0x418, 0x5100].contains r
  | none => (within o (usbBase + 0x100) 4 0x40).any fun e => e.2 = 0

/-- The port whose PORT_PTP_NS stands at an offset (R302). -/
def ptpNsOf (o : Nat) : Option Nat := (within o 0x2000000 8 0x10000).bind fun e => if e.2 = 0x3004 then some e.1 else none

/-- A read of the register at an offset: a latched half is answered once, and a read that latches does so (R14, R302). -/
def State.regRead (s : State) (o : Nat) : Word × State :=
  match mapGet s.latches o with
  | some v => (v, { s with latches := mapErase s.latches o })
  | none =>
    let v := s.regView o
    match ptpNsOf o with
    | some t =>
      let sec := s.ports[Fin.ofNat 8 t].clock / nsUnits / 1000000000
      (v, (s.setReg (portPtpSecLo t) (BitVec.ofNat 32 sec)).setReg (portPtpSecHi t) (BitVec.ofNat 32 (sec / 2 ^ 32 % 65536)))
    | none =>
      if isLo o then (v, { s with latches := mapSet s.latches (o + 4) (s.regView (o + 4)) })
      else if o = mcSyncIo then (v, { s with freeCtr := s.freeCtr + 1 })
      else (v, s)

end Sys2Proof.Machine
end

