-- ==== Sys2Proof/Machine/Installed.lean ====
section
/-! DEFINITION. Checks of a firmware image, an owner key record and a configuration image (R280, R288, R296-R300, R329,
R378-R384, R388). -/

namespace Sys2Proof.Machine

/-- An event code with its detail words: why an image is refused. -/
abbrev Refused : Type := Nat × List Nat

/-- ASCII text as bytes. -/
def ascii (s : String) : List Byte := s.toList.map fun c => BitVec.ofNat 8 c.toNat

/-- All bytes of a range are zero. -/
def zeros (b : List Byte) (o n : Nat) : Bool := leNat (slice b o n) = 0

/-! ### Firmware (R379, R380) -/

/-- Length of a firmware image from its header. -/
def fwLen (b : List Byte) : Nat := 0x2000 + rdLE b 0x10 4

/-- SVN of a firmware image. -/
def fwSvn (b : List Byte) : Nat := rdLE b 8 4

/-- REVOKE_PRIMARY and SIGNER of a firmware image. -/
def fwFlags (b : List Byte) : Bool × Bool := ((rdLE b 0xC 4).testBit 1, (rdLE b 0xC 4).testBit 0)

/-- CONDUCT_MAX of the stepping (R5). -/
def conductMax : Nat := nbits deviceId.toNat 3 0

/-- The first check of R380 that a firmware image of `b` fails, against KEY_STATE and FW_SVN. -/
def fwCheck (b : List Byte) (keyState svn : Nat) : Option Refused :=
  let (revoke, signer) := fwFlags b
  let bad := fun (k : Nat) => some ((0x8001, [Config.fieldWord 0x8001 k 0]) : Refused)
  let key := slice b 0x80 2592
  if rdLE b 0 4 ≠ 0x46573834 ∨ rdLE b 4 4 ≠ 1 then bad 0
  else if 4 ≤ rdLE b 0xC 4 ∨ (revoke ∧ !signer) ∨ rdLE b 0x10 4 = 0 ∨ 33546240 < rdLE b 0x10 4 ∨ 16 ≤ rdLE b 0x18 4 ∨
      !zeros b 0x1C 0x24 ∨ !zeros b 0x1CB3 0x34D then bad 1
  else if sha3_512 key ≠ Config.vendorKeyHash signer then bad 2
  else if !signer ∧ keyState ≠ 0 then bad 3
  else if !Config.mldsaVerify key (ascii "T840-FW") (sha3_512 (slice b 0 0xAA0)) (slice b 0xAA0 4627) then bad 4
  else if sha3_512 (slice b 0x2000 (rdLE b 0x10 4)) ≠ slice b 0x40 64 then bad 5
  else if rdLE b 0x18 1 % 16 < conductMax then bad 7
  else if fwSvn b < svn then some (0x8002, [fwSvn b, svn])
  else none

/-! ### The owner key record (R388, R389) -/

/-- The storage key. -/
def storageKey : List Byte := kmac256 Config.pufRoot [] 32 (ascii "T840-STORE")

/-- The tag of an owner key record. -/
def ownerTag (b : List Byte) : List Byte := kmac256 storageKey (slice b 0 0xA28) 64 (ascii "T840-OWN")

/-- The owner key record of an epoch. -/
def ownerRecord (epoch : Nat) (key : List Byte) : List Byte :=
  let b := leBytes 4 0x4F4B3834 ++ leBytes 4 epoch ++ slice key 0 2592
  b ++ ownerTag b

/-- The key that an owner key record holds, if its magic, its epoch and its tag are right. -/
def recordOwner (b : List Byte) (epoch : Nat) : Option (List Byte) :=
  if rdLE b 0 4 = 0x4F4B3834 ∧ rdLE b 4 4 = epoch ∧ slice b 0xA28 64 = ownerTag b then some (slice b 8 2592) else none

/-! ### Records of a configuration image (R381, R382) -/

/-- TLV records up to the end of the image; the number is how many there must be. -/
def parseRecs : Nat → List Byte → Option (List (Nat × List Byte))
  | 0, b => if b = [] then some [] else none
  | n + 1, b =>
    let k := rdLE b 2 2
    let whole := 4 + cdiv k 4 * 4
    if b.length < whole ∨ !zeros b (4 + k) (whole - 4 - k) then none
    else (parseRecs n (b.drop whole)).map fun r => (rdLE b 0 2, (b.drop 4).take k) :: r

/-- Index of the first record that does not parse. -/
def badRecord : Nat → List Byte → Nat
  | 0, _ => 0
  | n + 1, b =>
    let k := rdLE b 2 2
    let whole := 4 + cdiv k 4 * 4
    if b.length < whole ∨ !zeros b (4 + k) (whole - 4 - k) then 0 else badRecord n (b.drop whole) + 1

/-- A record of the image with its position. -/
structure CfgRec where
  pos : Nat
  ty : Nat
  val : List Byte

/-- CFG_INVALID names a record and the byte offset of a field. -/
def CfgRec.bad (r : CfgRec) (field : Nat) : Option Refused := some (0x1002, [r.pos, field])

/-- CFG_INVALID for a record whose layout is the part's own: its field by its place in the row. -/
def CfgRec.badField (r : CfgRec) (n : Nat) : Option Refused := r.bad (Config.fieldWord 0x1002 r.ty n)

/-- Field `n` of such a record. -/
def CfgRec.f (r : CfgRec) (n : Nat) : Nat := recField r.ty n r.val

/-- The length that a record's row gives (R382). -/
def CfgRec.lenOk (r : CfgRec) : Bool :=
  let n := r.val.length
  match r.ty with
  | 0x01 | 0x02 | 0x03 | 0x12 | 0x26 => decide (n = 4)
  | 0x10 => decide (n = 4 + 4 * rdLE r.val 2 1)
  | 0x11 => decide (n = 8)
  | 0x20 | 0x25 | 0x30 => decide (n = 12)
  | 0x21 | 0x29 => decide (n = 16)
  | 0x22 => decide (n = 128)
  | 0x23 => decide (n = 24)
  | 0x24 => decide (24 ≤ n ∧ (n - 24) % 8 = 0)
  | 0x27 => decide (n = 68)
  | 0x28 => decide (n = 36)
  | 0x40 => decide (n = 96)
  | _ => true

/-- The field of a queue-pair context that breaks R299 or R301, as byte offset and top bit. A context that sets RESET stands
for no connection, and its other fields mean nothing. -/
def ctxField (c : List Byte) : Option (Nat × Nat) :=
  let w (o hi lo : Nat) : Nat := nbits (rdLE c o 4) hi lo
  if 1 < w 0 31 30 then some (0, 31)
  else if w 0 31 30 = 0 then none
  else if w 0 29 28 = 3 then some (0, 29)
  else if w 4 28 27 = 3 then some (4, 28)
  else if w 4 26 22 = 0 then some (4, 26)
  else if w 4 14 0 ≠ 0 then some (4, 14)
  else if w 8 31 24 ≠ 0 then some (8, 31)
  else if w 0xC 31 24 ≠ 0 then some (0xC, 31)
  else if w 4 15 15 = 0 ∧ zeros c 0x10 12 = false then some (0x10, 31)
  else if zeros c 0x26 2 = false then some (0x24, 31)
  else if zeros c 0x2E 2 = false then some (0x2C, 31)
  else if zeros c 0x30 16 = false then some (0x30, 31)
  else none

/-- A record against its own row (R382, R384, R415). -/
def CfgRec.check (r : CfgRec) : Option Refused :=
  let v := r.val
  let b := fun (i : Nat) => rdLE v i 1
  if !r.lenOk then r.bad 0
  else match r.ty with
    | 0x01 => none
    | 0x02 => if rdLE v 0 4 < 700 ∨ 1100 < rdLE v 0 4 ∨ rdLE v 0 4 % 10 ≠ 0 then r.bad 0 else none
    | 0x03 => let c := rdLE v 0 4; if c ≠ 0 ∧ (c < 2000 ∨ 9000 < c) then r.bad 0 else none
    | 0x10 =>
      if 4 ≤ b 0 then r.bad 0 else if 8 < b 2 then r.bad 2 else if b 3 ≠ 0 then r.bad 3
      else ((List.range (b 2)).find? fun i =>
        let n := rdLE v (6 + 4 * i) 2
        decide (n = 0 ∨ 1024 < rdLE v (4 + 4 * i) 2 + n)).bind fun i => r.bad (4 + 4 * i)
    | 0x11 =>
      if 8 ≤ b 0 then r.bad 0 else if 2 ≤ b 1 then r.bad 1 else if b 2 = 0 then r.bad 2 else if 168 < b 3 then r.bad 3
      else if b 7 ≠ 0 then r.bad 7 else none
    | 0x12 =>
      if 8 ≤ b 0 then r.bad 0 else if b 1 = 0 ∨ 72 < b 1 then r.bad 1 else if rdLE v 2 2 ≠ 0 then r.bad 2 else none
    | 0x20 =>
      if 8 ≤ r.f 0 then r.badField 0 else if 3 ≤ r.f 1 then r.badField 1 else if 3 ≤ r.f 2 then r.badField 2
      else if 2 ≤ r.f 3 then r.badField 3 else if 16 ≤ r.f 4 then r.badField 4 else if 256 ≤ r.f 5 then r.badField 5
      else if 8 ≤ r.f 6 then r.badField 6 else none
    | 0x21 =>
      if 8 ≤ r.f 0 then r.badField 0 else if 4 ≤ r.f 1 then r.badField 1 else if 8 ≤ r.f 2 then r.badField 2
      else if 2 ≤ r.f 3 then r.badField 3 else if 4096 ≤ r.f 4 then r.badField 4 else if 64 ≤ r.f 5 then r.badField 5 else if 256 ≤ r.f 6 then r.badField 6
      else if r.f 9 ≠ 0 ∧ r.f 7 < r.f 9 + 2 * 9240 then r.badField 9 else none
    | 0x22 =>
      if 8 ≤ r.f 0 then r.badField 0 else if 4 ≤ r.f 1 then r.badField 1 else if 32 < r.f 4 then r.badField 4
      else if 128 < r.f 6 then r.badField 6 else if 128 < r.f 8 then r.badField 8 else if 2 ≤ r.f 10 then r.badField 10
      else ((List.range 20).find? fun i => decide (4096 ≤ r.f (11 + i))).bind fun i => r.badField (11 + i)
    | 0x23 => if 8 ≤ r.f 0 then r.badField 0 else if 4 ≤ r.f 1 then r.badField 1 else none
    | 0x24 =>
      if 8 ≤ r.f 0 then r.badField 0 else if 2 ≤ r.f 1 then r.badField 1 else if 2 ≤ r.f 2 then r.badField 2
      else if 16 ≤ r.f 3 then r.badField 3
      else if 256 ≤ r.f 4 then r.badField 4 else if r.f 5 * 8 + 24 ≠ v.length ∨ 256 < r.f 4 + r.f 5 then r.badField 5
      else if r.f 6 < 1000 ∨ 1000000000 < r.f 6 then r.badField 6
      else ((List.range (r.f 5)).find? fun i =>
        let n := rdLE v (28 + 8 * i) 4
        decide (256 ≤ rdLE v (24 + 8 * i) 4 ∨ n < 64 ∨ 1000000000 < n)).bind fun i => r.bad (24 + 8 * i)
    | 0x25 => if 8 ≤ r.f 0 then r.badField 0 else if 3 ≤ r.f 1 then r.badField 1 else if 60 < r.f 4 then r.badField 4 else none
    | 0x26 => if 8 ≤ r.f 0 then r.badField 0 else if 2 ≤ r.f 1 then r.badField 1 else none
    | 0x27 => if 8 ≤ r.f 0 then r.badField 0 else if 1024 ≤ r.f 1 then r.badField 1 else none
    | 0x28 =>
      if 8 ≤ r.f 0 then r.badField 0 else if 256 ≤ r.f 1 then r.badField 1 else if 4 ≤ r.f 5 then r.badField 5
      else if 4 ≤ r.f 6 then r.badField 6 else none
    | 0x29 =>
      if 8 ≤ r.f 0 then r.badField 0 else if 4 ≤ r.f 1 then r.badField 1
      else if r.f 2 < 16 ∨ 4096 < r.f 2 then r.badField 2 else none
    | 0x30 =>
      if 4 ≤ b 0 then r.bad 0 else if 8 ≤ b 1 then r.bad 1 else if 2 ≤ b 2 then r.bad 2 else if 64 ≤ b 3 then r.bad 3
      else if 10000 < rdLE v 4 2 then r.bad 4
      else if b 0 = 1 ∧ (rdLE v 6 2 = 0 ∨ 600 < rdLE v 6 2) then r.bad 6 else if rdLE v 8 4 ≠ 0 then r.bad 8 else none
    | 0x40 =>
      if rdLE v 0 4 % 64 / 4 ≠ 0 ∨ 256 ≤ rdLE v 0 4 then r.bad 0
      else if rdLE v 4 2 = 0 ∨ 3600 < rdLE v 4 2 then r.bad 4 else if rdLE v 6 2 ≠ 0 then r.bad 6
      else if rdLE v 8 8 % 4096 ≠ 0 ∨ 2 ^ 48 ≤ rdLE v 8 8 then r.bad 8
      else if rdLE v 0x10 4 % 4096 ≠ 0 then r.bad 0x10
      else if rdLE v 0x14 4 < 64 ∨ 200278016 < rdLE v 0x10 4 + rdLE v 0x14 4 then r.bad 0x14
      else if rdLE v 0x18 4 % 64 ≠ 0 ∨ rdLE v 0x14 4 ≤ rdLE v 0x18 4 then r.bad 0x18
      else if rdLE v 0x1C 4 ≠ 0 then r.bad 0x1C else none
    | n => if n < 0x8000 then r.bad 0 else none

/-- The index fields that no two records of a type may share (R382): of SYNC_IO the claim; two PTP outputs of different ports are the
conflict of row 2 of R383. -/
def CfgRec.key (r : CfgRec) : List Nat :=
  match r.ty with
  | 0x10 | 0x11 | 0x12 => [rdLE r.val 0 1]
  | 0x30 => if rdLE r.val 0 1 = 2 then [2, rdLE r.val 1 1] else [rdLE r.val 0 1]
  | 0x20 | 0x25 | 0x26 | 0x29 => [r.f 0]
  | 0x21 => [r.f 0, r.f 1, r.f 2]
  | 0x22 => [r.f 0, r.f 1]
  | 0x23 => [r.f 0, r.f 1, r.f 2]
  | 0x24 | 0x27 | 0x28 => [r.f 0, r.f 1]
  | _ => []

/-! ### Claims across records (R383) -/

/-- CFG_CONFLICT of two claims, each an index word and a field word. -/
def conflict (a b : Nat × Nat) : Option Refused := some (0x1001, [a.1, a.2, b.1, b.2])

/-- A claim by a record of explicit layout, and by one whose layout is the part's own. -/
def CfgRec.claim (r : CfgRec) (field : Nat) : Nat × Nat := (r.pos, field)
def CfgRec.claimF (r : CfgRec) (n : Nat) : Nat × Nat := (r.pos, Config.fieldWord 0x1001 r.ty n)

/-- The first answer for a pair of records in image order. -/
def firstPair (f : CfgRec → CfgRec → Option Refused) : List CfgRec → Option Refused
  | [] => none
  | r :: l => (l.findSome? (f r)).orElse fun _ => firstPair f l

/-- The GiB ranges of a PARTITION record. -/
def CfgRec.ranges (r : CfgRec) : List (Nat × Nat × Nat) :=
  (List.range (rdLE r.val 2 1)).map fun i => (4 + 4 * i, rdLE r.val (4 + 4 * i) 2, rdLE r.val (6 + 4 * i) 2)

/-- Whether ranges of GiB units hold every byte of a run, adjacent ones together (R223, R300). -/
def coversRun (gs : List (Nat × Nat)) (a n : Nat) : Bool :=
  (List.range ((a + n - 1) / 2 ^ 30 + 1 - a / 2 ^ 30)).all fun i => gs.any fun g =>
    decide (g.1 ≤ a / 2 ^ 30 + i ∧ a / 2 ^ 30 + i < g.1 + g.2)

/-- Whether a run of bytes lies in the ranges of partition `p` in a list of records. -/
def inPartRanges (rs : List CfgRec) (p a n : Nat) : Bool :=
  decide (0 < n) && coversRun ((rs.filter fun r => decide (r.ty = 0x10) && decide (rdLE r.val 0 1 = p)).flatMap fun r =>
    r.ranges.map Prod.snd) a n

/-- Claims of two records on each other: rows 1, 2, 13, 14, 15 and 16 of R383, and the schedules of row 5. -/
def pairClash (a b : CfgRec) : Option Refused :=
  if a.ty ≠ b.ty then none
  else match a.ty with
    | 0x30 => if rdLE a.val 0 1 ≠ 0 ∧ rdLE b.val 0 1 ≠ 0 then conflict (a.claim 0) (b.claim 0) else none
    | 0x10 =>
      if rdLE a.val 1 1 &&& rdLE b.val 1 1 ≠ 0 then conflict (a.claim 1) (b.claim 1)
      else a.ranges.findSome? fun g => (b.ranges.find? fun h => decide (g.2.1 < h.2.1 + h.2.2 ∧ h.2.1 < g.2.1 + g.2.2)).bind
        fun h => conflict (a.claim g.1) (b.claim h.1)
    | 0x40 =>
      if rdLE a.val 0 4 % 4 = rdLE b.val 0 4 % 4 then conflict (a.claim 0) (b.claim 0)
      else if rdLE a.val 0x10 4 < rdLE b.val 0x10 4 + rdLE b.val 0x14 4 ∧ rdLE b.val 0x10 4 < rdLE a.val 0x10 4 + rdLE a.val 0x14 4 then
        conflict (a.claim 0x10) (b.claim 0x10)
      else none
    | 0x24 =>
      let port := Config.fieldWord 0x6004 0x24 3
      if a.f 0 ≠ b.f 0 then none
      else if a.f 3 &&& b.f 3 ≠ 0 then some (0x6004, [b.f 0, b.pos, port])
      else if a.f 4 < b.f 4 + b.f 5 ∧ b.f 4 < a.f 4 + a.f 5 then some (0x6004, [b.f 0, b.pos, Config.fieldWord 0x6004 0x24 4])
      else none
    | _ => none

/-- Whether a partition range overlaps the host context region of another partition on the stack that holds the regions at
first, stack 0 (R171, R223). -/
def hctxClash (r : CfgRec) : Option Refused :=
  (List.range 4).findSome? fun q =>
    let lo := 0x1FF0000000 + q * 0x4000000
    if rdLE r.val 0 1 = q then none
    else (r.ranges.find? fun g => decide (g.2.1 * 2 ^ 30 < lo + 0x4000000 ∧ lo < (g.2.1 + g.2.2) * 2 ^ 30)).bind fun g =>
      conflict (r.claim g.1) (0x50000000 + q, 0)

/-- PORT_CFG_INVALID for field `n` of a port record (R303). -/
def portBad (r : CfgRec) (n : Nat) : Option Refused := some (0x6004, [r.f 0, r.pos, Config.fieldWord 0x6004 r.ty n])

/-- Claims and conditions of one record against the rest of the image: rows 3, 4, 12 and 14 of R383, and the checks of R279, R280,
R288, R299 and R300. No record names the class of an OT virtual channel, so row 6 falls to the job loader. -/
def crossCheck (rs : List CfgRec) (r : CfgRec) : Option Refused :=
  let portRec := fun (ty t : Nat) => rs.find? fun x => decide (x.ty = ty ∧ x.f 0 = t)
  let mode := fun (t : Nat) => ((portRec 0x20 t).map fun x => x.f 1).getD 0
  match r.ty with
  | 0x10 => hctxClash r
  | 0x11 => if rdLE r.val 1 1 = 1 ∧ rdLE r.val 3 1 ≠ 0 then conflict (r.claim 1) (r.claim 3) else none
  | 0x20 =>
    if (List.range 4).any fun q => (r.f 4).testBit q && !(rs.any fun x =>
        decide (x.ty = 0x22 ∧ x.f 0 = r.f 0 ∧ x.f 1 = q ∧ x.f 2 ≠ 0)) then portBad r 4
    else none
  | 0x21 =>
    let shares := (rs.filter fun x => decide (x.ty = 0x21 ∧ x.f 0 = r.f 0 ∧ x.pos ≤ r.pos)).map fun x => x.f 7
    if rxBuffer < shares.foldl (· + ·) 0 then portBad r 7 else none
  | 0x23 => if 256 < (rs.filter fun x => decide (x.ty = 0x23 ∧ x.f 0 = r.f 0 ∧ x.pos ≤ r.pos)).length then r.badField 0 else none
  | 0x24 =>
    if r.f 1 ≠ 1 then none
    else if mode (r.f 0) = 0 then portBad r 1
    else if r.f 2 = 0 then none
    else match (portRec 0x25 (r.f 0)).filter (fun x => decide (x.f 4 ≠ 0)), (portRec 0x26 (r.f 0)).filter (fun x => decide (x.f 1 ≠ 0)) with
      | some x, _ => conflict (r.claimF 2) (x.claimF 4)
      | none, some x => conflict (r.claimF 2) (x.claimF 1)
      | none, none => none
  | 0x27 => if (ctxField (r.val.drop 4)).isSome then portBad r 2 else none
  | 0x28 => if inPartRanges rs (r.f 6) (r.f 2) (r.f 3) then none else portBad r 2
  | 0x29 => if inPartRanges rs (r.f 1) (r.f 3) (64 + r.f 2 * 16384) then none else portBad r 3
  | 0x40 => if inPartRanges rs (rdLE r.val 0 4 % 4) (rdLE r.val 8 6) (rdLE r.val 0x14 4) then none else r.bad 8
  | _ => none

/-- Two records that may not both stand in one image. -/
def repeated (a b : CfgRec) : Option Refused :=
  if a.ty = b.ty ∧ a.ty < 0x40 ∧ a.key = b.key then b.bad 0 else none

/-! ### A configuration image (R381) -/

/-- The records of an image with their positions. -/
def cfgRecords (b : List Byte) : Option (List CfgRec) :=
  (parseRecs (rdLE b 0x14 4) ((b.take (rdLE b 0x10 4)).drop 0x1400)).map fun l => (indexed l).map fun e => ⟨e.1, e.2.1, e.2.2⟩

/-- The first field of the header that is refused, by its byte offset. -/
def cfgHeaderBad (b : List Byte) : Option Nat :=
  if rdLE b 0 4 ≠ 0x43463834 then some 0
  else if rdLE b 4 4 ≠ 1 then some 4
  else if conductMax < rdLE b 0xC 4 then some 0xC
  else if rdLE b 0x10 4 < 0x1400 ∨ 16777216 < rdLE b 0x10 4 ∨ b.length < rdLE b 0x10 4 then some 0x10
  else if rdLE b 0x14 4 = 0 ∨ 65535 < rdLE b 0x14 4 then some 0x14
  else if !zeros b 0x18 0x28 then some 0x18
  else if !zeros b 0x1293 0x16D then some 0x1293
  else none

/-- Exactly one USB_IDS record (R382): a second one is refused by its index. DESIGN CHOICE: where none is, the index is the one past the last
record (log entry 9). -/
def idsCheck (rs : List CfgRec) : Option Refused :=
  match rs.filter fun r => decide (r.ty = 1) with
  | [] => some (0x1002, [rs.length, 0])
  | [_] => none
  | _ :: r :: _ => r.bad 0

/-- Records in image order, each against its own table, then the claims across them (R382, R383). -/
def recordsCheck (rs : List CfgRec) : Option Refused :=
  (rs.findSome? CfgRec.check).orElse fun _ =>
  (idsCheck rs).orElse fun _ =>
  (firstPair repeated rs).orElse fun _ => (rs.findSome? (crossCheck rs)).orElse fun _ => firstPair pairClash rs

/-- The first check that a configuration image fails under an owner key and the CFG_VERSION counter (R371, R381-R383). -/
def cfgCheck (b : List Byte) (owner : Option (List Byte)) (version : Nat) : Option Refused :=
  match cfgHeaderBad b with
  | some o => some (0x1002, [Config.fieldWord 0x1002 0xFFFF 0, o])
  | none =>
    let n := rdLE b 0x10 4
    let digest := sha3_512 (b.take 0x80 ++ (b.take n).drop 0x1400)
    match owner with
    | none => some (0x1003, [])
    | some k =>
      if sha3_512 k ≠ slice b 0x40 64 ∨ !Config.mldsaVerify k (ascii "T840-CFG") digest (slice b 0x80 4627) then some (0x1003, [])
      else if rdLE b 8 4 < version then some (0x1004, [rdLE b 8 4, version])
      else match cfgRecords b with
        | none => some (0x1002, [badRecord (rdLE b 0x14 4) ((b.take n).drop 0x1400), 0])
        | some rs => recordsCheck rs

end Sys2Proof.Machine
end

