-- ==== Sys2Proof/Machine/Images.lean ====
section
/-! DEFINITION. MODEL_LOAD: reading a checkpoint image back (R362, R363). A handle's work list holds port, queue pair, remote
base, RKEY and phase: 0 job header, 1 job-state bank, 2 waiting for the first roster, 3 units or regions. -/

namespace Sys2Proof.Machine

/-- The next transfer of a MODEL_LOAD is posted while it runs. -/
def State.loadNext (s : State) (h : Nat) : State :=
  match s.handleOf h with
  | none => s
  | some x => match x.xfers with
    | f :: _ =>
      if x.state = .running ∧ x.suspendPending = false ∧ (s.qp x.path.1 x.path.2).owes (.op h) = false then
        s.postRead x.path.1 x.path.2 (.op h) f.loc (x.work.getD 2 0 + f.off) (x.work.getD 3 0) f.len
      else s
    | [] => s

/-- A MODEL_LOAD begins with the job header (R362). -/
def State.loadBegin (s : State) (h : Nat) : State :=
  (s.updHandle h fun x => { x with work := x.work.take 4 ++ [0], xfers := [⟨0, true, [], 0, 4096⟩] }).loadNext h

/-- A header to check, then the data behind it. -/
def partXfers (off : Nat) (hdr : List Byte) (data : List Xfer) : List Xfer := ⟨0, true, hdr, off, 64⟩ :: data

/-- Transfers of phase 3: each unit held, or each region, its header before its data (R362, R363). -/
def Job.loadXfers (j : Job) : List Xfer :=
  let l := j.jstateLen
  match j.cluster with
  | none => (indexed (regionOffsets (0x1000 + l) (j.upd.getD {}).regions)).flatMap fun e =>
      partXfers e.2.1 (regionHeader e.1 j.step.commit e.2.2.kind e.2.2.len) (memXfers (j.liveBase e.2.2) (e.2.1 + 4096) e.2.2.len)
  | some c => match j.unitMap with
    | none => []
    | some u => c.units.flatMap fun ks =>
        let o := 0x1000 + l + ks.1 * (4096 + u.stateBytes + u.pubBytes)
        partXfers o (unitHeader ks.1 j.step.commit c.cl.key)
          (memXfers (j.liveBase u.state + ks.2 * u.stateBytes) (o + 4096) u.stateBytes ++
            memXfers (j.liveBase u.pub + ks.2 * u.pubBytes) (o + 4096 + u.stateBytes) u.pubBytes)

/-- A MODEL_LOAD has read everything: DONE, and in a cluster REBALANCED (R362). -/
def State.loadDone (s : State) (p : PartId) (h : Nat) : State :=
  let s := s.opDone h 0 0 0
  if (s.cluster p).isSome then s.sendRebalanced p else s

/-- Phase 3 of a MODEL_LOAD begins. -/
def State.loadParts (s : State) (p : PartId) (h : Nat) : State :=
  match s.job p with
  | none => s
  | some j =>
    let xs := j.loadXfers
    let s := s.updHandle h fun x => { x with work := x.work.take 4 ++ [3], xfers := xs }
    if xs = [] then s.loadDone p h else s.loadNext h

/-- The first roster reaches a member whose MODEL_LOAD waits for it (R362). -/
def State.loadRoster (s : State) (p : PartId) : State :=
  match s.handles.find? fun x => decide (x.kind = 3 ∧ x.part = some p ∧ x.state ≠ .done ∧ x.work.getD 4 0 = 2) with
  | some x => s.loadParts p x.num
  | none => s

/-- A failed check of an image ends MODEL_LOAD; in a cluster's second phase the starter hears of it (R362). -/
def State.loadMismatch (s : State) (p : PartId) (h field unit : Nat) : State :=
  let phase := ((s.handleOf h).map fun x => x.work.getD 4 0).getD 0
  let s := s.raise .mc (some p) 0x7107 [Config.fieldWord 0x7107 field 0, unit]
  let s := s.opDone h 3 0x7107 0
  match s.cluster p with
  | some c => if phase = 3 then s.sendAbortReq p 0x7107 c.self else s
  | none => s

/-- The first of some fields, as offset and length, in which a header of an image differs from the job's own. -/
def fieldDiffers (fs : List (Nat × Nat)) (own got : List Byte) : Option Nat :=
  fs.findSome? fun f => if slice own f.1 f.2 = slice got f.1 f.2 then none else some f.1

/-- The first field of an image's job header that differs from the job's own: every field but COMMIT and the roster size
(R361-R363). -/
def headerDiffers (own got : List Byte) : Option Nat :=
  fieldDiffers [(0x00, 4), (0x04, 4), (0x08, 8), (0x17, 1), (0x18, 4), (0x1C, 4), (0x20, 4), (0x24, 4), (0x28, 4), (0x30, 32)] own got

/-- The fields of a unit header, or of a region header (R361, R363). -/
def partFields (unit : Bool) : List (Nat × Nat) :=
  if unit then [(0x00, 4), (0x04, 4), (0x08, 4), (0x0C, 4), (0x10, 4), (0x14, 44)]
  else [(0x00, 4), (0x04, 4), (0x08, 4), (0x0C, 4), (0x10, 8), (0x18, 40)]

/-- The numerics state that a job-state bank holds (R62, R64, R164). -/
def NumState.ofBank (n : NumState) (tensors : Nat) (b : List Byte) : NumState :=
  { n with sg := sext 8 (rdLE b 4 1), clean := rdLE b 6 2, words := toWords tensors (b.drop 0x40) }

/-- Bytes that a transfer of MODEL_LOAD read have arrived (R362, R363). -/
def State.loadGot (s : State) (p : PartId) (h : Nat) (bs : List Byte) : State :=
  match s.handleOf h, s.job p with
  | some x, some j =>
    match x.xfers with
    | [] => s
    | f :: r =>
      let s := s.updHandle h fun x => { x with xfers := r }
      match x.work.getD 4 0 with
      | 0 => match headerDiffers (j.ckptHeader s.mc.conduct) bs with
        | some field => s.loadMismatch p h field 0
        | none =>
          let s := s.updJob p fun j => { j with step := { j.step with commit := rdLE bs 0x10 4 } }
          (s.updHandle h fun x => { x with work := x.work.take 4 ++ [1], xfers := [⟨0, true, [], 0x1000, j.jstateLen⟩] }).loadNext h
      | 1 =>
        let s := s.putBytes (j.upd.getD {}).jstate (bs ++ bs)
        let s := s.updJob p fun j => { j with
          num := j.num.ofBank j.wts.length bs, step := { j.step with optSteps := rdLE bs 8 4, norm := rdLE bs 0x20 4 } }
        match j.cluster with
        | none => s.loadParts p h
        | some c =>
          let s := s.updHandle h fun x => { x with work := x.work.take 4 ++ [2], xfers := [] }
          if c.roster = 0 then s else s.loadParts p h
      | _ =>
        match (if f.inline then fieldDiffers (partFields j.cluster.isSome) f.bytes bs else none) with
        | some field => s.loadMismatch p h field (rdLE f.bytes 4 4)
        | none =>
          let s := if f.inline then s else s.putBytes f.loc bs
          let s := s.updHandle h fun x => x.move bs.length
          if r = [] then s.loadDone p h else s.loadNext h
  | _, _ => s

end Sys2Proof.Machine
end

