-- ==== Sys2Proof/Machine/CommitMsgs.lean ====
section
/-! DEFINITION. The commands of the step commit: START, READY, COMMIT, ABORT and what goes with them (R350-R360). -/

namespace Sys2Proof.Machine

/-- START (R351, R357, R362): the member runs step c at attempt a; the first roster takes effect with it. -/
def execStartStep (p : PartId) (e : EntryId) (s : State) : Result :=
  match s.popMsg p e.val 0 0x20 with
  | none => .next s
  | some (m, s) => match s.job p, s.cluster p with
    | some j, some c =>
      if rdLE m 16 4 ≠ j.step.commit + 1 ∨ j.stop = .cancel ∨ j.stop = .failed then .next s
      else
        let s := match (if c.roster = 0 then c.dueRoster j.step.commit else none) with
          | some r => s.applyRoster p r true
          | none => s
        let s := s.updHandle j.handle fun x => if x.state = .suspended then { x with state := .running } else x
        let s := s.updJob p fun j => { j with
          paused := false, stop := .none, step := { j.step with attempt := rdLE m 20 1 }
          cmt := { j.cmt with phase := .running, spoke := false, decided := false, readies := [], timer := false } }
        let s := s.updCluster p fun c => { c with
          state := if c.state = .paused ∧ inMask c.roster c.self then .member else c.state }
        .next ((s.restartWhenClear p).removeUnreached p)
    | _, _ => .next s

/-- Whether a message of an attempt is about the step that follows the starter's own, whose COMMIT it has sent and not yet
applied itself (R351). -/
def Job.ahead (j : Job) (n : Nat) : Bool := j.cmt.decided && decide (n = j.step.commit + 2)

/-- READY (R351, R352): the first of an attempt starts the commit timer; equal READY from every member commits. -/
def execReady (p : PartId) (e : EntryId) (s : State) : Result :=
  match s.popMsg p e.val 0 0x21 with
  | none => .next s
  | some (m, s') => match s.job p, s.cluster p with
    | some j, some c =>
      let n := rdLE m 16 4
      if j.ahead n then .next s
      else if !c.leads || j.cmt.decided || decide (n ≠ j.step.commit + 1) || decide (rdLE m 20 1 ≠ j.step.attempt) ||
          !inMask c.roster e.val || j.cmt.readies.any (fun r => decide (r.entry = e.val)) then .next s'
      else
        let r : ReadyRec := ⟨e.val, rdLE m 21 1, rdLE m 22 1, rdLE m 24 4⟩
        .next ((s'.updJob p fun j => { j with cmt := { j.cmt with
          readies := j.cmt.readies ++ [r], timer := !j.cmt.ckptWait } }).weighReady p)
    | _, _ => .next s'

/-- ABORT_REQ (R349, R352, R362): received before COMMIT it decides the attempt; SHARD_VERSION removes the owner. One with cause CKPT_MISMATCH
comes from a member whose committed number may differ, and counts whatever step it names. -/
def execAbortReq (p : PartId) (e : EntryId) (s : State) : Result :=
  match s.popMsg p e.val 0 0x22 with
  | none => .next s
  | some (m, s') => match s.job p, s.cluster p with
    | some j, some c =>
      let n := rdLE m 16 4
      let code := rdLE m 22 2
      let x := rdLE m 24 1
      if j.ahead n then .next s
      else if !c.leads || j.cmt.decided || (decide (code ≠ 0x7107) && (decide (n ≠ j.step.commit + 1) || decide (rdLE m 20 1 ≠ j.step.attempt)))
        then .next s'
      else if code = 0x7105 ∧ x ≠ c.self then .next (s'.removeMember p x 0x7105 0x7105)
      else
        let s := if code = 0x7107 then s'.raise .mc (some p) 0x7107 [Config.fieldWord 0x7107 1 0, 0] else s'
        .next (s.starterAbort p code x 0 c.targets)
    | _, _ => .next s'

/-- COMMIT (R348, R350, R351, R353, R355): the member applies it, or ignores and counts one that is not of its step under way; a
member that was admitted enters with the roster that takes effect. -/
def execCommit (p : PartId) (e : EntryId) (s : State) : Result :=
  let port := s.msgPort p e.val 0
  match s.popMsg p e.val 0 0x23 with
  | none => .next s
  | some (m, s) => match s.job p, s.cluster p with
    | some j, some c =>
      let n := rdLE m 16 4
      let a := rdLE m 20 1
      if c.state = .admitting then
        match c.dueRoster n with
        | some r =>
          if inMask r.mask c.self then
            .next ((s.updJob p fun j => { j with step := { j.step with commit := n, attempt := 0 } }).applyRoster p r false)
          else .next s
        | none => .next s
      else if n = j.step.commit + 1 ∧ (a = j.step.attempt ∨ a = 0xFF) then
        .next (((s.applyCommit p n (rdLE m 21 1)).serveHeldGathers p).afterDecision p).fenceDue
      else .next (s.otBad port)
    | _, _ => .next s

/-- ABORT (R348, R350, R353, R354): the member applies it, or ignores and counts one that is not of its step under way. -/
def execAbort (p : PartId) (e : EntryId) (s : State) : Result :=
  let port := s.msgPort p e.val 0
  match s.popMsg p e.val 0 0x24 with
  | none => .next s
  | some (m, s) => match s.job p, s.cluster p with
    | some j, some c =>
      let n := rdLE m 16 4
      let a := rdLE m 20 1
      let flags := rdLE m 21 1
      if c.state = .admitting ∧ !flags.testBit 3 then
        match c.dueRoster (n - 1) with
        | some r =>
          if inMask r.mask c.self then
            .next ((s.updJob p fun j => { j with step := { j.step with commit := n - 1, attempt := a } }).applyRoster p r false)
          else .next s
        | none => .next s
      else if n = j.step.commit + 1 ∧ a = j.step.attempt + 1 then
        .next (((s.applyAbort p a flags (rdLE m 22 2) (rdLE m 24 1) (rdLE m 4 4)).serveHeldGathers p).afterDecision p).fenceDue
      else .next (s.otBad port)
    | _, _ => .next s

/-- The commit timer expires: ABORT naming the lowest member that has not reported; the third such abort in a row that names
one member removes it (R352). -/
def execCommitTimeout (p : PartId) (s : State) : Result :=
  match s.job p, s.cluster p with
  | some j, some c =>
    if !c.leads || !j.cmt.timer || j.cmt.decided then .next s
    else match (rosterList c.roster).find? fun e => !j.cmt.readies.any fun r => decide (r.entry = e) with
      | none => .next s
      | some x =>
        let s := s.raise .mc (some p) 0x7102 [j.step.commit + 1, j.step.attempt, x]
        let s := s.updJob p fun j => { j with cmt := { j.cmt with namedLate := x :: j.cmt.namedLate } }
        if (j.cmt.namedLate.take 2) = [x, x] ∧ x ≠ c.self then .next (s.removeMember p x 0x7102 0x7102)
        else .next (s.starterAbort p 0x7102 x 0 c.targets)
  | _, _ => .next s

/-- CKPT_REQ (R360): once every member has asked, the starter's next COMMIT carries CKPT. -/
def execCkptReq (p : PartId) (e : EntryId) (s : State) : Result :=
  match s.popMsg p e.val 0 0x25 with
  | none => .next s
  | some (_, s) => .next (s.updJob p fun j =>
      { j with cmt := { j.cmt with ckptReqs := if j.cmt.ckptReqs.contains e.val then j.cmt.ckptReqs else j.cmt.ckptReqs ++ [e.val] } })

/-- CKPT_READ (R360): once every member has read, the commit timer of the step may start. -/
def execCkptRead (p : PartId) (e : EntryId) (s : State) : Result :=
  match s.popMsg p e.val 0 0x26 with
  | none => .next s
  | some (_, s) => match s.job p, s.cluster p with
    | some j, some c =>
      let reads := j.cmt.ckptReads ++ [e.val]
      let all := (rosterList c.roster).all reads.contains
      .next (s.updJob p fun j => { j with cmt := { j.cmt with
        ckptReads := if all then [] else reads, ckptWait := j.cmt.ckptWait && !all
        timer := j.cmt.timer || (all && decide (j.cmt.readies ≠ [])) } })
    | _, _ => .next s

/-- REBALANCED (R358): START goes out once every member of the new roster has sent one. Before the first step its header's committed number
must be the starter's own, else the starter pauses the job (R362). -/
def execRebalanced (p : PartId) (e : EntryId) (s : State) : Result :=
  match s.popMsg p e.val 0 0x27 with
  | none => .next s
  | some (m, s') => match s.job p, s.cluster p with
    | some j, some c =>
      if j.cmt.decided ∧ rdLE m 16 4 = c.epoch + 1 then .next s
      else if !c.leads || decide (rdLE m 16 4 ≠ c.epoch) then .next s'
      else if !j.step.started && decide (rdLE m 8 4 ≠ j.step.commit) then
        .next ((s'.raise .mc (some p) 0x7107 [Config.fieldWord 0x7107 0 0, 0]).starterAbort p 0x7107 e.val 0 c.targets)
      else .next ((s'.updJob p fun j => { j with cmt := { j.cmt with rebalanced := j.cmt.rebalanced ++ [e.val] } }).tryStart p)
    | _, _ => .next s'

/-- HOST_OP at the starter (R352, R357): 1 suspend, 2 resume, 3 cancel. -/
def State.hostOp (s : State) (p : PartId) (op : Nat) : State :=
  match s.job p, s.cluster p with
  | some j, some c =>
    if !c.leads then s
    else if op = 1 then s.updJob p fun j => { j with cmt := { j.cmt with holdNext := true } }
    else if op = 2 then
      if j.cmt.limit then s.raise .mc (some p) 0x7104 [j.step.commit + 1]
      else
        let s := s.updJob p fun j => { j with paused := false, cmt := { j.cmt with
          holdNext := false, phase := if j.cmt.phase = .paused then .holding else j.cmt.phase } }
        let s := s.updHandle j.handle fun x => if x.state = .suspended then { x with state := .running } else x
        (s.beginFirst p).tryStart p
    else
      let s := s.updJob p fun j => { j with cmt := { j.cmt with cancelNext := true } }
      if j.cmt.decided then s
      else if j.allReady c ∧ c.roster ≠ 0 then s.sendCommit p 8
      else s.starterAbort p 0 c.self 8 c.targets
  | _, _ => s

/-- HOST_OP (R357). -/
def execHostOp (p : PartId) (e : EntryId) (s : State) : Result :=
  match s.popMsg p e.val 0 0x28 with
  | none => .next s
  | some (m, s) => .next (s.hostOp p (rdLE m 16 1))

/-- UNIT_XFER (R358): its commit number is checked; the unit goes to the lowest free slot, or waits for one. -/
def execUnitXfer (p : PartId) (e : EntryId) (vc : VcId) (s : State) : Result :=
  match s.popMsg p e.val vc.val 8 with
  | none => .next s
  | some (m, s) => match s.job p with
    | none => .next s
    | some j =>
      let k := rdLE m 8 4
      if rdLE m 4 4 ≠ j.step.commit then
        let s := s.raise .mc (some p) 0x7105 [k, j.step.commit, rdLE m 4 4, e.val]
        .next (s.reportAbort p 0x7105 (some e.val))
      else .next ((s.placeUnit p ⟨e.val, vc.val, m, none⟩).rebalanceEnd p)

end Sys2Proof.Machine
end

