-- ==== Sys2Proof/Machine/Descriptors.lean ====
section
/-! DEFINITION. The USB descriptors of the device and of the recovery identity (R235-R237). What the spec says of a descriptor is here; the
layouts are those of the USB specification (PRESUMED, log entry 38). -/

namespace Sys2Proof.Machine

/-- Whether the link runs at SuperSpeed (R236, R272). -/
def State.superSpeed (s : State) : Bool := decide (2 ≤ s.regFld usbLink 3 0)

/-- bcdDevice: STEP_LETTER in bits [11:8], STEP_DIGIT in bits [3:0]; 0 for the recovery identity (R235, R237). -/
def State.bcdDevice (s : State) : Nat :=
  if s.mc.recovery then 0 else nbits deviceId.toNat 15 12 * 256 + nbits deviceId.toNat 11 8

/-- The device descriptor (R235, R237). -/
def State.deviceDescriptor (s : State) : List Byte :=
  let ids := s.reg usbIds
  leBytes 1 18 ++ leBytes 1 1 ++ leBytes 2 0x0320 ++ leBytes 3 0 ++ leBytes 1 (if s.superSpeed then 9 else 64) ++
    leBytes 2 (fld ids 15 0) ++ leBytes 2 (fld ids 31 16) ++ leBytes 2 s.bcdDevice ++ leBytes 2 0 ++ leBytes 1 3 ++ leBytes 1 1

/-- An upper-case hexadecimal digit. -/
def hexDigit (n : Nat) : Nat := if n < 10 then 48 + n else 55 + n

/-- The serial-number string: the 64-bit serial number as 16 upper-case hexadecimal digits (R235). -/
def serialString : List Nat := (List.range 16).map fun i => hexDigit (nbits Config.serial.toNat (63 - 4 * i) (60 - 4 * i))

/-- An endpoint: its address, and whether it is an interrupt endpoint. -/
abbrev Endpoint : Type := Nat × Bool

/-- The interfaces with number, protocol and endpoints (R236, R237). -/
def usbInterfaces (recovery : Bool) : List (Nat × Nat × List Endpoint) :=
  if recovery then [(0, 3, [(0x01, false), (0x81, false)])]
  else [(0, 0, [(0x81, true)])] ++
    ((List.range 4).map fun p => (1 + p, 1, [(0x02 + p, false), (0x82 + p, false), (0x86 + p, true)])) ++
    [(5, 2, [(0x06, false), (0x8A, false)])]

/-- An endpoint descriptor, with its companion at SuperSpeed: maximum packet, burst and service interval of R236. -/
def endpointDescriptor (ss : Bool) (e : Endpoint) : List Byte :=
  leBytes 1 7 ++ leBytes 1 5 ++ leBytes 1 e.1 ++ leBytes 1 (if e.2 then 3 else 2) ++
    leBytes 2 (if e.2 then 64 else if ss then 1024 else 512) ++ leBytes 1 (if e.2 then 1 else 0) ++
    (if ss then leBytes 1 6 ++ leBytes 1 0x30 ++ leBytes 1 (if e.2 then 0 else 15) ++ leBytes 1 0 ++ leBytes 2 (if e.2 then 64 else 0) else [])

/-- An interface descriptor with its endpoints: class 0xFF, subclass 0x01 (R236). -/
def interfaceDescriptor (ss : Bool) (x : Nat × Nat × List Endpoint) : List Byte :=
  leBytes 1 9 ++ leBytes 1 4 ++ leBytes 1 x.1 ++ leBytes 1 0 ++ leBytes 1 x.2.2.length ++ leBytes 1 0xFF ++ leBytes 1 0x01 ++
    leBytes 1 x.2.1 ++ leBytes 1 0 ++ x.2.2.flatMap (endpointDescriptor ss)

/-- The configuration descriptor with all it holds: one configuration, self-powered, bMaxPower 0 (R235, R236). -/
def State.configDescriptor (s : State) : List Byte :=
  let l := usbInterfaces s.mc.recovery
  let b := l.flatMap (interfaceDescriptor s.superSpeed)
  leBytes 1 9 ++ leBytes 1 2 ++ leBytes 2 (9 + b.length) ++ leBytes 1 l.length ++ leBytes 1 1 ++ leBytes 1 0 ++ leBytes 1 0xC0 ++
    leBytes 1 0 ++ b

/-- The BOS descriptor: USB 2.0 extension with LPM, SuperSpeed USB, SuperSpeedPlus (R235); what the latter two hold beyond their types is
free. -/
def bosDescriptor : List Byte :=
  let body (t n : Nat) : List Byte := leBytes 1 (3 + n) ++ leBytes 1 0x10 ++ leBytes 1 t ++ (List.range n).map fun i => Config.bosBody t i
  let caps := leBytes 1 7 ++ leBytes 1 0x10 ++ leBytes 1 2 ++ leBytes 4 2 ++ body 3 7 ++ body 0x0A 17
  leBytes 1 5 ++ leBytes 1 0x0F ++ leBytes 2 (5 + caps.length) ++ leBytes 1 3 ++ caps

/-- GET_DESCRIPTOR by descriptor type and index, none for a descriptor that the device has not. -/
def State.descriptor (s : State) (type index : Nat) : Option (List Byte) :=
  if type = 1 then some s.deviceDescriptor
  else if type = 2 ∧ index = 0 then some s.configDescriptor
  else if type = 3 ∧ index = 0 then some (leBytes 1 4 ++ leBytes 1 3 ++ leBytes 2 0x0409)
  else if type = 3 ∧ index = 3 then some (leBytes 1 34 ++ leBytes 1 3 ++ serialString.flatMap (leBytes 2))
  else if type = 0x0F ∧ !s.mc.recovery then some bosDescriptor
  else none

end Sys2Proof.Machine
end

