-- ==== Sys2Proof/Machine/Nvm.lean ====
section
/-! DEFINITION. The NVM: its areas, its header, the order and the pages of its writes, the ageing log (R374-R377, R413). -/

namespace Sys2Proof.Machine

/-! ### Areas (R374) -/

def nvmCounters : Nat := 0x10000
def nvmOwner : Nat := 0x20000
def nvmFw : Nat := 0x100000
def nvmCfg : Nat := 0x2100000
def nvmLog : Nat := 0x3100000
def nvmPayload : Nat := 0x4100000
def payloadBytes : Nat := 0xBF00000

/-- Bytes programmed into the NVM. -/
def State.nvmPut (s : State) (a : Nat) (bs : List Byte) : State :=
  { s with nvm := (indexed bs).foldl (fun m e => mapPut 0xFF m (a + e.1) e.2) s.nvm }

/-- Bytes of the NVM erased. -/
def State.nvmErase (s : State) (a n : Nat) : State :=
  { s with nvm := s.nvm.filter fun e => !(decide (a ≤ e.1) && decide (e.1 < a + n)) }

/-- Bytes that the NVM erases at once (log entry 16). -/
def eraseBytes : Nat := 0x10000

/-- Bytes that the NVM programs at once (log entry 16). -/
def pageBytes : Nat := 256

/-! ### The header (R374) -/

/-- Copy `i` of the NVM header if it is valid: sequence number and lengths of the firmware and configuration images. -/
def State.headerCopy (s : State) (i : Nat) : Option (Nat × Nat × Nat) :=
  let b := s.nvmRd (i * 0x1000) 0x80
  if rdLE b 0 4 = 0x564E3834 ∧ slice b 0x40 64 = sha3_512 (b.take 0x40) then some (rdLE b 4 4, rdLE b 8 4, rdLE b 12 4) else none

/-- The valid copy with the higher sequence number: its place and its fields. -/
def State.nvmHeader (s : State) : Option (Nat × Nat × Nat × Nat) :=
  match s.headerCopy 0, s.headerCopy 1 with
  | some a, some b => if a.1 < b.1 then some (1, b) else some (0, a)
  | some a, none => some (0, a)
  | none, some b => some (1, b)
  | none, none => none

/-- The older copy of the header rewritten with the next sequence number and these image lengths. -/
def State.writeHeader (s : State) (fw cfg : Nat) : State :=
  let (place, q) := match s.nvmHeader with
    | some h => (1 - h.1, h.2.1 + 1)
    | none => (0, 1)
  let b := padTo 0x40 (leBytes 4 0x564E3834 ++ leBytes 4 q ++ leBytes 4 fw ++ leBytes 4 cfg)
  s.nvmPut (place * 0x1000) (padTo 0x1000 (b ++ sha3_512 b))

/-- Length of the firmware image and of the configuration image in the NVM; 0 without a header. -/
def State.imageLens (s : State) : Nat × Nat := match s.nvmHeader with | some h => (h.2.2.1, h.2.2.2) | none => (0, 0)

/-! ### The fixed area of the ageing log (R413) -/

/-- Copy `i` of the fixed area if it is valid. -/
def State.fixedCopy (s : State) (i : Nat) : Option (List Byte) :=
  let b := s.nvmRd (nvmLog + i * 0x10000) 0x10000
  if rdLE b 0 4 = ageMagic ∧ b.drop 0xFFC0 = sha3_512 (b.take 0xFFC0) then some b else none

/-- The valid copy with the higher sequence number, and its place. -/
def State.fixedArea (s : State) : Option (Nat × List Byte) :=
  match s.fixedCopy 0, s.fixedCopy 1 with
  | some a, some b => if rdLE a 4 4 < rdLE b 4 4 then some (1, b) else some (0, a)
  | some a, none => some (0, a)
  | none, some b => some (1, b)
  | none, none => none

/-- The older copy rewritten with the next sequence number. -/
def State.writeFixed (s : State) : State :=
  let (place, q) := match s.fixedArea with
    | some h => (1 - h.1, rdLE h.2 4 4 + 1)
    | none => (0, 1)
  let b := s.fixedBody q
  s.nvmPut (nvmLog + place * 0x10000) (b ++ sha3_512 b)

/-! ### The circular log (R413) -/

/-- Entries of the circular log. -/
def logEntries : Nat := 520192

/-- Address of entry `n` of the circular log. -/
def logAddr (n : Nat) : Nat := nvmLog + 0x20000 + n * 32

/-- One entry is written; the first of a sector finds it erased (R413). -/
def State.logEntry (s : State) (b : List Byte) : State :=
  let n := s.mc.logNext
  let s := if n % 2048 = 0 then s.nvmErase (logAddr n) 0x10000 else s
  let s := s.nvmPut (logAddr n) b
  { s with mc := { s.mc with logNext := (n + 1) % logEntries } }

/-- A record of one or more entries is written; the first number is fuel. -/
def State.logRecord : Nat → State → List Byte → State
  | 0, s, _ => s
  | f + 1, s, b => if b = [] then s else (s.logEntry (b.take 32)).logRecord f (b.drop 32)

/-! ### The order of writes (R377) -/

/-- Whether NVM writes are inhibited (R416). -/
def State.nvmInhibited (s : State) : Bool := s.mc.auxInhibit || s.mc.vinInhibit

/-- The write whose turn it is. -/
def State.nvmHead (s : State) : Option NvmWork := s.mc.nvmQueue.head?

/-- The write whose turn it is, changed through `f`. -/
def State.updHead (s : State) (f : NvmWork → NvmWork) : State :=
  { s with mc := { s.mc with nvmQueue := match s.mc.nvmQueue with | [] => [] | w :: r => f w :: r } }

/-- The write whose turn it is begins or goes on with its next page, unless writes are inhibited; a FW_STAGE sends its first
progress report as it begins (R377, R386). -/
def State.nvmGo (s : State) : State :=
  if s.nvmInhibited || s.mc.nvmBusy then s
  else match s.nvmHead with
    | some w =>
      match w.src with
      | .op h =>
        if w.live ∨ ((s.handleOf h).any fun x => decide (x.kind = 0x12)) then
          let s := (s.updHead fun w => { w with live := true }).updHandle h fun x =>
            if x.kind = 0x12 then { x with work := 1 :: x.work.drop 1 } else x
          { s with mc := { s.mc with nvmBusy := true } }
        else s
      | _ => s
    | none => s

/-- The write whose turn it was is complete, and the next may begin. -/
def State.nvmNext (s : State) : State :=
  ({ s with mc := { s.mc with nvmQueue := s.mc.nvmQueue.drop 1, nvmBusy := false } } : State).nvmGo

/-- A write of data from `base` on, with erase blocks before it. -/
def State.nvmBegin (s : State) (base blocks : Nat) (data : List Byte) : State :=
  (s.updHead fun w => { w with base := base, data := data, blocks := blocks, erased := 0, pos := 0, live := true }).nvmGo

/-- The page or block under way ends (R377); progress counts the bytes programmed (R271). -/
def State.nvmPage (s : State) (w : NvmWork) : State :=
  if w.erased < w.blocks then
    (s.nvmErase (w.base + w.erased * eraseBytes) eraseBytes).updHead fun w => { w with erased := w.erased + 1 }
  else
    let b := (w.data.drop w.pos).take pageBytes
    let s := (s.nvmPut (w.base + w.pos) b).updHead fun w => { w with pos := w.pos + b.length }
    match w.src with
    | .op h => s.updHandle h fun x => { x with progress := x.progress + b.length }
    | _ => s

/-- Whether a write has nothing left to do. -/
def NvmWork.complete (w : NvmWork) : Bool := decide (w.blocks ≤ w.erased) && decide (w.data.length ≤ w.pos)

end Sys2Proof.Machine
end

