-- ==== Sys2Proof/Machine/Requests.lean ====
section
/-! DEFINITION. Vendor requests on the control pipe, their failures, and the handles of long operations (R238-R240, R267,
R373). -/

namespace Sys2Proof.Machine

/-! ### Status codes (R240) -/

def stCancelled : Nat := 2
def stFailed : Nat := 3
def stStarted : Nat := 1
def stRequest : Nat := 0x10
def stAddress : Nat := 0x11
def stLocked : Nat := 0x12
def stDenied : Nat := 0x13
def stHeldFull : Nat := 0x14
def stSeqOrder : Nat := 0x15
def stResetBusy : Nat := 0x16
def stOpcode : Nat := 0x20
def stLevel : Nat := 0x21
def stField : Nat := 0x22
def stPartBusy : Nat := 0x23
def stHandlesFull : Nat := 0x24
def stNoPart : Nat := 0x25
def stUnknown : Nat := 0x26
def stNoSuspend : Nat := 0x27
def stPresence : Nat := 0x28
def stNoCancel : Nat := 0x29

/-! ### Requests -/

/-- Whether requests reach the device: it has started or is in recovery, and the link is up and not suspended (R234, R371). -/
def State.linked (s : State) : Bool :=
  s.mc.on && (s.mc.complete || s.mc.recovery) && decide (s.regFld usbLink 10 8 ≠ 4) && !s.usb.suspended

/-- Interface that a request is about; 0 is MGMT (R238). -/
def reqIface (r : Setup) : Nat := match r.recip with | .iface => r.wIndex | _ => 0

/-- The failure record of a recipient (R239). -/
def State.setError (s : State) (i : Nat) (e : List Byte) : State :=
  if 1 ≤ i ∧ i ≤ 4 then s.updIface (Fin.ofNat 4 (i - 1)) fun f => { f with lastError := e }
  else if i = 5 then { s with diag := { s.diag with lastError := e } }
  else { s with usb := { s.usb with lastError := e } }

/-- The failure record that a recipient holds. -/
def State.errorOf (s : State) (i : Nat) : List Byte :=
  if 1 ≤ i ∧ i ≤ 4 then s.parts[Fin.ofNat 4 (i - 1)].iface.lastError
  else if i = 5 then s.diag.lastError
  else s.usb.lastError

/-- A request fails: STALL, and the record that GET_LAST_ERROR returns (R238, R239). -/
def State.reqFail (s : State) (i b status detail : Nat) : State :=
  let s := s.setError i (leBytes 2 b ++ leBytes 2 status ++ leBytes 4 detail)
  { s with usb := { s.usb with stalled := true, data := [] } }

/-- A request completes with its data stage. -/
def State.reqOk (s : State) (d : List Byte) : State := { s with usb := { s.usb with stalled := false, data := d } }

/-- A row of the request table: whether the device is a recipient, the interfaces that are, the direction, the lengths, whether
wValue must be 0 and whether recovery answers it (R238, R373). -/
structure ReqForm where
  dev : Bool
  lo : Nat := 6
  hi : Nat := 5
  dirIn : Bool
  len : Nat → Bool
  value0 : Bool := false
  index0 : Bool := false
  inRecovery : Bool := false

/-- Whether a request has the form of its row. -/
def ReqForm.ok (q : ReqForm) (recovery : Bool) (r : Setup) : Bool :=
  (match r.recip with
    | .device => q.dev && (!q.index0 || decide (r.wIndex = 0))
    | .iface => decide (q.lo ≤ r.wIndex) && decide (r.wIndex ≤ q.hi) && (!recovery || decide (r.wIndex = 0))
    | .other => false) &&
  decide (r.dirIn = q.dirIn) && q.len r.wLength && (!q.value0 || decide (r.wValue = 0)) && (!recovery || q.inRecovery)

/-- Whether an interface completes a FUNC_RESET (R264). -/
def State.busy (s : State) (i : Nat) : Bool :=
  if 1 ≤ i ∧ i ≤ 4 then s.parts[Fin.ofNat 4 (i - 1)].iface.resetBusy else decide (i = 5) && s.diag.resetBusy

/-- A standard request: GET_DESCRIPTOR returns a descriptor or STALLs; the others are the USB specification's and reach nothing that the
model holds (R235-R237, log entry 38). -/
def State.standardRequest (s : State) (r : Setup) : State :=
  if r.bRequest = 6 ∧ r.dirIn ∧ r.recip = .device then
    match s.descriptor (r.wValue / 256) (r.wValue % 256) with
    | some d => s.reqOk (d.take r.wLength)
    | none => { s with usb := { s.usb with stalled := true, data := [] } }
  else s

/-- A request is checked against its row, then does what `f` says of its interface; one with a bRequest that the table has not is refused
(R238, R264, R373). -/
def State.request (s : State) (r : Setup) (b : Nat) (q : ReqForm) (f : Nat → State → State) : State :=
  if !s.linked then s
  else if !r.vendor then s.standardRequest r
  else if r.bRequest ≠ b then s.reqFail (if r.recip = .iface then r.wIndex % 256 else 0) r.bRequest stRequest 0
  else if !q.ok s.mc.recovery r then s.reqFail (if r.recip = .iface then r.wIndex % 256 else 0) b stRequest 0
  else if s.busy (reqIface r) then s.reqFail (reqIface r) b stResetBusy 0
  else f (reqIface r) s

/-! ### Handles (R267) -/

/-- The handle that the next long operation takes: ascending with wrap-round, live values skipped. -/
def State.nextHandle (s : State) : Nat :=
  (((List.range 65535).map fun i => (s.lastHandle + i) % 65535 + 1).find? fun h => (s.handleOf h).isNone).getD 0

/-- Whether an interface holds as many handles as it may. -/
def State.handlesFull (s : State) (i : Nat) : Bool := decide (64 ≤ (s.handles.filter fun x => decide (x.owner = i)).length)

/-- A long operation begins under the next handle. -/
def State.openHandle (s : State) (f : Nat → Handle) : State :=
  let h := s.nextHandle
  { s with handles := s.handles ++ [f h], lastHandle := h }

/-- The handle a request of an interface may act on (R267). -/
def State.ownHandle (s : State) (i h : Nat) : Option Handle :=
  (s.handleOf h).bind fun x => if i = 0 ∨ x.owner = i then some x else none

/-- MGMT_OP_START of a kind (R270); recovery takes FW_STAGE and NVM_WRITE alone (R373). -/
def formOpStart (kind : Nat) : ReqForm :=
  { dev := true, dirIn := true, len := fun n => decide (n = 4), inRecovery := decide (kind = 0x12 ∨ kind = 0x13) }

/-- A start that began: its handle and STARTED. -/
def State.startOk (s : State) (h : Nat) : State := s.reqOk (leBytes 2 h ++ leBytes 2 stStarted)

/-- A start that is refused: handle 0 and its status, without a STALL (R270). -/
def State.startNo (s : State) (status : Nat) : State := s.reqOk (leBytes 2 0 ++ leBytes 2 status)

/-- MGMT_OP_START of a kind: `check` gives a refusal or the handle's content, `go` what begins with it (R267, R270). DESIGN CHOICE: a kind outside
the table of R269, and a core mask of KNEAD_SWEEP with bits above [7:0], are refused with FIELD_INVALID in the start's own status, where
R240 speaks of REQUEST_INVALID for a malformed request (log entry 105, unsafe). -/
def State.opStart (s : State) (r : Setup) (kind : Nat) (check : State → Except (Nat × State) (State × Handle))
    (go : Nat → State → State) : State :=
  s.request r 0x30 (formOpStart kind) fun _ s =>
    if r.wValue ≠ kind then s.startNo stField
    else if s.handlesFull 0 then s.startNo stHandlesFull
    else match check s with
      | .error (st, s) => s.startNo st
      | .ok (s, x) =>
        let h := s.nextHandle
        (go h (s.openHandle fun h => { x with num := h, kind := kind, owner := 0 })).startOk h

/-! ### Presence (R391, R392) -/

/-- A privileged operation finds presence armed and the seal intact, and disarms presence; otherwise it is refused with
PRESENCE_DENIED (R391). The details are the operation kind and the target. -/
def State.takePresence (s : State) (kind target : Nat) : Except (Nat × State) State :=
  if s.mc.armedUntil.isSome && s.mc.sealIntact then .ok { s with mc := { s.mc with armedUntil := none } }
  else .error (stPresence, s.raise .sec none 0x8008 [kind, target])

end Sys2Proof.Machine
end

