-- ==== Sys2Proof/Machine/Memory.lean ====
section
/-! DEFINITION. Retention, knead and patrol scrubbing (R179-R181, R188-R195, R270). -/

namespace Sys2Proof.Machine

/-! ### Retention -/

/-- Whether a core has nothing that keeps its SRAM up (R179). -/
def State.coreIdle (s : State) (c : CoreId) : Bool :=
  s.cores[c].issued.isEmpty && (s.cores[c].part.bind s.job).isNone

/-- RETENTION_ENTRY (R179, R202): the core has been idle for IDLE_MS with IDLE_EN set; it shows `entering` until the next loop tick. -/
def execRetentionEntry (c : CoreId) (s : State) : Result :=
  if s.coreUp c && bitAt (s.reg (coreMemRet c.val)) 8 && decide (s.cores[c].ret = .active) && s.coreIdle c then
    .next (s.updCore c fun k => { k with ret := .entering })
  else .next s

/-- Cores that were entering retention retain at the end of a loop period (R179, R202; log entry 47). -/
def State.retain (s : State) : State :=
  allCores.foldl (fun s c => s.updCore c fun k => { k with ret := if k.ret = .entering then .retained else k.ret }) s

/-- RETENTION_WAKE (R180): an access reaches the SRAM of a retained core, or of one that wakes. -/
def execRetentionWake (c : CoreId) (s : State) : Result := .next (s.touch c)

/-- WAKE_DONE (R180). -/
def execWakeDone (c : CoreId) (s : State) : Result :=
  .next (s.updCore c fun k => { k with ret := if k.ret = .waking then .active else k.ret })

/-! ### Knead -/

/-- Place of a memory's knead unit among those of a core. -/
def kneadUnit : KneadMem → Fin 3
  | .wm => 0
  | .crumb => 1
  | .side => 2

/-- Regions of a memory (R192). -/
def kneadRegions : KneadMem → Nat
  | .wm => 2048
  | .crumb => 65536
  | .side => 32

/-- The gap of a memory's unit in CORE_MEM_KNEAD_CTL (R192, R202). -/
def State.kneadGap (s : State) (c : CoreId) : KneadMem → Nat
  | .wm => s.regFld (coreMemKneadCtl c.val) 7 0
  | .crumb => s.regFld (coreMemKneadCtl c.val) 15 8
  | .side => s.regFld (coreMemKneadCtl c.val) 23 16

/-- Place among a core's spares that region `r` of a memory draws on: crumb region r lies on die r mod 2 (R192, R194). -/
def spareSlot : KneadMem → Nat → Nat
  | .wm, _ => 0
  | .crumb, r => 1 + r % 2
  | .side, _ => 3

/-- Spares that a core began with at a place. -/
def spareTotal (n : Nat) : Nat := [16, 32, 32, 2].getD n 0

/-- The spares left for a memory, as CORE_MEM_KNEAD_STAT counts them (R194, R202). -/
def CoreS.sparesLeft (k : CoreS) : KneadMem → Nat
  | .wm => k.spares.getD 0 0
  | .crumb => k.spares.getD 1 0 + k.spares.getD 2 0
  | .side => k.spares.getD 3 0

/-- A knead unit of a core changed through `f`. -/
def State.updKnead (s : State) (c : CoreId) (m : KneadMem) (f : Knead → Knead) : State :=
  s.updCore c fun k => { k with knead := k.knead.set (kneadUnit m) (f k.knead[kneadUnit m]) }

/-- The knead unit of a memory of a core. -/
def State.kneadOf (s : State) (c : CoreId) (m : KneadMem) : Knead := s.cores[c].knead[kneadUnit m]

/-- Whether a KNEAD_SWEEP that runs names a core (R270). -/
def sweeps (c : CoreId) (x : Handle) : Bool :=
  decide (x.kind = 0x11) && decide (x.state = .running) && (x.work.getD 0 0).testBit c.val

/-- Whether a core of a sweep still has regions to test. -/
def State.sweepOwes (s : State) (x : Handle) : Bool :=
  allCores.any fun c => (x.work.getD 0 0).testBit c.val && s.cores[c].inService && s.cores[c].knead.toList.any fun k => decide (0 < k.sweepLeft)

/-- Sweeps with nothing left to test are DONE (R268, R270). -/
def State.sweepCheck (s : State) : State :=
  s.handles.foldl (fun s x =>
    if x.kind = 0x11 ∧ x.state = .running ∧ !s.sweepOwes x then s.opDone x.num 0 0 0 else s) s

/-- A unit selects its next region: one placed first, else the next in ascending order (R189, R190, R192, R195). -/
def Knead.select (k : Knead) : Knead :=
  match k.first with
  | r :: f => { k with phase := .copy r, first := f, asc := false }
  | [] => { k with phase := .copy k.next, next := k.next + 1, asc := true }

/-- KNEAD_SELECT (R181, R192, R193): the gap has elapsed, or a sweep runs at zero gap; a retained core's regions are skipped. -/
def execKneadSelect (c : CoreId) (m : KneadMem) (s : State) : Result :=
  let k := s.kneadOf c m
  let swept := decide (0 < k.sweepLeft) && s.handles.any (sweeps c)
  if s.coreUp c && decide (k.phase = .gap) && decide (s.cores[c].ret ≠ .retained) && (decide (s.kneadGap c m ≠ 0) || swept) then
    .next (s.updKnead c m Knead.select)
  else .next s

/-- Whether a memory unit lies in knead region `r` of a memory of a core. -/
def inKneadRegion (c : CoreId) (m : KneadMem) (r u : Nat) : Bool :=
  let (level, idx, _, region) := errorPlace u
  decide (kneadOfLevel level = some (kneadUnit m) ∧ idx = c.val ∧ region = r)

/-- KNEAD_COPY_DONE (R188, R193): every line of the region has been read, and its corrected data lies in the scratch copy. -/
def execKneadCopyDone (c : CoreId) (m : KneadMem) (s : State) : Result :=
  match (s.kneadOf c m).phase with
  | .copy r =>
    if s.coreUp c then
      .next ((s.meetUnits (inKneadRegion c m r)).updKnead c m fun k => { k with phase := .test r })
    else .next s
  | _ => .next s

/-- Region `r` tested, its corrected data written back: a pass ends with its last region, a sweep counts it (R188, R192, R202, R270,
R271). -/
def State.kneadDone (s : State) (c : CoreId) (m : KneadMem) (r : Nat) : State :=
  let k := s.kneadOf c m
  let wrap := k.asc && decide (k.next = kneadRegions m)
  let s := s.updKnead c m fun k => { k with phase := .gap, next := if wrap then 0 else k.next }
  let s := { s with weakUnits := s.weakUnits.filter fun u => !inKneadRegion c m r u }
  let s := match m, wrap with
    | .wm, true => s.countFld (coreMemKneadPass c.val) 15 0 1
    | .crumb, true => s.countFld (coreMemKneadPass c.val) 31 16 1
    | _, _ => s
  if k.asc && decide (0 < k.sweepLeft) && s.handles.any (sweeps c) then
    let s := { s with handles := s.handles.map fun x => if sweeps c x then { x with progress := x.progress + 1 } else x }
    (s.updKnead c m fun k => { k with sweepLeft := k.sweepLeft - 1 }).sweepCheck
  else s

/-- Number of a memory in knead events and the remap list (R205, R413). -/
def KneadMem.code (m : KneadMem) : Nat := (kneadUnit m).val

/-- KNEAD_TEST_DONE (R193): a pass restores; a fail remaps, or fences the core when no spare is left (R402). -/
def execKneadTestDone (c : CoreId) (m : KneadMem) (pass : Bool) (s : State) : Result :=
  match (s.kneadOf c m).phase with
  | .test r =>
    if !s.coreUp c then .next s
    else if pass then .next (s.updKnead c m fun k => { k with phase := .restore r })
    else if 0 < s.cores[c].spares.getD (spareSlot m r) 0 then .next (s.updKnead c m fun k => { k with phase := .remap r })
    else
      let s := s.updKnead c m fun k => { k with phase := .stuck r }
      let s := s.raise (.core c.val) s.cores[c].part 0x5021 [c.val, KneadMem.code m, r]
      .next ((s.fenceCore c 0x5021 false).sweepCheck)
  | _ => .next s

/-- KNEAD_RESTORE_DONE (R193). -/
def execKneadRestoreDone (c : CoreId) (m : KneadMem) (s : State) : Result :=
  match (s.kneadOf c m).phase with
  | .restore r => if s.coreUp c then .next (s.kneadDone c m r) else .next s
  | _ => .next s

/-- KNEAD_REMAP_DONE (R193, R194): the spare replaces the region, and the ageing log records it. -/
def execKneadRemapDone (c : CoreId) (m : KneadMem) (s : State) : Result :=
  match (s.kneadOf c m).phase with
  | .remap r =>
    if s.coreUp c then
      let n := spareSlot m r
      let left := s.cores[c].spares.getD n 0
      let spare := (if n = 2 then 32 else 0) + (spareTotal n - left)
      let s := s.updCore c fun k => { k with spares := k.spares.set n (left - 1) }
      let s := { s with mc := { s.mc with remapLog := s.mc.remapLog ++ [(c.val, KneadMem.code m, spare, r)] } }
      let s := s.fixedLog.raise (.core c.val) s.cores[c].part 0x5020 [c.val, KneadMem.code m, r, s.cores[c].sparesLeft m]
      .next (s.kneadDone c m r)
    else .next s
  | _ => .next s

/-- KNEAD_LATE (R195): a region of a core with a deadline reaches it untested. -/
def execKneadLate (c : CoreId) (m : KneadMem) (region : Nat) (s : State) : Result :=
  if s.coreUp c && bitAt (s.reg (coreMemKneadStat c.val)) 2 && decide (region < kneadRegions m) then
    .next ((s.kneadFirst c (kneadUnit m) [region]).raise (.core c.val) s.cores[c].part 0x5022 [c.val, KneadMem.code m, region])
  else .next s

/-- KNEAD_SWEEP (R270): one pass at zero gap on each named core. -/
def execKneadSweep (r : Setup) (s : State) : Result :=
  .next (s.opStart r 0x11 (fun s => if 256 ≤ r.wIndex then .error (stField, s) else .ok (s, { num := 0, kind := 0, owner := 0, work := [r.wIndex] }))
    fun _ s =>
      let s := (allCores.filter fun c => r.wIndex.testBit c.val && s.coreUp c).foldl (fun s c =>
        [KneadMem.wm, .crumb, .side].foldl (fun s m => s.updKnead c m fun k => { k with sweepLeft := kneadRegions m }) s) s
      s.sweepCheck)

/-! ### Patrol scrubbing -/

/-- Whether an address lies on stack `k`. -/
def onStack (k : StackId) (a : Nat) : Bool := match regionOf a with | .hbm n => decide (n = k) | _ => false

/-- PATROL_SCRUB (R188, R191): the scrubber reads the next lines of a usable stack, among them those of the errors given; it counts and
rewrites what its code corrects, and reports what it does not (R189, R190). -/
def execPatrolScrub (k : StackId) (env : MemEnv) (passDone : Bool) (s : State) : Result :=
  if s.mc.stacksUp.getLsbD k.val && s.mc.hubRailOn then
    let ue := env.ue.filter (onStack k)
    let ce := env.ce.filter (onStack k)
    let s := (s.takeReads { env with ce := ce, ue := ue } ce)
    let s := (ue.map unitOf).eraseDups.foldl (fun s a => s.uncorrectable none a) s
    .next (if passDone then s.countFld (hubHbmScrub (k.val / 2) (k.val % 2)) 15 0 1 else s)
  else .next s

end Sys2Proof.Machine
end

