-- ==== Sys2Proof/Machine/Ptp.lean ====
section
/-! DEFINITION. The PTP instance of a port: its messages, the best master, the measurement of offset and path delay, what it sends as
a master (R292, R293). Message formats, intervals and the instance's own data set are those of IEEE 1588 and 802.1AS (log entry
41). -/

namespace Sys2Proof.Machine

/-! ### Times and messages -/

/-- A time of the port clock as the ten bytes of a PTP timestamp. -/
def ptpTime (u : Nat) : List Byte := beBytes 6 (u / nsUnits / 1000000000) ++ beBytes 4 (u / nsUnits % 1000000000)

/-- The time that a PTP timestamp at an offset of a message holds. -/
def ptpTimeAt (b : List Byte) (o : Nat) : Int := (((beNat (slice b o 6)) * 1000000000 + beNat (slice b (o + 6) 4)) * nsUnits : Nat)

/-- The correction field of a message. -/
def ptpCorr (b : List Byte) : Int := sext 64 (beNat (slice b 8 8))

/-- Type, sequence number, sender and two-step flag of a message. -/
def ptpType (b : List Byte) : Nat := rdLE b 0 1 % 16
def ptpSeq (b : List Byte) : Nat := beNat (slice b 30 2)
def ptpFrom (b : List Byte) : List Byte := slice b 20 10
def ptpTwoStep (b : List Byte) : Bool := (rdLE b 6 1).testBit 1

/-- MODE of a port: 1 is 802.1AS with peer delay, 2 the 1588 default profile (R293, R302). -/
def State.ptpMode (s : State) (t : PortId) : Nat := s.regFld (portPtpCtl t.val) 1 0

/-- Identity of a port as a PTP clock, and of a subport as its PTP port. -/
def State.ptpClock (s : State) (t : PortId) : List Byte := let m := s.subMac t.val 0; m.take 3 ++ [0xFF, 0xFE] ++ m.drop 3
def State.ptpSelf (s : State) (t : PortId) (q : SubId) : List Byte := s.ptpClock t ++ beBytes 2 (q.val + 1)

/-- Whether a message is of the peer delay mechanism. -/
def ptpPeer (type : Nat) : Bool := decide (type = 2 ∨ type = 3 ∨ type = 10)

/-- A PTP message. -/
def State.ptpMessage (s : State) (t : PortId) (q : SubId) (type seq : Nat) (twoStep : Bool) (corr : Int) (body : List Byte) : List Byte :=
  beBytes 1 ((if s.ptpMode t = 1 then 16 else 0) + type) ++ [0x12] ++ beBytes 2 (34 + body.length) ++ beBytes 2 0 ++
    beBytes 2 (b2n twoStep * 512) ++ beBytes 8 (toTwos 64 corr) ++ beBytes 4 0 ++ s.ptpSelf t q ++ beBytes 2 seq ++ beBytes 1 0 ++
    [0x7F] ++ body

/-- A PTP message is sent over the transport of the port's record: 1 UDP over IPv4, 2 UDP over IPv6, else Layer 2 (R293). -/
def State.ptpSend (s : State) (t : PortId) (q : SubId) (type seq : Nat) (twoStep : Bool) (corr : Int) (body : List Byte) : State :=
  let m := s.ptpMessage t q type seq twoStep corr body
  let port := if type < 4 then 319 else 320
  let last : Byte := if ptpPeer type then 0x6B else 0x81
  match (if s.ptpMode t = 1 then 0 else s.ptpField t.val 2) with
  | 1 =>
    let src := beBytes 4 (s.subField t.val q.val 3)
    let dst : List Byte := if ptpPeer type then [224, 0, 0, 107] else [224, 0, 1, 129]
    s.sendMc t q [0x01, 0x00, 0x5E, 0, (if ptpPeer type then 0 else 1), last] 0x0800
      (ipv4Packet (s.mcTos t) 17 src dst (udpDatagram src dst port port true m))
  | 2 =>
    let src := beBytes 16 (s.subField t.val q.val 5)
    let dst : List Byte := [0xFF, (if ptpPeer type then 0x02 else 0x0E)] ++ List.replicate 12 0 ++ [(if ptpPeer type then 0 else 1), last]
    s.sendMc t q [0x33, 0x33, 0, 0, (if ptpPeer type then 0 else 1), last] 0x86DD
      (ipv6Packet (s.mcTos t) 17 1 src dst (udpDatagram src dst port port true m))
  | _ =>
    s.sendMc t q (if s.ptpMode t = 1 ∨ ptpPeer type then [0x01, 0x80, 0xC2, 0, 0, 0x0E] else [0x01, 0x1B, 0x19, 0, 0, 0]) 0x88F7 m

/-- The PTP event message that a frame of the MC carries. -/
def TxFrame.ptpEvent (f : TxFrame) : Option (List Byte) :=
  let m := match f.body with
    | .mc ty b => if ty = 0x88F7 then some b
      else if ty = 0x0800 ∧ rdLE b 9 1 = 17 ∧ beNat (slice b 22 2) = 319 then some (b.drop 28)
      else if ty = 0x86DD ∧ rdLE b 6 1 = 17 ∧ beNat (slice b 42 2) = 319 then some (b.drop 48) else none
    | _ => none
  m.filter fun b => decide (ptpType b < 4)

/-- The state with a port's PTP instance changed through `f`. -/
def State.updPtp (s : State) (t : PortId) (f : PtpRun → PtpRun) : State := s.updPort t fun p => { p with ptp := f p.ptp }

/-! ### The best master (R293) -/

/-- The data set of an announce message. -/
def announced (b : List Byte) : PtpSet :=
  ⟨rdLE b 47 1, rdLE b 48 1, rdLE b 49 1, beNat (slice b 50 2), rdLE b 52 1, beNat (slice b 53 8), beNat (slice b 61 2), ptpFrom b⟩

/-- A port's own data set. -/
def State.ptpOwn (s : State) (t : PortId) : PtpSet :=
  ⟨if s.ptpMode t = 1 then 248 else 128, 248, 0xFE, 0xFFFF, if s.ptpMode t = 1 then 248 else 128, beNat (s.ptpClock t), 0, s.ptpSelf t 0⟩

/-- The order of the best master clock algorithm. -/
def PtpSet.key (d : PtpSet) : List Nat := [d.p1, d.cls, d.acc, d.var, d.p2, d.gm, d.steps, beNat d.sender]

/-- Whether one key comes before another. -/
def keyLess : List Nat → List Nat → Bool
  | a :: as, b :: bs => decide (a < b) || (decide (a = b) && keyLess as bs)
  | _, _ => false

/-- An announce body of a port's own data set. -/
def PtpSet.body (d : PtpSet) : List Byte :=
  ptpTime 0 ++ beBytes 2 37 ++ [0] ++ beBytes 1 d.p1 ++ beBytes 1 d.cls ++ beBytes 1 d.acc ++ beBytes 2 d.var ++ beBytes 1 d.p2 ++
    beBytes 8 d.gm ++ beBytes 2 d.steps ++ [0xA0]

/-- An announce message of subport `q` (R293): the best of what the port hears is the last data set of the master so far, or this one where it
is the same sender's or better. The port is its slave where it is better than the port's own data set, and else is master itself. -/
def State.ptpAnnounce (s : State) (t : PortId) (m : PtpIn) : State :=
  let d := announced m.bytes
  let old := s.ports[t].ptp.best.any fun b => decide (b.sender ≠ d.sender) && !keyLess d.key b.key
  if old || decide (d.sender.take 8 = s.ptpClock t) then s
  else if keyLess d.key (s.ptpOwn t).key then
    let id := beNat (d.sender.take 8)
    (s.updPort t fun p => { p with master := id, ptp := { p.ptp with role := .slave, best := some d, sub := m.sub } }).setFld
      (portPtpCtl t.val) 3 3 0
  else s.updPtp t fun r => { r with role := .master, best := none, syncRx := none, measured := none }

/-! ### Measurement (R293) -/

/-- A sync has been measured: the next request for the path delay goes out, and the offset is known under the delay so far. -/
def State.ptpSynced (s : State) (t : PortId) (q : SubId) (t1 t2 : Int) : State × Option Int :=
  let r := s.ports[t].ptp
  let seq := (r.seqs.2.2 + 1) % 65536
  let s := s.updPtp t fun r => { r with measured := some (t1, t2), syncRx := none, seqs := (r.seqs.1, r.seqs.2.1, seq) }
  let s := if s.ptpMode t = 1 then s.ptpSend t q 2 seq false 0 (List.replicate 20 0) else s.ptpSend t q 1 seq false 0 (List.replicate 10 0)
  (s, some (t2 - t1 - r.delay))

/-- A PTP message of domain 0 is processed: the state, and the offset from the master where it completes a measurement. -/
def State.ptpTake (s : State) (t : PortId) (m : PtpIn) : State × Option Int :=
  let r := s.ports[t].ptp
  let b := m.bytes
  let at_ := (m.stamp : Int) - ptpCorr b
  let ofMaster := decide (r.role = .slave) && decide (r.best.map PtpSet.sender = some (ptpFrom b))
  let mine := decide (slice b 44 10 = s.ptpSelf t m.sub)
  if rdLE b 4 1 ≠ 0 ∨ b.length < 44 then (s, none)
  else match ptpType b with
    | 0 =>
      if !ofMaster then (s, none)
      else if ptpTwoStep b then (s.updPtp t fun r => { r with syncRx := some (ptpSeq b, at_) }, none)
      else s.ptpSynced t m.sub (ptpTimeAt b 34) at_
    | 8 => match r.syncRx with
      | some (n, rx) => if ofMaster ∧ n = ptpSeq b then s.ptpSynced t m.sub (ptpTimeAt b 34 + ptpCorr b) rx else (s, none)
      | none => (s, none)
    | 1 =>
      if r.role = .master then
        (s.ptpSend t m.sub 9 (ptpSeq b) false (ptpCorr b) (ptpTime m.stamp ++ ptpFrom b), none)
      else (s, none)
    | 9 => match r.reqTx, r.measured with
      | some (n, t3), some (t1, t2) =>
        if ofMaster ∧ mine ∧ n = ptpSeq b then
          (s.updPtp t fun r => { r with reqTx := none, delay := ((t2 - t1) + (ptpTimeAt b 34 - ptpCorr b - t3)) / 2 }, none)
        else (s, none)
      | _, _ => (s, none)
    | 2 => (s.ptpSend t m.sub 3 (ptpSeq b) true (ptpCorr b) (ptpTime m.stamp ++ ptpFrom b), none)
    | 3 => match r.reqTx with
      | some (n, t1) =>
        if !(mine && decide (n = ptpSeq b)) then (s, none)
        else if ptpTwoStep b then (s.updPtp t fun r => { r with respRx := some (ptpTimeAt b 34, at_) }, none)
        else (s.updPtp t fun r => { r with reqTx := none, delay := (at_ - t1) / 2 }, none)
      | none => (s, none)
    | 10 => match r.reqTx, r.respRx with
      | some (n, t1), some (t2, t4) =>
        if mine ∧ n = ptpSeq b then
          (s.updPtp t fun r => { r with
            reqTx := none, respRx := none, delay := ((t4 - t1) - (ptpTimeAt b 34 + ptpCorr b - t2)) / 2 }, none)
        else (s, none)
      | _, _ => (s, none)
    | 11 => (s.ptpAnnounce t m, none)
    | _ => (s, none)

/-! ### Transmission (R292, R293) -/

/-- A PTP event message leaves at a time of the port clock: a request remembers it, two-step transmission sends it after. -/
def State.ptpSent (s : State) (t : PortId) (q : SubId) (b : List Byte) (stamp : Nat) : State :=
  let corr : Int := (stamp % nsUnits : Nat)
  match ptpType b with
  | 0 => s.ptpSend t q 8 (ptpSeq b) false corr (ptpTime stamp)
  | 3 => s.ptpSend t q 10 (ptpSeq b) false (ptpCorr b + corr) (ptpTime stamp ++ slice b 44 10)
  | _ => s.updPtp t fun r => { r with reqTx := some (ptpSeq b, (stamp : Int)) }

/-- Whether a multiple of `n` ns of the MC counter lies in the loop period that ends now. -/
def State.everyNs (s : State) (n : Nat) : Bool := decide (s.mc.time / n ≠ (s.mc.time - 1000000) / n)

/-- Subports of a port whose links are up. -/
def State.subsUp (s : State) (t : PortId) : List SubId := (List.finRange 4).filter fun q => s.linkUp t.val q.val

/-- What the MC sends on a port by itself in a loop period: LLDP, and as a PTP master announce and sync messages (R281, R293). -/
def State.mcSends (s : State) (t : PortId) : State :=
  let s := if s.everyNs 30000000000 then (s.subsUp t).foldl (fun s q => s.sendLldp t q) s else s
  if s.ptpMode t = 0 ∨ s.ports[t].ptp.role ≠ .master then s
  else
    let gptp := decide (s.ptpMode t = 1)
    let s := if s.everyNs (if gptp then 1000000000 else 2000000000) then
        let n := (s.ports[t].ptp.seqs.1 + 1) % 65536
        let s := (s.subsUp t).foldl (fun s q => s.ptpSend t q 11 n false 0 (s.ptpOwn t).body) s
        s.updPtp t fun r => { r with seqs := (n, r.seqs.2) }
      else s
    if s.everyNs (if gptp then 125000000 else 1000000000) then
      let n := (s.ports[t].ptp.seqs.2.1 + 1) % 65536
      let s := (s.subsUp t).foldl (fun s q => s.ptpSend t q 0 n true 0 (List.replicate 10 0)) s
      s.updPtp t fun r => { r with seqs := (r.seqs.1, n, r.seqs.2.2) }
    else s

end Sys2Proof.Machine
end

