-- ==== Sys2Proof/Machine/Power.lean ====
section
/-! DEFINITION. Blocks that fail in service, power, heat and supply, and the loop period of the MC (R20-R29, R402, R405-R409,
R415-R417, R429, R430). -/

namespace Sys2Proof.Machine

/-! ### Failure domains (R20, R21) -/

/-- Bit `i` of a mask cleared. -/
def clearBit {n : Nat} (m : BitVec n) (i : Nat) : BitVec n := m &&& ~~~(BitVec.ofNat n (2 ^ i))

/-- The hubs of mesh link `i` (R400). -/
def meshEnds : Nat → Nat × Nat
  | 0 => (0, 1)
  | 1 => (0, 2)
  | 2 => (0, 3)
  | 3 => (1, 2)
  | 4 => (1, 3)
  | _ => (2, 3)

/-- A stack becomes unusable, and what it held is lost (R21). -/
def State.stackDown (s : State) (k : Nat) : State :=
  { s.zeroRange (stackBase k) 0x2000000000 with mc := { s.mc with stacksUp := clearBit s.mc.stacksUp k } }

/-- A port becomes unusable, and its links go down (R21, R276). -/
def State.portDown (s : State) (t : PortId) : State :=
  let s := { s with mc := { s.mc with portsUp := clearBit s.mc.portsUp t.val } }
  s.portSilent t (Config.fieldWord 0x6002 0 0)

/-- A mesh link becomes unusable. -/
def State.linkDown (s : State) (i : Nat) : State := { s with mc := { s.mc with meshUp := clearBit s.mc.meshUp i } }

/-- The cores beside a hub are fenced (R21, R402). -/
def State.fencePair (s : State) (h : Nat) (byProof : Bool) : State :=
  (s.fenceCore (coreId (2 * h)) 0x4006 byProof).fenceCore (coreId (2 * h + 1)) 0x4006 byProof

/-- Number of a kind of block (R400). -/
def blockCode : BlockKind → Nat
  | .core => 0
  | .stack => 1
  | .hub => 2
  | .port => 3
  | .regulator => 4
  | .mesh => 5

/-- SOURCE of a block's event: its die, or the hub that a stack or a mesh link belongs to (R418, DEDUCED). -/
def blockSrc (k : BlockKind) (i : Nat) : Src :=
  match k with
  | .core => .core i
  | .stack => .hub (i / 2)
  | .hub => .hub i
  | .port => .port i
  | .regulator => .pwr
  | .mesh => .hub (meshEnds i).1

/-- How many blocks of a kind there are. -/
def blockCount : BlockKind → Nat
  | .core | .stack | .port => 8
  | .hub | .regulator => 4
  | .mesh => 6

/-- Whether a block is usable. -/
def State.blockUp (s : State) (k : BlockKind) (i : Nat) : Bool :=
  match k with
  | .core => s.coreIn i
  | .stack => s.mc.stacksUp.getLsbD i
  | .hub => s.mc.hubsUp.getLsbD i
  | .port => s.mc.portsUp.getLsbD i
  | .regulator => s.mc.regsUp.getLsbD i
  | .mesh => s.mc.meshUp.getLsbD i

/-- A block other than a core or a hub becomes unusable with BLOCK_UNUSABLE, unless it is so already (R21, R399). -/
def State.loseBlock (s : State) (k : BlockKind) (i code : Nat) (byProof : Bool) : State :=
  if !s.blockUp k i then s
  else
    let s := s.raise (blockSrc k i) none 0x4006 [blockCode k, i, code]
    match k with
    | .core | .hub => s
    | .stack => s.stackDown i
    | .port => s.portDown (Fin.ofNat 8 i)
    | .regulator => ({ s with mc := { s.mc with regsUp := clearBit s.mc.regsUp i } } : State).fencePair i byProof
    | .mesh => s.linkDown i

/-- A hub becomes unusable with its cores, stacks, ports and mesh links (R21). -/
def State.hubDown (s : State) (h code : Nat) (byProof : Bool) : State :=
  if !s.mc.hubsUp.getLsbD h then s
  else
    let s := s.raise (.hub h) none 0x4006 [2, h, code]
    let s := { s with mc := { s.mc with hubsUp := clearBit s.mc.hubsUp h } }
    let s := s.fencePair h byProof
    let lose := fun (k : BlockKind) (s : State) (i : Nat) => s.loseBlock k i code byProof
    let s := [2 * h, 2 * h + 1].foldl (lose .stack) s
    let s := [2 * h, 2 * h + 1].foldl (lose .port) s
    ((List.range 6).filter fun i => decide ((meshEnds i).1 = h ∨ (meshEnds i).2 = h)).foldl (lose .mesh) s

/-- The hub that the relay rule takes down: the higher-numbered end of an unusable link between two usable hubs with no third
usable hub (R20). -/
def State.unrelayed (s : State) : Option Nat :=
  let up := fun (h : Nat) => s.mc.hubsUp.getLsbD h
  ((List.range 6).find? fun i =>
    let (a, b) := meshEnds i
    !s.mc.meshUp.getLsbD i && up a && up b && !(List.range 4).any fun h => decide (h ≠ a ∧ h ≠ b) && up h).map fun i => (meshEnds i).2

/-- A block other than hub 0 fails: a core is fenced with the code, any other block raises BLOCK_UNUSABLE, and the relay rule
applies to what is left (R20, R21, R399, R402; log entry 20). -/
def State.blockFails (s : State) (k : BlockKind) (i code : Nat) (byProof : Bool) : State :=
  let s := match k with
    | .core => if s.coreIn i then s.fenceCore (coreId i) code byProof else s
    | .hub => s.hubDown i code byProof
    | _ => s.loseBlock k i code byProof
  match s.unrelayed with
  | some h => s.hubDown h code byProof
  | none => s

/-- CORE_FENCE_FORCE (R402, R422): FORCE with KEY 0xA5; KEY reads the last value written. -/
def execCoreFenceForce (c : CoreId) (s : State) : Result :=
  .next ((s.setFld (coreFence c.val) 25 18 0xA5).fenceCore c 0x4001 false)

/-! ### The rails go off (R407, R416, R417, R429) -/

/-- Every core rail, hub rail and port die is switched off: what ran is gone, links go down (R276), and so are the contents of every
memory. -/
def State.railsOff (s : State) : State :=
  let s := s.mapCores fun k => { k with issued := [], headWeak := [], headBad := [] }
  let s := (List.finRange 8).foldl (fun s t => s.portSilent t (Config.fieldWord 0x6002 1 0)) s
  { s with
    mem := [], badUnits := [], weakUnits := []
    mc := { s.mc with hubRailOn := false, portsOn := false, pwrReq := false, rails := s.mc.rails.map fun r => { r with on := false } } }

/-- BLOCK_UNUSABLE (R21, R402): a block fails in service; with hub 0 the whole device fails, and nothing of it runs until the
next start. -/
def execBlockUnusable (kind : BlockKind) (index code : Nat) (s : State) : Result :=
  if !s.mc.hubRailOn || decide (blockCount kind ≤ index) then .next s
  else if kind = .hub ∧ index = 0 then
    -- the MC is gone with hub 0: the links go down with no event
    let s := (List.finRange 8).foldl (fun s t => s.setFld (portStat t.val) 3 0 0) s
    let s := s.railsOff
    .next { s with mc := { s.mc with on := false, complete := false } }
  else .next (s.blockFails kind index (if kind = .core then 0x4006 else code) false)

/-- SUPPLY_LOST (R417): the lost rail's power-good input is low (R438). -/
def execSupplyLost (rail : Fin 6) (mv : Nat) (s : State) : Result :=
  if s.mc.on && s.mc.pwrReq then
    let s := s.railsOff
    let s := ({ s with mc := { s.mc with lost := true, lostRail := rail.val } } : State).setFld pwrPg rail.val rail.val 0
    .next (s.raise .pwr none 0x9005 [rail.val, mv])
  else .next s

/-- THERMAL_HALT (R407): a sensor reaches 95 °C. -/
def execThermalHalt (sensor : Sensor) (tj : Nat) (s : State) : Result :=
  if s.mc.on && s.mc.hubRailOn && decide (s.mc.therm ≠ .halted ∧ s.mc.therm ≠ .tripped) then
    let s := { s with mc := { s.mc with therm := .halted } }
    .next (s.raise .mc none 0x9010 [sensor.kind, sensor.index, tj])
  else .next s

/-- THERMAL_RESUME (R407): every sensor has read 90 °C or less for 100 ms; a supply halt may still hold. -/
def execThermalResume (s : State) : Result :=
  .next { s with mc := { s.mc with therm := if s.mc.therm = .halted then .normal else s.mc.therm } }

/-- The device trips (R407, R429, R437): rails off, THERM_TRIP_N asserted, PWR_REQ low, the trip counted. -/
def State.trip (s : State) (sensor : Sensor) (tj : Nat) : State :=
  let s := s.railsOff
  let s := { s with mc := { s.mc with therm := .tripped, thermAlert := true, trips := satAdd 16 s.mc.trips 1 } }
  s.fixedLog.raise .mc none 0x9011 [sensor.kind, sensor.index, tj]

/-- THERMAL_TRIP (R407): a sensor reaches 100 °C. -/
def execThermalTrip (sensor : Sensor) (tj : Nat) (s : State) : Result :=
  if s.mc.on && s.mc.hubRailOn && decide (s.mc.therm ≠ .tripped) then .next (s.trip sensor tj) else .next s

/-- THERMAL_HALT_LIMIT (R407): a halt has lasted 10 s with some sensor at 95 °C or above. -/
def execThermalHaltLimit (sensor : Sensor) (tj : Nat) (s : State) : Result :=
  if s.mc.on && decide (s.mc.therm = .halted) then .next (s.trip sensor tj) else .next s

/-! ### Supply (R416) -/

/-- NVM_INHIBIT: AUX_3V3 or VIN_CORE falls below its NVM threshold. -/
def execNvmInhibit (vin : Bool) (mv : Nat) (s : State) : Result :=
  if !s.mc.on then .next s
  else
    let s := { s with mc := if vin then { s.mc with vinInhibit := true } else { s.mc with auxInhibit := true } }
    .next (s.raise .pwr none 0x9001 [if vin then 0 else 6, mv])

/-- NVM_INHIBIT_CLEAR: AUX_3V3 has recovered, and postponed writes go on unless VIN_CORE still inhibits them. -/
def execNvmInhibitClear (s : State) : Result := .next ({ s with mc := { s.mc with auxInhibit := false } } : State).nvmGo

/-- Every core rail at its floor. -/
def State.railsToFloor (s : State) : State :=
  { s with mc := { s.mc with rails := s.mc.rails.map fun r => if r.on then { r with volt := r.floor } else r } }

/-- VIN_THROTTLE: VIN_CORE falls below 1.71 V. -/
def execVinThrottle (mv : Nat) (s : State) : Result :=
  if !s.mc.on then .next s
  else
    let s := { s.railsToFloor with mc := { s.railsToFloor.mc with vinThrottle := true, vinInhibit := true, duty := true } }
    .next (s.raise .pwr none 0x9003 [mv])

/-- VIN_THROTTLE_CLEAR: VIN_CORE has been above 1.74 V for 10 ms. -/
def execVinThrottleClear (s : State) : Result :=
  .next ({ s with mc := { s.mc with vinThrottle := false, vinInhibit := false, duty := s.mc.duty && !s.mc.vinThrottle } } : State).nvmGo

/-- VIN_HALT: VIN_CORE falls below 1.62 V, which lies below the throttle's threshold too. -/
def execVinHalt (mv : Nat) (s : State) : Result :=
  if !s.mc.on then .next s
  else .next (({ s with mc := { s.mc with vinHalt := true } } : State).raise .pwr none 0x9004 [mv])

/-- VIN_HALT_CLEAR: VIN_CORE has been above 1.71 V for 10 ms, then as the throttle's row. -/
def execVinHaltClear (s : State) : Result := .next { s with mc := { s.mc with vinHalt := false } }

/-- Everything volatile is lost. What lasts is the flash with its counters, the pins, and what stands in registers that keep
their value until AUX_3V3 is removed (R370, R389, R393, R394; a page or erase under way has completed before, R434). -/
def State.volatileLost (s : State) : State :=
  { State.reset with
    freeCtr := s.freeCtr, pending := s.pending, nvm := s.nvm, counters := s.counters, paired := s.paired
    usb := { State.reset.usb with vbus := s.usb.vbus, offered := s.usb.offered, orient := s.usb.orient }
    mc := { State.reset.mc with
      sealIntact := s.mc.sealIntact, logNext := s.mc.logNext, testSeen := s.mc.testSeen
      root := s.mc.root, testz := s.mc.testz, debug := s.mc.debug } }

/-- The page or block under way is finished. -/
def State.finishPage (s : State) : State :=
  match s.nvmHead with
  | some w => if s.mc.nvmBusy then s.nvmPage w else s
  | none => s

/-- AUX_BROWNOUT (R416): the MC is held in reset and all volatile state is lost; the start that follows reports it. -/
def execAuxBrownout (s : State) : Result :=
  if s.mc.aux then
    let s := s.finishPage.volatileLost
    .next { s with mc := { s.mc with brownout := true } }
  else .next s

/-! ### The loop period (R25-R29, R405, R407, R409, R415, R430) -/

/-- Nominal voltage in mV and maximum current in 0.1 A of board rail `n` (R426). -/
def railMax (n : Nat) : Nat × Nat :=
  ([(1800, 6400), (1050, 2000), (750, 1900), (1800, 250), (800, 600), (1200, 160), (3300, 25)] : List (Nat × Nat)).getD n (0, 0)

/-- Package power in units of 0.1 mW: voltage times current of the seven board rails; a rail without an answer counts at
its maximum current. DESIGN CHOICE: the voltage it is counted at is the rail's nominal one (R27, R430; log entry 32, unsafe). -/
def boardPower (r : LoopReadings) : Nat :=
  (indexed r.rails).foldl (fun a e => a + match e.2 with
    | some (v, i) => v * i
    | none => (railMax e.1).1 * (railMax e.1).2) 0

/-- The highest junction in 1/16 °C. -/
def tjMax (r : LoopReadings) : Int := r.temps.foldl (fun a e => max a e.2) 0

/-- The power limit in force in W (R330, R424). -/
def State.powerLimit (s : State) : Nat :=
  let n := s.regFld (pwrBase + 0) 31 16
  if s.mc.cascade = .held then Nat.min 700 n else n

/-- One core rail after a loop period: the floor rises by 10 mV while margins are short (R409), the rail falls or rises by
10 mV as the loop asks, never below the floor nor above 0.85 V (R25, R27, R29, R415). DESIGN CHOICE: R25 allows up to 10 mV in a period,
the model always steps 10 mV (log entry 31, unsafe). -/
def CoreRail.step (r : CoreRail) (lower lift atFloor marginOk : Bool) : CoreRail :=
  let r := if r.raising && !marginOk && decide (r.floor < 850) then { r with floor := Nat.min 850 (r.floor + 10) } else { r with raising := false }
  let v := if atFloor then r.floor else if lower then r.volt - 10 else if lift then Nat.min 850 (r.volt + 10) else r.volt
  { r with volt := Nat.max r.floor v }

/-- The voltages after a loop period. -/
def State.loopVolts (s : State) (r : LoopReadings) : State :=
  let limit := s.powerLimit * 10000
  let hot := decide (88 * 16 ≤ tjMax r)
  let above := decide (limit < boardPower r)
  let under := decide (boardPower r + 100000 < limit)
  let rail := fun (c : CoreId) =>
    let k := s.mc.rails[c]
    let binds := decide (s.regFld mcRateCap 15 0 ≠ 0) && r.capBinds.getD c.val false
    if k.on then k.step (above || hot || binds) (under && !hot && !binds) s.mc.vinThrottle (r.marginsOk.getD c.val true) else k
  { s with mc := { s.mc with rails := Vector.ofFn rail } }

/-- Whether the rate cap asks for duty limiting: it binds on a core that is at its floor already (R415). -/
def State.capDuty (s : State) (r : LoopReadings) : Bool :=
  decide (s.regFld mcRateCap 15 0 ≠ 0) && allCores.any fun c =>
    r.capBinds.getD c.val false && s.mc.rails[c].on && decide (s.mc.rails[c].volt ≤ s.mc.rails[c].floor)

/-- Duty limiting, and the event of a power limit the first time in each job (R28, R415, R416). DESIGN CHOICE: no event table lists 0x9020, so it is raised by the
source PWR with no detail words (log entry 33, unsafe). -/
def State.loopDuty (s : State) (r : LoopReadings) : State :=
  let limit := s.powerLimit * 10000
  let low := allCores.all fun c => !s.mc.rails[c].on || decide (s.mc.rails[c].volt ≤ s.mc.rails[c].floor)
  let limits := low && decide (limit < boardPower r)
  let duty := s.mc.vinThrottle || limits || s.capDuty r || (s.mc.duty && decide (limit ≤ boardPower r))
  let s := { s with mc := { s.mc with duty := duty } }
  if !limits then s
  else allParts.foldl (fun s p => match s.job p with
    | some j => if j.dutyRaised then s
      else (s.raise .pwr (some p) 0x9020 []).updJob p fun j => { j with dutyRaised := true }
    | none => s) s

/-- The rate cap (R415): whether it bound, and RATE_CAPPED the first time in each job. -/
def State.loopCap (s : State) (r : LoopReadings) : State :=
  let cap := s.regFld mcRateCap 15 0
  let binds := fun (c : CoreId) => decide (cap ≠ 0) && r.capBinds.getD c.val false && s.coreUp c
  let s := s.setFld mcRateCap 16 16 (b2n (allCores.any binds))
  allParts.foldl (fun s p => match s.job p with
    | some j => if j.capRaised || !(allCores.any fun c => decide (s.cores[c].part = some p) && binds c) then s
      else (s.raise .pwr (some p) 0x9030 [p.val, cap]).updJob p fun j => { j with capRaised := true }
    | none => s) s

/-- The most that CAPACITY of rate `n` (arrays, vectors, rows, slots) reaches under the cap, in 0.1 M per second (R405, R415). -/
def State.capTop (s : State) (n : Nat) : Nat :=
  let cap := s.regFld mcRateCap 15 0
  if cap = 0 then 0xFFFF else ([cap, cap * 3 / 2, cap * 3 / 2, cap * 2] : List Nat).getD n 0

/-- Rates and temperatures of the cores (R405, R407, R415, R422). -/
def State.loopCores (s : State) (r : LoopReadings) : State :=
  allCores.foldl (fun s c =>
    let cap := r.capacity.getD c.val []
    let ach := r.achieved.getD c.val []
    let rate := fun (n : Nat) => if s.fenced c.val then (0 : Word) else pack [(Nat.min 0xFFFF (ach.getD n 0), 16), (Nat.min (s.capTop n) (cap.getD n 0), 0)]
    let s := (List.range 4).foldl (fun s n => s.setReg (coreRateArr c.val + 4 * n) (rate n)) s
    match r.temps.find? fun e => decide (e.1.kind = 0 ∧ e.1.index = c.val) with
    | none => s
    | some e => s.setReg (coreTemp c.val)
        (pack [(Nat.max (s.regFld (coreTemp c.val) 31 24) ((e.2 / 16).toNat % 256), 24), (toTwos 16 e.2, 0)])) s

/-- Package power, the rails and the power-good inputs (R27, R424, R430, R438). -/
def State.loopPower (s : State) (r : LoopReadings) : State :=
  let s := s.setFld (pwrBase + 0) 15 0 (Nat.min 0xFFFF (boardPower r / 10000))
  let s := (indexed r.rails).foldl (fun s e => match e.2 with
    | some (v, i) => s.setReg (pwrRail e.1) (pack [(Nat.min 0xFFFF i, 16), (Nat.min 0xFFFF v, 0)])
    | none => s.setFld (pwrRail e.1) 31 16 0) s
  let s := s.setReg (pwrRail 7) (if s.mc.hubRailOn then pack [(Nat.min 0xFFFF r.hubRail.2, 16), (Nat.min 0xFFFF r.hubRail.1, 0)] else 0)
  let s := allCores.foldl (fun s c => s.setReg (pwrRail (8 + c.val))
    (if s.mc.rails[c].on then pack [(Nat.min 0xFFFF (r.coreCurrents.getD c.val 0), 16), (s.mc.rails[c].volt, 0)] else 0)) s
  s.setReg pwrPg (pack [(b2n r.pmbAlert, 9), (r.pg.toNat, 0)])

/-- Heat (R29, R407, R412, R423): the highest sensor, the peaks, the state of the thermal loop, the hours. -/
def State.loopHeat (s : State) (r : LoopReadings) : State :=
  let tj := Nat.min 255 (tjMax r / 16).toNat
  let s := (s.setFld mcTherm 31 24 tj).setFld mcTherm 23 16 (Nat.max tj (s.regFld mcTherm 23 16))
  let on := s.mc.rails.toList.any CoreRail.on
  { s with mc := { s.mc with
      tjPeak := Nat.max tj s.mc.tjPeak
      therm := if s.mc.therm = .normal ∨ s.mc.therm = .lowering then (if 88 ≤ tj then .lowering else .normal) else s.mc.therm
      poweredNs := s.mc.poweredNs + (if on then 1000000 else 0)
      hotNs := s.mc.hotNs + (if on ∧ 85 ≤ tj then 1000000 else 0) } }

/-- The clocks after a loop period: the MC counter, and the ports' clocks under their frequency corrections (R292, R406). -/
def State.loopTime (s : State) : State :=
  let s := { s with mc := { s.mc with time := s.mc.time + 1000000 } }
  if !s.mc.portsOn then s
  else (List.finRange 8).foldl (fun s t =>
    let n := s.ports[t].tick + s.portPeriod t.val
    (s.updPort t fun p => { p with clock := n, tick := n }).mcSends t) s

/-- The FECs of the ports (R277, R302): codewords count, and a subport that is below the threshold again shows it. -/
def State.loopFec (s : State) (r : LoopReadings) : State :=
  r.fec.foldl (fun s f =>
    if !s.linkUp f.port.val f.sub.val then s
    else
      let s := (s.portCount f.port 16 f.corr).portCount f.port 17 f.uncorr
      if f.above then s else s.setFld (portStat f.port.val) (28 + f.sub.val) (28 + f.sub.val) 0) s

/-- Records that the MGMT interrupt endpoint sends in a loop period: one in each of eight service intervals (R263). -/
def State.mgmtSend (s : State) : State :=
  if s.linked && !s.mc.recovery then { s with usb := { s.usb with mgmtOut := s.usb.mgmt.take 8, mgmt := s.usb.mgmt.drop 8 } }
  else { s with usb := { s.usb with mgmtOut := [] } }

/-- The power state that the host has put the link into, U0, U1 or U2; the device accepts each (R234, R272). -/
def State.loopLink (s : State) (r : LoopReadings) : State := if s.linked then s.setFld usbLink 10 8 r.usbLow.val else s

/-- MC_LOOP_TICK (R27): a loop period ends. Duty is judged on the voltages that held while the power was measured (R28). -/
def execMcLoopTick (r : LoopReadings) (s : State) : Result :=
  if s.mc.on then
    .next ((((((((((s.takeEnv r.memory).loopTime.retain.loopHeat r).loopDuty r).loopVolts r).loopCap r).loopCores r).loopPower
      r).loopLink r).loopFec r).mgmtSend.sweepCheck)
  else .next s

end Sys2Proof.Machine
end

