-- ==== Sys2Proof/Machine/Service.lean ====
section
/-! DEFINITION. Surveys, plans, latches, the ageing log and in-service proof (R26, R400, R406, R408-R413). -/

namespace Sys2Proof.Machine

/-! ### Margins (R408-R411) -/

/-- One core's survey: a family without a plan fences the core; a margin below 12 % begins an episode; margins that all
exceed 25 % ask for a re-plan. -/
def State.surveyCore (s : State) (v : CoreSurvey) : State :=
  if !s.coreUp v.core then s
  else
    let worst := v.margins.foldl Nat.min (v.margins.headD 0)
    let s := s.updRail v.core fun r => { r with worst := Nat.min 255 worst }
    match v.exhausted with
    | f :: _ =>
      let s := s.raise (.core v.core.val) s.cores[v.core].part 0x4004 [v.core.val, f]
      s.fenceCore v.core 0x4004 false
    | [] =>
      if worst < 12 then
        if s.mc.rails[v.core].raising then s
        else
          let s := s.updRail v.core fun r => { r with raising := true, wantReplan := true }
          s.raise (.core v.core.val) s.cores[v.core].part 0x4003 [v.core.val, v.margins.findIdx (fun m => decide (m = worst)), worst]
      else
        s.updRail v.core fun r =>
          { r with raising := r.raising && decide (worst < 15), wantReplan := r.wantReplan || decide (25 < worst) }

/-- AGEING_SURVEY (R408). -/
def execAgeingSurvey (surveys : List CoreSurvey) (s : State) : Result :=
  if s.mc.on then .next (surveys.foldl State.surveyCore s) else .next s

/-- Whether a core stands at a step boundary (R26): its partition has no job, its TRAIN job is between a COMMIT or ABORT and the restart of
its streams, or its job has no stream at work, being held, suspended or paused. -/
def State.atBoundary (s : State) (c : CoreId) : Bool :=
  match s.cores[c].part.bind s.job with
  | none => true
  | some j => j.cmt.restart || j.paused || ((s.handleOf j.handle).any fun x => decide (x.state = .suspended)) ||
      decide (j.kind = .train ∧ j.cmt.phase ≠ .running ∧ j.cmt.phase ≠ .readySent)

/-- Whether a core has a re-plan request that may be served. -/
def State.mayReplan (s : State) (c : CoreId) : Bool := s.coreUp c && s.mc.rails[c].wantReplan

/-- REPLAN (R26, R410): at a step boundary, with nothing of the core in flight. -/
def execReplan (c : CoreId) (plan : Plan) (s : State) : Result :=
  if s.mayReplan c && s.cores[c].issued.isEmpty && s.atBoundary c then .next (s.replan c plan) else .next s

/-- REPLAN_QUIESCE_TIMEOUT (R26): each stream of the core stops at its next descriptor boundary, and the core is re-planned once the
descriptors in flight have completed. -/
def execReplanQuiesceTimeout (c : CoreId) (plan : Plan) (s : State) : Result :=
  if s.mayReplan c then .next (s.updRail c fun r => { r with quiesce := some plan }).quiesceDone else .next s

/-- REPLAN_DAILY (R410). -/
def execReplanDaily (c : CoreId) (s : State) : Result :=
  if s.coreUp c then .next (s.updRail c fun r => { r with wantReplan := true }) else .next s

/-! ### Time (R406, R421) -/

/-- The event source that a SOURCE byte names. -/
def srcOf (n : Nat) : Src :=
  match n / 16 with
  | 1 => .hub (n % 16)
  | 2 => .core (n % 16)
  | 3 => .port (n % 16)
  | 4 => .usb
  | 5 => .pwr
  | 6 => .sec
  | _ => .mc

/-- The second ends: one EVENT_SUPPRESSED for each code and source of which records were suppressed (R421). -/
def State.endSecond (s : State) : State :=
  let cnt := s.mc.evtCount
  let s := { s with mc := { s.mc with evtCount := [] } }
  cnt.foldl (fun s e =>
    let code := e.1 / 256
    if 16 < e.2 ∧ severity code < 3 then s.raise .mc none 0x9060 [code, e.1 % 256, e.2 - 16] else s) s

/-- TIME_LATCH (R406): the MC counter and the clock of every port are latched together. -/
def execTimeLatch (s : State) : Result :=
  if !s.mc.on then .next s
  else
    let t := s.mc.time
    let s := (s.setReg mcTlatchLo (BitVec.ofNat 32 t)).setReg mcTlatchHi (BitVec.ofNat 32 (t / 2 ^ 32))
    let s := (List.finRange 8).foldl (fun s p =>
      let n := s.ports[p].clock / nsUnits
      (s.setReg (mcTlatchNs p.val) (BitVec.ofNat 32 (n % 1000000000))).setReg (mcTlatchSec p.val)
        (BitVec.ofNat 32 (n / 1000000000))) s
    .next s.endSecond

/-! ### The ageing log (R413) -/

/-- AGEING_SUMMARY: the record and the ageing state take three entries of the circular log, and the fixed area follows. -/
def execAgeingSummary (s : State) : Result :=
  if !s.mc.on then .next s
  else
    let ds := [s.mc.poweredNs / hourNs, s.mc.hotNs / hourNs]
    let rec0 := eventRecord .mc none 0x0002 s.mc.time ds
    let s := s.raise .mc none 0x0002 ds
    .next (s.logQueue (rec0 ++ toWords 16 s.ageing)).fixedLog

/-- AGEING_LOG_WRITE: the record, or the fixed area, whose turn it is among the NVM writes is written whole (R377, R413). -/
def execAgeingLogWrite (s : State) : Result :=
  if !s.mc.on || s.nvmInhibited || s.mc.nvmBusy then .next s
  else match s.nvmHead.map NvmWork.src with
    | some .log =>
      match s.mc.logWait with
      | [] => .next s.nvmNext
      | r :: rest =>
        let s := { s with mc := { s.mc with logWait := rest } }
        .next (s.logRecord 3 (ofWords r)).nvmNext
    | some .fixed => .next s.writeFixed.nvmNext
    | _ => .next s

/-! ### In-service proof (R400) -/

/-- The kind of a block number, kind × 16 + index. -/
def kindOf (n : Nat) : Option BlockKind :=
  match n / 16 with
  | 0 => some .core
  | 1 => some .stack
  | 2 => some .hub
  | 3 => some .port
  | 4 => some .regulator
  | 5 => some .mesh
  | _ => none

/-- A selection that no start accepts: a reserved kind or index, hub 0, the stack that holds the host context regions. -/
def State.proofBad (s : State) (n : Nat) : Bool :=
  match kindOf n with
  | none => true
  | some k => decide (blockCount k ≤ n % 16) || (decide (k = .hub) && decide (n % 16 = 0)) ||
      (decide (k = .stack) && decide (n % 16 = s.mc.hctx.val))

/-- Whether a partition has a queue pair, the capture ring or an OT connection on a port. -/
def State.partUsesPort (s : State) (p : PartId) (t : PortId) : Bool :=
  s.ports[t].qps.any (fun e => decide (e.2.fld 0 31 30 ≠ 0 ∧ e.2.fld 0 25 24 = p.val)) ||
  (s.cfgRecs 0x29).any (fun v => decide (recField 0x29 0 v = t.val ∧ recField 0x29 1 v = p.val)) ||
  (s.cluster p).any fun c => c.mine.any fun i => (c.path i).any fun q => decide (q.1 = t)

/-- Whether a block belongs to a partition: a core; a stack by the partition's ranges; a hub or regulator by its cores; a port
by what the partition has on it. -/
def State.blockIn (s : State) (p : PartId) (k : BlockKind) (i : Nat) : Bool :=
  match k with
  | .core => decide (s.cores[coreId i].part = some p)
  | .stack => s.parts[p].ranges.any fun r => decide (r.1 < (i + 1) * 128 ∧ i * 128 < r.1 + r.2)
  | .hub | .regulator => decide (s.cores[coreId (2 * i)].part = some p) || decide (s.cores[coreId (2 * i + 1)].part = some p)
  | .port => s.partUsesPort p (Fin.ofNat 8 i)
  | .mesh => false

/-- Whether a block belongs to a partition with a job. -/
def State.blockBusy (s : State) (n : Nat) : Bool :=
  match kindOf n with
  | none => false
  | some k => allParts.any fun p => (s.job p).isSome && s.blockIn p k (n % 16)

/-- Every block number that may be selected, in the order of the kinds. -/
def allBlocks : List Nat := (List.range 96).filter fun n => (kindOf n).any fun k => decide (n % 16 < blockCount k)

/-- The blocks that a selector names, or the status that refuses it. -/
def State.proofSelect (s : State) (w : Nat) : Except Nat (List Nat) :=
  if nbits w 11 4 ≠ 0 then .error stField
  else if w / 4096 = 15 then .ok (allBlocks.filter fun n => !s.proofBad n && !s.blockBusy n)
  else
    let n := w / 4096 * 16 + w % 16
    if s.proofBad n then .error stField else if s.blockBusy n then .error stPartBusy else .ok [n]

/-- A proof with no block left is DONE (R268). -/
def State.proofEnd (s : State) (h : Nat) : State :=
  match s.handleOf h with
  | some x => if x.work = [] then s.opDone h 0 0 0 else s
  | none => s

/-- MGMT_PROOF (R270, R400). -/
def execMgmtProof (r : Setup) (s : State) : Result :=
  .next (s.opStart r 0x10 (fun s => match s.proofSelect r.wIndex with
      | .error e => .error (e, s)
      | .ok l => .ok (s, { num := 0, kind := 0, owner := 0, work := l }))
    fun h s => s.proofEnd h)

/-- Proof of a block destroys the contents of its memories (R400). DESIGN CHOICE: of a port die these are its buffers, of a hub die the
stacks beside it (log entry 95, unsafe). -/
def State.proofWipe (s : State) (k : BlockKind) (i : Nat) : State :=
  match k with
  | .core => (s.loseCore (coreId i)).updCore (coreId i) fun c => { c with
      first := { c.first with tables := [] }, guest := { c.guest with tables := [] } }
  | .stack => s.zeroRange (stackBase i) 0x2000000000
  | .hub => (s.zeroRange (stackBase (2 * i)) 0x2000000000).zeroRange (stackBase (2 * i + 1)) 0x2000000000
  | .port => s.buffersLost (Fin.ofNat 8 i)
  | _ => s

/-- PROOF_BLOCK_DONE (R400, R401): a block that fails becomes unusable at once; a fenced core that passes is recorded and stays
fenced. -/
def execProofBlockDone (h : Nat) (failCode : Option Nat) (s : State) : Result :=
  match s.handleOf h with
  | none => .next s
  | some x =>
    if x.kind ≠ 0x10 ∨ x.state ≠ .running ∨ !s.mc.hubRailOn then .next s
    else match x.work with
      | [] => .next s
      | n :: rest =>
        let s := match kindOf n with
          | none => s
          | some k =>
            let i := n % 16
            let s := s.proofWipe k i
            match failCode with
            | some code => s.blockFails k i code true
            | none => if k = BlockKind.core ∧ s.fenced i then s.updRail (coreId i) fun r => { r with passed := true } else s
        .next ((s.updHandle h fun x => { x with work := rest, progress := x.progress + 1 }).proofEnd h)

end Sys2Proof.Machine
end

