-- ==== Sys2Proof/Machine/Window.lean ====
section
/-! DEFINITION. The windows of the job interfaces: frames, held requests, doorbells, notices (R241-R252, R263). -/

namespace Sys2Proof.Machine

/-- Whether the host has the full interface set: started, attached, not suspended (R234, R236). -/
def State.hostUp (s : State) : Bool := s.linked && s.mc.complete

/-! ### What a frame or a command may reach (R242) -/

/-- The in-service cores of a partition in ascending order. -/
def State.partCores (s : State) (p : PartId) : List CoreId :=
  allCores.filter fun c => s.parts[p].phys.getLsbD c.val && s.cores[c].inService

/-- The job through which a window translates: the partition's own, else logical core i as its i-th in-service core. -/
def State.windowJob (s : State) (p : PartId) : Job :=
  (s.job p).getD
    (let l := s.partCores p
     { lcores := l.length, serves := l.map fun c => some ⟨c, false⟩ })

/-- Whether an address lies in a gradient buffer, or in a table partition of side memory (R242). -/
def noWindowWrite (a : Nat) : Bool :=
  match regionOf a with
  | .gb _ => true
  | .side _ => decide (a % 0x10000000 - 0xC000000 < 0x80000)
  | _ => false

/-- Whether an address lies in the memory of a logical core that no core serves. -/
def Job.unserved (j : Job) (a : Nat) : Bool :=
  match regionOf a with
  | .crumb c | .wm c | .gb c | .side c => (j.serve c.val).isNone
  | _ => false

/-- The status that refuses an access through a window or of a command: a hole, or a place that the partition may not reach
(R170, R242). -/
def State.reachErr (s : State) (p : PartId) (write : Bool) (as : List Nat) : Option Nat :=
  let j := s.windowJob p
  if as.any isHole then some stAddress
  else if as.any fun a => !s.mayName p j.lcores a || (write && noWindowWrite a) || j.inB a || j.unserved a ||
      (s.unusable (j.phys write a)).isSome then some stDenied
  else none

/-- `n` addresses from `a`. -/
def spanOf (a n : Nat) : List Nat := (List.range n).map fun i => a + i

/-- The same for a run of bytes. -/
def State.reachSpan (s : State) (p : PartId) (write : Bool) (a n : Nat) : Option Nat := s.reachErr p write (spanOf a n)

/-! ### Frames (R243-R246) -/

/-- Sequence number `x` has landed (R244). -/
def Iface.hasLanded (i : Iface) (x : Nat) : Bool := decide ((i.landed - BitVec.ofNat 32 x).toNat < 2 ^ 31)

/-- The header check that a frame fails: its field as byte offset and top bit, and the status of a READ (R245). -/
def State.frameErr (s : State) (p : PartId) (f : Frame) : Option (Nat × Nat × Nat) :=
  let i := s.parts[p].iface
  if f.ftype ≠ 1 ∧ f.ftype ≠ 2 then some (0x00, 31, stRequest)
  else if f.reserved ≠ 0 then some (0x00, 23, stRequest)
  else if 0x4000000 ≤ f.offset then some (0x08, 31, stAddress)
  else if f.length = 0 ∨ 16777216 < f.length ∨ 0x4000000 < f.offset + f.length then some (0x0C, 31, stAddress)
  else if f.ftype = 1 ∧ BitVec.ofNat 32 f.seq ≠ i.landed + 1 then some (0x04, 31, stRequest)
  else if f.ftype = 2 ∧ f.seq ≠ 0 then some (0x04, 31, stRequest)
  else if f.ftype = 1 ∧ f.tag ≠ 0 then some (0x10, 31, stRequest)
  else (s.reachSpan p (decide (f.ftype = 1)) (i.base + f.offset) f.length).map fun st => (0x08, 30, st)

/-- The interface goes into WINDOW_FAULT (R245). -/
def State.windowFault (s : State) (p : PartId) (f : Frame) (field : Nat × Nat) : State :=
  let s := s.updIface p fun i => { i with fault := true }
  let s := s.setReg (usbJobFaultseq p.val) (BitVec.ofNat 32 f.seq)
  s.raise .usb (some p) 0x2004 [1 + p.val, f.seq, Config.fieldWord 0x2004 field.1 field.2]

/-- A READ's response joins those to be sent: TYPE 0x82, STATUS, TAG, OFFSET and LENGTH, then the data (R246). -/
def readResponse (f : Frame) (status : Nat) (data : List Byte) : List Byte :=
  leBytes 4 (0x82 * 2 ^ 24 + status) ++ leBytes 4 0 ++ leBytes 4 f.offset ++ leBytes 4 data.length ++ leBytes 4 f.tag ++
    leBytes 12 0 ++ data

/-- A response of a job interface. -/
def State.respond (s : State) (p : PartId) (f : Frame) (status : Nat) (data : List Byte) : State :=
  s.updIface p fun i => { i with responses := i.responses ++ [readResponse f status data] }

/-- A READ that finds an uncorrectable error reports it and is answered FAILED (R190, R246). -/
def State.readFrame (s : State) (p : PartId) (f : Frame) : State :=
  let j := s.windowJob p
  let as := spanOf (s.parts[p].iface.base + f.offset) f.length
  let s := s.touchAll (as.map (j.phys false))
  match s.lbad j as with
  | some a => ((s.uncorrectable (some p) a).fenceByErrors a).respond p f stFailed []
  | none => (s.meetReads (as.map (j.phys false))).respond p f 0 (as.map (s.lrd j))

/-- A WRITE is performed, and L becomes its SEQ (R244). -/
def State.writeFrame (s : State) (p : PartId) (f : Frame) : State :=
  let j := s.windowJob p
  let a := s.parts[p].iface.base + f.offset
  let s := s.touchAll ((spanOf a f.length).map (j.phys true))
  (s.lputBytes j a f.data).updIface p fun i => { i with landed := BitVec.ofNat 32 f.seq }

/-- A frame of the current generation is taken. -/
def State.takeFrame (s : State) (p : PartId) (f : Frame) : State :=
  match s.frameErr p f with
  | some (o, b, st) => if f.ftype = 2 then s.respond p f st [] else s.windowFault p f (o, b)
  | none => if f.ftype = 2 then s.readFrame p f else s.writeFrame p f

/-! ### Held requests (R250-R252) -/

/-- The E that a held request waits for. -/
def HeldReq.e : HeldReq → Nat
  | .window _ _ e => e
  | .doorbell _ e => e

/-- A held request is applied: B and G together, or CMD_TAIL. -/
def State.applyHeld (s : State) (p : PartId) : HeldReq → State
  | .window b g _ => s.updIface p fun i => { i with base := b, gen := g }
  | .doorbell t _ => s.updHdr p fun h => { h with cmdTail := t }

/-- What can go on does: the oldest held request once its E has landed, and the held frame once its generation holds. The first
number is fuel: eight requests and one frame. -/
def State.goOnN : Nat → PartId → State → State
  | 0, _, s => s
  | n + 1, p, s =>
    let i := s.parts[p].iface
    match i.heldFrame with
    | some f =>
      if f.gen = i.gen ∧ !i.fault then
        State.goOnN n p ((s.updIface p fun i => { i with heldFrame := none }).takeFrame p f)
      else match i.held with
        | r :: rest =>
          if i.hasLanded r.e then State.goOnN n p ((s.updIface p fun i => { i with held := rest }).applyHeld p r) else s
        | [] => s
    | none => match i.held with
      | r :: rest =>
        if i.hasLanded r.e then State.goOnN n p ((s.updIface p fun i => { i with held := rest }).applyHeld p r) else s
      | [] => s

/-- The same for an interface. -/
def State.goOn (s : State) (p : PartId) : State := State.goOnN 9 p s

/-! ### The frames' commands -/

/-- A frame arrives: it waits at the host while the endpoint accepts nothing, is discarded in WINDOW_FAULT, is held for its
generation, or is taken (R245, R264). -/
def State.frameIn (s : State) (p : PartId) (f : Frame) : State :=
  let i := s.parts[p].iface
  if !s.hostUp || i.resetBusy || i.heldFrame.isSome || i.fault then s
  else if f.gen ≠ i.gen then s.updIface p fun i => { i with heldFrame := some f }
  else (s.takeFrame p f).goOn p

/-- WRITE (R244, R245). -/
def execFrameWrite (p : PartId) (f : Frame) (s : State) : Result := .next (s.frameIn p f)

/-- READ (R246). -/
def execFrameRead (p : PartId) (f : Frame) (env : MemEnv) (s : State) : Result := .next ((s.takeEnv env).frameIn p f)

/-- FRAME_GEN_TIMEOUT (R245): the held frame is rejected; a READ is answered all the same (R246). -/
def execFrameGenTimeout (p : PartId) (s : State) : Result :=
  match s.parts[p].iface.heldFrame with
  | none => .next s
  | some f =>
    let s := s.updIface p fun i => { i with heldFrame := none }
    let s := if f.ftype = 2 then s.respond p f stRequest [] else s
    .next ((s.windowFault p f (0x00, 15)).goOn p)

/-- HELD_REQUEST_STALE (R252): the `k`-th held request is discarded, and those behind it go on. -/
def execHeldRequestStale (p : PartId) (k : Nat) (s : State) : Result :=
  let i := s.parts[p].iface
  match i.held[k]? with
  | none => .next s
  | some r =>
    let s := s.updIface p fun i => { i with held := i.held.eraseIdx k }
    let s := match r with
      | .doorbell t e =>
        ((s.updIface p fun i => { i with staleD := true }).countFld (usbJobStale p.val) 15 0 1).raise .usb (some p) 0x2002
          [1 + p.val, e, i.landed.toNat, t]
      | .window _ _ e =>
        ((s.updIface p fun i => { i with staleW := true }).countFld (usbJobStale p.val) 31 16 1).raise .usb (some p) 0x2003
          [1 + p.val, e, i.landed.toNat]
    .next (s.goOn p)

/-! ### SET_WINDOW, DOORBELL, GET_IF_STATUS -/

/-- A request joins those held, unless eight are held or its E comes before one of theirs (R251). -/
def State.hold (s : State) (p : PartId) (b : Nat) (r : HeldReq) : State :=
  let i := s.parts[p].iface
  if 8 ≤ i.held.length then s.reqFail (1 + p.val) b stHeldFull 0
  else if i.held.any fun h => decide (2 ^ 31 ≤ (BitVec.ofNat 32 r.e - BitVec.ofNat 32 h.e).toNat) then
    s.reqFail (1 + p.val) b stSeqOrder 0
  else ((s.updIface p fun i => { i with held := i.held ++ [r] }).reqOk []).goOn p

/-- The form of a request of the job interfaces. -/
def jobForm (dirIn : Bool) (n : Nat) : ReqForm := { dev := false, lo := 1, hi := 4, dirIn := dirIn, len := fun k => decide (k = n), value0 := true }

/-- SET_WINDOW (R241). -/
def execSetWindow (r : Setup) (s : State) : Result :=
  .next (s.request r 0x10 (jobForm false 16) fun i s =>
    let b := rdLE r.data 0 6
    if rdLE r.data 12 4 ≠ 0 then s.reqFail i 0x10 stRequest 12
    else if b % 0x100000 ≠ 0 ∨ (b < regRegion + regSpan ∧ regRegion < b + 0x4000000) then s.reqFail i 0x10 stAddress 0
    else s.hold (Fin.ofNat 4 (i - 1)) 0x10 (.window b (rdLE r.data 6 2) (rdLE r.data 8 4)))

/-- DOORBELL (R250). -/
def execDoorbell (r : Setup) (s : State) : Result :=
  .next (s.request r 0x11 (jobForm false 8) fun i s =>
    let p : PartId := Fin.ofNat 4 (i - 1)
    let t := rdLE r.data 0 2
    let h := s.parts[p].iface.hdr
    if 4096 ≤ t then s.reqFail i 0x11 stRequest 0
    else if rdLE r.data 2 2 ≠ 0 then s.reqFail i 0x11 stRequest 2
    else if 4095 - (h.cmdTail + 4096 - h.cmdHead) % 4096 < (t + 4096 - h.cmdTail) % 4096 then s.reqFail i 0x11 stField 0
    else s.hold p 0x11 (.doorbell t (rdLE r.data 4 4)))

/-- GET_IF_STATUS (R272): the eight registers of the interface's group. -/
def execGetIfStatus (r : Setup) (s : State) : Result :=
  .next (s.request r 0x12 (jobForm true 32) fun i s =>
    s.reqOk (ofWords ((List.range 8).map fun k => s.regView (usbJobWinLo (i - 1) + 4 * k))))

/-! ### Notices (R263) -/

/-- The eight bytes of a notice. -/
def Iface.notice (i : Iface) : List Byte :=
  leBytes 2 i.hdr.cplTail ++ leBytes 2 i.hdr.evtTail ++ leBytes 2 i.hdr.cmdHead ++
    leBytes 1 (b2n i.staleD + 2 * b2n i.staleW + 4 * b2n i.fault) ++ leBytes 1 0

/-- NOTICE_INTERVAL: a notice goes out when one of its values has changed; a stale flag is shown once. -/
def execNoticeInterval (p : PartId) (s : State) : Result :=
  let i := s.parts[p].iface
  if s.hostUp && decide (i.notice ≠ i.lastNotice) then
    .next (s.updIface p fun i => { i with notices := i.notices ++ [i.notice], lastNotice := i.notice, staleD := false, staleW := false })
  else .next s

end Sys2Proof.Machine
end

