-- ==== Sys2Proof/Machine/Operations.lean ====
section
/-! DEFINITION. Long operations: their status, suspension, cancellation and release (R267-R271, R357). -/

namespace Sys2Proof.Machine

/-! ### Jobs -/

/-- Whether a member takes its HOST_OPs to the starter's step commit: it has joined (R321, R357). -/
def Cluster.inStep (c : Cluster) : Bool := decide (c.state = .member) || (decide (c.state = .paused) && inMask c.roster c.self)

/-- A HOST_OP for the starter: 1 suspend, 2 resume, 3 cancel (R357). -/
def State.sendHostOp (s : State) (p : PartId) (op : Nat) : State :=
  match s.cluster p with
  | some c => s.sendCtl p c.starter 0x28 (leBytes 1 op)
  | none => s

/-- A job alone goes on: its streams restart, but not past its attempt limit (R352). -/
def State.resumeAlone (s : State) (p : PartId) : State :=
  match s.job p with
  | none => s
  | some j =>
    if j.cmt.limit then s.raise .mc (some p) 0x7104 [j.step.commit + 1]
    else
      let s := s.updHandle j.handle fun x => if x.state = .suspended then { x with state := .running } else x
      let s := s.updJob p fun j => { j with paused := false, cmt := { j.cmt with abortsHere := 0 } }
      s.restartWhenClear p

/-- OP_CANCEL of a job (R220, R269, R357): a member of a cluster asks its starter; one that has not joined leaves. -/
def State.cancelJob (s : State) (p : PartId) : State :=
  match s.job p with
  | none => s
  | some j => match j.cluster with
    | none => s.endJob p .cancel 2 0
    | some c =>
      if c.inStep then s.sendHostOp p 3
      else
        let s := s.sendCtl p c.starter 0x04 (leBytes 4 0)
        (s.updCluster p fun c => { c with state := .left }).endJob p .cancel 2 0

/-! ### Any operation -/

/-- What CANCELLING makes of an operation that may be cancelled (R269): it ends at once, or when its step or record does. -/
def State.cancelOp (s : State) (x : Handle) : State :=
  let s := s.updHandle x.num fun x => { x with state := .cancelling, suspendPending := false }
  let endNow := fun (s : State) => s.opDone x.num stCancelled 0 0
  match x.kind with
  | 1 => match x.part with
    | some p => s.cancelJob p
    | none => endNow s
  | 2 => match x.part with
    | some p => ((endNow s).ckptRead p).commitWaiting p
    | none => endNow s
  | 0x11 =>
    let mine := fun (c : CoreId) => (x.work.getD 0 0).testBit c.val
    let s := (allCores.filter mine).foldl (fun s c => s.updCore c fun k => { k with knead := k.knead.map fun n => { n with sweepLeft := 0 } }) s
    endNow s
  | 0x12 => endNow { s with mc := { s.mc with nvmQueue := s.mc.nvmQueue.filter fun w => decide (w.src ≠ .op x.num) } }
  | 0x13 =>
    if s.mc.nvmQueue.any fun w => decide (w.src = .op x.num) && w.live then s
    else (endNow { s with mc := { s.mc with nvmQueue := s.mc.nvmQueue.filter fun w => decide (w.src ≠ .op x.num) } }).nvmGo
  | _ => endNow s

/-- Whether an operation has passed its point of no return (R269, R386). -/
def Handle.pastReturn (x : Handle) : Bool := decide (x.kind = 0x12) && decide (x.work.getD 0 0 = 1)

/-- OP_CANCEL on a handle (R268); the status of a refusal. -/
def State.opCancelOn (s : State) (x : Handle) : Except Nat State :=
  match x.state with
  | .cancelling | .done => .ok s
  | .running | .suspended => if x.pastReturn then .error stNoCancel else .ok (s.cancelOp x)

/-- Whether a kind has a suspend point; RUN jobs and FW_STAGE have none (R269). -/
def State.canSuspend (s : State) (x : Handle) : Bool :=
  match x.kind with
  | 1 => !((x.part.bind s.job).any fun j => decide (j.kind = .run))
  | 0x12 => false
  | _ => true

/-- OP_SUSPEND on a handle (R268, R357). -/
def State.opSuspendOn (s : State) (x : Handle) : Except Nat State :=
  if x.state = .done then .error stRequest
  else if !s.canSuspend x then .error stNoSuspend
  else if x.state ≠ .running ∨ x.suspendPending then .ok s
  else
    let s := s.updHandle x.num fun x => { x with suspendPending := true }
    .ok (match x.kind, x.part with
      | 1, some p => s.sendHostOp p 1
      | _, _ => s)

/-- Work that a resumed operation takes up again. -/
def State.workOn (s : State) (x : Handle) : State :=
  match x.kind with
  | 2 => s.ckptOn x.num
  | 3 => s.loadNext x.num
  | 0x13 => s.nvmGo
  | _ => s

/-- OP_RESUME of a job (R352, R357): in a cluster the starter is asked. -/
def State.resumeJob (s : State) (x : Handle) (p : PartId) : State :=
  match s.job p with
  | none => s
  | some j =>
    if j.cluster.isSome then s.sendHostOp p 2
    else if x.state = .suspended ∨ j.paused then s.resumeAlone p
    else s

/-- OP_RESUME on a handle (R268). -/
def State.opResumeOn (s : State) (x : Handle) : Except Nat State :=
  match x.state with
  | .done => .error stRequest
  | .cancelling => .ok s
  | .running | .suspended =>
    let s := s.updHandle x.num fun x => { x with suspendPending := false }
    match x.kind, x.part with
    | 1, some p => .ok (s.resumeJob x p)
    | _, _ => .ok ((s.updHandle x.num fun x => { x with state := .running }).workOn x)

/-- OP_RELEASE on a handle (R268). -/
def State.opReleaseOn (s : State) (x : Handle) : Except Nat State :=
  if x.state = .done then .ok { s with handles := s.handles.filter fun y => decide (y.num ≠ x.num) } else .error stRequest

/-- The form of a handle request (R238). -/
def handleForm (dirIn : Bool) (n : Nat) (recovery : Bool) : ReqForm :=
  { dev := true, lo := 0, hi := 5, dirIn := dirIn, len := fun k => decide (k = n), index0 := true, inRecovery := recovery }

/-- A request on the handle in wValue (R267). -/
def State.onHandle (s : State) (r : Setup) (b : Nat) (q : ReqForm) (f : Handle → State → Except Nat State) : State :=
  s.request r b q fun i s =>
    match s.ownHandle i r.wValue with
    | none => s.reqFail i b stUnknown 0
    | some x => match f x s with
      | .error st => s.reqFail i b st 0
      | .ok s => s

/-- State of an operation as a number (R271). -/
def OpState.code : OpState → Nat
  | .running => 0
  | .suspended => 1
  | .cancelling => 2
  | .done => 3

/-- The 16 bytes of OP_STATUS (R271). -/
def Handle.statusBytes (x : Handle) : List Byte :=
  leBytes 2 x.num ++ leBytes 1 x.kind ++ leBytes 1 x.state.code ++ leBytes 1 (b2n x.suspendPending) ++ leBytes 1 x.owner ++
    leBytes 2 x.status ++ leBytes 2 x.event ++ leBytes 2 0 ++ leBytes 4 x.progress

/-- OP_STATUS (R271). -/
def execOpStatus (r : Setup) (s : State) : Result :=
  .next (s.onHandle r 0x20 (handleForm true 16 true) fun x s => .ok (s.reqOk x.statusBytes))

/-- OP_SUSPEND (R268). -/
def execOpSuspend (r : Setup) (s : State) : Result :=
  .next (s.onHandle r 0x21 (handleForm false 0 false) fun x s => (s.opSuspendOn x).map fun s => s.reqOk [])

/-- OP_RESUME (R268). -/
def execOpResume (r : Setup) (s : State) : Result :=
  .next (s.onHandle r 0x22 (handleForm false 0 false) fun x s => (s.opResumeOn x).map fun s => s.reqOk [])

/-- OP_CANCEL (R268). -/
def execOpCancel (r : Setup) (s : State) : Result :=
  .next (s.onHandle r 0x23 (handleForm false 0 true) fun x s => (s.opCancelOn x).map fun s => s.reqOk [])

/-- OP_RELEASE (R268). -/
def execOpRelease (r : Setup) (s : State) : Result :=
  .next (s.onHandle r 0x24 (handleForm false 0 true) fun x s => (s.opReleaseOn x).map fun s => s.reqOk [])

/-- The live handle after `h` among those listed, in ascending order. -/
def nextAbove (l : List Handle) (h : Nat) : Option Handle :=
  l.foldl (fun (a : Option Handle) x =>
    if x.num < h then a else match a with
      | some y => if x.num < y.num then some x else a
      | none => some x) none

/-- Up to `n` handles from `h` on, in ascending order. -/
def listFrom (l : List Handle) : Nat → Nat → List Handle
  | 0, _ => []
  | n + 1, h => match nextAbove l h with
    | some x => x :: listFrom l n (x.num + 1)
    | none => []

/-- OP_LIST (R271). -/
def execOpList (r : Setup) (s : State) : Result :=
  .next (s.request r 0x25 (handleForm true 256 true) fun i s =>
    let mine := if i = 0 then s.handles else s.handles.filter fun x => decide (x.owner = i)
    let l := listFrom mine 64 r.wValue
    s.reqOk (slice (l.flatMap fun x => leBytes 2 x.num ++ leBytes 1 x.kind ++ leBytes 1 x.state.code) 0 256))

/-- Whether an operation with a pending suspend stands at its suspend point (R269, R360): a job's come with its COMMIT, ABORT
or iteration. -/
def State.atSuspendPoint (s : State) (x : Handle) : Bool :=
  match x.kind with
  | 1 => false
  | 2 => decide (x.work.getD 4 0 = 1) && !((x.part.bind s.job).any fun j => j.cmt.ckptReading) && !(s.qp x.path.1 x.path.2).owes (.op x.num)
  | 3 => !(s.qp x.path.1 x.path.2).owes (.op x.num)
  | 0x11 => allCores.all fun c => !((x.work.getD 0 0).testBit c.val) || !s.coreUp c || s.cores[c].knead.toList.all fun k => decide (k.phase = .gap)
  | 0x13 => !(s.mc.nvmQueue.any fun w => decide (w.src = .op x.num) && w.live)
  | _ => true

/-- OP_SUSPEND_POINT (R268). -/
def execOpSuspendPoint (h : Nat) (s : State) : Result :=
  match s.handleOf h with
  | some x =>
    if x.suspendPending && decide (x.state = .running) && s.atSuspendPoint x then
      .next (s.updHandle h fun x => { x with state := .suspended, suspendPending := false })
    else .next s
  | none => .next s

end Sys2Proof.Machine
end

