-- ==== Sys2Proof/Machine/Loader.lean ====
section
/-! DEFINITION. The records of a job image as the job loader reads and checks them (R65, R131-R165, R217-R228, R256-R258). -/

namespace Sys2Proof.Machine

/-- Why a load stops: the command's own status, a refusal with its event, or a read that finds an uncorrectable error. -/
inductive LoadStop where
  | status (st : Nat)
  | refuse (e : DErr)
  | unread (a : Nat)
  deriving DecidableEq, Repr

/-- What a part of the loader answers. -/
abbrev Load (α : Type) : Type := Except LoadStop α

/-- The loader refuses the job when an error is found. -/
def orRefuse : Option DErr → Load Unit
  | none => .ok ()
  | some e => .error (.refuse e)

/-- The loader goes on only where a condition holds. -/
def require (b : Bool) (e : DErr) : Load Unit := if b then .ok () else .error (.refuse e)

/-- `n` bytes of a record, held to the partition's reach (R242, R256). -/
def State.loadRead (s : State) (p : PartId) (a n : Nat) (e : LoadStop) : Load (List Byte) :=
  if (s.reachSpan p false a n).isSome then .error e
  else match s.lbad (s.windowJob p) (spanOf a n) with
    | some b => .error (.unread b)
    | none => .ok (s.lrdBytes (s.windowJob p) a n)

/-- Bytes cut into records of `n` bytes with their positions. -/
def records (n k : Nat) (b : List Byte) : List (Nat × List Byte) := (List.range k).map fun i => (i, slice b (i * n) n)

/-- Field `[hi:lo]` of the word at offset `o` of a record. -/
def rfld (b : List Byte) (o hi lo : Nat) : Nat := nbits (rdLE b o 4) hi lo

/-- Whether a run of bytes lies in the HBM4E ranges of a partition, which are whole GiB units (R223). -/
def State.rangeCovers (s : State) (p : PartId) (a n : Nat) : Bool :=
  (List.range (n / 2 ^ 30 + 2)).all fun k => s.inRanges p (Nat.min (a + k * 2 ^ 30) (a + n - 1))

/-! ### The header (R256) -/

/-- JOB_IMAGE_INVALID with a field of the header. -/
def imgErr (p : PartId) (h : List Byte) (off top : Nat) : DErr := ⟨0x2006, [p.val, rdLE h 0 4, Config.fieldWord 0x2006 off top]⟩

/-- The header is read; its place answers with the command's own status. -/
def State.loadHeader (s : State) (p : PartId) (a : Nat) : Load (List Byte) :=
  if a % 64 ≠ 0 then .error (.status stField)
  else match s.reachSpan p false a 128 with
    | some st => .error (.status st)
    | none => s.loadRead p a 128 (.status stDenied)

/-- A record field of the header: a 48-bit address, 0 for absent. -/
def hdrAddr (h : List Byte) (off : Nat) : Nat := rdLE h off 6

/-- What the header shows before any record is read. -/
def headerCheck (p : PartId) (h : List Byte) : Option DErr :=
  let e := imgErr p h
  firstErr (([0x08, 0x10, 0x18, 0x20, 0x28, 0x30, 0x38].map fun o => (decide (rdLE h (o + 6) 2 ≠ 0), e (o + 4) 31)) ++ [
    (decide (hdrAddr h 0x08 = 0), e 0x08 31), (!zeros h 0x50 0x30, e 0x50 31),
    (decide (512 < rfld h 0x40 31 16), e 0x40 31), (decide (4096 < rfld h 0x40 15 0), e 0x40 15),
    (decide (65536 < rdLE h 0x44 4), e 0x44 31),
    (decide (rfld h 0x40 31 16 ≠ 0 ∧ hdrAddr h 0x28 = 0), e 0x28 31), (decide (rfld h 0x40 15 0 ≠ 0 ∧ hdrAddr h 0x30 = 0), e 0x30 31),
    (decide (rdLE h 0x44 4 ≠ 0 ∧ hdrAddr h 0x20 = 0), e 0x20 31)] ++
    (List.range 8).map fun i => (decide (32 ≤ rdLE h (0x48 + i) 1), e (0x48 + i) 7))

/-- What the job's kind requires of the header. -/
def kindCheck (p : PartId) (h : List Byte) (kind : JobKind) : Option DErr :=
  let e := imgErr p h
  if kind = .train then
    firstErr [(decide (hdrAddr h 0x10 = 0), e 0x10 31), (decide (hdrAddr h 0x18 = 0), e 0x18 31), (decide (hdrAddr h 0x20 = 0), e 0x20 31)]
  else firstErr [(decide (rdLE h 4 4 ≠ 0), e 0x04 31)]

/-! ### The core plan (R217, R225, R228) -/

/-- A core plan record. -/
structure CorePlan where
  kind : JobKind
  lcores : Nat
  waitLimit : Nat
  listsAt : Nat
  lists : Nat
  preAt : Nat
  pres : Nat
  guests : List (Option Nat)

/-- SYN_OPERAND_INVALID of the plan itself (R217). DESIGN CHOICE: a plan record has no logical core, list or descriptor, and each of these
detail words is 0 (log entry 100). -/
def planErr (off top : Nat) : DErr := synErr 0 0 0 off top

/-- The first field of a core plan record that is out of range. -/
def planCheck (b : List Byte) : Option DErr :=
  firstErr ([
    (decide (rfld b 0 31 28 = 0 ∨ 3 < rfld b 0 31 28), planErr 0 31), (decide (rfld b 0 27 20 ≠ 0), planErr 0 27),
    (decide (rfld b 0 19 16 = 0 ∨ 8 < rfld b 0 19 16), planErr 0 19), (decide (3600 < rfld b 0 15 0), planErr 0 15),
    (decide (rfld b 8 31 16 = 0 ∨ 40 < rfld b 8 31 16), planErr 8 31), (decide (4096 < rdLE b 0xC 4), planErr 0xC 31),
    (decide (rfld b 0x14 31 16 ≠ 0), planErr 0x14 31), (!zeros b 0x58 8, planErr 0x58 31)] ++
    (List.range 8).map fun i => (decide (rfld b (0x1C + 8 * i) 30 16 ≠ 0), planErr (0x1C + 8 * i) 30))

/-- A core plan record that passed its checks. -/
def planOf (b : List Byte) : CorePlan where
  kind := match rfld b 0 31 28 with | 1 => .train | 2 => .run | _ => .loop
  lcores := rfld b 0 19 16
  waitLimit := if rfld b 0 15 0 = 0 then 10 else rfld b 0 15 0
  listsAt := rdLE b 4 6
  lists := rfld b 8 31 16
  preAt := rdLE b 0x10 6
  pres := rdLE b 0xC 4
  guests := (List.range 8).map fun i => if rfld b (0x1C + 8 * i) 31 31 = 1 then some (rdLE b (0x18 + 8 * i) 6) else none

/-- The first guest area that is not 1 MiB aligned in HBM4E of the partition (R217, R224). -/
def State.guestCheck (s : State) (p : PartId) (c : CorePlan) : Option DErr :=
  (indexed c.guests).findSome? fun e => match e.2 with
    | some a => if a % 0x100000 = 0 ∧ s.rangeCovers p a guestBytes then none else some (planErr (0x18 + 8 * e.1) 31)
    | none => none

/-- Logical cores meet physical cores at load: the in-service cores in ascending order, then hosts for those with a guest
area; a ganged job has no guests (R225, R226). -/
def State.loadServes (s : State) (p : PartId) (n : Nat) (guests : List (Option Nat)) (ganged : Bool) : List (Option Serve) :=
  let live := s.liveCores p
  let base := (List.range n).map fun i => (live[i]?).map fun c => (⟨c, false⟩ : Serve)
  (List.range n).foldl (fun m i =>
    if ((m[i]?).join).isSome || ganged || !((guests[i]?).join).isSome then m
    else match s.hostFor p m none with
      | some c => m.set i (some ⟨c, true⟩)
      | none => m) base

/-- A preload record with what refuses it: its source in HBM4E, its destination in memories of the job's logical cores (R228). DESIGN
CHOICE: the spec names no event for a malformed one; it is SYN_OPERAND_INVALID with logical core and list 0 and the record's number as
descriptor index (log entry 100). -/
def State.preloadOf (s : State) (p : PartId) (n : Nat) (r : Nat × List Byte) : Load Preload := do
  let b := r.2
  let e := fun off top => synErr 0 0 r.1 off top
  let x : Preload := ⟨rdLE b 0 6, rdLE b 8 6, rdLE b 0x10 4⟩
  orRefuse (firstErr [(decide (rdLE b 6 2 ≠ 0), e 4 31), (decide (rdLE b 0xE 2 ≠ 0), e 0xC 31), (decide (x.len % 64 ≠ 0), e 0x10 31),
    (!zeros b 0x14 12, e 0x14 31),
    (!(spanOf x.src x.len).all (fun a => decide (a < 0x10000000000) && s.mayName p n a), e 0 31),
    (!(spanOf x.dst x.len).all (fun a => !decide (a < 0x10000000000) && s.mayName p n a), e 8 31)])
  .ok x

/-! ### Numerics and weight tensors (R65, R151, R257, R258) -/

/-- NUM_PARAM_INVALID with a field of the record. -/
def numErr (off top : Nat) : DErr := ⟨0x3004, [Config.fieldWord 0x3004 off top]⟩

/-- The first field of a numerics record that is out of range. -/
def numCheck (b : List Byte) : Option DErr :=
  firstErr [(decide (sext 8 (rfld b 8 31 24) < -32 ∨ 32 < sext 8 (rfld b 8 31 24)), numErr 8 31),
    (decide (rfld b 8 23 18 ≠ 0), numErr 8 23), (decide (rfld b 8 15 0 < 8), numErr 8 15), (decide (rfld b 0xC 31 16 ≠ 0), numErr 0xC 31)]

/-- A numerics record with one byte for each bucket behind it. -/
def numOf (b : List Byte) : NumRec where
  seed := rdLE b 0 8
  sg := sext 8 (rfld b 8 31 24)
  wide := decide (rfld b 8 17 17 = 1)
  raise := decide (rfld b 8 16 16 = 1)
  threshold := rfld b 8 15 0
  floors := (List.range (rfld b 0xC 15 0)).map fun i => rdLE b (16 + i) 1

/-- The numerics record that a header names: its bytes and its content. -/
def State.loadNum (s : State) (p : PartId) (h : List Byte) : Load (List Byte × Option NumRec) :=
  if hdrAddr h 0x10 = 0 then .ok ([], none)
  else do
    let e := LoadStop.refuse (imgErr p h 0x10 31)
    let b ← s.loadRead p (hdrAddr h 0x10) 16 e
    orRefuse (numCheck b)
    let b ← s.loadRead p (hdrAddr h 0x10) (16 + rfld b 0xC 15 0) e
    .ok (b, some (numOf b))

/-- A weight-tensor entry. -/
def wtensorOf (b : List Byte) : WTensor where
  id := rdLE b 0 4
  elems := rdLE b 4 4 + rfld b 8 9 0 * 2 ^ 32
  trainable := decide (rfld b 8 31 31 = 1)
  uses := rfld b 8 29 28 + 1
  stages := (List.range (rfld b 8 29 28 + 1)).map fun u => rdLE b (0xC + u) 1

/-- What refuses a weight-tensor entry: a reserved field or a stage of an unused use, or uses on different stages (R151). -/
def wtensorCheck (p : PartId) (h b : List Byte) : Option DErr :=
  let t := wtensorOf b
  let s0 := t.stages.headD 0
  if rfld b 8 30 30 ≠ 0 ∨ rfld b 8 27 10 ≠ 0 ∨ rdLE b (0xC + t.uses) (4 - t.uses) ≠ 0 then some (imgErr p h 0x20 31)
  else (t.stages.find? fun x => decide (x ≠ s0)).map fun x => ⟨0x4406, [t.id, s0, x]⟩

/-- The weight-tensor table. -/
def State.loadWts (s : State) (p : PartId) (h : List Byte) : Load (List Byte × List WTensor) :=
  let n := rdLE h 0x44 4
  if hdrAddr h 0x20 = 0 then .ok ([], [])
  else do
    let b ← s.loadRead p (hdrAddr h 0x20) (16 * n) (.refuse (imgErr p h 0x20 31))
    orRefuse ((records 16 n b).findSome? fun r => wtensorCheck p h r.2)
    .ok (b, (records 16 n b).map fun r => wtensorOf r.2)

/-! ### The update record, banked regions and gradient tiles (R142, R156, R159, R165) -/

/-- BANK_LAYOUT_INVALID and GB_LAYOUT_INVALID with an index and a field. -/
def bankErr (i off top : Nat) : DErr := ⟨0x4407, [i, Config.fieldWord 0x4407 off top]⟩
def tileErr (i off top : Nat) : DErr := ⟨0x4405, [i, Config.fieldWord 0x4405 off top]⟩

/-- Entries of the global norm list that the weight tensors ask for (R156). -/
def normExpected (ws : List WTensor) : Nat := (ws.filter fun t => t.trainable).foldl (fun n t => n + cdiv t.elems 65536) 0

/-- The first field of an update record that is out of range. The norm fields raise NORM_LIST_INVALID (R156, R165). -/
def State.updCheck (s : State) (p : PartId) (b : List Byte) (ws : List WTensor) : Option DErr :=
  let n := rdLE b 0xC 4
  let off := rdLE b 0x10 4
  let js := rdLE b 0x18 6
  let jlen := 2 * (cdiv (64 + 4 * rdLE b 0x24 4) 4096 * 4096)
  let norm : DErr := ⟨0x4408, [n, normExpected ws]⟩
  firstErr [(decide (n = 0 ∨ 4194304 < n ∨ n ≠ normExpected ws), norm), (decide (off % 64 ≠ 0 ∨ 0x8000000 < off + 4 * n), norm),
    (decide (rdLE b 0x14 4 % 64 ≠ 0 ∨ 0x8000000 < rdLE b 0x14 4 + 32), bankErr 0 0x14 31),
    (decide (rfld b 0x1C 31 16 ≠ 0), bankErr 0 0x1C 31), (decide (256 < rfld b 0x20 15 0), bankErr 0 0x20 15),
    (decide (rfld b 0x20 31 16 ≠ 0), bankErr 0 0x20 31), (decide (rdLE b 0x24 4 = 0 ∨ 65536 < rdLE b 0x24 4), bankErr 0 0x24 31),
    (decide (js % 4096 ≠ 0) || !s.rangeCovers p js jlen, bankErr 0 0x18 31),
    (decide (rfld b 0x2C 31 16 ≠ 0), bankErr 0 0x2C 31), (decide (rfld b 0x34 31 16 ≠ 0), bankErr 0 0x34 31),
    (decide (65536 < rdLE b 0x38 4), bankErr 0 0x38 31), (decide (rdLE b 0x3C 4 ≠ 0), bankErr 0 0x3C 31)]

/-- A banked region record. -/
def bankOf (b : List Byte) : BankRec where
  a := rdLE b 0 6
  b := rdLE b 8 6
  len := rdLE b 0x10 6
  kind := rfld b 4 19 16
  tensor := rdLE b 0x18 4

/-- Memory level of a bank: crumb memory, or HBM4E that the partition may name (R159). -/
def State.bankLevel (s : State) (p : PartId) (n : Nat) (a len : Nat) : Option Bool :=
  let all (f : Nat → Bool) := (a :: spanOf a len).all fun x => f x && s.mayName p n x
  if all (fun x => match regionOf x with | .crumb _ => true | _ => false) then some false
  else if all (fun x => decide (x < 0x10000000000)) then some true
  else none

/-- What refuses banked region `i` by itself (R159). -/
def State.bankCheck (s : State) (p : PartId) (n i : Nat) (b : List Byte) : Option DErr :=
  let r := bankOf b
  let la := s.bankLevel p n r.a r.len
  let lb := s.bankLevel p n r.b r.len
  firstErr [(decide (rfld b 4 31 20 ≠ 0), bankErr i 4 31), (decide (1 < r.kind), bankErr i 4 19), (decide (rfld b 0xC 31 16 ≠ 0), bankErr i 0xC 31),
    (decide (rfld b 0x14 31 16 ≠ 0), bankErr i 0x14 31), (decide (rdLE b 0x1C 4 ≠ 0), bankErr i 0x1C 31),
    (decide (r.a % 4096 ≠ 0), bankErr i 0 31), (decide (r.b % 4096 ≠ 0), bankErr i 8 31), (decide (r.len % 4096 ≠ 0), bankErr i 0x10 31),
    (la.isNone, bankErr i 0 31), (decide (lb ≠ la), bankErr i 8 31)]

/-- The first region one of whose banks overlaps an earlier bank (R159). -/
def bankOverlap : List (Nat × Nat) → List (Nat × BankRec) → Option DErr
  | _, [] => none
  | old, (i, r) :: rest =>
    let hit (a : Nat) (l : List (Nat × Nat)) : Bool := l.any fun x => decide (a < x.1 + x.2 ∧ x.1 < a + r.len)
    if hit r.a old then some (bankErr i 0 31)
    else if hit r.b ((r.a, r.len) :: old) then some (bankErr i 8 31)
    else bankOverlap ((r.a, r.len) :: (r.b, r.len) :: old) rest

/-- A gradient tile record. -/
def tileOf (b : List Byte) : TileRec where
  tensor := rdLE b 0 4
  use := rfld b 4 27 26
  resident := decide (rfld b 4 24 24 = 1)
  core := rfld b 4 18 16
  tile := rfld b 4 15 0
  origin := rdLE b 8 4 + rfld b 0xC 9 0 * 2 ^ 32
  cols := (rfld b 0x10 31 16 + 1) * 32
  rows := rfld b 0x10 15 0 + 1
  off := rdLE b 0x14 4
  spill := rdLE b 0x18 6

/-- Whether tile `u` stands for use 0 of tile `t`: same tensor, origin, shape and core (R142, R151). -/
def TileRec.twin (t u : TileRec) : Bool :=
  decide (u.tensor = t.tensor ∧ u.origin = t.origin ∧ u.rows = t.rows ∧ u.cols = t.cols ∧ u.core = t.core)

/-- What refuses gradient tile `i` among all (R142, R151). -/
def State.tileCheck (s : State) (p : PartId) (n : Nat) (ws : List WTensor) (ts : List TileRec) (i : Nat) (b : List Byte) : Option DErr :=
  let t := tileOf b
  let uses := ((ws.find? fun w => decide (w.id = t.tensor)).map WTensor.uses).getD 0
  let others := ((indexed ts).filter fun e => decide (e.1 ≠ i)).map Prod.snd
  let cohab := others.filter fun u => decide (u.core = t.core ∧ t.off < u.off + u.bytes ∧ u.off < t.off + t.bytes)
  let slots := ((ts.filter fun u => decide (u.core = t.core)).map TileRec.off).eraseDups
  let spillOk := (span t.spill (64 + t.bytes)).all fun a =>
    s.mayName p n a && (match regionOf a with | .crumb _ | .hbm _ => true | _ => false)
  firstErr [(decide (rfld b 4 31 28 ≠ 0), tileErr t.tile 4 31), (decide (rfld b 4 25 25 ≠ 0), tileErr t.tile 4 25), (decide (rfld b 4 23 19 ≠ 0), tileErr t.tile 4 23),
    (decide (rfld b 0xC 31 10 ≠ 0), tileErr t.tile 0xC 31), (decide (rfld b 0x1C 31 16 ≠ 0), tileErr t.tile 0x1C 31),
    (decide (n ≤ t.core), tileErr t.tile 4 18), (others.any (fun u => decide (u.tile = t.tile)), tileErr t.tile 4 15),
    (decide (t.off % 64 ≠ 0 ∨ 0x3000000 < t.off + t.bytes), tileErr t.tile 0x14 31),
    (if t.resident then decide (t.spill ≠ 0) else decide (t.spill % 64 ≠ 0) || !spillOk, tileErr t.tile 0x18 31),
    (decide (uses = 0), tileErr t.tile 0 31), (decide (uses ≤ t.use), tileErr t.tile 4 27),
    (cohab.any (fun u => decide (u.off ≠ t.off ∨ u.bytes ≠ t.bytes)), tileErr t.tile 0x14 31),
    (decide (cohab ≠ []) && (t.resident || cohab.any fun u => u.resident), tileErr t.tile 4 24),
    (decide (16 < slots.length), tileErr t.tile 0x14 31),
    (decide (t.use ≠ 0) && !(others.any fun u => decide (u.use = 0) && t.twin u), tileErr t.tile 4 27),
    (decide (t.use = 0) && !((List.range uses).all fun k => decide (k = 0) || others.any fun u => decide (u.use = k) && t.twin u), tileErr t.tile 4 27)]

/-- The update record with its regions and the job's tiles, and the bytes of the region records. -/
def State.loadUpd (s : State) (p : PartId) (n : Nat) (train : Bool) (h : List Byte) (ws : List WTensor) :
    Load (List Byte × Option UpdRec × List TileRec) :=
  if hdrAddr h 0x18 = 0 then .ok ([], none, [])
  else do
    let b ← s.loadRead p (hdrAddr h 0x18) 64 (.refuse (imgErr p h 0x18 31))
    orRefuse (firstErr [(train && decide (rdLE h 0x44 4 ≠ rdLE b 0x24 4), imgErr p h 0x44 31)])
    orRefuse (s.updCheck p b ws)
    let k := rfld b 0x20 15 0
    let rb ← s.loadRead p (rdLE b 0x28 6) (32 * k) (.refuse (bankErr 0 0x28 31))
    let rs := (records 32 k rb).map fun r => (r.1, bankOf r.2)
    orRefuse ((records 32 k rb).findSome? fun r => s.bankCheck p n r.1 r.2)
    orRefuse (bankOverlap [] rs)
    let m := rdLE b 0x38 4
    let tb ← s.loadRead p (rdLE b 0x30 6) (32 * m) (.refuse (bankErr 0 0x30 31))
    let ts := (records 32 m tb).map fun r => tileOf r.2
    orRefuse ((records 32 m tb).findSome? fun r => s.tileCheck p n ws ts r.1 r.2)
    .ok (rb, some { maxNorm := rdLE b 0 4, beta1 := rdLE b 4 4, beta2 := rdLE b 8 4, normCount := rdLE b 0xC 4, normOff := rdLE b 0x10 4
                    stepcOff := rdLE b 0x14 4, jstate := rdLE b 0x18 6, tensors := rdLE b 0x24 4, regions := rs.map Prod.snd }, ts)

/-! ### Tables and statistics slots (R131, R135, R258) -/

/-- CFG_CONFLICT of two claims (R383). -/
def claimErr (a b : Nat × Nat) : DErr := ⟨0x1001, [a.1, a.2, b.1, b.2]⟩

/-- A function-table list entry. -/
def tabOf (b : List Byte) : TabRec where
  func := rfld b 0 31 16
  fw := decide (rfld b 0 15 15 = 1)
  lcore := rfld b 0 10 8
  slot := rfld b 0 5 0
  image := rdLE b 8 6

/-- The function-table list: reserved fields and ranges, then no more than 64 pairs on a logical core, then each image within
reach. -/
def State.loadTabs (s : State) (p : PartId) (n : Nat) (h : List Byte) : Load (List TabRec) :=
  let k := rfld h 0x40 31 16
  let e := imgErr p h 0x28 31
  if k = 0 then .ok []
  else do
    let b ← s.loadRead p (hdrAddr h 0x28) (16 * k) (.refuse e)
    let rs := records 16 k b
    let ts := rs.map fun r => tabOf r.2
    orRefuse (firstErr (rs.map fun r => let t := tabOf r.2
      (decide (rfld r.2 0 14 11 ≠ 0 ∨ rfld r.2 0 7 6 ≠ 0 ∨ rdLE r.2 4 4 ≠ 0 ∨ rdLE r.2 0xE 2 ≠ 0 ∨ n ≤ t.lcore ∨
        (t.fw ∧ t.image ≠ 0) ∨ (!t.fw ∧ t.func ≠ 0)), e)))
    orRefuse ((List.range n).findSome? fun l =>
      (((indexed ts).filter fun x => decide (x.2.lcore = l))[64]?).map fun x =>
        claimErr (0x40000000 + l, 0) (0x31000000 + x.1, 0))
    ts.foldlM (fun _ t => if t.fw then .ok () else (s.loadRead p t.image imageBytes (.refuse e)).map fun _ => ()) ()
    .ok ts

/-- A statistics-slot list entry. -/
def statOf (b : List Byte) : StatRec := ⟨rfld b 0 18 16, rfld b 0 15 0 * 32, rdLE b 4 4⟩

/-- The first entry of a logical core at which its slots exceed the statistics partition (R131). -/
def statOver : Nat → List (Nat × StatRec) → Option Nat
  | _, [] => none
  | sum, (i, r) :: rest => if 1572864 < sum + r.bytes then some i else statOver (sum + r.bytes) rest

/-- The statistics-slot list. -/
def State.loadStats (s : State) (p : PartId) (n : Nat) (h : List Byte) : Load (List StatRec) :=
  let k := rfld h 0x40 15 0
  let e := imgErr p h 0x30 31
  if k = 0 then .ok []
  else do
    let b ← s.loadRead p (hdrAddr h 0x30) (8 * k) (.refuse e)
    let rs := records 8 k b
    let ts := rs.map fun r => statOf r.2
    orRefuse (firstErr (rs.map fun r => (decide (rfld r.2 0 31 19 ≠ 0 ∨ n ≤ (statOf r.2).lcore), e)))
    orRefuse ((List.range n).findSome? fun l =>
      (statOver 0 ((indexed ts).filter fun x => decide (x.2.lcore = l))).map fun i =>
        claimErr (0x40000000 + l, 1) (0x32000000 + i, 4))
    .ok ts

/-! ### Array modes (R87, R90, R143) -/

/-- What refuses the array modes of a job: ganging at conduct level 1, ganged and split, ganged with gradient tiles. -/
def modeCheck (conduct : Nat) (j : Job) : Option DErr :=
  (List.range j.lcores).findSome? fun i =>
    if !j.ganged i then none
    else if conduct ≠ 0 ∨ (List.range 4).any (j.split i) = true then some ⟨0x4111, [0, Config.fieldWord 0x4111 (0x48 + i) 7]⟩
    else ((indexed j.tiles).find? fun t => decide (t.2.core = i)).map fun t => claimErr (0x20000000 + i, 0x48 + i) (0x30000000 + t.1, 4)

/-! ### Lists (R218) -/

/-- A list record. -/
def listOf (b : List Byte) : ListRec := ⟨rdLE b 0 6, rdLE b 8 4, rfld b 0xC 6 4, rfld b 0xC 2 0, []⟩

/-- The words of the job's lists as memory holds them. -/
def State.listImage (s : State) (j : Job) (r : ListRec) : List Word := (List.range r.count).flatMap fun i => s.descWords j r.addr i

/-- The first descriptor of a list that breaks the rules on endings (R218). -/
def Job.endingCheck (j : Job) (r : ListRec) : Option DErr :=
  (List.range r.count).findSome? fun i =>
    let d := r.desc i
    let ok := if i + 1 = r.count then endsAs (j.endingOf r) d else !isEnding d
    if ok then none else some (synErr r.lcore r.list i 0x10 31)

/-- The list record that is missing or given twice (R218). -/
def listSet (n : Nat) (train : Bool) (ls : List ListRec) : Option DErr :=
  (List.range n).findSome? fun l => (List.range (if train then 5 else 4)).findSome? fun k =>
    if (ls.filter fun r => decide (r.lcore = l ∧ r.list = k)).length = 1 then none else some (synErr l k 0 0xC 6)

/-- The lists with their descriptors. -/
def State.loadLists (s : State) (p : PartId) (j : Job) (c : CorePlan) : Load (List ListRec) := do
  let train := decide (c.kind = .train)
  let b ← s.loadRead p c.listsAt (16 * c.lists) (.refuse (planErr 4 31))
  let rs := records 16 c.lists b
  let ls := rs.map fun r => listOf r.2
  orRefuse (rs.findSome? fun r =>
    let x := listOf r.2
    let e := fun off top => synErr x.lcore x.list 0 off top
    firstErr [(decide (rfld r.2 4 31 16 ≠ 0), e 4 31), (decide (rfld r.2 0xC 31 7 ≠ 0), e 0xC 31), (decide (rfld r.2 0xC 3 3 ≠ 0), e 0xC 3),
      (decide (c.lcores ≤ x.lcore), e 0xC 6), (decide ((if train then 4 else 3) < x.list), e 0xC 2),
      (decide (x.count = 0 ∨ 1048576 < x.count), e 8 31), (decide (x.addr % 64 ≠ 0), e 0 31),
      (!(s.rangeCovers p x.addr (64 * x.count) || (span x.addr (64 * x.count)).all (ownWm x.lcore)), e 0 31)])
  orRefuse (listSet c.lcores train ls)
  let as := ls.flatMap fun r => span r.addr (64 * r.count)
  orRefuse (s.checkUsable j false as)
  match s.lbad j as with
  | some a => .error (.unread a)
  | none =>
    let ls := ls.map fun r => { r with image := s.listImage j r }
    orRefuse (ls.findSome? j.endingCheck)
    .ok ls

/-! ### Descriptors (R206, R340, R342, R345, R346) -/

/-- The bytes of the parameter block of a VEC or ROW descriptor that the loader reads: the descriptor breaks no rule before (R137-R139,
R170, R224). -/
def State.paramSpan (s : State) (p : PartId) (j : Job) (r : ListRec) (i : Nat) : List Nat :=
  let d := r.desc i
  if headerError j.lcores d = none ∧ s.paramErr p j r.lcore i d = none then paramReads r.lcore d else []

/-- The loader's checks of a descriptor, with its parameter block as memory holds it (R56, R108, R121): FMT_GB is the engine's
to check (R139). -/
def State.loadDesc (s : State) (p : PartId) (j : Job) (r : ListRec) (i : Nat) : Option DErr :=
  s.descCheck p j r.lcore r.list i (r.desc i) ((paramAddrs (r.desc i)).map (s.lrd j))

/-- Every descriptor of the job with its list and index. -/
def Job.descriptors (j : Job) : List (ListRec × Nat) := j.lists.flatMap fun r => (List.range r.count).map fun i => (r, i)

/-- The REDUCE descriptors of the step, run or loop lists. -/
def Job.reduces (j : Job) : List (ListRec × Nat) :=
  j.descriptors.filter fun e => decide (e.1.list < 4 ∧ hClass (e.1.desc e.2) = 5 ∧ nOp (e.1.desc e.2) = 1)

/-- The bucket that the lists of a job name twice, or that a TRAIN job's step lists leave out (R340). -/
def Job.bucketCheck (j : Job) : Option DErr :=
  let rs := j.reduces
  let id := fun (e : ListRec × Nat) => nId (e.1.desc e.2)
  (((indexed rs).find? fun e => (rs.take e.1).any fun x => decide (id x = id e.2)).map fun e =>
    netInvalid e.2.1.lcore e.2.2 0x10 15).orElse fun _ =>
  match j.numr with
  | some n => if j.kind = .train ∧ ((List.range n.floors.length).any fun b => !(rs.any fun x => decide (id x = b))) = true then
      some (netInvalid 0 0 0x10 15) else none
  | none => none

/-- UNIT_MAP against the cluster record and the region table (R345). -/
def Job.unitMapCheck (j : Job) : Option DErr :=
  match j.cluster, j.listOf 0 4 with
  | some c, some r =>
    let d := r.desc 0
    if hClass d = 5 ∧ nOp d = 8 then
      let rs := (j.upd.getD {}).regions
      let e := fun off top => some (netInvalid 0 0 off top)
      let si := dfld d 0x10 7 0
      let pi := dfld d 0x10 15 8
      let need := cdiv c.cl.shards c.cl.minMembers * (if c.cl.mirror then 2 else 1)
      match rs[si]?, rs[pi]? with
      | some st, some pb =>
        if st.kind ≠ 0 then e 0x10 7 else if pb.kind ≠ 1 then e 0x10 15
        else if nLen d < need then e 0x24 31
        else if st.len < nLen d * (nPa d * 4096) then e 0x28 31 else if pb.len < nLen d * (nPb d * 4096) then e 0x2C 31
        else none
      | none, _ => e 0x10 7
      | _, none => e 0x10 15
    else none
  | _, _ => none

/-- A section of an update list that runs past its end, or holds a NET or MAT descriptor (R346). -/
def Job.sectionCheck (j : Job) : Option DErr :=
  j.descriptors.findSome? fun e =>
    let d := e.1.desc e.2
    if e.1.list = 4 ∧ hClass d = 5 ∧ nOp d = 9 then
      let bad := (List.range (nPa d)).any fun k => let x := hClass (e.1.desc (e.2 + 1 + k)); decide (x = 5 ∨ x = 1)
      if e.1.count ≤ e.2 + nPa d ∨ bad = true then some (netInvalid e.1.lcore e.2 0x28 31) else none
    else none

end Sys2Proof.Machine
end

