-- ==== Sys2Proof/Machine/ClusterRec.lean ====
section
/-! DEFINITION. Cluster records as the job loader reads and checks them (R304-R309, R320, R342). -/

namespace Sys2Proof.Machine

/-- CL_RECORD_INVALID with an entry or connection index and a field. -/
def clErr (p : PartId) (i off top : Nat) : DErr := ⟨0x7001, [p.val, i, Config.fieldWord 0x7001 off top]⟩

/-- A field that takes a default where it is 0. -/
def orDefault (v d : Nat) : Nat := if v = 0 then d else v

/-- A virtual-channel entry. -/
def vcOf (b : List Byte) (v : Nat) : VcRec := ⟨rfld b (0x40 + 4 * v) 31 28, rfld b (0x40 + 4 * v) 26 24, rfld b (0x40 + 4 * v) 21 16⟩

/-- What refuses a virtual-channel entry (R308). -/
def vcCheck (p : PartId) (b : List Byte) (v : Nat) : Option DErr :=
  let o := 0x40 + 4 * v
  let e := vcOf b v
  firstErr [(decide (rfld b o 27 27 ≠ 0), clErr p v o 27), (decide (rfld b o 23 22 ≠ 0), clErr p v o 23), (decide (rfld b o 15 0 ≠ 0), clErr p v o 15),
    (decide (v = 0 ∧ e.group ≠ 1), clErr p v o 31), (decide (v = 0 ∧ e.credits < 2), clErr p v o 21),
    (decide (1 ≤ v ∧ v ≤ 3 ∧ rdLE b o 4 ≠ 0), clErr p v o 31), (decide (4 ≤ v ∧ (e.group = 1 ∨ 8 ≤ e.group)), clErr p v o 31),
    (decide (e.group ≠ 0 ∧ e.credits = 0), clErr p v o 21)]

/-- What refuses a cluster record header (R304). -/
def clHeaderCheck (p : PartId) (b : List Byte) : Option DErr :=
  let n := rfld b 8 31 24
  let e := clErr p 0
  let within := fun (v lo hi : Nat) => decide (v ≠ 0 ∧ (v < lo ∨ hi < v))
  (firstErr [(decide (n < 2 ∨ 64 < n), e 8 31), (decide (rfld b 8 23 16 = 0 ∨ n < rfld b 8 23 16), e 8 23), (decide (rfld b 8 15 14 ≠ 0), e 8 15),
    (decide (n ≤ rfld b 8 13 8), e 8 13), (decide (rfld b 8 7 6 ≠ 0), e 8 7), (decide (n ≤ rfld b 8 5 0 ∨ rfld b 8 5 0 = rfld b 8 13 8), e 8 5),
    (within (rfld b 0xC 31 16) 100 60000, e 0xC 31), (within (rfld b 0xC 15 0) 1 3600, e 0xC 15), (within (rfld b 0x10 31 16) 10 10000, e 0x10 31),
    (decide (rfld b 0x10 7 3 ≠ 0), e 0x10 7), (decide (rfld b 0x14 31 16 ≠ 0), e 0x14 31),
    (decide (rfld b 0x14 15 0 = 0 ∨ 4096 < rfld b 0x14 15 0), e 0x14 15), (decide (rfld b 0x1C 31 16 = 0), e 0x1C 31),
    (!zeros b 0x20 0x20, e 0x20 31)]).orElse fun _ => (List.range 16).findSome? (vcCheck p b)

/-- A member entry. -/
def memberOf (b : List Byte) : MemberRec where
  part := rfld b 0 25 24
  slots := ((List.range 8).filter fun s => (rdLE b 0 1).testBit s).map fun s =>
    (s, nbits (rdLE b (8 + s) 1) 6 4, nbits (rdLE b (8 + s) 1) 1 0, slice b (0x10 + 16 * s) 16)

/-- Whether no two link slots of an entry name one subport. -/
def slotsDistinct (m : MemberRec) : Bool :=
  let l := m.slots.map fun x => (x.2.1, x.2.2.1)
  decide (l.eraseDups.length = l.length)

/-- What refuses member entry `i` (R304). -/
def memberCheck (p : PartId) (i : Nat) (b : List Byte) : Option DErr :=
  let e := clErr p i
  firstErr ([(decide (rfld b 0 31 26 ≠ 0), e 0 31), (decide (rfld b 0 23 8 ≠ 0), e 0 23), (decide (rfld b 0 0 0 = 0), e 0 0),
    (decide (rdLE b 4 4 ≠ 0), e 4 31), (!slotsDistinct (memberOf b), e 8 31)] ++
    (List.range 8).map fun s => (decide (nbits (rdLE b (8 + s) 1) 7 7 ≠ 0 ∨ nbits (rdLE b (8 + s) 1) 3 2 ≠ 0), e (8 + s) 7))

/-- A connection entry. -/
def connOf (b : List Byte) : ConnRec := ⟨rfld b 0 31 26, rfld b 0 25 23, rfld b 0 22 17, rfld b 0 16 14⟩

/-- The two ends of a connection in a fixed order. -/
def ConnRec.pair (c : ConnRec) : (Nat × Nat) × (Nat × Nat) :=
  if c.entryA < c.entryB then ((c.entryA, c.slotA), (c.entryB, c.slotB)) else ((c.entryB, c.slotB), (c.entryA, c.slotA))

/-- Whether an entry has a link slot. -/
def hasSlot (ms : List MemberRec) (e s : Nat) : Bool := (ms[e]?).any fun m => m.slots.any fun x => decide (x.1 = s)

/-- Whether some connection joins two entries. -/
def joined (cs : List ConnRec) (a b : Nat) : Bool := cs.any fun c => decide ((c.entryA = a ∧ c.entryB = b) ∨ (c.entryA = b ∧ c.entryB = a))

/-- What refuses a connection table, but for the count on a port (R307). -/
def connCheck (p : PartId) (ms : List MemberRec) (starter successor : Nat) (bs : List (Nat × List Byte)) : Option DErr :=
  let cs := bs.map fun r => connOf r.2
  (bs.findSome? fun r =>
    let c := connOf r.2
    let e := clErr p r.1
    firstErr [(decide (rfld r.2 0 13 0 ≠ 0), e 0 13), (decide (ms.length ≤ c.entryA), e 0 31), (!hasSlot ms c.entryA c.slotA, e 0 25),
      (decide (ms.length ≤ c.entryB), e 0 22), (!hasSlot ms c.entryB c.slotB, e 0 16), (decide (c.entryA = c.entryB), e 0 22),
      ((cs.take r.1).any (fun x => decide (x.pair = c.pair)), e 0 31)]).orElse fun _ =>
  (((List.range ms.length).find? fun m => decide (m ≠ starter) && !joined cs m starter).map fun m => clErr p m 8 13).orElse fun _ =>
  ((List.range ms.length).find? fun m => decide (m ≠ successor) && !joined cs m successor).map fun m => clErr p m 8 5

/-- Whether a link slot is a subport of this device configured with its address (R305). -/
def State.ownSlot (s : State) (x : Nat × Nat × Nat × List Byte) : Bool := (s.subIps x.2.1 x.2.2.1).contains x.2.2.2

/-- The member's own entry: exactly one qualifies, with every slot its own and OT enabled on its ports (R305). -/
def State.ownEntry (s : State) (p : PartId) (ms : List MemberRec) : Load Nat :=
  let mine := (indexed ms).filter fun e => decide (e.2.part = p.val) && (e.2.slots.find? fun x => decide (x.1 = 0)).any s.ownSlot
  match mine with
  | [(i, m)] =>
    match m.slots.find? fun x => !(s.ownSlot x && bitAt (s.reg (portOtCtl x.2.1)) 0) with
    | some x => .error (.refuse (clErr p i (8 + x.1) 7))
    | none => .ok i
  | [] => .error (.refuse (clErr p 0 0x10 31))
  | (i, _) :: _ => .error (.refuse (clErr p i 0x10 31))

/-- Ports and subports of a member's own connections. -/
def Cluster.places (c : Cluster) : List (Nat × Nat) := c.mine.filterMap fun i => (c.path i).map fun x => (x.1.val, x.2.1.val)

/-- The clusters of every loaded job. -/
def State.clusters (s : State) : List Cluster := allParts.filterMap s.cluster

/-- What refuses a job for the ports of its connections: more than 128 on one port (R307). -/
def State.portLoad (s : State) (p : PartId) (c : Cluster) : Option DErr :=
  let all := (c :: s.clusters).flatMap Cluster.places
  (c.places.find? fun x => decide (128 < (all.filter fun y => decide (y.1 = x.1)).length)).map fun _ => clErr p c.self 0x14 15

/-- Receive-buffer bytes that a job reserves in a class of a subport (R309). -/
def Cluster.reserves (c : Cluster) (q : Nat × Nat) (tc : Nat) : Nat :=
  (c.places.filter fun x => decide (x = q)).length *
    ((c.cl.vcs.filter fun v => decide (v.group ≠ 0 ∧ v.tc = tc)).foldl (fun n v => n + v.credits * 9216) 0)

/-- Position in the configuration of the PORT_CLASS record of a class. -/
def State.classPos (s : State) (t q c : Nat) : Nat :=
  s.mc.cfg.findIdx fun r => decide (r.1 = 0x21 ∧ recField 0x21 0 r.2 = t ∧ recField 0x21 1 r.2 = q ∧
    recField 0x21 2 r.2 = c)

/-- CFG_CONFLICT of a virtual channel with PFC on its class, or with the receive-buffer share of the class (R298, R309, R383). -/
def State.shareCheck (s : State) (c : Cluster) : Option DErr :=
  c.places.eraseDups.findSome? fun q => (indexed c.cl.vcs).findSome? fun v =>
    if v.2.group = 0 then none
    else
      let sum := (c :: s.clusters).foldl (fun n x => n + x.reserves q v.2.tc) 0
      let vc := (0x33000000 + v.1, 0)
      let portPos := s.mc.cfg.findIdx fun r => decide (r.1 = 0x20 ∧ recField 0x20 0 r.2 = q.1)
      if bitAt (s.reg (portCtl q.1)) (24 + v.2.tc) then some (claimErr (portPos, Config.fieldWord 0x1001 0x20 5) vc)
      else if s.classShare q.1 q.2 v.2.tc < sum then
        some (claimErr (s.classPos q.1 q.2 v.2.tc, Config.fieldWord 0x1001 0x21 7) vc)
      else none

/-- The cluster record that a header names, as the membership of a job that begins (R304-R309, R320). -/
def State.loadCluster (s : State) (p : PartId) (h num : List Byte) : Load (Option Cluster) :=
  let a := hdrAddr h 0x38
  if a = 0 then .ok none
  else do
    let e := LoadStop.refuse (imgErr p h 0x38 31)
    let b ← s.loadRead p a 128 e
    orRefuse (clHeaderCheck p b)
    let n := rfld b 8 31 24
    let mb ← s.loadRead p (a + 0x80) (144 * n) e
    orRefuse ((records 144 n mb).findSome? fun r => memberCheck p r.1 r.2)
    let ms := (records 144 n mb).map fun r => memberOf r.2
    let self ← s.ownEntry p ms
    let k := rfld b 0x14 15 0
    let ca := rdLE b 0x18 4 + rfld b 0x1C 15 0 * 2 ^ 32
    let cb ← s.loadRead p ca (4 * k) (.refuse (clErr p 0 0x18 31))
    orRefuse (connCheck p ms (rfld b 8 13 8) (rfld b 8 5 0) (records 4 k cb))
    let cl : ClRec := { key := rdLE b 0 8, members := ms, minMembers := rfld b 8 23 16, starter := rfld b 8 13 8, successor := rfld b 8 5 0
                        commitTimeoutMs := orDefault (rfld b 0xC 31 16) 2000, startTimeoutS := orDefault (rfld b 0xC 15 0) 300
                        peerLossMs := orDefault (rfld b 0x10 31 16) 200, kaInterval := orDefault (rfld b 0x10 15 8) 10
                        mirror := decide (rfld b 0x10 2 2 = 1), shrink := decide (rfld b 0x10 1 1 = 1), rejoin := decide (rfld b 0x10 0 0 = 1)
                        conns := (records 4 k cb).map (fun r => connOf r.2), shards := rfld b 0x1C 31 16
                        vcs := (List.range 16).map (vcOf b), digest := (sha3_512 (b ++ mb ++ cb ++ num)).take 32 }
    let c : Cluster := { cl := cl, self := self, starter := cl.starter, successor := cl.successor, conns := List.replicate k {} }
    orRefuse (s.portLoad p c)
    orRefuse (s.shareCheck c)
    .ok (some c)

/-- What refuses a job whose descriptors ask for more than its cluster record gives: a pair without a connection where a REDUCE
stands (R342), no parameter-gather channel where units or a GATHER stand (R308). -/
def Job.clusterNeeds (p : PartId) (j : Job) : Option DErr :=
  match j.cluster with
  | none => none
  | some c =>
    let isOp := fun (n : Nat) => j.descriptors.any fun e => decide (hClass (e.1.desc e.2) = 5 ∧ nOp (e.1.desc e.2) = n)
    let n := c.cl.members.length
    let gap := (List.range n).find? fun a => (List.range n).any fun b => decide (a < b) && !joined c.cl.conns a b
    if (isOp 2 || isOp 8) && !((c.cl.vcs.drop 4).any fun v => decide (v.group = 5)) then some (clErr p 4 0x50 31)
    else if j.reduces = [] then none
    else gap.map fun a => clErr p a 0x14 15

end Sys2Proof.Machine
end

