-- ==== Sys2Proof/Machine/Load.lean ====
section
/-! DEFINITION. The job loader as a whole, for submitted and for standing jobs (R135, R164, R219, R225-R229, R256, R313, R330,
R363, R385). -/

namespace Sys2Proof.Machine

/-! ### From a job image to a job -/

/-- What the loader answers as a whole; where it stops, with the state that it leaves. -/
abbrev LoadAt (α : Type) : Type := Except (State × LoadStop) α

/-- A part of the loader at a state. -/
def Load.at {α : Type} (s : State) (x : Load α) : LoadAt α := x.mapError fun e => (s, e)

/-- The loader reads runs of bytes, by address and length: the errors that it corrects there are counted (R189). -/
def State.meetSpans (s : State) (p : PartId) (spans : List (Nat × Nat)) : State :=
  s.meetReads ((spans.flatMap fun x => spanOf x.1 x.2).map ((s.windowJob p).phys false))

/-- The records of a job image beyond its header and core plan, with the tables that they name (R256-R258, R304). -/
def State.recordSpans (s : State) (p : PartId) (h : List Byte) (c : CorePlan) : List (Nat × Nat) :=
  let num (a n : Nat) : Nat := leNat (s.lrdBytes (s.windowJob p) a n)
  let named (o : Nat) (f : Nat → List (Nat × Nat)) : List (Nat × Nat) := if hdrAddr h o = 0 then [] else f (hdrAddr h o)
  [(c.preAt, 32 * c.pres), (c.listsAt, 16 * c.lists)] ++ named 0x10 (fun a => [(a, 16 + num (a + 0xC) 2)]) ++
    named 0x18 (fun a => [(a, 64), (num (a + 0x28) 6, 32 * Nat.min 256 (num (a + 0x20) 2)), (num (a + 0x30) 6, 32 * Nat.min 65536 (num (a + 0x38) 4))]) ++
    named 0x20 (fun a => [(a, 16 * rdLE h 0x44 4)]) ++ named 0x28 (fun a => [(a, 16 * rfld h 0x40 31 16)]) ++
    named 0x30 (fun a => [(a, 8 * rfld h 0x40 15 0)]) ++
    named 0x38 (fun a => [(a, 0x80 + 144 * num (a + 0xB) 1), (num (a + 0x18) 6, 4 * num (a + 0x14) 2)])

/-- The rest of a load, once the preloads are in place: the other records, the lists, the tables, the descriptors. -/
def State.loadRest (s : State) (p : PartId) (h : List Byte) (c : CorePlan) (j0 : Job) : LoadAt (State × Job) := do
  let train := decide (c.kind = .train)
  let s := s.meetSpans p (s.recordSpans p h c)
  let (nb, num) ← Load.at s (s.loadNum p h)
  let (wb, ws) ← Load.at s (s.loadWts p h)
  let (rb, upd, tiles) ← Load.at s (s.loadUpd p c.lcores train h ws)
  let tabs ← Load.at s (s.loadTabs p c.lcores h)
  let stats ← Load.at s (s.loadStats p c.lcores h)
  let j1 : Job := { j0 with
    numr := num, upd := upd, wts := ws, tiles := tiles, tabs := tabs, stats := stats
    num := { sg := (num.map NumRec.sg).getD 0, words := List.replicate ws.length 0 }
    digest := (sha3_512 (nb ++ wb ++ rb)).take 32 }
  Load.at s (orRefuse (modeCheck s.mc.conduct j1))
  let cl ← Load.at s (s.loadCluster p h nb)
  let lists ← Load.at s (s.loadLists p j1 c)
  let j := { j1 with cluster := cl, lists := lists }
  let s := s.meetReads ((j.lists.flatMap fun r => span r.addr (64 * r.count)).map (j.phys false))
  match s.loadTables j fun _ => true with
  | (s, some (.inl (l, n, f))) => .error (s.dropTables j, .refuse ⟨0x4304, [((j.serve l).map fun v => v.core.val).getD 0, n, f]⟩)
  | (s, some (.inr a)) => .error (s.dropTables j, .unread a)
  | (s, none) =>
    let blocks := j.descriptors.flatMap fun e => s.paramSpan p j e.1 e.2
    match s.lbad j blocks with
    | some a => .error (s.dropTables j, .unread a)
    | none =>
      let s := s.meetReads (blocks.map (j.phys false))
      Load.at (s.dropTables j) (do
        orRefuse (j.descriptors.findSome? fun e => s.loadDesc p j e.1 e.2)
        orRefuse j.bucketCheck
        orRefuse j.unitMapCheck
        orRefuse j.sectionCheck
        orRefuse (j.clusterNeeds p))
      .ok (s, j)

/-- A job load wakes the retained cores of its partition (R180). -/
def State.wakePart (s : State) (p : PartId) : State :=
  allCores.foldl (fun s c => if s.cores[c].part = some p ∧ s.cores[c].inService then s.touch c else s) s

/-- The job that the image at `a` describes, and the state with its preloads copied (R228, R256). A load that stops keeps what it has
done: the cores it woke, the errors it counted, the preloads it copied (log entry 74). -/
def State.loadJob (s : State) (p : PartId) (a : Nat) : LoadAt (State × Job) := do
  let s := s.wakePart p
  let h ← Load.at s (s.loadHeader p a)
  let s := s.meetSpans p [(a, 128)]
  Load.at s (orRefuse (headerCheck p h))
  let b ← Load.at s (s.loadRead p (hdrAddr h 8) 96 (.refuse (imgErr p h 8 31)))
  let s := s.meetSpans p [(hdrAddr h 8, 96)]
  Load.at s (orRefuse (planCheck b))
  let c := planOf b
  Load.at s (orRefuse (kindCheck p h c.kind))
  Load.at s (orRefuse (s.guestCheck p c))
  let modes := (List.range 8).map fun i => rdLE h (0x48 + i) 1
  let ganged := (modes.take c.lcores).any fun m => m.testBit 0
  let serves := s.loadServes p c.lcores c.guests ganged
  Load.at s (require (serves.all Option.isSome) ⟨0x4508, [p.val, c.lcores, (s.liveCores p).length]⟩)
  let pb ← if c.pres = 0 then .ok [] else Load.at s (s.loadRead p c.preAt (32 * c.pres) (.refuse (planErr 0x10 31)))
  let pres ← Load.at s ((records 32 c.pres pb).mapM (s.preloadOf p c.lcores))
  let j : Job := { id := rdLE h 0 4, kind := c.kind, steps := rdLE h 4 4, lcores := c.lcores, waitLimit := c.waitLimit, preloads := pres
                   guests := c.guests.take c.lcores, serves := serves, arrMode := modes }
  Load.at s (orRefuse ((s.checkUsable j false (pres.flatMap fun r => span r.src r.len)).orElse fun _ =>
    s.checkUsable j true (pres.flatMap fun r => span r.dst r.len)))
  match s.copyPreloads j fun _ => true with
  | (s, some x) => .error (s, .unread x)
  | (s, none) => s.loadRest p h c j

/-! ### The job begins -/

/-- The two banks of a new job's state area (R119, R164). -/
def Job.firstBanks (j : Job) (u : UpdRec) : List Byte :=
  let b := slice (bankBytes 0 0 0 j.num u.beta1 u.beta2 (corrOf u.beta1) (corrOf u.beta2) u.tensors) 0 j.jstateLen
  b ++ b

/-- The STARTED record of a long operation's command (R254, R259); it has reached no level yet. -/
def State.startedRecord (s : State) (p : PartId) (c : TakenCmd) (h : Nat) : State :=
  s.reservedRecord p (cplRecord 1 3 stStarted h c.index c.hostTag 0 0 0)

/-- Logical cores of a new job: fresh counters, streams and slots, array modes, resident tiles at +0; the tables that the loader has put into
their slots stay (R135, R145, R229). -/
def State.placeJob (s : State) (p : PartId) (j : Job) : State :=
  let s := (List.range j.lcores).foldl (fun s l => match j.serve l with
    | none => s
    | some v =>
      let s := s.updLCtx v fun c => { j.freshLCtx l c with tables := c.tables }
      (if v.guest then s else s.setModes v.core j l).zeroResident j l) s
  match j.upd with
  | some u => (s.putBytes u.jstate (j.firstBanks u)).updPart p fun q => { q with job := some j, left := false }
  | none => s.updPart p fun q => { q with job := some j, left := false }

/-- A job that was loaded begins under a new handle: a cluster job opens its connections, any other starts its streams unless
it is held (R219, R255, R313, R330). -/
def State.beginJob (s : State) (p : PartId) (j : Job) (hold : Bool) (cmd : Option TakenCmd) (standing : Option Nat) : State :=
  let s := s.openHandle fun h => { num := h, kind := 1, owner := 1 + p.val, part := some p, cmd := cmd }
  let h := s.lastHandle
  let s := match cmd with | some c => s.startedRecord p c h | none => s
  let s := { s with mc := { s.mc with restartAt := mapErase s.mc.restartAt p.val } }
  let s := (s.placeJob p { j with handle := h, standing := standing }).checkUnits p
  let s := if hold then s.suspendJob p else s
  match s.cluster p with
  | some c => c.mine.foldl (fun s i => s.sendOpen p c i false) s
  | none => if hold then s else s.restartWhenClear p

/-- What the device raises for a load that stops, and the status and event of the command's final record (R254, R256). -/
def State.loadStopped (s : State) (p : PartId) : LoadStop → State × Nat × Nat
  | .status st => (s, st, 0)
  | .refuse e => (s.raise .mc (some p) e.code e.words, stFailed, e.code)
  | .unread a => ((s.uncorrectable (some p) a).fenceByErrors a, stFailed, 0x5011)

/-! ### Standing jobs (R384, R385) -/

/-- The STANDING_JOB record of a partition. -/
def State.standingRec (s : State) (p : PartId) : Option (List Byte) := (s.cfgRecs 0x40).find? fun v => nbits (rdLE v 0 4) 1 0 = p.val

/-- STANDING_JOB_FAILED with the event of the refusal, 0 where a status refused it. -/
def State.standingFailed (s : State) (p : PartId) (event : Nat) : State := s.raise .mc (some p) 0x1005 [p.val, event]

/-- A standing job is copied, checked against its digest and loaded (R385). -/
def State.loadStanding (s : State) (p : PartId) (v : List Byte) : State :=
  let a := rdLE v 8 8
  let n := rdLE v 0x14 4
  if (s.job p).isSome ∨ s.handlesFull (1 + p.val) then s.standingFailed p 0
  else if (spanOf a n).any fun x => (s.unusable x).isSome then s.standingFailed p 0x5004
  else
  let s := s.putBytes a (s.nvmRd (nvmPayload + rdLE v 0x10 4) n)
  if sha3_512 (s.rdBytes a n) ≠ slice v 0x20 64 then s.standingFailed p 0
  else match s.loadJob p (a + rdLE v 0x18 4) with
    | .error (s, e) => let (s, _, event) := s.loadStopped p e; s.standingFailed p event
    | .ok (s, j) => s.beginJob p j (nbits (rdLE v 0 4) 7 7 = 1) none (some (rdLE v 4 2))

/-- Every standing job in ascending partition order, when the device is released. -/
def State.loadAllStanding (s : State) : State :=
  allParts.foldl (fun s p => match s.standingRec p with | some v => s.loadStanding p v | none => s) s

end Sys2Proof.Machine
end

