-- ==== Sys2Proof/Machine/Frames.lean ====
section
/-! DEFINITION. Links, received and transmitted frames, flow control of the ports (R276-R287, R297). -/

namespace Sys2Proof.Machine

/-- Whether a port runs: it is usable, its die is on, and the start has completed (R21, R371, R407). -/
def State.portOn (s : State) (t : PortId) : Bool := s.mc.portsOn && s.mc.portsUp.getLsbD t.val && s.mc.complete

/-! ### Links (R276, R277) -/

/-- PORT_LINK_UP (R275, R276): a CR or KR subport has trained. -/
def execPortLinkUp (t : PortId) (q : SubId) (s : State) : Result :=
  if s.portOn t && s.subOn t.val q.val && !s.linkUp t.val q.val then
    let s := s.setLink t q (if s.regFld (portCtl t.val) 5 4 ≤ 1 then .trained else s.linkStart t q)
    let s := s.setFld (portStat t.val) q.val q.val 1
    .next ((s.raise (.port t.val) none 0x6001 [t.val, q.val, s.regFld (portCtl t.val) 5 4]).sendLldp t q)
  else .next s

/-- PORT_LINK_DOWN (R275, R276): the subport's frames are discarded and counted, and it begins to bring its link up again. -/
def execPortLinkDown (t : PortId) (q : SubId) (cause : Nat) (s : State) : Result :=
  if s.linkUp t.val q.val then let s := s.subDown t q cause; .next (s.setLink t q (s.linkStart t q)) else .next s

/-- PORT_FEC_DEGRADED: the event comes at most once per hour for each subport. -/
def execPortFecDegraded (t : PortId) (q : SubId) (ratio : Nat) (s : State) : Result :=
  if !s.linkUp t.val q.val then .next s
  else
    let s := s.setFld (portStat t.val) (28 + q.val) (28 + q.val) 1
    match mapGet s.ports[t].fecAt q.val with
    | some at_ => if s.mc.time < at_ + 3600000000000 then .next s else
        .next ((s.updPort t fun p => { p with fecAt := mapSet p.fecAt q.val s.mc.time }).raise (.port t.val) none 0x6003 [t.val, q.val, ratio])
    | none =>
        .next ((s.updPort t fun p => { p with fecAt := mapSet p.fecAt q.val s.mc.time }).raise (.port t.val) none 0x6003 [t.val, q.val, ratio])

/-! ### What the MC answers (R287) -/

/-- A neighbour's hardware address is learnt; a port holds at most 256. -/
def State.learn (s : State) (t : PortId) (ip mac : List Byte) : State :=
  s.updPort t fun p =>
    let rest := p.neigh.filter fun e => decide (e.1 ≠ ip)
    { p with neigh := (if 256 ≤ rest.length then rest.drop 1 else rest) ++ [(ip, mac)] }

/-- An ARP packet: operation, sender's and target's hardware and protocol addresses. -/
def arpPacket (op : Nat) (sha spa tha tpa : List Byte) : List Byte :=
  beBytes 2 1 ++ beBytes 2 0x0800 ++ beBytes 1 6 ++ beBytes 1 4 ++ beBytes 2 op ++ sha ++ spa ++ tha ++ tpa

/-- ARP (R287). -/
def State.arpIn (s : State) (t : PortId) (q : SubId) (b : List Byte) : State :=
  let sha := slice b 8 6
  let spa := slice b 14 4
  let tpa := slice b 24 4
  let s := if beNat (slice b 6 2) = 2 then s.learn t (mapped spa) sha else s
  if beNat (slice b 6 2) = 1 ∧ s.subField t.val q.val 3 ≠ 0 ∧ tpa = beBytes 4 (s.subField t.val q.val 3) then
    s.sendMc t q sha 0x0806 (arpPacket 2 (s.subMac t.val q.val) tpa sha spa)
  else s

/-- ICMP echo requests are answered (R287). -/
def State.icmpIn (s : State) (t : PortId) (q : SubId) (f : RxFrame) (ip : IpHeader) : State :=
  if slice f.payload 0 1 = [8] ∧ (s.subIps t.val q.val).contains (mapped ip.dst) then
    let body := [0, 0] ++ [0, 0] ++ f.payload.drop 4
    let body := [0, 0] ++ beBytes 2 (inetSum body) ++ body.drop 4
    s.sendMc t q f.src 0x0800 (ipv4Packet (s.mcTos t) 1 ip.dst ip.src body)
  else s

/-- ICMPv6: echo requests and neighbour solicitations are answered, advertisements learnt (R287). -/
def State.icmp6In (s : State) (t : PortId) (q : SubId) (f : RxFrame) (ip : IpHeader) : State :=
  let target := slice f.payload 8 16
  match (slice f.payload 0 1).map BitVec.toNat with
  | [128] =>
    if (s.subIps t.val q.val).contains ip.dst then
      s.sendMc t q f.src 0x86DD (icmp6Packet (s.mcTos t) ip.dst ip.src ([129, 0, 0, 0] ++ f.payload.drop 4))
    else s
  | [135] =>
    if (s.subIps t.val q.val).contains target then
      s.sendMc t q f.src 0x86DD (icmp6Packet (s.mcTos t) target ip.src ([136, 0, 0, 0] ++ beBytes 4 0x60000000 ++ target ++ [2, 1] ++ s.subMac t.val q.val))
    else s
  | [136] => s.learn t target (slice f.payload 26 6)
  | _ => s

/-- A request for a neighbour's hardware address: ARP, or a neighbour solicitation (R287). -/
def State.resolve (s : State) (t : PortId) (q : SubId) (a : List Byte) : State :=
  let mac := s.subMac t.val q.val
  if isV4 a then
    s.sendMc t q (List.replicate 6 0xFF) 0x0806 (arpPacket 1 mac (beBytes 4 (s.subField t.val q.val 3)) (List.replicate 6 0) (a.drop 12))
  else
    let src := beBytes 16 (s.subField t.val q.val 5)
    let dst := [0xFF, 0x02] ++ List.replicate 9 0 ++ [1, 0xFF] ++ a.drop 13
    s.sendMc t q ([0x33, 0x33, 0xFF] ++ a.drop 13) 0x86DD
      (icmp6Packet (s.mcTos t) src dst ([135, 0, 0, 0] ++ beBytes 4 0 ++ a ++ [1, 1] ++ mac))

/-! ### Receive (R280-R287) -/

/-- Destinations that a subport receives (R280). -/
def State.dstOk (s : State) (t q : Nat) (d : List Byte) : Bool :=
  decide (d = s.subMac t q) || decide (d = List.replicate 6 0xFF) || decide (d = [0x01, 0x1B, 0x19, 0, 0, 0]) ||
    decide (d = [0x01, 0x80, 0xC2, 0, 0, 0x0E]) || (decide (d = [0x01, 0x80, 0xC2, 0, 0, 0x01]) && decide (s.regFld (portCtl t) 31 24 ≠ 0)) ||
    decide (d = [0x33, 0x33, 0, 0, 0, 1]) ||
    [5, 7].any fun i => decide (s.subField t q i ≠ 0) && decide (d = [0x33, 0x33, 0xFF] ++ (beBytes 16 (s.subField t q i)).drop 13)

/-- Tag arrangements and VIDs that a subport accepts (R282). -/
def State.tagsOk (s : State) (t q : Nat) (tags : List (Nat × Nat)) : Bool :=
  let c := fun (v : Nat) => (List.range 16).any fun i => decide (s.subField t q (11 + i) = v % 4096)
  let sv := fun (v : Nat) => (List.range 4).any fun i => decide (s.subField t q (27 + i) = v % 4096)
  match tags with
  | [] => bitAt (s.reg (portTag t 0)) 30
  | [(0x8100, v)] => c v
  | [(0x88A8, v), (0x8100, w)] => sv v && c w
  | _ => false

/-- Receive class of a frame: the PCP of its outermost tag (R282). -/
def rxClass (f : RxFrame) : Nat := match f.tags with | (_, v) :: _ => v / 8192 % 8 | [] => 0

/-- Whether a received packet counts as CE (R287): marked so, or ECT with its class's share filled past the threshold at arrival. -/
def State.isCe (s : State) (t : PortId) (q : SubId) (f : RxFrame) (ip : IpHeader) : Bool :=
  let c := rxClass f
  decide (ip.ecn = 3) || (decide (ip.ecn = 1 ∨ ip.ecn = 2) &&
    decide (s.regFld (portTag t.val c) 23 16 * s.classShare t.val q.val c < s.rxFill t q.val c * 256))

/-- Port time at the first symbol of a frame that has just ended (R292). -/
def State.rxStamp (s : State) (t : PortId) (f : RxFrame) : Nat := s.ports[t].clock - f.wireLen * 8 * nsUnits / s.subRate t.val

/-- The 32-byte capture record (R286). -/
def captureRecord (q flags len stamp : Nat) (f : RxFrame) : List Byte :=
  let tci := fun (ty : Nat) => ((f.tags.find? fun e => decide (e.1 = ty)).map Prod.snd).getD 0
  leBytes 4 (q * 2 ^ 28 + flags * 2 ^ 16 + len) ++ leBytes 4 (tci 0x8100 * 65536 + tci 0x88A8) ++
    leBytes 4 (stamp / nsUnits % 1000000000) ++ leBytes 4 (stamp / nsUnits / 1000000000) ++ leBytes 4 f.wireLen ++ List.replicate 12 0

/-- A delivered frame counts (R302). -/
def State.rxCount (s : State) (t : PortId) : State := s.portCount2 t 2 1

/-- A frame goes to the port's capture ring with flags, its tags stripped and its FCS kept, or is dropped and counted in `cnt` where
the port has no ring, and in CAP_LOST where the ring is full (R286). DESIGN CHOICE: the two indices of the head area run modulo N and one
slot stays free, so tail + 1 = head modulo N means full; the spec does not say how the 32-bit indices wrap. DEDUCED: a head area that
cannot be read leaves no room, as an unreadable CPL_HEAD does (R447). Both stand in log entry 104. -/
def State.capture (s : State) (t : PortId) (q : SubId) (f : RxFrame) (flags cnt : Nat) : State :=
  match (s.cfgRecs 0x29).find? fun v => decide (recField 0x29 0 v = t.val) with
  | none => s.portCount t cnt 1
  | some v =>
    let n := recField 0x29 2 v
    let ring := recField 0x29 3 v
    let tail := leNat (s.rdBytes ring 4)
    let head := leNat (s.rdBytes (ring + 4) 4)
    if (s.unusable ring).isSome ∨ s.bad ring ∨ (tail + 1) % n = head % n then s.portCount t 12 1
    else
      let s := s.meetRange ring 8
      let data := f.stripped.take 9216
      let tag := fun (ty bit : Nat) => if f.tags.any fun e => decide (e.1 = ty) then bit else 0
      let a := ring + 64 + tail % n * 16384
      let stamp := s.rxStamp t f
      let s := (s.rxCount t).putBytes (a + 32) data
      let s := s.putBytes a (captureRecord q.val (flags + tag 0x8100 16 + tag 0x88A8 32) data.length stamp f)
      s.putBytes ring (leBytes 4 ((tail + 1) % n))

/-- A received PFC frame stops the named classes for the time it gives, in units of 512 bit times, or lets them go on (R297). -/
def State.pfcIn (s : State) (t : PortId) (q : SubId) (mask : Nat) (quanta : List Nat) : State :=
  let en := s.regFld (portCtl t.val) 31 24
  let named := (List.range 8).filter fun c => mask.testBit c && en.testBit c
  let till := fun (c : Nat) => s.now t + quanta.getD c 0 * 512 * nsUnits / s.subRate t.val
  let stop := (named.filter fun c => decide (quanta.getD c 0 ≠ 0)).map fun c => (q.val * 8 + c, till c)
  (s.portCount t 19 1).updPort t fun p => { p with
    paused := (p.paused.filter fun k => !(decide (k.1 / 8 = q.val) && named.contains (k.1 % 8))) ++ stop }

/-- Whether a received PFC frame stops a class of a subport (R297). -/
def State.isPaused (s : State) (t : PortId) (q c : Nat) : Bool :=
  s.ports[t].paused.any fun k => decide (k.1 = q * 8 + c ∧ s.now t < k.2)

/-- An address as 16 bytes. -/
def wide (v6 : Bool) (a : List Byte) : List Byte := if v6 then a else mapped a

/-- UDP destination of a frame that carries UDP. -/
def udpTo (ip : IpHeader) : Option Nat := if ip.proto = 17 then some ip.udpDst else none

/-- A PTP message goes to the MC with its timestamp (R284, R292). -/
def State.ptpArrives (s : State) (t : PortId) (q : SubId) (f : RxFrame) : State :=
  let m : PtpIn := ⟨q, s.rxStamp t f, f.src, f.payload⟩
  (s.rxCount t).updPort t fun p => { p with ptpIn := p.ptpIn ++ [m] }

/-- Whether the ICRC of a RoCEv2 packet is right (R299). -/
def icrcOk (f : RxFrame) (ip : IpHeader) : Bool :=
  let n := if ip.v6 then 40 + beNat (slice f.packet 4 2) else beNat (slice f.packet 2 2)
  let p := f.packet.take n
  decide (16 ≤ f.payload.length) && decide (p.drop (n - 4) = icrc (p.take (n - 4)))

/-- Rows 5 to 10 of the classification for an IP packet. -/
def State.ipIn (s : State) (t : PortId) (q : SubId) (f : RxFrame) (ip : IpHeader) : State :=
  let err := bitAt (s.reg (portCtl t.val)) 12
  let sumBad := decide (ip.proto = 17) && !ip.udpChecksumZero && !ip.udpChecksumOk
  let cls := rxClass f
  let ce := s.isCe t q f ip
  if udpTo ip = some 319 ∨ udpTo ip = some 320 then s.ptpArrives t q f
  else if !ip.v6 ∧ ip.proto = 1 then (s.rxCount t).icmpIn t q f ip
  else if ip.v6 ∧ ip.proto = 58 then (s.rxCount t).icmp6In t q f ip
  else if !ip.headerOk ∨ ip.options ∨ ip.fragment ∨ sumBad then
    if err then
      s.capture t q f ((if !ip.headerOk || ip.options || ip.fragment then 4 else 0) + (if sumBad then 8 else 0) + (if ce then 64 else 0)) 9
    else s.portCount t 9 1
  else
    let s := if ce then s.portCount t 20 1 else s
    if udpTo ip = some 4791 ∧ (s.subIps t.val q.val).contains (wide ip.v6 ip.dst) then
      if !roceTakes (rdLE f.payload 0 1) then s
      else if icrcOk f ip then
        let x : RoceIn := ⟨q.val, cls, f.wireLen, ce, f.payload.take (f.payload.length - 4)⟩
        ((s.rxCount t).updPort t fun p => { p with roceIn := p.roceIn ++ [x] }).pfcWatch t q cls
      else s
    else if udpTo ip = some (s.regFld (portOtCtl t.val) 31 16) ∧ bitAt (s.reg (portOtCtl t.val)) 0 then
      let x : OtIn := ⟨q.val, cls, f.wireLen, wide ip.v6 ip.src, ce, ip.udpChecksumZero, f.payload⟩
      ((s.rxCount t).updPort t fun p => { p with otIn := p.otIn ++ [x] }).pfcWatch t q cls
    else s.capture t q f (128 + (if ce then 64 else 0)) 11

/-- The classification of a frame (R284): the first row that matches decides. A frame that does not fit its class's share of the
receive buffer is lost before it (R279, log entry 40). -/
def State.classify (s : State) (t : PortId) (q : SubId) (f : RxFrame) : State :=
  if f.wireLen < 64 then s.portCount t 8 1
  else if s.classShare t.val q.val (rxClass f) < s.rxFill t q.val (rxClass f) + f.wireLen then s
  else if !f.fcsOk ∨ 9216 < f.wireLen then
    if bitAt (s.reg (portCtl t.val)) 12 then
      s.capture t q f ((if f.fcsOk then 0 else 1) + (if 9216 < f.wireLen then 2 else 0)) 9
    else s.portCount t 9 1
  else if !s.dstOk t.val q.val f.dst then s
  else if !s.tagsOk t.val q.val f.tags then s.portCount t 10 1
  else match f.pfc with
    | some (mask, quanta) => if s.regFld (portCtl t.val) 31 24 = 0 then s else (s.rxCount t).pfcIn t q mask quanta
    | none =>
      if f.etherType = 0x88F7 then s.ptpArrives t q f
      else if f.etherType = 0x88CC then s.rxCount t
      else if f.etherType = 0x0806 then (s.rxCount t).arpIn t q f.payload
      else match f.ip with
        | some ip => s.ipIn t q f ip
        | none => s.capture t q f 128 11

/-- FRAME_RECEIVE (R277, R279, R284, R302): a frame has arrived whole. -/
def execFrameReceive (t : PortId) (q : SubId) (f : EthFrame) (s : State) : Result :=
  if !s.portOn t || !s.linkUp t.val q.val then .next s
  else match s.portReach t (s.ports[t].clock + f.wait) with
    | none => .next s
    | some s =>
      let s := ((s.portCount t 16 f.fecCorr).portCount t 17 f.fecUncorr).portCount2 t 6 f.bytes.length
      .next (s.classify t q (parseFrame (!f.pcsError && decide (f.fecUncorr = 0)) f.bytes))

/-- PFC_PAUSE_EXPIRE (R297): time passes to the end of the pauses of the named classes, if it lies in the loop period. -/
def execPfcPauseExpire (t : PortId) (q : SubId) (classes : BitVec 8) (s : State) : Result :=
  let named := fun (k : Nat × Nat) => decide (k.1 / 8 = q.val) && classes.getLsbD (k.1 % 8)
  let till := ((s.ports[t].paused.filter named).map Prod.snd).foldl Nat.max (s.now t)
  match s.portReach t (s.ports[t].clock + (till - s.now t)) with
  | none => .next s
  | some s => .next (s.updPort t fun p => { p with paused := p.paused.filter fun k => !named k })

/-- PFC_RENEW (R297): the pause of a class whose share is still above XON is renewed. -/
def execPfcRenew (t : PortId) (q : SubId) (cls : Fin 8) (s : State) : Result :=
  if s.portOn t && s.ports[t].pausing.contains (q.val * 8 + cls.val) &&
      decide (s.classField t.val q.val cls.val 8 < s.rxFill t q.val cls.val) then .next (s.sendPfc t q cls.val 65535)
  else .next s

/-! ### Transmit (R283, R289) -/

/-- The moment from which the rate of a source lets it send (R299, R317). -/
def State.paceOf (s : State) (t : PortId) (x : TxSrc) : Nat :=
  match x with
  | .mc => 0
  | .roce n => (s.qp t n).nextAt
  | .ot p i _ => ((s.cluster (Fin.ofNat 4 p)).map fun c => (c.run i).nextAt).getD 0

/-- A source has sent a frame of duration `d`: its rate, a part of the subport's, says when it may go on. -/
def State.pace (s : State) (t : PortId) (x : TxSrc) (d : Nat) : State :=
  let next := fun (rate : Rat) => s.now t + ((d : Rat) / rate).ceil.toNat
  match x with
  | .mc => s
  | .roce n => s.updQp t n fun q => { q with nextAt := next q.rate }
  | .ot p i _ => s.updCluster (Fin.ofNat 4 p) fun c => c.updConn i fun r => { r with nextAt := next r.rate }

/-- The sources that have a frame in a class of a subport and may send it, in the order of their first frames. -/
def State.sources (s : State) (t : PortId) (q : SubId) (c : Nat) : List TxSrc :=
  (((s.stored t).filter fun f => decide (f.sub = q ∧ f.cls = c ∧ s.paceOf t f.src ≤ s.now t)).map TxFrame.src).eraseDups

/-- The source of a class whose turn it is: round-robin, the one served longest ago first (R283). -/
def State.turnOf (s : State) (t : PortId) (q : SubId) (c : Nat) : Option TxSrc :=
  let ring := (mapGet s.ports[t].rings (q.val * 8 + c)).getD []
  let have_ := s.sources t q c
  (have_.find? fun x => !ring.contains x).orElse fun _ => ring.find? fun x => have_.contains x

/-- The frame at the head of a class of a subport. -/
def State.headFrame (s : State) (t : PortId) (q : SubId) (c : Nat) : Option TxFrame :=
  (s.turnOf t q c).bind fun x => (s.stored t).find? fun f => decide (f.sub = q ∧ f.cls = c ∧ f.src = x)

/-- Source of a frame in the detail word of TX_GATE_OVERSIZE. -/
def TxSrc.code : TxSrc → Nat
  | .mc => 0
  | .ot p conn vc => 0x10000000 + p * 0x1000000 + conn * 16 + vc
  | .roce n => 0x20000000 + n

/-- A frame leaves the transmit buffer, and its source goes to the back of its class's ring. -/
def State.takeTx (s : State) (t : PortId) (f : TxFrame) : State :=
  let k := f.sub.val * 8 + f.cls
  s.updPort t fun p => { p with
    tx := p.tx.erase f, rings := mapSet p.rings k (((mapGet p.rings k).getD []).filter (· ≠ f.src) ++ [f.src]) }

/-- Whether an event limited to one in each second may come now, given when it last came. -/
def secondPassed (last : Option Nat) (now : Nat) : Bool :=
  match last with
  | some x => decide (x + 1000000000 ≤ now)
  | none => true

/-- When a source last had an event of a kind that is limited. -/
def lastOf (l : List (TxSrc × Nat)) (x : TxSrc) : Option Nat := (l.find? fun e => decide (e.1 = x)).map Prod.snd

/-- A frame longer than every open period of its class is dropped; the event comes for its source at most once in a second
(R289). -/
def State.dropOversize (s : State) (t : PortId) (f : TxFrame) : State :=
  let s := (s.takeTx t f).portCount t 14 1
  if secondPassed (lastOf s.ports[t].oversizeAt f.src) s.mc.time = true then
    (s.updPort t fun p => { p with oversizeAt := (f.src, s.mc.time) :: p.oversizeAt.filter fun e => decide (e.1 ≠ f.src) }).raise
      (.port t.val) none 0x6005 [t.val, f.sub.val, f.cls, Config.fieldWord 0x6005 f.src.code 0]
  else s

/-- Counters that a transmitted frame advances (R302, R332). -/
def State.txCount (s : State) (t : PortId) (f : TxFrame) : State :=
  let s := (s.portCount2 t 0 1).portCount2 t 4 (s.wireLen t f)
  match f.body with
  | .pfc _ _ => s.portCount t 18 1
  | .roce op _ _ _ _ => if op = opCnp then s.portCount t 21 1 else s
  | .ot _ _ b =>
    let w := rdLE b 0 4
    if nbits w 27 24 = 2 then
      let s := s.count64 (portOtCnt t.val 0) (portOtCnt t.val 1) 1
      if nbits w 18 18 = 1 then s.otCount t 2 1 else s
    else if nbits w 27 24 = 3 then s.otCount t 4 1 else s
  | .mc _ _ => s

/-- A frame starts: it counts, occupies its subport's line until its end and the gap after it, and is timestamped at its first symbol
after the start delimiter if it carries a PTP event message (R278, R292). -/
def State.startTx (s : State) (t : PortId) (f : TxFrame) : State :=
  let d := s.frameTime t f
  let w : OnWire := ⟨f.sub, f.cls, s.frameBytes t f, s.now t + d⟩
  let s := ((s.takeTx t f).txCount t f).pace t f.src d
  let s := s.updPort t fun p => { p with onWire := (p.onWire.filter fun e => decide (e.sub ≠ f.sub)) ++ [w] }
  match f.ptpEvent with
  | some b => s.ptpSent t f.sub b (s.ports[t].clock + 64 * nsUnits / s.subRate t.val)
  | none => s

/-- Whether a frame asks for the hardware address of a neighbour. -/
def TxFrame.asksFor (g : TxFrame) (hop : List Byte) : Bool :=
  match g.body with
  | .mc ty b => decide (ty = 0x0806 ∧ slice b 24 4 = hop.drop 12 ∧ slice b 6 2 = [0, 1]) || decide (ty = 0x86DD ∧ slice b 48 16 = hop)
  | _ => false

/-- The highest class with a frame that can start, or whose head is to be dropped, decides; the list holds the classes still
to look at. A frame without its neighbour's address waits for it at the head of its class (R283, R287, R289). -/
def State.sendNext (t : PortId) (q : SubId) : List Nat → State → State
  | [], s => s
  | c :: cs, s =>
    match s.headFrame t q c with
    | none => State.sendNext t q cs s
    | some f =>
      let need := s.frameTime t f
      if s.isPaused t q.val c then State.sendNext t q cs s
      else if s.gateNever t q.val c need then s.dropOversize t f
      else if !s.gateOpen t q.val c need then State.sendNext t q cs s
      else if f.mac ≠ [] ∨ f.hop = [] then s.startTx t f
      else match s.neighbour t q.val f.hop with
        | some m => (s.updPort t fun p => { p with tx := p.tx.map fun g => if g.hop = f.hop ∧ g.sub = q then { g with mac := m } else g }).startTx t
            { f with mac := m }
        | none =>
          let asked := s.ports[t].tx.any fun g => decide (g.sub = q) && g.asksFor f.hop
          State.sendNext t q cs (if asked then s else s.resolve t q f.hop)

/-- Whether a frame and the gap after it occupy the line of a subport (R278). -/
def State.lineBusy (s : State) (t : PortId) (q : SubId) : Bool := s.ports[t].onWire.any fun e => decide (e.sub = q ∧ s.now t < e.till)

/-- The PFC frame of a subport that waits to be sent. -/
def State.pfcFrame (s : State) (t : PortId) (q : SubId) : Option TxFrame :=
  (s.stored t).find? fun f => decide (f.sub = q) && (match f.body with | .pfc _ _ => true | _ => false)

/-- FRAME_TRANSMIT (R278, R289): after the turn's wait, on a line that is free, a PFC frame goes first; then strict priority over
the classes that may send. -/
def execFrameTransmit (t : PortId) (x : TxTurn) (s : State) : Result :=
  if !s.portOn t || !s.linkUp t.val x.sub.val then .next s
  else match s.portReach t (s.ports[t].clock + x.wait) with
    | none => .next s
    | some u =>
      if u.lineBusy t x.sub then .next s
      else match u.pfcFrame t x.sub with
        | some f => .next (u.startTx t f)
        | none => .next (State.sendNext t x.sub [7, 6, 5, 4, 3, 2, 1, 0] u)

end Sys2Proof.Machine
end

