-- ==== Sys2Proof/Machine/PortTime.lean ====
section
/-! DEFINITION. Schedules, the port's time and its disciplining, the periodic output (R288-R296). -/

namespace Sys2Proof.Machine

/-! ### Schedules (R288, R290) -/

/-- GATE_ENTRY_CHANGE (R288): the port's time reaches the end of the entry in force. -/
def execGateEntryChange (t : PortId) (k : Fin 2) (s : State) : Result :=
  let c := s.ports[t].sched[k]
  let l := s.operList t k
  if s.schedOn t.val k.val && !l.isEmpty then
    let left := (entryAt l (cyclePos s.ports[t].clock c.base c.cycle)).2
    match s.portReach t (s.ports[t].clock + left) with
    | some s => .next s
    | none => .next s
  else .next s

/-- Base time of a port's administrative schedule; the upper seconds are the port time's. -/
def State.adminBase (s : State) (t : PortId) (k : Fin 2) : Nat :=
  let hi := s.ports[t].clock / nsUnits / 1000000000 / 2 ^ 32
  let sec := hi * 2 ^ 32 + (s.reg (portGateBaseSec t.val k.val)).toNat
  (sec * 1000000000 + s.regFld (portGateBaseNs t.val k.val) 29 0) * nsUnits

/-- The entries START to START + LEN − 1 are copied to the operating bank, and the schedule takes the administrative cycle
and base (R290 step 4). -/
def State.copySched (s : State) (t : PortId) (k : Fin 2) : State :=
  let w := portGateCtl t.val k.val
  let start := s.regFld w 23 16
  let len := s.regFld w 8 0
  let cycle := (s.reg (portGateCycle t.val k.val)).toNat * nsUnits
  let base := s.adminBase t k
  let s := (List.range len).foldl (fun s i =>
    [0, 1].foldl (fun (s : State) (h : Nat) =>
      s.setReg (portGateOper t.val ((start + i) % 256) h) (s.reg (portGateEnt t.val ((start + i) % 256) h))) s) s
  s.updPort t fun p => { p with sched := p.sched.set k { start := start, len := len, cycle := cycle, base := base } }

/-- SCHEDULE_CHANGE_TIME (R290 step 4). -/
def execScheduleChangeTime (t : PortId) (k : Fin 2) (s : State) : Result :=
  let h := s.ports[t].sched[k]
  if !h.pending then .next s
  else if h.changeAt ≤ s.ports[t].clock then .next (s.copySched t k)
  else match s.portReach t h.changeAt with
    | some s => .next (s.copySched t k)
    | none => .next s

/-- The first cycle time of a schedule that is not earlier than `at_`. -/
def cycleFrom (base cycle at_ : Nat) : Nat := at_ + (((base : Int) - (at_ : Int)) % ((Nat.max 1 cycle : Nat) : Int)).toNat

/-- PORT_GATE_CTL_CHANGE (R290 steps 2 and 3). -/
def execPortGateCtlChange (t : PortId) (k : Fin 2) (s : State) : Result :=
  let when_ := cycleFrom (s.adminBase t k) ((s.reg (portGateCycle t.val k.val)).toNat * nsUnits)
    (s.ports[t].clock + 1000 * nsUnits)
  .next (s.updPort t fun p => { p with sched := p.sched.set k { p.sched[k] with pending := true, changeAt := when_ } })

/-- PORT_GATE_CTL_CANCEL (R290 step 6). -/
def execPortGateCtlCancel (t : PortId) (k : Fin 2) (s : State) : Result :=
  .next (s.updPort t fun p => { p with sched := p.sched.set k { p.sched[k] with pending := false, changeAt := 0 } })

/-- Whether a value of PORT_GATE_CTL_k describes a schedule: it is enabled, gates a subport or has entries. -/
def isSchedule (v : Word) : Bool := bitAt v 31 || decide (fld v 27 24 ≠ 0) || decide (fld v 8 0 ≠ 0)

/-- Why PORT_GATE_CTL_k refuses a value (R288, R296): the top bit of the field it names. -/
def State.gateCtlBad (s : State) (t : PortId) (k : Fin 2) (v : Word) : Option Nat :=
  let o := portGateCtl t.val (1 - k.val)
  let start := fld v 23 16
  let len := fld v 8 0
  if k.val = 1 ∧ s.regFld (portCtl t.val) 1 0 = 0 ∧ isSchedule v = true then some 31
  else if k.val = 1 ∧ bitAt v 31 = true ∧ (s.ptpField t.val 4 ≠ 0 ∨ bitAt (s.reg (portOtCtl t.val)) 0 = true) then some 31
  else if (len = 0 ∧ bitAt v 31 = true) ∨ (len ≠ 0 ∧ 256 < start + len) then some 8
  else if fld v 27 24 &&& s.regFld o 27 24 ≠ 0 then some 27
  else if len ≠ 0 ∧ s.regFld o 8 0 ≠ 0 ∧ start < s.regFld o 23 16 + s.regFld o 8 0 ∧ s.regFld o 23 16 < start + len then some 23
  else none

/-- A register write of a port is refused and has no effect (R303). -/
def State.portRefuse (s : State) (t : PortId) (o top : Nat) : State :=
  s.raise (.port t.val) none 0x6004 [t.val, o, Config.fieldWord 0x6004 (o % 0x10000) top]

/-- PORT_GATE_CTL_EN (R288, R290): EN, SUBPORTS, START and LEN are checked and written. A schedule that is enabled starts on
its administrative list; one that is disabled opens its gates. -/
def execPortGateCtlEn (t : PortId) (k : Fin 2) (value : Word) (s : State) : Result :=
  let o := portGateCtl t.val k.val
  match s.gateCtlBad t k value with
  | some top => .next (s.portRefuse t o top)
  | none =>
    let was := s.schedOn t.val k.val
    let s := s.setReg o (value &&& 0x8FFF01FF)
    .next (if bitAt value 31 && !was then s.copySched t k else s)

/-! ### Port time (R291-R293) -/

/-- The port's time is stepped by a number of ns: frames in flight complete, and those that now run past a gate close count
(R291, R293). -/
def State.stepPort (s : State) (t : PortId) (ns : Int) : State :=
  let move := fun (x : Nat) => ((x : Int) + ns * (nsUnits : Int)).toNat
  let now := s.now t
  let flying := s.ports[t].onWire.filter fun e => decide (now < e.till)
  let s := s.updPort t fun p => { p with clock := move p.clock, tick := move p.tick }
  let past := flying.filter fun e => !s.gateOpen t e.sub.val e.cls (e.till - now)
  let s := (s.portCount t 15 past.length).setReg (portPtpStep t.val) (BitVec.ofInt 32 ns)
  s.raise (.port t.val) none 0x6006 [t.val, toTwos 32 ns]

/-- PORT_PTP_STEP (R291): the host's writes act while the port runs free. -/
def execPortPtpStep (t : PortId) (value : Word) (s : State) : Result :=
  if s.regFld (portPtpCtl t.val) 1 0 = 0 then .next (s.stepPort t value.toInt) else .next s

/-- Largest frequency correction, 1,000 ppm in units of 2^-16 ppm (R302). -/
def freqMax : Int := 65536000

/-- PORT_PTP_FREQ (R293): the host's writes act while the port runs free and stay within the range. -/
def execPortPtpFreq (t : PortId) (value : Word) (s : State) : Result :=
  if s.regFld (portPtpCtl t.val) 1 0 = 0 ∧ -freqMax ≤ value.toInt ∧ value.toInt ≤ freqMax then
    .next (s.setReg (portPtpFreq t.val) value)
  else .next s

/-- A frequency correction within the range that stands for a free value. -/
def freqOf (n : Nat) : Word := BitVec.ofInt 32 ((n % 131072001 : Nat) - freqMax)

/-- The clock is disciplined by a measured offset, in units of 2^-16 ns (R293): a step where it exceeds STEP_LIMIT, else a frequency
correction that the spec leaves to the firmware. -/
def State.discipline (s : State) (t : PortId) (o : Int) : State :=
  let limit := s.ptpField t.val 3
  if (if limit = 0 then 1000 else limit) * nsUnits < o.natAbs then s.stepPort t (-(o / (nsUnits : Int)))
  else s.fresh.2.setReg (portPtpFreq t.val) (freqOf (Config.free s.fresh.1))

/-- PTP_MESSAGE (R293): the instance of a port processes the message that came first, which the command names by its subport, and
disciplines the clock by the offset that it completes. -/
def execPtpMessage (t : PortId) (q : SubId) (s : State) : Result :=
  if s.ptpMode t = 0 ∨ s.portOn t = false then .next s
  else match s.ports[t].ptpIn with
    | [] => .next s
    | m :: r =>
      if m.sub ≠ q then .next s
      else match (s.updPort t fun p => { p with ptpIn := r }).ptpTake t m with
        | (s, none) => .next s
        | (s, some o) => .next (s.discipline t o)

/-- PTP_MASTER_LOST (R293): the port holds over at its last correction, and its own clock is now the best that its instance knows. -/
def execPtpMasterLost (t : PortId) (s : State) : Result :=
  if s.ptpMode t = 0 ∨ s.portOn t = false ∨ s.ports[t].ptp.role = .master then .next s
  else
    let s := (s.setFld (portPtpCtl t.val) 3 3 1).raise (.port t.val) none 0x6007 [t.val, s.ports[t].master % 2 ^ 32]
    .next (s.updPtp t fun r => { r with role := .master, best := none, syncRx := none, measured := none })

/-- PERIODIC_OUTPUT (R294, R295): the leading edge at the next whole multiple of PERIOD of port time; a pulse of PULSE_NS drives
SYNC_IO for the port that claims it. -/
def execPeriodicOutput (t : PortId) (s : State) : Result :=
  let period := s.ptpField t.val 4 * 1000000000 * nsUnits
  if s.cmpUse t.val 2 ≠ 3 ∨ period = 0 then .next s
  else match s.portReach t ((s.ports[t].clock / period + 1) * period) with
    | none => .next s
    | some s =>
      let mine := match s.syncRec 2 with | some v => decide (rdLE v 1 1 = t.val) | none => false
      let till := s.now t + s.ptpField t.val 5 * nsUnits
      .next (if mine then { s with mc := { s.mc with syncOut := s.mc.syncOut + 1, ppsTill := some (t, till) } } else s)

end Sys2Proof.Machine
end

