-- ==== Sys2Proof/Machine/Roce.lean ====
section
/-! DEFINITION. Queue pairs: what arrives for a requester and a responder, their errors, and the context window (R299-R302). -/

namespace Sys2Proof.Machine

/-! ### The end of work requests (R260, R299, R336, R360, R362) -/

/-- Parts of a STORE command in its taken record: port, queue pair, remote address, RKEY, length, whether its flush is out. -/
def TakenCmd.path (c : TakenCmd) : PortId × Nat := (Fin.ofNat 8 (c.store.getD 0 0), c.store.getD 1 0)

/-- Bytes of a work request that have moved. -/
def Wqe.moved (w : Wqe) (mtu : Nat) : Nat :=
  match w.op with
  | 0 => Nat.min w.len (w.got * mtu)
  | 1 => w.got
  | _ => 0

/-- Bytes that a STORE command has moved: those no outstanding work request still owes. -/
def State.storeMoved (s : State) (p : PartId) (c : TakenCmd) : Nat :=
  let q := s.qp c.path.1 c.path.2
  let mine := q.wqes.filter fun w => decide (w.owner = .cmd p.val c.index ∧ (w.op = 0 ∨ w.op = 1))
  c.store.getD 4 0 - (mine.map fun w => w.len - w.moved q.mtu).foldl (· + ·) 0

/-- A STORE command whose work requests are all answered ends, or requests its flush (R260, R301). -/
def State.storeDone (s : State) (p : PartId) (c : TakenCmd) : State :=
  if c.level = 2 ∧ c.store.getD 5 0 = 0 then
    let s := s.updIface p fun i => { i with taken := i.taken.map fun x =>
      if x = c then { x with store := x.store.take 5 ++ [1] } else x }
    s.postFlush c.path.1 c.path.2 (.cmd p.val c.index) (c.store.getD 2 0) (c.store.getD 3 0) (c.store.getD 4 0)
  else s.finalRecord p c 0 0 0 0 (c.store.getD 4 0)

/-- The descriptor that a work request serves, if it is still there. -/
def State.netOwner (s : State) (core seq : Nat) : Option Issued :=
  s.cores[(Fin.ofNat 8 core : CoreId)].issued.find? fun e => decide (e.seq = seq ∧ e.queue = .net ∧ e.phase = .running)

/-- A work request has been answered; the last one of its owner lets it go on. -/
def State.ownerDone (s : State) (t : PortId) (n : Nat) (w : Wqe) : State :=
  if (s.qp t n).owes w.owner then s
  else match w.owner with
    | .net core seq => match s.netOwner core seq with
      | some e => s.finish (Fin.ofNat 8 core) e
      | none => s
    | .cmd p index =>
      let q : PartId := Fin.ofNat 4 p
      match s.parts[q].iface.taken.find? fun c => decide (c.index = index ∧ c.store ≠ []) with
      | some c => s.storeDone q c
      | none => s
    | .op h => match s.handleOf h with
      | none => s
      | some x =>
        if x.kind = 3 then match x.part with
          | some p => s.loadGot p h w.data
          | none => s
        else
          let s := s.updHandle h fun x => x.move (if w.op = 0 then w.len else 0)
          if x.suspendPending && !((x.part.bind s.job).any fun j => j.cmt.ckptReading) then s else s.ckptOn h

/-- A work request leaves its queue pair. -/
def State.dropWqe (s : State) (t : PortId) (n psn : Nat) : State :=
  s.updQp t n fun q => { q with wqes := q.wqes.filter fun w => decide (w.psn ≠ psn), retries := 0, rnrs := 0 }

/-- A MODEL_LOAD whose queue pair fails ends with the event; in its second phase a member reports it (R299, R362). -/
def State.loadFailed (s : State) (x : Handle) : State :=
  let s := s.opDone x.num 3 0x6008 0
  match x.part with
  | some p => match s.cluster p with
    | some c => if x.work.getD 4 0 = 3 then s.sendAbortReq p 0x6008 c.self else s
    | none => s
  | none => s

/-- Everything that uses a queue pair ends FAILED with ROCE_QP_ERROR: STORE commands, CHECKPOINT, MODEL_LOAD, descriptors
(R299, R336). -/
def State.failUsers (s : State) (t : PortId) (n : Nat) : State :=
  let nets := (s.qp t n).wqes.filterMap fun w => match w.owner with | .net c q => some (c, q) | _ => none
  let s := allParts.foldl (fun s p =>
    (s.parts[p].iface.taken.filter fun c => decide (c.store ≠ [] ∧ c.path = (t, n))).foldl (fun s c =>
      s.finalRecord p c 3 0 0x6008 0 (s.storeMoved p c)) s) s
  let s := s.updQp t n fun q => { q with wqes := [] }
  let ops := s.handles.filter fun x => decide ((x.kind = 2 ∨ x.kind = 3) ∧ x.state ≠ .done ∧ x.path = (t, n))
  let s := ops.foldl (fun s x => if x.kind = 3 then s.loadFailed x else match x.part with
    | some p => s.ckptFail p x.num 0x6008
    | none => s.opDone x.num 3 0x6008 0) s
  nets.eraseDups.foldl (fun s e => match s.netOwner e.1 e.2 with
    | some x => s.failQuiet (Fin.ofNat 8 e.1) x 0x6008 none
    | none => s) s

/-- Frames of a queue pair that wait to be sent go. -/
def State.unqueueQp (s : State) (t : PortId) (n : Nat) (all : Bool) : State :=
  s.updPort t fun p => { p with tx := p.tx.filter fun f => match f.src, f.body with
    | .roce m, .roce op _ _ _ _ => !(decide (m = n) && (all || isRequest op))
    | _, _ => true }

/-- A queue pair enters ERROR (R299, R300). -/
def State.qpError (s : State) (t : PortId) (n syndrome : Nat) : State :=
  let s := (s.unqueueQp t n true).updQp t n fun q => q.setState 2
  (s.raise (.port t.val) none 0x6008 [t.val, n, syndrome]).failUsers t n

/-! ### The requester (R299) -/

/-- The oldest work request that has been sent and not yet answered by the network. -/
def Qp.oldest (q : Qp) : Option Wqe := q.wqes.find? fun w => w.sent && !(decide (w.op = 3) && decide (w.got = 1))

/-- First packet of a work request that is still to be answered. -/
def Wqe.nextPkt (w : Wqe) (mtu : Nat) : Nat := if w.op = 1 then w.got / mtu else if w.op = 0 then w.got else 0

/-- PSNs of a queue pair's request packets that still wait to be transmitted. -/
def State.untransmitted (s : State) (t : PortId) (n : Nat) : List Nat :=
  s.ports[t].tx.filterMap fun f => match f.src, f.body with
    | .roce m, .roce op psn _ _ _ => if m = n ∧ isRequest op then some psn else none
    | _, _ => none

/-- Packets of a work request, from its packet `k` on, that have been transmitted: those that sending it again retransmits (R302). -/
def Wqe.transmitted (w : Wqe) (waiting : List Nat) (k : Nat) : Nat :=
  if w.op = 0 then ((List.range (w.pkts - k)).filter fun i => !waiting.contains (psnAdd w.psn (k + i))).length
  else b2n (!(waiting.any fun x => decide (psnDist w.psn x < w.pkts)))

/-- Everything from the oldest unanswered packet on is sent again; the packets among it that had been transmitted count (R299, R302). -/
def State.goBack (s : State) (t : PortId) (n : Nat) : State :=
  let q := s.qp t n
  let waiting := s.untransmitted t n
  let due := q.wqes.filter fun w => w.sent && !(decide (w.op = 3) && decide (w.got = 1))
  due.foldl (fun s w =>
    let k := w.nextPkt q.mtu
    (s.portCount t 22 (w.transmitted waiting k)).sendWqe t n w k) (s.unqueueQp t n false)

/-- A retry of a queue pair: its count is exhausted, or it goes back (R299). RNR_RETRY 7 sets no limit. -/
def State.retryQp (s : State) (t : PortId) (n : Nat) (rnr : Bool) (syndrome : Nat) : State :=
  let q := s.qp t n
  let limit := if rnr then q.fld 4 18 16 else q.fld 4 21 19
  let used := if rnr then q.rnrs else q.retries
  if limit ≤ used ∧ !(rnr && decide (limit = 7)) then s.qpError t n syndrome
  else
    (s.updQp t n fun q => if rnr then { q with rnrs := q.rnrs + 1 } else { q with retries := q.retries + 1 }).goBack t n

/-- An acknowledgement up to a PSN: work requests end in order, up to the first READ or flush whose own answer is missing.
The list is the fuel. -/
def State.ackQp (t : PortId) (n psn : Nat) : List Wqe → State → State
  | [], s => s
  | w :: r, s =>
    let k := psnDist w.psn psn
    if !w.sent ∨ 2 ^ 23 ≤ k ∨ w.op = 1 then s
    else if w.op = 0 ∧ k + 1 < w.pkts then
      s.updQp t n fun q => { q with retries := 0, rnrs := 0, wqes := q.wqes.map fun x => if x.psn = w.psn then { x with got := Nat.max x.got (k + 1) } else x }
    else if w.op = 3 then
      State.ackQp t n psn r (s.updQp t n fun q => { q with
        retries := 0, rnrs := 0, wqes := q.wqes.map fun x => if x.psn = w.psn then { x with got := 1 } else x })
    else State.ackQp t n psn r ((s.dropWqe t n w.psn).ownerDone t n w)

/-- The same for a queue pair. -/
def State.acked (s : State) (t : PortId) (n psn : Nat) : State := State.ackQp t n psn (s.qp t n).wqes s

/-- Bytes of a read response are written where their work request asks, as its partition's memory is steered (R160, R224). -/
def State.placeRead (s : State) (t : PortId) (n : Nat) (w : Wqe) (bs : List Byte) : State :=
  let p : PartId := Fin.ofNat 4 ((s.qp t n).fld 0 25 24)
  let j := s.windowJob p
  let put := ((s.touchAll ((spanOf (w.loc + w.got) bs.length).map (j.phys true))).lputBytes j (w.loc + w.got) bs)
  match w.owner with
  | .op _ => s
  | .cmd _ _ => put
  | .net c q => if (s.netOwner c q).isSome then put else s

/-- A read response: bytes in order advance the oldest READ; a gap sends it again from there. -/
def State.readArrives (s : State) (t : PortId) (n psn : Nat) (bs : List Byte) : State :=
  let q := s.qp t n
  match q.wqes.find? fun w => w.sent && decide (w.op = 1) with
  | none => s
  | some w =>
    let k := psnDist w.psn psn
    if 2 ^ 23 ≤ k ∨ w.pkts ≤ k then s
    else if k < w.got / q.mtu then s
    else if w.got / q.mtu < k then s.goBack t n
    else
      let bs := bs.take (Nat.min q.mtu (w.len - w.got))
      let s := s.placeRead t n w bs
      let w2 := { w with got := w.got + bs.length, data := match w.owner with | .op _ => w.data ++ bs | _ => [] }
      if w.len ≤ w2.got then ((s.dropWqe t n w.psn).ownerDone t n w2)
      else s.updQp t n fun q => { q with retries := 0, rnrs := 0, wqes := q.wqes.map fun x => if x.psn = w.psn then w2 else x }

/-- A confirmation of a flush by SEND (R301): it takes a PSN of the target's and is acknowledged. -/
def State.flushConfirmed (s : State) (t : PortId) (n ident status : Nat) : State :=
  let q := s.qp t n
  let s := (s.updQp t n fun q => { q with expect := psnAdd q.expect 1, msn := q.msn + 1 }).sendAeth t n synAck q.expect
  match q.wqes.find? fun w => decide (w.op = 3 ∧ w.loc = ident) with
  | none => s
  | some w => if status = 0 then (s.dropWqe t n w.psn).ownerDone t n w else s.qpError t n status

/-- A RoCEv2 packet taken apart: opcode, destination queue pair, PSN, whether it asks for an acknowledgement, what follows its base
transport header without the padding, CE, subport. -/
structure RocePkt where
  op : Nat
  qp : Nat
  psn : Nat
  ack : Bool
  body : List Byte
  ce : Bool
  sub : Nat
  deriving DecidableEq, Repr, Inhabited

/-- A packet from its bytes. -/
def RoceIn.parse (x : RoceIn) : RocePkt :=
  let pad := nbits (rdLE x.bytes 1 1) 5 4
  let body := x.bytes.drop 12
  ⟨rdLE x.bytes 0 1, beNat (slice x.bytes 5 3), beNat (slice x.bytes 9 3), (rdLE x.bytes 8 1).testBit 7,
    body.take (body.length - pad), x.ce, x.sub⟩

/-- The packet that a port's RoCEv2 engine takes next from the receive buffer, if it is one that `mine` names (R279, R284). -/
def State.takeRoce (s : State) (t : PortId) (mine : RocePkt → Bool) : Option (State × RocePkt) :=
  match s.ports[t].roceIn with
  | [] => none
  | x :: r =>
    if mine x.parse then
      some ((s.updPort t fun p => { p with roceIn := r }).pfcWatch t (Fin.ofNat 4 x.sub) x.cls, x.parse)
    else none

/-- Whether a packet is for a queue pair in RTS of the subport that received it; any other is dropped. -/
def State.qpServes (s : State) (t : PortId) (k : RocePkt) : Bool :=
  decide (k.qp < 1024) && (s.qp t k.qp).rts && decide ((s.qp t k.qp).fld 0 27 26 = k.sub)

/-- An acknowledge header: an acknowledgement, an RNR NAK, or a NAK; one for a remote access or an invalid request ends service
(R299). -/
def State.aethIn (s : State) (t : PortId) (n psn syndrome : Nat) : State :=
  let before := psnAdd psn (2 ^ 24 - 1)
  match syndrome / 32 with
  | 0 => s.acked t n psn
  | 1 => (s.acked t n before).retryQp t n true (Config.fieldWord 0x6008 1 0)
  | _ => if syndrome = synSeq then (s.acked t n before).retryQp t n false (Config.fieldWord 0x6008 0 0) else s.qpError t n syndrome

/-- Whether a packet is a response to a queue pair, received on a subport (R299). -/
def RocePkt.answers (k : RocePkt) (n : Nat) (q : SubId) : Bool := decide (opReadFirst ≤ k.op ∧ k.op ≤ opAck ∧ k.qp = n ∧ k.sub = q.val)

/-- 50 µs in nanoseconds: least distance of two rate cuts, and of two CNPs sent (R299). -/
def cnpGap : Nat := 50000

/-- Whether `cnpGap` has passed since a time. -/
def cnpDue (last : Option Nat) (now : Nat) : Bool :=
  match last with
  | some x => decide (x + cnpGap ≤ now)
  | none => true

/-- A port's time in ns (R299). -/
def State.nowNs (s : State) (t : PortId) : Nat := s.now t / nsUnits

/-- A CNP answers a CE mark, at most once in 50 µs for a queue pair (R299). -/
def State.cnpFor (s : State) (t : PortId) (n : Nat) (ce : Bool) : State :=
  if ce && cnpDue (s.qp t n).cnpAt (s.nowNs t) then
    (s.updQp t n fun q => { q with cnpAt := some (s.nowNs t) }).sendRoce t n opCnp 0 false (List.replicate 16 0) []
  else s

/-- ROCE_RESPONSE (R299, R301): an acknowledgement, a NAK or a read response advances the requester or sends it back; the command names
the queue pair and the subport of the packet ahead. -/
def execRoceResponse (t : PortId) (qp : Nat) (q : SubId) (s : State) : Result :=
  if !s.portOn t then .next s
  else match s.takeRoce t fun k => k.answers qp q with
    | none => .next s
    | some (s, k) =>
      if !s.qpServes t k then .next s
      else
      let s := s.cnpFor t k.qp k.ce
      if k.op = opAck then .next ((s.aethIn t k.qp k.psn (rdLE k.body 0 1)).runQp t k.qp)
      else
        .next (((s.acked t k.qp (psnAdd k.psn (2 ^ 24 - 1))).readArrives t k.qp k.psn
          (if k.op = opReadMiddle then k.body else k.body.drop 4)).runQp t k.qp)

/-- ROCE_ACK_TIMEOUT (R299): it runs while a request is unanswered. -/
def execRoceAckTimeout (t : PortId) (qp : Fin 1024) (s : State) : Result :=
  let n := qp.val
  if s.portOn t && (s.qp t n).rts && (s.qp t n).oldest.isSome then
    .next (s.retryQp t n false (Config.fieldWord 0x6008 2 0))
  else .next s

/-- CNP (R299): the packet ahead, if it is a congestion notice to the queue pair. -/
def execCnp (t : PortId) (qp : Nat) (s : State) : Result :=
  if !s.portOn t then .next s
  else match s.takeRoce t fun k => decide (k.op = opCnp ∧ k.qp = qp) with
    | none => .next s
    | some (s, k) =>
      if s.qpServes t k && cnpDue (s.qp t k.qp).cutAt (s.nowNs t) then
        .next (s.updQp t k.qp fun q => { q with rate := q.rate * 7 / 8, cutAt := some (s.nowNs t) })
      else .next s

/-- ROCE_RATE_INCREASE (R299). -/
def execRoceRateIncrease (t : PortId) (qp : Fin 1024) (s : State) : Result :=
  if s.portOn t && (s.qp t qp.val).rts then
    .next (s.updQp t qp.val fun q => { q with rate := if 1 ≤ q.rate + 1 / 100 then 1 else q.rate + 1 / 100 })
  else .next s

/-! ### The responder (R300) -/

/-- Partition that owns a queue pair. -/
def Qp.part (q : Qp) : PartId := Fin.ofNat 4 (q.fld 0 25 24)

/-- Whether bytes lie wholly within a region of the queue pair's partition with the right, and outside B banks and unusable
memory (R184, R300). `key` none: any region, for the receive ring that the context names. -/
def State.mrAllows (s : State) (t : PortId) (q : Qp) (key : Option Nat) (bit a len : Nat) : Bool :=
  let j := s.windowJob q.part
  (s.ports[t].mrs.any fun e =>
    let m := e.2
    (match key with | some k => decide (m.rkey = k) | none => true) && decide (m.part = q.part.val ∧ m.base ≤ a ∧ a + len ≤ m.base + m.len) &&
      m.rights.testBit bit) &&
  (spanOf a len).all fun b => !j.inB b && (s.unusable (j.phys (decide (bit = 1)) b)).isNone

/-- A request fails the region check (R300). -/
def State.roceDenied (s : State) (t : PortId) (n psn rkey : Nat) : State :=
  let s := s.sendAeth t n synAccess psn
  let s := s.raise (.port t.val) none 0x6009 [t.val, n, rkey]
  let s := s.updQp t n fun q => q.setState 2
  (s.raise (.port t.val) none 0x6008 [t.val, n, synAccess]).failUsers t n

/-- Bytes that a request places are steered as R160 gives. -/
def State.placeIn (s : State) (p : PartId) (a : Nat) (bs : List Byte) : State :=
  let j := s.windowJob p
  (s.touchAll ((spanOf a bs.length).map (j.phys true))).lputBytes j a bs

/-- A responder has taken the request packet it expected, which takes `k` PSNs; `whole` ends a message. -/
def State.expectNext (s : State) (t : PortId) (n k : Nat) (whole : Bool) : State :=
  s.updQp t n fun q => { q with expect := psnAdd q.expect k, msn := if whole then q.msn + 1 else q.msn }

/-- A request packet that asks for an acknowledgement has it. -/
def State.ackIf (s : State) (t : PortId) (k : RocePkt) : State := if k.ack then s.sendAeth t k.qp synAck k.psn else s

/-- Whether the opcode of a packet opens, or ends, its message. -/
def RocePkt.opens (k : RocePkt) : Bool := decide (k.op = opWriteFirst ∨ k.op = opWriteOnly ∨ k.op = opSendFirst ∨ k.op = opSendOnly)
def RocePkt.ends (k : RocePkt) : Bool := decide (k.op = opWriteLast ∨ k.op = opWriteOnly ∨ k.op = opSendLast ∨ k.op = opSendOnly)

/-- A packet of an RDMA WRITE (R300): the first one's region check covers the whole message. A message that is not of 1 to 2^31 bytes,
or whose packets do not make it up, is an invalid request. -/
def State.writeIn (s : State) (t : PortId) (q : Qp) (k : RocePkt) : State :=
  let n := k.qp
  let r := if k.opens then some (beNat (slice k.body 0 8), beNat (slice k.body 8 4), beNat (slice k.body 12 4)) else q.writing
  let data := if k.opens then k.body.drop 16 else k.body
  match r with
  | none => s.sendAeth t n synInvalid k.psn
  | some (va, rkey, left) =>
    if left = 0 ∨ 2 ^ 31 < left ∨ (if k.ends then data.length ≠ left else data.length ≠ q.mtu ∨ left ≤ data.length) then
      s.sendAeth t n synInvalid k.psn
    else if k.opens ∧ !s.mrAllows t q (some rkey) 1 va left then s.roceDenied t n k.psn rkey
    else
      let s := ((s.placeIn q.part va data).expectNext t n 1 k.ends).ackIf t k
      s.updQp t n fun q => { q with writing := if k.ends then none else some (va + data.length, rkey, left - data.length) }

/-- An RDMA READ (R300): the bytes go back in packets of one path MTU; an uncorrectable error is answered with a NAK (R190). A
repeated request is answered again. -/
def State.readIn (s : State) (t : PortId) (q : Qp) (k : RocePkt) (again : Bool) : State :=
  let n := k.qp
  let j := s.windowJob q.part
  let va := beNat (slice k.body 0 8)
  let rkey := beNat (slice k.body 8 4)
  let len := beNat (slice k.body 12 4)
  if len = 0 ∨ 2 ^ 31 < len then s.sendAeth t n synInvalid k.psn
  else if !s.mrAllows t q (some rkey) 0 va len then s.roceDenied t n k.psn rkey
  else
    let as := spanOf va len
    let pkts := wqePkts q.mtu 1 len
    let s := if again then s else s.expectNext t n pkts true
    match s.lbad j as with
    | some a => (((s.uncorrectable (some q.part) a).fenceByErrors a).sendAeth t n synInvalid k.psn)
    | none =>
      let bs := as.map (s.lrd j)
      let s := (s.touchAll (as.map (j.phys false))).meetReads (as.map (j.phys false))
      let msn := (s.qp t n).msn
      (List.range pkts).foldl (fun s i =>
        let o := i * q.mtu
        let op := pktOp opReadFirst opReadMiddle opReadLast opReadOnly i pkts
        s.sendRoce t n op (psnAdd k.psn i) false (if op = opReadMiddle then [] else aeth synAck msn)
          (slice bs o (Nat.min q.mtu (len - o)))) s

/-- Slots of the receive ring, each of one path MTU (R300). -/
def ringSlots : Nat := 64

/-- A packet of a SEND goes to the next slot of the receive ring, if its payload may be placed there (R300); one without payload, or one of a
longer message that is not of one path MTU, is an invalid request (R299). The ring's first 64 slots are free; whether a later one is free
again the spec leaves open. -/
def State.sendIn (s : State) (t : PortId) (q : Qp) (k : RocePkt) : State :=
  let n := k.qp
  let ring := rdLE q.ctx 0x28 6
  let (free, s) := if ringSlots ≤ q.ringUsed then s.fresh else (0, s)
  let slot := ring + q.ringUsed % ringSlots * q.mtu
  if k.body = [] ∨ q.mtu < k.body.length ∨ (k.ends = false ∧ k.body.length ≠ q.mtu) then s.sendAeth t n synInvalid k.psn
  else if Config.free free % 2 = 1 ∧ ringSlots ≤ q.ringUsed then s.sendAeth t n synRnr k.psn
  else if !s.mrAllows t q none 1 slot k.body.length then s.roceDenied t n k.psn 0
  else
    let s := s.placeIn q.part slot k.body
    let s := s.updQp t n fun q => { q with ringUsed := q.ringUsed + 1 }
    (s.expectNext t n 1 k.ends).ackIf t k

/-- The flush that a SEND of 24 bytes confirms, if one of the queue pair waits for it, with the status it brings (R301). -/
def Qp.confirms (q : Qp) (k : RocePkt) : Option (Nat × Nat) :=
  let ident := rdLE k.body 4 4
  if k.op = opSendOnly ∧ k.body.length = 24 ∧ rdLE k.body 0 1 = 2 ∧ (q.wqes.any fun w => decide (w.op = 3 ∧ w.loc = ident)) then
    some (ident, rdLE k.body 1 3)
  else none

/-- A request packet of the expected PSN (R299-R301): an operation that the responder does not support is an invalid request. -/
def State.requestIn (s : State) (t : PortId) (q : Qp) (k : RocePkt) : State :=
  if opWriteFirst ≤ k.op ∧ k.op ≤ opWriteOnly ∧ k.op ≠ 0x09 then s.writeIn t q k
  else if k.op = opReadRequest then s.readIn t q k false
  else if k.op = opSendFirst ∨ k.op = opSendMiddle ∨ k.op = opSendLast ∨ k.op = opSendOnly then
    match q.confirms k with
    | some (ident, status) => (s.flushConfirmed t k.qp ident status).runQp t k.qp
    | none => s.sendIn t q k
  else s.sendAeth t k.qp synInvalid k.psn

/-- Whether a packet is a request, received on a subport (R299). -/
def RocePkt.asks (k : RocePkt) (q : SubId) : Bool := isRequest k.op && decide (k.sub = q.val)

/-- ROCE_REQUEST (R299, R300): the packet ahead in the receive buffer, if it is a request received on the subport. One past the expected PSN is answered with a
sequence NAK; an earlier one is a repetition: a READ is answered again, anything else only acknowledged. -/
def execRoceRequest (t : PortId) (sub : SubId) (s : State) : Result :=
  if !s.portOn t then .next s
  else match s.takeRoce t fun k => k.asks sub with
    | none => .next s
    | some (s, k) =>
      if !s.qpServes t k then .next s
      else
        let s := s.cnpFor t k.qp k.ce
        let q := s.qp t k.qp
        let d := psnDist q.expect k.psn
        if d = 0 then .next (s.requestIn t q k)
        else if d < 2 ^ 23 then .next (s.sendAeth t k.qp synSeq q.expect)
        else if k.op = opReadRequest then .next (s.readIn t q k true)
        else .next (s.sendAeth t k.qp synAck (psnAdd q.expect (2 ^ 24 - 1)))

/-! ### The context window (R301, R302) -/

/-- The 16 words of an entry: a context, or a region padded with zeros. -/
def State.qpxEntry (s : State) (t : PortId) (table index : Nat) : List Byte :=
  if table = 0 then (s.qp t index).ctx
  else match mapGet s.ports[t].mrs index with
    | some m => leBytes 8 m.base ++ leBytes 8 m.len ++ leBytes 4 m.rkey ++ leBytes 4 (m.rights + m.part * 256) ++ leBytes 40 0
    | none => leBytes 64 0

/-- The fields of PORT_QPX_SEL that stay. -/
def qpxSel (v : Word) : Word := v &&& 0x380003FF

/-- QPX_READ (R302). -/
def execQpxRead (t : PortId) (value : Word) (s : State) : Result :=
  let b := s.qpxEntry t (fld value 27 27) (fld value 9 0)
  let s := s.setReg (portQpxSel t.val) (qpxSel value)
  .next ((indexed (toWords 16 b)).foldl (fun s e => s.setReg (portQpxData t.val e.1) e.2) s)

/-- Why a context is refused for a queue pair (R299, R301, R302): offset and top bit of the field. -/
def State.ctxRefused (s : State) (t : PortId) (old : Qp) (b : List Byte) : Option (Nat × Nat) :=
  let st := nbits (rdLE b 0 4) 31 30
  if old.rts = true ∧ st ≠ 0 then some (0, 31)
  else match ctxField b with
    | some f => some f
    | none => if st = 1 ∧ s.subOn t.val (nbits (rdLE b 0 4) 27 26) = false then some (0, 27) else none

/-- A context is written: the queue pair begins afresh; what still used it ends (R299, R301). -/
def State.writeCtx (s : State) (t : PortId) (n : Nat) (b : List Byte) : State :=
  let s := (s.unqueueQp t n true).failUsers t n
  s.updQp t n fun _ => { ctx := slice b 0 64, psn := nbits (rdLE b 8 4) 23 0, expect := nbits (rdLE b 0xC 4) 23 0 }

/-- Why a memory region is refused (R300): offset and top bit of the field. A region of length 0 is none. -/
def State.mrBad (s : State) (b : List Byte) : Option (Nat × Nat) :=
  let base := rdLE b 0 8
  let len := rdLE b 8 8
  if len = 0 then none
  else if rdLE b 20 4 % 256 / 4 ≠ 0 ∨ rdLE b 20 4 / 1024 ≠ 0 then some (20, 31)
  else
    let p : PartId := Fin.ofNat 4 (nbits (rdLE b 20 4) 9 8)
    if 0x10000000000 < base + len ∨ !coversRun s.parts[p].ranges base len then
      some (0, 31)
    else if !zeros b 24 8 then some (24, 31)
    else none

/-- A memory region is written. -/
def State.writeMr (s : State) (t : PortId) (i : Nat) (b : List Byte) : State :=
  let m : Mr := ⟨rdLE b 0 8, rdLE b 8 8, rdLE b 16 4, nbits (rdLE b 20 4) 1 0, nbits (rdLE b 20 4) 9 8⟩
  s.updPort t fun p => { p with mrs := if m.len = 0 then mapErase p.mrs i else mapSet p.mrs i m }

/-- QPX_WRITE (R302): an entry that breaks R299 or R300 stays as it was. -/
def execQpxWrite (t : PortId) (value : Word) (s : State) : Result :=
  let b := ofWords ((List.range 16).map fun w => s.reg (portQpxData t.val w))
  let s := s.setReg (portQpxSel t.val) (qpxSel value)
  if bitAt value 27 ∧ 256 ≤ fld value 9 0 then .next (s.portRefuse t (portQpxSel t.val) 9)
  else if bitAt value 27 then
    match s.mrBad b with
    | some f => .next (s.portRefuse t (portQpxData t.val (f.1 / 4)) f.2)
    | none => .next (s.writeMr t (fld value 9 0) b)
  else
    match s.ctxRefused t (s.qp t (fld value 9 0)) b with
    | some f => .next (s.portRefuse t (portQpxData t.val (f.1 / 4)) f.2)
    | none => .next (s.writeCtx t (fld value 9 0) b)

end Sys2Proof.Machine
end

