-- ==== Sys2Proof/Machine/Commands.lean ====
section
/-! DEFINITION. The commands of a command ring (R247-R248, R253-R262, R360, R362, R447). -/

namespace Sys2Proof.Machine

/-! ### Taking a command (R254) -/

/-- Whether an OP names a long operation. -/
def longOp (op : Nat) : Bool := [0x10, 0x30, 0x31].contains op

/-- Whether some row of the command table has an OP. -/
def knownOp (op : Nat) : Bool := [0x00, 0x10, 0x20, 0x21, 0x30, 0x31].contains op

/-- Index and entry of the command at the head of a ring, its bytes missing where their read finds an uncorrectable error.
None is taken while a final record waits, while FUNC_RESET completes, or while the region cannot be used (R262, R264, R447). -/
def State.frontCmd (s : State) (p : PartId) : Option (Nat × Option (List Byte)) :=
  let i := s.parts[p].iface
  let a := s.hctx p + 0x10000 + 64 * i.hdr.cmdHead
  if !s.hctxUp || i.resetBusy || decide (i.waiting ≠ []) || decide (i.hdr.cmdHead = i.hdr.cmdTail) then none
  else if s.bad a then some (i.hdr.cmdHead, none)
  else some (i.hdr.cmdHead, some (s.rdBytes a 64))

/-- The command that an entry spells. -/
def cmdOf (head : Nat) (b : List Byte) : TakenCmd :=
  { index := head, op := rfld b 0 31 24, level := rfld b 0 23 22, hostTag := rdLE b 8 8 }

/-- Records that a command will write. -/
def TakenCmd.records (c : TakenCmd) : Nat := if longOp c.op then 2 else 1

/-- The reads that take the command at the head of a ring meet their corrected errors: CPL_HEAD and the entry (R188, R189, R254). -/
def State.meetEntry (s : State) (p : PartId) : State :=
  let a := s.hctx p + 0x10000 + 64 * s.parts[p].iface.hdr.cmdHead
  (s.meetRange (s.hctx p + 0x40) 4).meetRange a 64

/-- A command leaves the ring and reserves room for its records; none while room is short (R254). -/
def State.take (s : State) (p : PartId) (c : TakenCmd) : Option State :=
  if s.cplRoom p < s.parts[p].iface.reserved + c.records then none
  else some ((((s.meetEntry p).count (usbJobCmds p) 1).updHdr p fun h => { h with cmdHead := (h.cmdHead + 1) % 4096 }).updIface p fun i =>
    { i with taken := i.taken ++ [c], reserved := i.reserved + c.records })

/-- A command that fails writes its final record, and gives up the room for a STARTED record (R254). -/
def State.failCmd (s : State) (p : PartId) (c : TakenCmd) (status event : Nat) : State :=
  (s.updIface p fun i => { i with reserved := i.reserved - (c.records - 1) }).finalRecord p c status 0 event 0 0

/-- Whether ORDERED keeps a command from starting. -/
def State.mustWait (s : State) (p : PartId) (b : List Byte) : Bool := decide (rfld b 0 21 21 = 1) && decide (s.parts[p].iface.taken ≠ [])

/-- An entry that no row of the table names, or that cannot be read, is taken and fails (R255, R447). -/
def State.takeUnnamed (s : State) (p : PartId) : Option State :=
  match s.frontCmd p with
  | none => none
  | some (head, none) =>
    let c : TakenCmd := { index := head, op := 0, level := 3, hostTag := 0 }
    (s.take p c).map fun s => (s.uncorrectable (some p) (s.hctx p + 0x10000 + 64 * head)).failCmd p c stFailed 0x5011
  | some (head, some b) =>
    let c := cmdOf head b
    if knownOp c.op || s.mustWait p b then none else (s.take p c).map fun s => s.failCmd p c stOpcode 0

/-- All such entries at the head of a ring. The first number is fuel. -/
def State.skipUnnamedN : Nat → PartId → State → State
  | 0, _, s => s
  | n + 1, p, s => match s.takeUnnamed p with
    | some s => State.skipUnnamedN n p s
    | none => s

/-- The same for a whole ring. -/
def State.skipUnnamed (s : State) (p : PartId) : State := State.skipUnnamedN 4096 p s

/-- The ring's next command is taken if its OP is `op`; what it does is `f`. -/
def State.onCmd (s : State) (p : PartId) (op : Nat) (f : List Byte → TakenCmd → State → State) : State :=
  let s := s.skipUnnamed p
  match s.frontCmd p with
  | some (head, some b) =>
    let c := cmdOf head b
    if c.op ≠ op || s.mustWait p b then s
    else match s.take p c with
      | some s => (f b c s).skipUnnamed p
      | none => s
  | _ => s

/-! ### Checks (R253, R255, R260) -/

/-- Whether the header of an entry and the body bytes in `zero`, as (offset, length), are zero where they must be. -/
def entryOk (b : List Byte) (zero : List (Nat × Nat)) : Bool :=
  decide (rfld b 0 20 0 = 0) && decide (rdLE b 4 4 = 0) && zero.all fun z => zeros b z.1 z.2

/-- Port and queue pair of an entry. -/
def entryQp (b : List Byte) : PortId × Nat := (Fin.ofNat 8 (rfld b 0x28 18 16), rfld b 0x28 9 0)

/-- Whether the queue pair word of an entry has no unassigned bit set. -/
def qpWordOk (b : List Byte) : Bool := decide (rfld b 0x28 31 19 = 0 ∧ rfld b 0x28 15 10 = 0)

/-- Status and event that a queue pair refuses a command with: DENIED where it is not the partition's, ROCE_QP_ERROR where it is
in ERROR (R255, R299). -/
def State.qpStatus (s : State) (p : PartId) (q : PortId × Nat) : Option (Nat × Nat) :=
  let x := s.qp q.1 q.2
  if x.fld 0 31 30 = 0 ∨ x.fld 0 25 24 ≠ p.val then some (stDenied, 0)
  else if !x.rts then some (stFailed, 0x6008)
  else none

/-- The first check that fails. -/
def firstFail : List (Bool × Nat) → Option (Nat × Nat)
  | [] => none
  | (b, st) :: r => if b then some (st, 0) else firstFail r

/-- Checks of a STORE command. -/
def State.storeCheck (s : State) (p : PartId) (b : List Byte) (c : TakenCmd) (top : Nat) (write : Bool) : Option (Nat × Nat) :=
  let q := entryQp b
  (firstFail [(!entryOk b [(0x16, 2), (0x2C, 20)] || !qpWordOk b, stField), (decide (top < c.level), stLevel),
    (decide (rdLE b 0x24 4 = 0), stField)]).orElse fun _ =>
  (s.qpStatus p q).orElse fun _ =>
  (if c.level = 2 ∧ (s.qp q.1 q.2).fld 0 29 28 = 0 then some (stLevel, 0) else none).orElse fun _ =>
  (s.reachSpan p write (rdLE b 0x10 6) (rdLE b 0x24 4)).map fun st => (st, 0)

/-- The record of a STORE command while its work requests are out. -/
def storeRec (b : List Byte) (c : TakenCmd) : TakenCmd :=
  let q := entryQp b
  { c with store := [q.1.val, q.2, rdLE b 0x18 8, rdLE b 0x20 4, rdLE b 0x24 4, 0] }

/-- A command's record in the ring's list is replaced. -/
def State.setTaken (s : State) (p : PartId) (c d : TakenCmd) : State :=
  s.updIface p fun i => { i with taken := i.taken.map fun x => if x = c then d else x }

/-! ### The commands -/

/-- NOP: every command before it has been taken when it is (R260). -/
def State.nopCmd (s : State) (p : PartId) (b : List Byte) (c : TakenCmd) : State :=
  match firstFail [(!entryOk b [(0x10, 48)], stField), (decide (c.level ≠ 0), stLevel)] with
  | some (st, e) => s.failCmd p c st e
  | none => s.finalRecord p c 0 0 0 0 0

/-- NOP (R260). -/
def execCmdNop (p : PartId) (s : State) : Result := .next (s.onCmd p 0x00 fun b c s => s.nopCmd p b c)

/-- JOB_LOAD: its own checks, then the loader (R255, R256). -/
def State.jobLoadCmd (s : State) (p : PartId) (b : List Byte) (c : TakenCmd) : State :=
  let pre := firstFail [(!entryOk b [(0x16, 2), (0x20, 32)] || decide (1 < rdLE b 0x18 8), stField), (decide (c.level ≠ 0), stLevel),
    (decide (s.parts[p].phys = 0), stNoPart), ((s.job p).isSome, stPartBusy), (s.handlesFull (1 + p.val), stHandlesFull)]
  match pre with
  | some (st, e) => s.failCmd p c st e
  | none => match s.loadJob p (rdLE b 0x10 6) with
    | .error (s, x) => let (s, st, e) := s.loadStopped p x; s.failCmd p c st e
    | .ok (s, j) =>
      let d := { c with handle := s.nextHandle }
      (s.setTaken p c d).beginJob p j (rdLE b 0x18 4 = 1) (some d) none

/-- JOB_LOAD (R255, R256). -/
def execJobLoad (p : PartId) (s : State) : Result := .next (s.onCmd p 0x10 fun b c s => s.jobLoadCmd p b c)

/-- STORE_READ: its READs go out, and it ends when their data is in device memory (R255, R260, R299). -/
def State.storeReadCmd (s : State) (p : PartId) (b : List Byte) (c : TakenCmd) : State :=
  match s.storeCheck p b c 0 true with
  | some (st, e) => s.failCmd p c st e
  | none =>
    let q := entryQp b
    (s.setTaken p c (storeRec b c)).postRead q.1 q.2 (.cmd p.val c.index) (rdLE b 0x10 6) (rdLE b 0x18 8) (rdLE b 0x20 4) (rdLE b 0x24 4)

/-- STORE_READ (R255). -/
def execStoreRead (p : PartId) (s : State) : Result := .next (s.onCmd p 0x20 fun b c s => s.storeReadCmd p b c)

/-- STORE_WRITE: its source is read and its WRITEs go out; LOCAL holds at once, the other levels with their acknowledgements and
flush (R255, R260, R301). -/
def State.storeWriteCmd (s : State) (p : PartId) (b : List Byte) (c : TakenCmd) : State :=
  match s.storeCheck p b c 2 false with
  | some (st, e) => s.failCmd p c st e
  | none =>
    let q := entryQp b
    let j := s.windowJob p
    let as := spanOf (rdLE b 0x10 6) (rdLE b 0x24 4)
    let s := s.touchAll (as.map (j.phys false))
    match s.lbad j as with
    | some a => ((s.uncorrectable (some p) a).fenceByErrors a).failCmd p c stFailed 0x5011
    | none =>
      let d := storeRec b c
      let s := ((s.meetReads (as.map (j.phys false))).setTaken p c d).postWrite q.1 q.2 (.cmd p.val c.index) (rdLE b 0x18 8) (rdLE b 0x20 4) (as.map (s.lrd j))
      if c.level = 0 then s.finalRecord p d 0 0 0 0 (rdLE b 0x24 4) else s

/-- STORE_WRITE (R255, R260). -/
def execStoreWrite (p : PartId) (env : MemEnv) (s : State) : Result := .next ((s.takeEnv env).onCmd p 0x21 fun b c s => s.storeWriteCmd p b c)

/-- Checks of CHECKPOINT and MODEL_LOAD; `levels` are those the command offers, `job` what the handle's job must be. -/
def State.imageCheck (s : State) (p : PartId) (b : List Byte) (c : TakenCmd) (lo hi : Nat) (job : Handle → Job → Option Nat) : Option (Nat × Nat) :=
  let q := entryQp b
  (firstFail [(!entryOk b [(0x12, 6), (0x1E, 2), (0x24, 4), (0x2C, 20)] || !qpWordOk b, stField), (decide (c.level < lo ∨ hi < c.level), stLevel)]).orElse fun _ =>
  (match s.ownHandle (1 + p.val) (rdLE b 0x10 2), s.job p with
    | some x, some j =>
      if x.kind ≠ 1 ∨ x.num ≠ j.handle ∨ j.kind ≠ JobKind.train then some (stUnknown, 0) else (job x j).map fun st => (st, 0)
    | _, _ => some (stUnknown, 0)).orElse fun _ =>
  (s.qpStatus p q).orElse fun _ =>
  (if c.level = 2 ∧ (s.qp q.1 q.2).fld 0 29 28 = 0 then some (stLevel, 0) else none).orElse fun _ =>
  if s.handlesFull (1 + p.val) then some (stHandlesFull, 0) else none

/-- A storage operation of a command begins under a new handle, with its STARTED record. -/
def State.beginImage (s : State) (p : PartId) (b : List Byte) (c : TakenCmd) (kind : Nat) : State :=
  let h := s.nextHandle
  let d := { c with handle := h }
  let q := entryQp b
  let s := (s.setTaken p c d).openHandle fun h =>
    { num := h, kind := kind, owner := 1 + p.val, part := some p, cmd := some d, work := [q.1.val, q.2, rdLE b 0x18 8, rdLE b 0x20 4, 0] }
  s.startedRecord p d h

/-- CHECKPOINT: a job alone checkpoints at its next commit; a member asks the starter (R360). -/
def State.checkpointCmd (s : State) (p : PartId) (b : List Byte) (c : TakenCmd) : State :=
  match s.imageCheck p b c 1 2 fun _ _ => none with
  | some (st, e) => s.failCmd p c st e
  | none =>
    let s := (s.beginImage p b c 2).updJob p fun j => { j with cmt := { j.cmt with ckptPend := true } }
    match s.cluster p with
    | some k => s.sendCtl p k.starter 0x25 []
    | none => s

/-- CHECKPOINT (R255, R360). -/
def execCheckpoint (p : PartId) (s : State) : Result := .next (s.onCmd p 0x30 fun b c s => s.checkpointCmd p b c)

/-- MODEL_LOAD of a job that is SUSPENDED before its first step (R255, R362). -/
def State.modelLoadCmd (s : State) (p : PartId) (b : List Byte) (c : TakenCmd) : State :=
  match s.imageCheck p b c 0 0 fun x j => if x.state = .suspended ∧ j.step.started = false then none else some stField with
  | some (st, e) => s.failCmd p c st e
  | none => let h := s.nextHandle; (s.beginImage p b c 3).loadBegin h

/-- MODEL_LOAD (R255, R362). -/
def execModelLoad (p : PartId) (s : State) : Result := .next (s.onCmd p 0x31 fun b c s => s.modelLoadCmd p b c)

/-- COMMAND_FINAL_RECORD (R262, R447): the oldest record that waits is written once there is room, or dropped while the region's
stack is unusable. -/
def execCommandFinalRecord (p : PartId) (s : State) : Result :=
  match s.parts[p].iface.waiting with
  | [] => .next s
  | rec :: rest =>
    let gone := fun (s : State) => s.updIface p fun i => { i with waiting := rest, reserved := i.reserved - 1 }
    if !s.hctxUp then .next (gone (s.countFld (usbJobLost p) 15 0 1))
    else if 0 < s.cplRoom p then .next (gone (s.writeCpl p rec))
    else .next s

end Sys2Proof.Machine
end

