-- ==== Sys2Proof/Machine/Counters.lean ====
section
/-! DEFINITION. Clearing of counters by their clear registers (R66, R104, R140, R166, R202, R230, R302, R332, R367). -/

namespace Sys2Proof.Machine

/-- Registers at their reset values. -/
def State.clearRegs (s : State) (os : List Nat) : State := os.foldl (fun s o => s.setReg o (resetReg o)) s

/-- A register of each of the four arrays. -/
def eachArray (f : Nat → Nat) : List Nat := (List.range 4).map f

/-- CORE_NUM_CLR.WTRUNC (R66). -/
def execCoreNumClrWtrunc (c : CoreId) (s : State) : Result := .next (s.clearRegs [coreNumWtruncLo c, coreNumWtruncHi c])

/-- CORE_NUM_CLR.OUTSAT (R66). -/
def execCoreNumClrOutsat (c : CoreId) (s : State) : Result := .next (s.clearRegs [coreNumOutsat c])

/-- CORE_NUM_CLR.NONFIN (R66). -/
def execCoreNumClrNonfin (c : CoreId) (s : State) : Result := .next (s.clearRegs [coreNumNonfin c])

/-- CORE_NUM_CLR.SUMVIOL (R66). -/
def execCoreNumClrSumviol (c : CoreId) (s : State) : Result := .next (s.clearRegs [coreNumSumviol c])

/-- CORE_ARR_CLR.BEATS (R104). -/
def execCoreArrClrBeats (c : CoreId) (s : State) : Result := .next (s.clearRegs (eachArray (coreArrBeatsLo c) ++ eachArray (coreArrBeatsHi c)))

/-- CORE_ARR_CLR.STALLS (R104). -/
def execCoreArrClrStalls (c : CoreId) (s : State) : Result := 
  .next (s.clearRegs (eachArray (coreArrShstall c) ++ eachArray (coreArrLdwait c) ++ eachArray (coreArrFdstall c)))

/-- CORE_ARR_CLR.MISMATCHES (R104): the 24-hour counts, the service states and the marks stay. -/
def execCoreArrClrMismatches (c : CoreId) (s : State) : Result := .next (s.clearRegs (eachArray (coreArrMismatch c)))

/-- CORE_VR_CLR.LSTEPS (R140). -/
def execCoreVrClrLsteps (c : CoreId) (s : State) : Result := 
  .next (s.clearRegs [coreVecLstepsLo c, coreVecLstepsHi c, coreRowLstepsLo c, coreRowLstepsHi c])

/-- CORE_VR_CLR.STALLS (R140). -/
def execCoreVrClrStalls (c : CoreId) (s : State) : Result := .next (s.clearRegs [coreVecMstall c, coreRowMstall c])

/-- CORE_VR_CLR.TAGFAIL (R140). -/
def execCoreVrClrTagfail (c : CoreId) (s : State) : Result := .next (s.clearRegs [coreRowTagfail c])

/-- CORE_GB_CLR.OPS (R166). -/
def execCoreGbClrOps (c : CoreId) (s : State) : Result := .next (s.clearRegs [coreGbSpills c, coreGbRefills c, coreGbTieadds c])

/-- CORE_GB_CLR.BYTES (R166). -/
def execCoreGbClrBytes (c : CoreId) (s : State) : Result := .next (s.clearRegs [coreGbBytesLo c, coreGbBytesHi c])

/-- CORE_GB_CLR.WAITS (R166). -/
def execCoreGbClrWaits (c : CoreId) (s : State) : Result := .next (s.clearRegs [coreGbWaits c])

/-- CORE_MEM_CLR.WAITS (R202). -/
def execCoreMemClrWaits (c : CoreId) (s : State) : Result := .next (s.clearRegs [coreMemBankwait c, coreMemWakes c])

/-- CORE_MEM_CLR.CE (R202). -/
def execCoreMemClrCe (c : CoreId) (s : State) : Result := .next (s.clearRegs [coreMemCeSram c, coreMemCeCrumb c])

/-- CORE_MEM_CLR.UE (R202): the count clears, the address and its level stay. -/
def execCoreMemClrUe (c : CoreId) (s : State) : Result := .next (s.setFld (coreMemUe c) 15 0 0)

/-- CORE_STR_CLR.COUNTS (R230). -/
def execCoreStrClrCounts (c : CoreId) (s : State) : Result := 
  let clear := fun (l : LCtx) => { l with streams := l.streams.map fun t => { t with issued := 0, qstall := 0 } }
  .next (s.updCore c fun k => { k with first := clear k.first, guest := clear k.guest })

/-- CORE_NET_CLR.OPS (R367). -/
def execCoreNetClrOps (c : CoreId) (s : State) : Result := .next (s.clearRegs [coreNetDone c, coreNetCancel c])

/-- CORE_NET_CLR.STALLS (R367). -/
def execCoreNetClrStalls (c : CoreId) (s : State) : Result := .next (s.clearRegs [coreNetPstall c, coreNetGheld c])

/-- CORE_NET_CLR.BUBBLE (R367). -/
def execCoreNetClrBubble (c : CoreId) (s : State) : Result := .next (s.clearRegs [coreNetBubbleLo c, coreNetBubbleHi c])

/-- PORT_CNT_CLR.ALL (R302). -/
def execPortCntClrAll (t : PortId) (s : State) : Result := .next (s.clearRegs ((List.range 32).map (portCnt t)))

/-- PORT_OT_CLR.ALL (R332). -/
def execPortOtClrAll (t : PortId) (s : State) : Result := .next (s.clearRegs ((List.range 32).map (portOtCnt t)))

end Sys2Proof.Machine
end

