-- ==== Sys2Proof/Machine/Mat.lean ====
section
/-! DEFINITION. MAT instructions on the arrays: their runs, checks, retries, suspect units and diagnostics (spec/03). -/

namespace Sys2Proof.Machine

/-! ### Counts and reports (R34, R42, R48, R66, R68, R105) -/

/-- Elements that an array or the vector engine wrote saturated or non-finite are counted; the first non-finite one on a core in a
job raises NONFINITE_OUTPUT (R34, R66, R68). -/
def State.outCounts (s : State) (c : CoreId) (p : PartId) (tensor sat nonfin : Nat) : State :=
  let s := (s.count (coreNumOutsat c.val) sat).count (coreNumNonfin c.val) nonfin
  match s.job p with
  | none => s
  | some j =>
    if nonfin = 0 ∨ j.nonfinRaised.contains c then s
    else (s.raise (.core c.val) (some p) 0x3003 [c.val, tensor]).updJob p fun j => { j with nonfinRaised := j.nonfinRaised ++ [c] }

/-- Narrow operand classes (R68). -/
def Cls.narrow (k : Cls) : Bool := decide (k = .fp4 ∨ k = .fp8 ∨ k = .int8)

/-- A MAT completes or fails: its WINDOW_TRUNC count joins CORE_NUM_WTRUNC, its stream takes its report, and the first narrow
instruction that truncated on a core in a job raises NARROW_INEXACT (R42, R68, R105). -/
def State.matDone (s : State) (c : CoreId) (e : Issued) (u : MatUnit) (count : Nat) (failed retried : Bool) : State :=
  let m := matD e.words
  let s := (s.count64 (coreNumWtruncLo c.val) (coreNumWtruncHi c.val) count).matReport c e.ctx u count failed retried
  match s.job e.part with
  | none => s
  | some j =>
    if count = 0 ∨ !m.fA.cls.narrow ∨ j.narrowRaised.contains c then s
    else (s.raise (.core c.val) (some e.part) 0x3001 [c.val, m.tensorA]).updJob e.part fun j =>
      { j with narrowRaised := j.narrowRaised ++ [c] }

/-! ### Units: mismatches, suspicion, retry places (R96-R100) -/

/-- The half of an array that holds the record of a unit: half 0 for the whole array, so that its mismatches stay counted when the
array's mode changes (R88; DESIGN CHOICE, log entry 22). -/
def unitIdx (u : MatUnit) : Fin 2 := if u.half = 2 then 1 else 0

/-- The record of a unit. -/
def CoreS.unit (k : CoreS) (u : MatUnit) : HalfS := (k.arrays[u.array]).halves[(unitIdx u)]

/-- A half of an array changed through `f`. -/
def State.updUnit (s : State) (c : CoreId) (a : ArrayId) (h : Fin 2) (f : HalfS → HalfS) : State :=
  s.updCore c fun k => { k with
    arrays := k.arrays.set a { k.arrays[a] with halves := (k.arrays[a]).halves.set h (f ((k.arrays[a]).halves[h])) } }

/-- The service of a unit, set: both halves of a whole array (R97, R104). -/
def State.setService (s : State) (c : CoreId) (u : MatUnit) (v : Service) : State :=
  let s := s.updUnit c u.array (unitIdx u) fun h => { h with service := v }
  if u.half = 0 then s.updUnit c u.array 1 fun h => { h with service := v } else s

/-- Times within the last 24 hours. -/
def State.within24 (s : State) (ts : List Nat) : List Nat := ts.filter fun t => decide (s.mc.time < t + dayNs)

/-- Where the retry of an instruction abandoned on `u` runs: the next in-service unit of its kind, or `u`; the same gang on a
ganged core (R96, R100). -/
def State.retryUnit (s : State) (c : CoreId) (u : MatUnit) : MatUnit :=
  let k := s.cores[c]
  if k.ganged then ⟨0, 0⟩
  else
    let l := if u.half = 0 then wholeUnits else halfUnits
    let i := l.findIdx fun v => decide (v = u)
    ((l.drop (i + 1) ++ l.take i).find? k.serviceable).getD u

/-- An instruction that has run partly on a unit and is to be retried, as its entry records it. -/
def Issued.isRetry (e : Issued) : Bool := decide (e.prog.head? = some 1)

/-- Queued instructions of a unit that left service move to other units (R86, R97); a queued retry goes by R96's order (DESIGN
CHOICE, log entry 23). -/
def State.moveQueued (s : State) (c : CoreId) (u : MatUnit) : State :=
  let mine := s.cores[c].issued.filter fun e => decide (e.queue = .mat u ∧ e.phase = .queued)
  mine.foldl (fun s e =>
    let s := s.dropIssued c e.seq
    let v := if e.isRetry then s.retryUnit c u else s.placeMat c (matD e.words)
    s.updCore c fun k => { k with issued := k.issued ++ [{ e with queue := .mat v }] }) s

/-- A unit becomes suspect: it leaves service, its queued instructions move, the core takes a mark; a third mark within 24 hours
or the loss of the last unit fences the core (R97, R99, R402). -/
def State.suspect (s : State) (c : CoreId) (u : MatUnit) : State :=
  let s := s.setService c u .suspect
  let s := s.updCore c fun k => { k with marks := s.within24 k.marks ++ [s.mc.time] }
  let marks := s.cores[c].marks.length
  let s := s.raise (.core c.val) s.cores[c].part 0x4102 [c.val, u.array.val, (unitIdx u).val, marks]
  if 3 ≤ marks then s.fenceCore c 0x4102 false
  else if s.cores[c].unitsUp = [] then s.fenceCore c 0x4104 false
  else if s.cores[c].ganged then s
  else s.moveQueued c u

/-- COL of FAULTLOC for an output column: the cell column of its fold, counted across the array (R88, R95, R104). -/
def cellColumn (u : MatUnit) (w j : Nat) : Nat := j % w % 256 + (if u.half = 2 then 128 else 0)

/-- A score check of an instruction reports a mismatch on a unit: it is counted and placed, and the second within 24 hours makes
the unit suspect (R95-R97, R104). -/
def State.mismatch (s : State) (c : CoreId) (u : MatUnit) (m : MatD) (w : Nat) (f : ScoreFault) : State :=
  let g := m.groupField w f.group
  let col := f.col.map (cellColumn u w)
  let s := s.raise (.core c.val) s.cores[c].part 0x4101 [c.val, u.array.val, (unitIdx u).val, col.getD 0xFFFF, g]
  let s := s.count (coreArrMismatch c.val u.array.val) 1
  let s := s.setReg (coreArrFaultloc c.val u.array.val)
    (BitVec.ofNat 32 (2 ^ 31 + (unitIdx u).val * 2 ^ 29 + b2n col.isSome * 2 ^ 28 + g % 256 * 65536 + col.getD 0))
  let now := s.mc.time
  let s := s.updUnit c u.array (unitIdx u) fun h => { h with mismatches := s.within24 h.mismatches ++ [now] }
  let h := s.cores[c].unit u
  if 2 ≤ h.mismatches.length ∧ h.service = .inService then s.suspect c u else s

/-! ### Grids (R71, R72, R81-R84, log entry 29) -/

/-- The queue of a unit: the gang's, on a ganged core (R87). -/
def State.matQueue (s : State) (c : CoreId) (u : MatUnit) : QueueId := .mat (if s.cores[c].ganged then ⟨0, 0⟩ else u)

/-- Grid of a unit, changed through `f`. -/
def State.updGrid (s : State) (c : CoreId) (u : MatUnit) (f : Grid → Grid) : State :=
  s.updUnit c u.array (unitIdx u) fun h => { h with grid := f h.grid }

/-- Width of a unit's folds (R78). -/
def State.width (s : State) (c : CoreId) (u : MatUnit) : Nat := foldWidth s.cores[c].ganged u.half.val

/-- Place of a unit's array in its gang (R87). -/
def State.gangPlace (s : State) (c : CoreId) (u : MatUnit) : Nat := if s.cores[c].ganged then u.array.val else 0

/-- The arrays or the half that an instruction runs on. -/
def State.gridUnits (s : State) (c : CoreId) (u : MatUnit) : List MatUnit := if s.cores[c].ganged then wholeUnits else [u]

/-- The weight load that follows load `n` of the instruction at the head of a unit's queue: its next fold, or the first fold of the next
queued instruction where that is a FLOW 0 one (R81, R83). -/
def State.nextLoad (s : State) (c : CoreId) (u : MatUnit) (e : Issued) (n : Nat) : Option (Issued × Nat) :=
  if n + 1 < (matD e.words).loads (s.width c u) then some (e, n + 1)
  else ((s.cores[c].issued.find? fun x => decide (x.queue = s.matQueue c u ∧ x.seq ≠ e.seq ∧ x.phase = .queued)).filter
    fun x => decide ((matD x.words).flow = 0)).map fun x => (x, 0)

/-- The weights of a load, cell by cell, as memory holds them. -/
def State.loadCells (s : State) (c : CoreId) (u : MatUnit) (x : Issued × Nat) : List (Nat × List (XNum × Nat)) :=
  match s.job x.1.part with
  | none => []
  | some j => (matD x.1.words).loadWeights (s.lrd j) (s.width c u) (s.gangPlace c u) x.2

/-- The accumulating bank takes the window tops of a load's outputs (R81). -/
def State.loadTops (s : State) (c : CoreId) (u : MatUnit) (x : Issued × Nat) (g : Grid) : Grid :=
  match s.job x.1.part with
  | none => g
  | some j => (matD x.1.words).topsAt (s.lrd j) (s.width c u) (s.gangPlace c u) x.2 g

/-- The shadows of a unit take a weight load whole (R81). -/
def State.loadShadow (s : State) (c : CoreId) (u : MatUnit) : Option (Issued × Nat) → State
  | none => s.updGrid c u fun g => { g with shadow := [], loads := none, filling := none }
  | some x => s.updGrid c u fun g =>
      s.loadTops c u x { g with shadow := s.loadCells c u x, loads := some (x.1.seq, x.2), filling := none }

/-- The grids of an instruction's units when it has checked set `n`. -/
def State.setGrids (s : State) (c : CoreId) (u : MatUnit) (m : MatD) (mem : Nat → Byte) (fl : List Flaw) (n : Nat) : State :=
  (s.gridUnits c u).foldl (fun s v => s.updGrid c v (m.gridAt mem fl (s.width c u) (s.gangPlace c v) n)) s

/-- The grids when every set of an instruction has passed: lanes have drained, and the shadows take the next load (R83, R84). -/
def State.endGrids (s : State) (c : CoreId) (u : MatUnit) (e : Issued) (mem : Nat → Byte) (fl : List Flaw) : State :=
  let m := matD e.words
  let s := s.setGrids c u m mem fl (m.groups (s.width c u) - 1)
  (s.gridUnits c u).foldl (fun s v =>
    (s.updGrid c v fun g => { g with lanes := [] }).loadShadow c v (s.nextLoad c v e (m.loads (s.width c u)))) s

/-- Partial sums of a ganged instruction rest in its core's gradient buffer (R87). -/
def State.putRests (s : State) (c : CoreId) (m : MatD) (mem : Nat → Byte) (w lim : Nat) : State :=
  let r := m.rests mem w lim
  if r = [] then s else s.put (r.map fun x => (gbBase c.val + x.1, x.2))

/-! ### Running an instruction (R75-R95) -/

/-- The beats that data wavefronts took on each array that they entered: one array, or those of a gang that hold columns
(R72, R87, R104). -/
def State.countBeats (s : State) (c : CoreId) (u : MatUnit) (ganged : Bool) (cols n : Nat) : State :=
  let arrays := if ganged then (List.range 4).filter fun a => decide (256 * a < cols) else [u.array.val]
  arrays.foldl (fun s a => s.count64 (coreArrBeatsLo c.val a) (coreArrBeatsHi c.val a) n) s

/-- The stall counts of a run: wavefronts that waited for a feeder, and in FLOW 1 folds in which one waited for a drain (R80, R84,
R104). -/
def State.countStalls (s : State) (c : CoreId) (u : MatUnit) (m : MatD) (w feed drain : Nat) : State :=
  let s := s.count (coreArrFdstall c.val u.array.val) feed
  if m.flow = 1 then s.count (coreArrShstall c.val u.array.val) (Nat.min drain (m.groups w)) else s

/-- The outputs of the checked sets before `lim`, written or left to be added: with ACC only those from `lo` on (R95, R96). -/
def State.matOutputs (s : State) (c : CoreId) (e : Issued) (j : Job) (m : MatD) (mem : Nat → Byte) (fl : List Flaw) (w lo lim : Nat) :
    State :=
  if m.acc then
    if e.mute then s
    else s.updIssued c e.seq fun x => { x with
      adds := x.adds ++ [⟨m.tensorW, m.contributions mem fl w lo lim (j.prescale m.tensorW), false⟩] }
  else
    let ws := m.written mem fl w lim
    let s := s.lput j (m.stores mem fl w lim)
    s.outCounts c e.part m.tensorA ((ws.map fun x => x.2.2.sat).sum) ((ws.map fun x => x.2.2.nonfin).sum)

/-- Whether a logical byte cannot be read: its unit fails, or its memory is unusable (R184, R190). -/
def State.unread (s : State) (j : Job) (a : Nat) : Bool := s.bad (j.phys false a) || (s.checkUsable j false [a]).isSome

/-- An instruction that fails while it runs: which sets had passed, which beats had entered and what it had counted are free
values; a strict instruction that truncates writes nothing, and no set that reads a failing byte is written (R38, R101, R190, R222; log
entries 2 and 13). -/
def State.matPartial (s : State) (c : CoreId) (u : MatUnit) (e : Issued) (j : Job) (m : MatD) (mem : Nat → Byte) (w : Nat)
    (retried : Bool) (fails : Nat → Bool) : State :=
  let (a, s) := s.fresh
  let (b, s) := s.fresh
  let (n, s) := s.fresh
  let lim := if m.strict ∧ m.trunc mem ≠ 0 then 0 else Nat.min (Config.free a % Nat.max 1 (m.groups w)) (m.setsBefore w fails)
  let s := if m.acc then s else s.matOutputs c e j m mem [] w 0 lim
  let s := s.countBeats c u s.cores[c].ganged m.cols (Config.free b % (m.wavefronts w + 1))
  s.matDone c e u (Config.free n) true retried

/-- A MAT that fails while it still owes additions of sets that passed: they are made, and it leaves its core after them (R96). -/
def State.failOwing (s : State) (c : CoreId) (e : Issued) (err : DErr) : State :=
  (s.updIssued c e.seq fun x => if x.adds = [] then x else { x with phase := .running, prog := [3] }).failDescriptor c e err

/-- A breach of a summary fails the instruction: which is detected first follows the free times of the access slots (R38, log
entry 28). -/
def State.breachFails (s : State) (c : CoreId) (u : MatUnit) (e : Issued) (j : Job) (m : MatD) (mem : Nat → Byte) (w : Nat)
    (retried : Bool) : State :=
  let x := m.firstBreach mem fun k => Config.free (s.freeCtr + k)
  let s := { s with freeCtr := s.freeCtr + (m.breachSlots mem).length }
  let s := (s.matPartial c u e j m mem w retried fun _ => false).count (coreNumSumviol c.val) 1
  s.failDescriptor c e ⟨0x3002, [c.val, u.array.val, x.1, x.2]⟩

/-- An instruction whose check `f` reports a mismatch is abandoned: the first time it is queued to run once more, the second time it
fails (R95, R96). How many beats had entered, and the count that a failed retry reports, are free values (log entries 13 and 24). -/
def State.abandon (s : State) (c : CoreId) (u : MatUnit) (e : Issued) (first : Option MatUnit) (j : Job) (m : MatD)
    (mem : Nat → Byte) (fl : List Flaw) (w lo : Nat) (f : ScoreFault) : State :=
  let at_ : MatUnit := if s.cores[c].ganged then ⟨Fin.ofNat 4 f.array, 0⟩ else u
  let (b, s) := s.fresh
  let s := s.countBeats c u s.cores[c].ganged m.cols (Config.free b % (m.wavefronts w + 1))
  let s := ((s.matOutputs c e j m mem fl w lo f.group).setGrids c u m mem fl f.group).putRests c m mem w (f.group + 1)
  match first with
  | none =>
    let adds := ((s.cores[c].issued.find? fun x => x.seq = e.seq).map Issued.adds).getD []
    let s := (s.dropIssued c e.seq).mismatch c at_ m w f
    if !s.cores[c].inService then s
    else
      let v := s.retryUnit c u
      s.updCore c fun k => { k with issued := k.issued ++
        [{ e with queue := .mat v, adds := adds, prog := [1, f.group, at_.array.val, at_.half.val] }] }
  | some a =>
    let (n, s) := s.fresh
    let s := s.mismatch c at_ m w f
    if !s.cores[c].inService then s
    else (s.matDone c e u (Config.free n) true true).failOwing c e ⟨0x4105, [c.val, a.array.val, at_.array.val, m.tensorA]⟩

/-- One run of an instruction on a unit (R75-R96): the sets before `lo` have been added by an earlier attempt on `first`. -/
def State.runMat (s : State) (c : CoreId) (u : MatUnit) (e : Issued) (first : Option MatUnit) (lo : Nat) (flaws : List Flaw)
    (feed drain : Nat) : State :=
  match s.job e.part with
  | none => s.dropIssued c e.seq
  | some j =>
    let m := matD e.words
    let w := s.width c u
    let retried := first.isSome
    let s := s.countStalls c u m w feed drain
    match s.access j m.readAddrs (if m.acc then m.accAddrs else m.rO.addrs m.fO true) with
    | (s, some err) => (s.matPartial c u e j m (s.lrd j) w retried (s.unread j)).failAccess c e err
    | (s, none) =>
      let mem := s.lrd j
      let n := m.trunc mem
      if m.breaches mem ≠ [] then s.breachFails c u e j m mem w retried
      else if m.strict ∧ n ≠ 0 then
        ((s.countBeats c u s.cores[c].ganged m.cols (m.wavefronts w)).matDone c e u n true retried).failDescriptor c e
          ⟨0x4113, [c.val, m.tensorA, n]⟩
      else match m.verdict mem flaws w with
        | some f => s.abandon c u e first j m mem flaws w lo f
        | none =>
          let s := s.countBeats c u s.cores[c].ganged m.cols (m.wavefronts w)
          let s := (s.matOutputs c e j m mem flaws w lo (m.groups w)).putRests c m mem w (m.groups w)
          let s := s.endGrids c u e mem flaws
          if m.acc ∧ !e.mute then
            s.updIssued c e.seq fun x => { x with
              phase := .running, prog := [2, n, u.array.val, u.half.val, b2n retried] }
          else (s.matDone c e u n false retried).finish c e

/-- The first array of a gang that is out of service (R100). -/
def CoreS.gangOut (k : CoreS) : Option Nat := (List.range 4).find? fun a => !k.serviceable ⟨Fin.ofNat 4 a, 0⟩

/-- MAT (R75-R100): the instruction at the head of a unit's queue runs. On a ganged core, `u` names the array that the stream's
report and FEED_STALLS name (DESIGN CHOICE, log entry 25). -/
def execMatRun (c : CoreId) (u : MatUnit) (flaws : List Flaw) (feedStalls drainStalls : Nat) (env : MemEnv) (s : State) :
    Result :=
  match s.headOf c (s.matQueue c u) with
  | none => .next s
  | some e =>
    if e.phase ≠ .queued ∨ e.isRetry then .next s
    else
      let s := s.takeFor env e.part (matD e.words).readAddrs
      let u : MatUnit := if s.cores[c].ganged then ⟨u.array, 0⟩ else u
      match (if s.cores[c].ganged then s.cores[c].gangOut else none) with
      | some a => .next ((s.matDone c e u 0 true false).failDescriptor c e ⟨0x4106, [c.val, a]⟩)
      | none => .next (s.runMat c u e none 0 flaws feedStalls drainStalls)

/-- MAT_RETRY (R96): the abandoned instruction at place `k` of the core's issued ones runs once more, when it heads the queue of
the unit that takes it. -/
def execMatRetry (c : CoreId) (k : Nat) (flaws : List Flaw) (feedStalls drainStalls : Nat) (env : MemEnv) (s : State) :
    Result :=
  match s.cores[c].issued[k]? with
  | none => .next s
  | some e =>
    match e.queue with
    | .mat u =>
      if !e.isRetry ∨ e.phase ≠ .queued ∨ (s.headOf c e.queue).map Issued.seq ≠ some e.seq then .next s
      else
        let s := s.takeFor env e.part (matD e.words).readAddrs
        let first : MatUnit := ⟨Fin.ofNat 4 (e.prog.getD 2 0), Fin.ofNat 3 (e.prog.getD 3 0)⟩
        let u := if s.cores[c].ganged then first else u
        .next (s.runMat c u e (some first) (e.prog.getD 1 0) flaws feedStalls drainStalls)
    | _ => .next s

/-! ### The swap token (R81, R82) -/

/-- Columns of a unit. -/
def unitWidth (u : MatUnit) : Nat := if u.half = 0 then 256 else 128

/-- Whether the token has passed the cells before a cell: those above it and to its west (R81). -/
def Grid.reaches (g : Grid) (row col : Nat) : Bool :=
  !g.swapped.contains (row * 256 + col) && (decide (row = 0) || g.swapped.contains ((row - 1) * 256 + col)) &&
    (decide (col = 0) || g.swapped.contains (row * 256 + (col - 1)))

/-- The cell takes its shadow weights and frees its shadow (R81). -/
def Grid.swap (g : Grid) (cell : Nat) : Grid :=
  { g with active := mapSet g.active cell ((mapGet g.shadow cell).getD []), shadow := mapErase g.shadow cell, swapped := g.swapped ++ [cell] }

/-- The cells of line `k` of a load: cell row `k` by the north path, cell column `k` by the east-edge path (R71, R76). -/
def lineCells (u : MatUnit) (east : Bool) (k : Nat) : List Nat :=
  if east then (List.range 256).map (· * 256 + k) else (List.range (unitWidth u)).map (k * 256 + ·)

/-- The shadows of some cells take the weights of a load that follows the token; what an earlier choice of that load had filled goes
(R81, R82). -/
def Grid.fillFrom (g : Grid) (x : Nat × Nat) (ws : List (Nat × List (XNum × Nat))) (cells : Nat → Bool) : Grid :=
  let g := if g.filling = some x then g else
    { g with shadow := g.shadow.filter fun e => !g.swapped.contains e.1, filling := some x }
  { g with shadow := (ws.filter fun e => cells e.1 && (mapGet g.shadow e.1).isNone).foldl (fun m e => mapSet m e.1 e.2) g.shadow }

/-- The load that follows the token writes the line of a cell that the token has passed, once all cells of the line have swapped (R81,
R82). -/
def State.fillLine (s : State) (c : CoreId) (u : MatUnit) (row col : Nat) (x : Issued × Nat) : State :=
  let east := (matD x.1.words).trB
  let line := lineCells u east (if east then col else row)
  if line.all (s.cores[c].unit u).grid.swapped.contains then
    s.updGrid c u fun g => g.fillFrom (x.1.seq, x.2) (s.loadCells c u x) line.contains
  else s

/-- The token has left the last cell: every cell has swapped, and the next load, if there is one, fills what is left of the shadows (R81). -/
def State.endToken (s : State) (c : CoreId) (u : MatUnit) (next : Option (Issued × Nat)) : State :=
  let rest := fun (g : Grid) => { g with swapped := [], stallCounted := false, lineWaits := 0, filling := none }
  match next with
  | none => s.updGrid c u fun g => { rest g with shadow := [], loads := none }
  | some x => s.updGrid c u fun g =>
      s.loadTops c u x { rest (g.fillFrom (x.1.seq, x.2) (s.loadCells c u x) fun _ => true) with loads := some (x.1.seq, x.2) }

/-- Load rows or columns that have waited, of those that the command gives: each row or column of the load that follows the token counts
once for a fold, and without such a load none waits (R82, R104). -/
def lineWaits (u : MatUnit) (next : Option (Issued × Nat)) (counted waits : Nat) : Nat :=
  match next with
  | none => 0
  | some x => Nat.min waits ((if (matD x.1.words).trB then unitWidth u else 256) - counted)

/-- The instruction whose fold the shadows of a unit take: the one they hold, or with empty shadows the first fold of the
instruction at the head of the queue (R81, R83). -/
def State.loading (s : State) (c : CoreId) (u : MatUnit) : Option (Issued × Nat) :=
  let held := (s.cores[c].unit u).grid.loads.bind fun x =>
    (s.cores[c].issued.find? fun e => decide (e.seq = x.1)).map fun e => (e, x.2)
  held.orElse fun _ => (s.headOf c (s.matQueue c u)).bind fun e => if (matD e.words).flow = 0 then some (e, 0) else none

/-- SWAP_TOKEN (R81, R82): the token reaches a cell, having passed those above it and to its west, and the cell takes its shadow
weights; a token that waited for the shadow counts one stall for the fold, and load rows or columns that waited for the token
are counted, each at most once for a fold. A line whose cells have all swapped takes the next load, and the last cell ends the fold. -/
def execSwapToken (c : CoreId) (u : MatUnit) (row col : Fin 256) (waited : Bool) (loadWaits : Nat) (s : State) : Result :=
  match s.loading c u with
  | none => .next s
  | some (e, n) =>
    let s := if (s.cores[c].unit u).grid.loads = some (e.seq, n) then s else s.loadShadow c u (some (e, n))
    let g := (s.cores[c].unit u).grid
    if unitWidth u ≤ col.val ∨ !g.reaches row.val col.val then .next s
    else
      let next := s.nextLoad c u e n
      let lines := lineWaits u next g.lineWaits loadWaits
      let s := if waited && !g.stallCounted then s.count (coreArrShstall c.val u.array.val) 1 else s
      let s := s.count (coreArrLdwait c.val u.array.val) lines
      let s := s.updGrid c u fun g =>
        { g.swap (row.val * 256 + col.val) with stallCounted := g.stallCounted || waited, lineWaits := g.lineWaits + lines }
      let s := match next with
        | some x => s.fillLine c u row.val col.val x
        | none => s
      .next (if row.val = 255 ∧ col.val + 1 = unitWidth u then s.endToken c u next else s)

/-! ### Diagnostics (R98) -/

/-- The records of a unit: both halves of a whole array. -/
def CoreS.records (k : CoreS) (u : MatUnit) : List HalfS :=
  if u.half = 0 then [(k.arrays[u.array]).halves[0], (k.arrays[u.array]).halves[1]] else [k.unit u]

/-- The state with every record of a unit changed through `f`. -/
def State.updRecords (s : State) (c : CoreId) (u : MatUnit) (f : HalfS → HalfS) : State :=
  let s := s.updUnit c u.array (unitIdx u) f
  if u.half = 0 then s.updUnit c u.array 1 f else s

/-- ARRAY_DIAGNOSTIC (R98): the diagnostic of a suspect unit begins. -/
def execArrayDiagnostic (c : CoreId) (u : MatUnit) (s : State) : Result :=
  if s.cores[c].inService && (s.cores[c].records u).all (fun h => decide (h.service = .suspect) && !h.diag) then
    .next (s.updRecords c u fun h => { h with diag := true })
  else .next s

/-- ARRAY_DIAGNOSTIC_DONE (R98): a pass returns the unit to service with no mismatches; a fail takes it out until reset and places
its cell. -/
def execArrayDiagnosticDone (c : CoreId) (u : MatUnit) (found : Option (Fin 256 × Fin 256)) (s : State) : Result :=
  if !(s.cores[c].inService && (s.cores[c].records u).all fun h => h.diag) then .next s
  else
    let part := s.cores[c].part
    let s := s.updRecords c u fun h => { h with diag := false }
    match found with
    | none =>
      let s := (s.setService c u .inService).updRecords c u fun h => { h with mismatches := [] }
      .next (s.raise (.core c.val) part 0x4103 [c.val, u.array.val, (unitIdx u).val])
    | some (r, k) =>
      let o := coreArrFaultloc c.val u.array.val
      let s := s.setService c u .out
      let s := s.setReg o (BitVec.ofNat 32 (2 ^ 31 + 2 ^ 30 + (unitIdx u).val * 2 ^ 29 + 2 ^ 28 + s.regFld o 23 16 * 65536 + r.val * 256 + k.val))
      .next (s.raise (.core c.val) part 0x4104 [c.val, u.array.val, (unitIdx u).val, r.val, k.val])

end Sys2Proof.Machine
end

