-- ==== Sys2Proof/Machine/Mov.lean ====
section
/-! DEFINITION. The move engine: rows copied, rectangles with their planes, fills (R196-R200). -/

namespace Sys2Proof.Machine

/-! ### Cells of a move and where it stops (R184, R190, R199) -/

/-- One byte that a move writes: its source address or the byte itself, and its destination, as the job names them. -/
structure MovCell where
  src : Option Nat
  val : Byte
  dst : Nat
  deriving DecidableEq, Repr, Inhabited

/-- The line of a physical address: an HBM line of 512 bytes, a line of 64 bytes elsewhere (R174, R186). -/
def lineOf (a : Nat) : Nat := match regionOf a with | .hbm _ => a / 512 * 512 | _ => a / 64 * 64

/-- Why one byte of a move cannot be moved: its source or its destination has become unusable, or its source fails; with the
physical address at fault. -/
def State.cellStop (s : State) (j : Job) (x : MovCell) : Option (Nat × (DErr ⊕ Nat)) :=
  let use (write : Bool) (a : Nat) : Option (Nat × (DErr ⊕ Nat)) :=
    (s.unusable (j.phys write a)).map fun u => (j.phys write a, .inl ⟨0x5004, [u.1, u.2] ++ two a⟩)
  ((x.src.bind (use false)).orElse fun _ =>
    x.src.bind fun a => if s.bad (j.phys false a) then some (j.phys false a, .inr (j.phys false a)) else none).orElse fun _ =>
    use true x.dst

/-- Whether a byte of a move touches a line. -/
def MovCell.inLine (j : Job) (line : Nat) (x : MovCell) : Bool :=
  (x.src.any fun a => decide (lineOf (j.phys false a) = line)) || decide (lineOf (j.phys true x.dst) = line)

/-- The bytes of a row up to the failing line, and why it stopped; the whole row where nothing stops it (R199). -/
def State.cellsUntil (s : State) (j : Job) (row : List MovCell) : List MovCell × Option (DErr ⊕ Nat) :=
  match row.findSome? (s.cellStop j) with
  | none => (row, none)
  | some (a, err) => (row.takeWhile fun x => !x.inLine j (lineOf a), some err)

/-- The value that a byte of a move takes. -/
def State.cellVal (s : State) (j : Job) (x : MovCell) : Byte := match x.src with | some a => s.lrd j a | none => x.val

/-- The rows of a move, each read whole before it is written, up to the first that fails (R199). -/
def State.movRows (s : State) (j : Job) : List (List MovCell) → State × Option (DErr ⊕ Nat)
  | [] => (s, none)
  | row :: r =>
    let x := s.cellsUntil j row
    let s' := s.lput j (x.1.map fun x => (x.dst, s.cellVal j x))
    match x.2 with
    | some err => (s', some err)
    | none => s'.movRows j r

/-! ### Copies and fills (R197) -/

/-- Copied bytes. -/
def copyCells (src dst : List Nat) : List MovCell := (src.zip dst).map fun x => ⟨some x.1, 0, x.2⟩

/-- Given bytes. -/
def fillCells (bs : List (Nat × Byte)) : List MovCell := bs.map fun x => ⟨none, x.2, x.1⟩

/-- The cells of row `i`: the data, then the planes that describe it with their padding (R172, R197). -/
def MovD.cells (m : MovD) (i : Nat) : List MovCell :=
  match m.op with
  | 0x2 => fillCells ((indexed (m.rowDst i)).map fun e => (e.2, BitVec.ofNat 8 (m.pattern.toNat / 2 ^ (8 * (e.1 % 4)))))
  | 0x1 =>
    copyCells (m.rowSrc i) (m.rowDst i) ++ copyCells (m.rowPlanes i) (m.rD.planeAddrs m.ff i) ++ fillCells (m.rD.padBytes m.ff i)
  | _ => copyCells (m.rowSrc i) (m.rowDst i)

/-- The bytes that a copying move reads. -/
def MovD.readAddrs (m : MovD) : List Nat := (List.range m.rows).flatMap fun i => (m.cells i).filterMap MovCell.src

/-- The MOV descriptor of operation `op` that starts in place `slot` of the move engine's queue, with its job (R200). -/
def State.startMov (s : State) (c : CoreId) (slot : Fin 8) (op : Nat) : Option (Issued × Job) :=
  match s.nextIn c .mov slot.val with
  | some e => if (movD e.words).op = op then (s.job e.part).map fun j => (e, j) else none
  | none => none

/-- A copying move runs whole, or fails at a row (R199). -/
def State.runMov (s : State) (c : CoreId) (e : Issued) (j : Job) : State :=
  let m := movD e.words
  let rows := (List.range m.rows).map m.cells
  let s := s.touchAll ((rows.flatten.filterMap MovCell.src).map (j.phys false) ++ (rows.flatten.map MovCell.dst).map (j.phys true))
  match s.movRows j rows with
  | (s, some err) => s.failAccess c e err
  | (s, none) => s.finish c e

/-- COPY (R197). -/
def execMovCopy (c : CoreId) (slot : Fin 8) (env : MemEnv) (s : State) : Result :=
  match s.startMov c slot 0x0 with
  | some (e, j) => .next ((s.takeFor env e.part (movD e.words).readAddrs).runMov c e j)
  | none => .next s

/-- COPY_RECT (R172, R197). -/
def execCopyRect (c : CoreId) (slot : Fin 8) (env : MemEnv) (s : State) : Result :=
  match s.startMov c slot 0x1 with
  | some (e, j) => .next ((s.takeFor env e.part (movD e.words).readAddrs).runMov c e j)
  | none => .next s

/-- FILL (R197). -/
def execMovFill (c : CoreId) (slot : Fin 8) (env : MemEnv) (s : State) : Result :=
  match s.startMov c slot 0x2 with
  | some (e, j) => .next ((s.takeFor env e.part (movD e.words).readAddrs).runMov c e j)
  | none => .next s

end Sys2Proof.Machine
end

