-- ==== Sys2Proof/Machine/Gb.lean ====
section
/-! DEFINITION. The gradient buffer: additions, ZERO, REFILL, SPILL, TIE_ADD (R47, R48, R85, R144-R152). -/

namespace Sys2Proof.Machine

/-! ### Additions (R85, R144) -/

/-- Whether a descriptor adds into the gradient buffer (R144). -/
def Issued.addsToGb (e : Issued) : Bool :=
  (decide (hClass e.words = 1) && (matD e.words).acc) || (decide (hClass e.words = 3) && decide ((rowD e.words).gradNames (rowP e.param) ≠ []))

/-- TENSOR_W of an addition (R144). -/
def Issued.tensorW (e : Issued) : Nat := if hClass e.words = 1 then (matD e.words).tensorW else (rowP e.param).tensorW

/-- The target of a descriptor's additions as runs of WG64 elements: first address and number (R103, R124). -/
def Issued.gbRuns (e : Issued) : List (Nat × Nat) :=
  if !e.addsToGb then []
  else if hClass e.words = 1 then
    let m := matD e.words
    (List.range m.rows).map fun i => (m.oAddr + i * m.oStride, m.cols)
  else
    let d := rowD e.words
    [((rowP e.param).grad, d.len * (if d.rms then 1 else 2))]

/-- Whether two targets overlap. -/
def runsMeet (a b : List (Nat × Nat)) : Bool :=
  a.any fun x => b.any fun y => decide (x.1 < y.1 + 8 * y.2 ∧ y.1 < x.1 + 8 * x.2)

/-- The slot of a logical core that holds the whole element at an address (R142, R144). -/
def LCtx.slotOfElem (h : LCtx) (l a : Nat) : Option Nat :=
  h.slots.findIdx? fun g => decide (gbBase l + g.off ≤ a ∧ a + 8 ≤ gbBase l + g.off + g.len)

/-- The slots that a target reaches, each once; none for an element outside every slot (R144). -/
def LCtx.targetSlots (h : LCtx) (l : Nat) (runs : List (Nat × Nat)) : List (Option Nat) :=
  (runs.flatMap fun r => (List.range r.2).map fun i => h.slotOfElem l (r.1 + 8 * i)).eraseDups

/-- What an addition meets at one slot (R144, R145). -/
inductive AddFate where
  | made | waits | absent
  deriving DecidableEq, Repr

/-- The fate of descriptor `e`'s addition at slot `k` (R144, R145, R148). -/
def State.addFate (j : Job) (h : LCtx) (e : Issued) (k : Nat) : AddFate :=
  let g := h.slots.getD k {}
  if (j.tileOf e.lcore g.tile).map TileRec.tensor ≠ some e.tensorW then .absent
  else match g.state with
    | .live => if g.clearing then .waits else .made
    | .filling => .waits
    | .spilling => if g.spiller < e.seq then .absent else .made
    | .empty => .absent

/-- An earlier addition of the same stream that overlaps this one and has not been made (R85). -/
def State.addBlocked (s : State) (c : CoreId) (e : Issued) : Bool :=
  s.cores[c].issued.any fun x => decide (x.ctx = e.ctx ∧ x.seq < e.seq ∧ x.phase ≠ .finished) && x.addsToGb && runsMeet x.gbRuns e.gbRuns

/-- The elements of an addition with what they become: old + c, rounded once to WG64 (R48). -/
def State.sums (s : State) (j : Job) (els : List (Nat × XNum)) : List (Nat × Nat) :=
  els.map fun x => (x.1, wgAdd (leNat (s.lrdBytes j x.1 8)) x.2)

/-- WG64 elements written, and those that became NaN counted (R48, R66, R68). -/
def State.putSums (s : State) (c : CoreId) (p : PartId) (j : Job) (tensor : Nat) (ws : List (Nat × Nat)) : State :=
  let s := s.lput j (ws.flatMap fun w => (indexed (leBytes 8 w.2)).map fun b => (w.1 + b.1, b.2))
  s.outCounts c p tensor 0 (ws.filter fun w => w.2 = wgNan).length

/-- A descriptor that owed additions has made them all: a MAT or NORM_BWD that has run then finishes, one that has failed leaves its
core (R96, R144). -/
def State.addsMade (s : State) (c : CoreId) (e : Issued) : State :=
  let s := s.updIssued c e.seq fun x => { x with adds := [] }
  if e.prog.head? = some 2 then
    let s := if hClass e.words = 1 then
        s.matDone c e ⟨Fin.ofNat 4 (e.prog.getD 2 0), Fin.ofNat 3 (e.prog.getD 3 0)⟩ (e.prog.getD 1 0) false (e.prog.getD 4 0 = 1)
      else s
    s.finish c e
  else if e.owing then (s.dropIssued c e.seq).settle e.part
  else s

/-- A MAT whose addition fails reports as one that failed; one that is queued to run again reports the count 0, and one that has
failed already only leaves its core (R96, R105; DESIGN CHOICE, log entry 24). -/
def State.addFails (s : State) (c : CoreId) (e : Issued) (err : DErr ⊕ Nat) : State :=
  if e.owing then (s.dropIssued c e.seq).settle e.part else
  let s := s.updIssued c e.seq fun x => { x with adds := [] }
  let s := if hClass e.words = 1 then
      let u : MatUnit := match e.queue with | .mat u => u | _ => ⟨0, 0⟩
      s.matDone c e u (if e.prog.head? = some 2 then e.prog.getD 1 0 else 0) true (e.prog.head? = some 1 || e.prog.getD 4 0 = 1)
    else s
  s.failAccess c e err

/-- GB_ADDITION (R144): the additions that the descriptor at place `k` of the core's issued ones owes are made, wait, or fail. -/
def execGbAddition (c : CoreId) (k : Nat) (s : State) : Result :=
  match s.cores[c].issued[k]? with
  | none => .next s
  | some e =>
    match s.job e.part with
    | none => .next s
    | some j =>
      if !e.addsToGb then .next s
      else if e.mute ∧ (e.prog.head? = some 2 ∨ e.owing) then .next (s.addsMade c e)
      else if e.adds = [] ∨ s.addBlocked c e then .next s
      else
        match j.serve e.lcore with
        | none => .next s
        | some v =>
          let h := s.lctx v
          let slots := h.targetSlots e.lcore e.gbRuns
          let fates := slots.map fun o => (o, match o with | none => AddFate.absent | some k => State.addFate j h e k)
          match fates.find? fun f => f.2 = .absent with
          | some (o, _) => .next (s.addFails c e (.inl ⟨0x4401, [c.val, o.getD 0xFF, e.tensorW]⟩))
          | none =>
            if fates.any fun f => f.2 = .waits then
              if e.adds.any PendingAdd.waited then .next s
              else .next ((s.count (coreGbWaits c.val) 1).updIssued c e.seq fun x => { x with
                adds := x.adds.map fun a => { a with waited := true } })
            else
              let els := e.adds.flatMap PendingAdd.elems
              let as := els.flatMap fun x => span x.1 8
              match (s.meetReads (as.map (j.phys false))).access j as as with
              | (s, some err) => .next (s.addFails c e err)
              | (s, none) => .next ((s.putSums c e.part j e.tensorW (s.sums j els)).addsMade c e)

/-! ### ZERO, REFILL, SPILL (R147-R150) -/

/-- GB_SLOT_STATE of a gradient operation (R148, R166). -/
def slotErr (c : CoreId) (k op : Nat) (g : GbSlot) : DErr := ⟨0x4403, [c.val, k, op, g.state.code]⟩

/-- First address of a tile's elements (R142). -/
def TileRec.addr (t : TileRec) (l : Nat) : Nat := gbBase l + t.off

/-- The bytes of a tile of a logical core in its slot, and of its spill image (R142, R147). -/
def Job.tileAddrs (j : Job) (l tile : Nat) : List Nat := match j.tileOf l tile with | some t => span (t.addr l) t.bytes | none => []
def Job.spillAddrs (j : Job) (l tile : Nat) : List Nat := match j.tileOf l tile with | some t => span t.spill (64 + t.bytes) | none => []

/-- The slot turns FILLING and the operation runs until SLOT_FILLED. -/
def State.beginFill (s : State) (c : CoreId) (e : Issued) (v : Serve) (k tile ties : Nat) : State :=
  (s.updGbSlot v k fun g => { g with state := .filling, tile := tile, ties := ties }).updIssued c e.seq fun x =>
    { x with phase := .running }

/-- ZERO (R148): +0 in every element of the tile. -/
def execGbZero (c : CoreId) (slot : Fin 8) (env : MemEnv) (s : State) : Result :=
  match s.startMov c slot 0x8 with
  | none => .next s
  | some (e, j) =>
    let s := s.takeFor env e.part []
    let tile := (movD e.words).tile
    match s.gradTarget j e tile with
    | none => .next (s.failDescriptor c e (fieldErr 0x5003 e.index 0x3C 15))
    | some (t, v, k, g) =>
      if t.resident ∨ g.state ≠ .empty then .next (s.failDescriptor c e (slotErr c k 0x8 g))
      else
        match s.access j [] (span (t.addr e.lcore) t.bytes) with
        | (s, some err) => .next (s.failAccess c e err)
        | (s, none) => .next ((s.zeroRange (j.phys true (t.addr e.lcore)) t.bytes).beginFill c e v k tile 0)

/-- The header of a spill image (R147). -/
def imageHeader (t : TileRec) (commit attempt micro prescale ties : Nat) : List Byte :=
  leBytes 4 t.tensor ++ leBytes 4 t.tile ++ leBytes 4 commit ++ leBytes 4 (attempt * 2 ^ 24 + micro) ++ leBytes 4 (t.rows * t.cols) ++
    leBytes 4 prescale ++ leBytes 4 ties ++ leBytes 36 0

/-- The first field of an image header that a REFILL of a step, given as commit number and attempt, finds different: its offset, its top
bit, the image's value (R149). -/
def refillTag (step : Nat × Nat) (t : TileRec) (micro : Nat) (h : List Byte) : Option (Nat × Nat × Nat) :=
  let f (off top lo w : Nat) : Nat × Nat × Nat := (off, top, nbits (rdLE h off 4) top lo % 2 ^ w)
  ([(f 0x00 31 0 32, t.tensor), (f 0x04 15 0 16, t.tile), (f 0x08 31 0 32, step.1), (f 0x0C 31 24 8, step.2),
    (f 0x0C 15 0 16, micro), (f 0x10 31 0 32, t.rows * t.cols)].find? fun x => decide (x.1.2.2 ≠ x.2)).map Prod.fst

/-- REFILL (R148-R150): the image header is checked against the step in which the REFILL issued, then the elements are copied into the
slot. -/
def execRefill (c : CoreId) (slot : Fin 8) (env : MemEnv) (s : State) : Result :=
  match s.startMov c slot 0x9 with
  | none => .next s
  | some (e, j) =>
    let m := movD e.words
    let s := s.takeFor env e.part (j.spillAddrs e.lcore m.tile)
    match s.gradTarget j e m.tile with
    | none => .next (s.failDescriptor c e (fieldErr 0x5003 e.index 0x3C 15))
    | some (t, v, k, g) =>
      if t.resident ∨ g.state ≠ .empty then .next (s.failDescriptor c e (slotErr c k 0x9 g))
      else
        match s.access j (span t.spill 64) [] with
        | (s, some err) => .next (s.failAccess c e err)
        | (s, none) =>
          let h := s.lrdBytes j t.spill 64
          match refillTag e.stamp t m.micro h with
          | some x => .next (s.failDescriptor c e ⟨0x4402, [c.val, m.tile, Config.fieldWord 0x4402 x.1 x.2.1, x.2.2]⟩)
          | none =>
            let s := s.touchAll ((span t.spill (64 + t.bytes)).map (j.phys false))
            match s.movRows j [copyCells (span (t.spill + 64) t.bytes) (span (t.addr e.lcore) t.bytes)] with
            | (s, some err) => .next (s.failAccess c e err)
            | (s, none) => .next (s.beginFill c e v k m.tile (rdLE h 0x18 4 % 4))

/-- SLOT_FILLED (R148): the ZERO or REFILL at place `k` of the core's issued ones completes and its slot is LIVE; after a change of
step it leaves its slot EMPTY (R150). -/
def execSlotFilled (c : CoreId) (k : Nat) (s : State) : Result :=
  match s.cores[c].issued[k]? with
  | none => .next s
  | some e =>
    let m := movD e.words
    if decide (hClass e.words ≠ 4) || !(decide (m.op = 0x8 ∨ m.op = 0x9)) || decide (e.phase ≠ .running) then .next s
    else
      match s.job e.part with
      | none => .next s
      | some j =>
        match s.gradTarget j e m.tile with
        | none => .next s
        | some (t, v, k, _) =>
          let s := s.updGbSlot v k fun g =>
            if g.state = .filling then { g with state := if e.mute then .empty else .live } else g
          let s := s.count (coreGbRefills c.val) 1
          let s := if m.op = 0x9 then s.count64 (coreGbBytesLo c.val) (coreGbBytesHi c.val) (64 + t.bytes) else s
          .next (s.finish c e)

/-- SPILL (R148, R150): the slot turned SPILLING when it issued, and the operation runs; after a change of step it completes whatever
its slot holds. -/
def execSpill (c : CoreId) (slot : Fin 8) (s : State) : Result :=
  match s.startMov c slot 0xA with
  | none => .next s
  | some (e, j) =>
    let m := movD e.words
    match s.gradTarget j e m.tile with
    | none => .next (s.failDescriptor c e (fieldErr 0x5003 e.index 0x3C 15))
    | some (t, _, k, g) =>
      if !e.mute ∧ (g.state ≠ .spilling ∨ g.spiller ≠ e.seq) then .next (s.failDescriptor c e (slotErr c k 0xA g))
      else .next (s.updIssued c e.seq fun x => { x with
        phase := .running, prog := [e.stamp.1, e.stamp.2, g.ties, j.prescale t.tensor] })

/-- An addition into a slot whose descriptor issued before the SPILL and has not been made (R148). -/
def State.spillWaits (s : State) (c : CoreId) (e : Issued) (t : TileRec) : Bool :=
  s.cores[c].issued.any fun x => decide (x.lcore = e.lcore ∧ x.seq < e.seq ∧ x.phase ≠ .finished) && x.addsToGb &&
    runsMeet x.gbRuns [(t.addr e.lcore, t.rows * t.cols)]

/-- SPILL_WRITE (R147, R148): the SPILL at place `k` of the core's issued ones writes its image and the slot is EMPTY; one that fails
leaves its slot LIVE. -/
def execSpillWrite (c : CoreId) (k : Nat) (env : MemEnv) (s : State) : Result :=
  match s.cores[c].issued[k]? with
  | none => .next s
  | some e =>
    let m := movD e.words
    if decide (hClass e.words ≠ 4 ∨ m.op ≠ 0xA ∨ e.phase ≠ .running) then .next s
    else
      match s.job e.part with
      | none => .next s
      | some j =>
        match s.gradTarget j e m.tile with
        | none => .next s
        | some (t, v, k, _) =>
          if s.spillWaits c e t then .next s
          else
            let s := s.takeFor env e.part (j.tileAddrs e.lcore m.tile)
            let n := fun i => e.prog.getD i 0
            let hd := imageHeader t (n 0) (n 1) m.micro (n 3) (n 2)
            let src := span (t.addr e.lcore) t.bytes
            let s := s.touchAll (src.map (j.phys false) ++ (span t.spill (64 + t.bytes)).map (j.phys true))
            let row := fillCells ((span t.spill 64).zip hd) ++ copyCells src (span (t.spill + 64) t.bytes)
            let back := fun (s : State) (v' : SlotState) =>
              if e.mute then s else s.updGbSlot v k fun g => if g.state = .spilling then { g with state := v' } else g
            match s.movRows j [row] with
            | (s, some err) => .next ((back s .live).failAccess c e err)
            | (s, none) =>
              let s := (back s .empty).count (coreGbSpills c.val) 1
              .next ((s.count64 (coreGbBytesLo c.val) (coreGbBytesHi c.val) (64 + t.bytes)).finish c e)

/-! ### TIE_ADD (R151, R152) -/

/-- Elements of a TIE_ADD before the failing line, all of them where nothing fails (R199). -/
def State.tieUntil (s : State) (j : Job) (a b n : Nat) : Nat × Option (DErr ⊕ Nat) :=
  let cells := (List.range (8 * n)).map fun i => MovCell.mk (some (b + i)) 0 (a + i)
  let cells := cells ++ (List.range (8 * n)).map fun i => MovCell.mk (some (a + i)) 0 (a + i)
  match cells.findSome? (s.cellStop j) with
  | none => (n, none)
  | some (x, err) => (((List.range n).takeWhile fun i =>
      !(decide (lineOf (j.phys false (a + 8 * i)) = lineOf x) || decide (lineOf (j.phys false (b + 8 * i)) = lineOf x))).length, some err)

/-- TIE_ADD (R148, R150, R152): the use-0 tile takes e0 + e_u in each element, if `u` is the next use in order; after a change of
step it is cancelled and writes nothing. -/
def execTieAdd (c : CoreId) (slot : Fin 8) (env : MemEnv) (s : State) : Result :=
  match s.startMov c slot 0xB with
  | none => .next s
  | some (e, j) =>
    if e.mute then .next (s.finish c e) else
    let tile := (movD e.words).tile
    let from_ := dfld e.words 0x38 15 0
    let s := s.takeFor env e.part (j.tileAddrs e.lcore tile ++ j.tileAddrs e.lcore from_)
    match s.gradTarget j e tile, s.gradTarget j e from_ with
    | some (t, v, k, g), some (u, _, k', g') =>
      if g.state ≠ .live ∨ g.tile ≠ tile then .next (s.failDescriptor c e (slotErr c k 0xB g))
      else if g'.state ≠ .live ∨ g'.tile ≠ from_ then .next (s.failDescriptor c e (slotErr c k' 0xB g'))
      else if u.use ≠ g.ties + 1 then .next (s.failDescriptor c e ⟨0x4404, [c.val, tile, u.use]⟩)
      else
        let a := t.addr e.lcore
        let b := u.addr e.lcore
        let s := s.touchAll ((span a t.bytes ++ span b t.bytes).map (j.phys false))
        let x := s.tieUntil j a b (t.rows * t.cols)
        let els := (List.range x.1).map fun i => (a + 8 * i, wgDecode (leNat (s.lrdBytes j (b + 8 * i) 8)))
        let s := s.putSums c e.part j t.tensor (s.sums j els)
        match x.2 with
        | some err => .next (s.failAccess c e err)
        | none => .next (((s.updGbSlot v k fun g => { g with ties := g.ties + 1 }).count (coreGbTieadds c.val) 1).finish c e)
    | _, _ => .next (s.failDescriptor c e (fieldErr 0x5003 e.index 0x3C 15))

/-- GB_CLEAR_DONE (R145): the clearing of the core's resident tiles is done. -/
def execGbClearDone (c : CoreId) (s : State) : Result :=
  let clear := fun (h : LCtx) => { h with slots := h.slots.map fun g => { g with clearing := false } }
  .next (s.updCore c fun k => { k with first := clear k.first, guest := clear k.guest })

end Sys2Proof.Machine
end

