-- ==== Sys2Proof/Machine/HostLink.lean ====
section
/-! DEFINITION. Register reads, failure records, FUNC_RESET, and the attachment of the host (R233, R234, R239, R264-R266, R373). -/

namespace Sys2Proof.Machine

/-! ### REG_READ and GET_LAST_ERROR (R239, R373) -/

/-- Whether recovery answers a REG_READ of an offset (R373): the identification registers, MC_START_STAT, the census, the
ageing state, the SEC block. -/
def recoveryReads (o : Nat) : Bool :=
  [mcDeviceId, mcSerialLo, mcSerialHi, mcStartStat].contains o || (decide (0xB400 ≤ o) && decide (o < 0xB4C0)) ||
    (decide (secBase ≤ o) && decide (o < secBase + 0x100000))

/-- `n` consecutive registers are read in ascending order. -/
def State.readRegs : Nat → Nat → State → List Word × State
  | 0, _, s => ([], s)
  | n + 1, o, s =>
    let (v, s) := s.regRead o
    let (l, s) := State.readRegs n (o + 4) s
    (v :: l, s)

/-- REG_READ. -/
def execRegRead (r : Setup) (s : State) : Result :=
  .next (s.request r 0x01 { dev := true, dirIn := true, len := fun n => decide (n % 4 = 0 ∧ 4 ≤ n ∧ n ≤ 1024), inRecovery := true } fun i s =>
    let o := r.wIndex * 65536 + r.wValue
    let n := r.wLength / 4
    if o % 4 ≠ 0 ∨ regSpan < o + 4 * n then s.reqFail i 0x01 stAddress 0
    else if s.mc.recovery && (List.range n).any fun k => !recoveryReads (o + 4 * k) then s.reqFail i 0x01 stRequest 0
    else
      let (l, s) := s.readRegs n o
      s.reqOk (ofWords l))

/-- GET_LAST_ERROR. -/
def execGetLastError (r : Setup) (s : State) : Result :=
  .next (s.request r 0x03
    { dev := true, lo := 0, hi := 5, dirIn := true, len := fun n => decide (n = 8), value0 := true, index0 := true, inRecovery := true }
    fun i s => s.reqOk (s.errorOf i))

/-! ### FUNC_RESET (R264) -/

/-- Steps 1 and 2: frames, held requests and unsent responses go; B, G and L are set; WINDOW_FAULT ends. -/
def Iface.reset (i : Iface) (base : Nat) : Iface :=
  { i with heldFrame := none, held := [], responses := [], base := base, gen := 0, landed := 0, fault := false }

/-- Steps 1 and 2 on every interface (R265). -/
def State.resetIfaces (s : State) : State :=
  let s := allParts.foldl (fun s p => s.updIface p fun i => i.reset (s.hctx p)) s
  { s with diag := s.diag.reset 0 }

/-- Steps 3 and 4 on a job interface: the rings begin anew, and with CANCEL every handle of the interface is cancelled. -/
def State.resetRings (s : State) (p : PartId) (cancel : Bool) : State :=
  let s := (s.updHdr p fun h => { h with cmdHead := 0, cmdTail := 0, cplTail := 0, evtTail := 0 }).updIface p fun i => { i with phase := true }
  if !cancel then s
  else
    let mine := s.handles.filter fun x => decide (x.owner = 1 + p.val ∧ x.state ≠ .done)
    let s := s.updIface p fun i => { i with resetHandles := mine.map Handle.num }
    mine.foldl (fun s x => match (s.handleOf x.num).map s.opCancelOn with
      | some (.ok s) => s
      | _ => s) s

/-- FUNC_RESET: what it does before it waits for the handles that it cancelled. -/
def execFuncReset (r : Setup) (s : State) : Result :=
  .next (s.request r 0x13 { dev := false, lo := 1, hi := 5, dirIn := false, len := fun n => decide (n = 0) } fun i s =>
    if 4 ≤ r.wValue ∨ r.wValue = 2 then s.reqFail i 0x13 stRequest 0
    else if i = 5 then
      ({ s with diag := { s.diag.reset 0 with resetBusy := true, resetFlags := r.wValue } } : State).reqOk []
    else
      let p : PartId := Fin.ofNat 4 (i - 1)
      let s := s.updIface p fun f => { f.reset (s.hctx p) with resetBusy := true, resetFlags := r.wValue, resetHandles := [] }
      (s.resetRings p (r.wValue.testBit 0)).reqOk [])

/-- FUNC_RESET_DONE: every cancelled handle has reached DONE and is released (R267); CLEAR zeroes the region. -/
def execFuncResetDone (i : Fin 5) (s : State) : Result :=
  if i.val = 4 then
    if s.diag.resetBusy then
      .next (({ s with diag := { s.diag with resetBusy := false } } : State).raise .usb none 0x2007 [5, s.diag.resetFlags])
    else .next s
  else
    let p : PartId := Fin.ofNat 4 i.val
    let f := s.parts[p].iface
    let waits := f.resetHandles.any fun h => (s.handleOf h).any fun x => decide (x.state ≠ OpState.done)
    if !f.resetBusy || waits then .next s
    else
      let s := { s with handles := s.handles.filter fun x => !f.resetHandles.contains x.num }
      let s := if f.resetFlags.testBit 1 then
          (s.zeroRange (s.hctx p) 0x4000000).updIface p fun i => { i with hdr := {}, phase := true }
        else s
      let s := s.updIface p fun i => { i with resetBusy := false, resetHandles := [] }
      .next (s.raise .usb (some p) 0x2007 [1 + p.val, f.resetFlags])

/-! ### Attachment (R233, R234, R265) -/

/-- The device attaches: at high speed with the recovery identity, else at the highest rate that the host offers and that
passed proof; below Gen 2x2 raises USB_LINK_DEGRADED (R233, R273). Notices of the time before are not sent. A USB
controller whose self-test or USB 2.0 loopback failed does not attach (R398). -/
def State.attach (s : State) : State :=
  if !s.usb.vbus || s.mc.usbDown then s
  else
    let n := if s.mc.recovery then 1 else Nat.min s.usb.offered s.mc.usbMax
    let s := s.setReg usbLink (pack [(1, 12), (b2n s.usb.orient, 11), (n, 0)])
    let s := { s with usb := { s.usb with suspended := false, stalled := false, data := [] } }
    let s := { s with parts := s.parts.map fun q => { q with iface := { q.iface with
      staleD := false, staleW := false, lastNotice := ({ q.iface with staleD := false, staleW := false } : Iface).notice } } }
    if 4 ≤ n then s
    else (s.countFld usbLinkcnt 31 16 1).raise .usb none 0x2001 [n]

/-- USB_ATTACH: VBUS is sensed; `speed` is the best rate that trains, 0 high speed to 3 Gen 2x2. A device that has not
started attaches when it enumerates (R371). -/
def execUsbAttach (speed : Fin 4) (orient : Bool) (s : State) : Result :=
  let s := { s with usb := { s.usb with vbus := true, offered := speed.val + 1, orient := orient } }
  if s.mc.on && (s.mc.complete || s.mc.recovery) then .next s.attach else .next s

/-- Loss of the host: steps 1 and 2 on every interface, counted and reported (R265, R273). DEDUCED: the events of the host link, here and in the
window and staging frames, have the USB block as their SOURCE (log entry 79). -/
def State.hostLost (s : State) (cause : Nat) : State :=
  (s.resetIfaces.countFld usbLinkcnt 15 0 1).raise .usb none 0x2009 [Config.fieldWord 0x2009 cause 0]

/-- USB_DISCONNECT: VBUS is lost, whether or not the device had enumerated. -/
def execUsbDisconnect (s : State) : Result :=
  let was := s.mc.on && s.usb.vbus
  let s := { s with usb := { s.usb with vbus := false, suspended := false, stalled := false, data := [] } }
  let s := s.setReg usbLink (pack [(4, 8)])
  if was then .next (s.hostLost 0) else .next s

/-- A reset of the link by the host: it stands in U0 again. -/
def State.linkReset (s : State) (cause : Nat) : State :=
  if s.linked || s.usb.suspended then
    let s := { s with usb := { s.usb with suspended := false, stalled := false, data := [] } }
    (s.setFld usbLink 10 8 0).hostLost cause
  else s

/-- BUS_RESET. -/
def execBusReset (s : State) : Result := .next (s.linkReset 1)

/-- WARM_RESET. -/
def execWarmReset (s : State) : Result := .next (s.linkReset 2)

/-- USB_SUSPEND (R234): the link is in U3; everything else runs on. -/
def execUsbSuspend (s : State) : Result :=
  if s.linked then .next (({ s with usb := { s.usb with suspended := true } } : State).setFld usbLink 10 8 3) else .next s

/-- USB_RESUME (R234). -/
def execUsbResume (s : State) : Result :=
  if s.usb.suspended then .next (({ s with usb := { s.usb with suspended := false } } : State).setFld usbLink 10 8 0) else .next s

end Sys2Proof.Machine
end

