-- ==== Sys2Proof/Machine/Membership.lean ====
section
/-! DEFINITION. The commands of a cluster's membership: joining, rosters, loss of members and of the starter
(R320-R327). -/

namespace Sys2Proof.Machine

/-- The reason of R322 for which the starter refuses a JOIN, 0 for none. -/
def State.joinRefusal (s : State) (c : Cluster) (e : Nat) (m : List Byte) : Nat :=
  let serial := rdLE m 16 8
  if slice m 28 32 ≠ c.cl.digest then 1
  else if rdLE m 24 1 ≠ s.mc.conduct then 2
  else if serial = Config.serial.toNat ∨ c.serials.any (fun x =>
      decide (x.2 = serial) && (inMask c.roster x.1 || c.admitted.contains x.1)) then 3
  else if inMask c.roster e ∨ c.admitted.contains e then 4
  else if c.begun ∧ !c.cl.rejoin then 5
  else 0

/-- JOIN (R322-R324): another member than the starter redirects; the starter refuses it or admits it. -/
def execJoin (p : PartId) (e : EntryId) (s : State) : Result :=
  match s.popMsg p e.val 0 0x01 with
  | none => .next s
  | some (m, s) => match s.cluster p with
    | none => .next s
    | some c =>
      if !c.leads then .next (s.sendCtl p e.val 0x05 (leBytes 4 c.starter ++ leBytes 4 c.epoch))
      else
        let r := s.joinRefusal c e.val m
        if r ≠ 0 then .next ((s.raise .mc (some p) 0x7002 [e.val, r]).sendCtl p e.val 0x02 (leBytes 4 r))
        else
          let s := s.updCluster p fun c => { c with
            admitted := (c.admitted ++ [e.val]).mergeSort (· ≤ ·), serials := mapSet c.serials e.val (rdLE m 16 8)
            numbers := mapSet c.numbers e.val (rdLE m 8 4) }
          let s := s.sendCtl p e.val 0x02 (leBytes 4 0)
          .next ((s.beginFirst p).restoreRoster p)

/-- JOIN_REPLY (R322): the member waits in ADMIT, or its job ends FAILED. -/
def execJoinReply (p : PartId) (e : EntryId) (s : State) : Result :=
  match s.popMsg p e.val 0 0x02 with
  | none => .next s
  | some (m, s) =>
    if rdLE m 16 1 = 0 then .next (s.updCluster p fun c => { c with state := if c.state = .joining then .admitting else c.state })
    else .next ((s.updCluster p fun c => { c with state := .left }).endJob p .failed 3 0x7002)

/-- Whether the first roster of a job, under epoch 0, begins at another committed number than this member's (R318, R323, R362). -/
def State.startsElsewhere (s : State) (p : PartId) (r : RosterMsg) : Bool :=
  decide (r.epoch = 0) && (s.job p).any fun j => decide (r.after ≠ j.step.commit)

/-- ROSTER (R324): held until it takes effect; the first one takes effect at once where a MODEL_LOAD waits for it. A member whose committed
number is not the starter's says so (R362; log entry 103). -/
def execRoster (p : PartId) (e : EntryId) (s : State) : Result :=
  match s.popMsg p e.val 0 0x03 with
  | none => .next s
  | some (m, s) => match s.cluster p with
    | none => .next s
    | some c =>
      if c.roster = 0 ∧ s.loadWaits p then .next (((s.applyRoster p (rosterOf m) true).loadRoster p).removeUnreached p)
      else
        let s := s.updCluster p fun c => { c with heldRosters := c.heldRosters ++ [rosterOf m] }
        .next (if c.roster = 0 ∧ s.startsElsewhere p (rosterOf m) then s.sendAbortReq p 0x7107 c.self else s)

/-- LEAVE (R325): the starter removes the member. -/
def execLeave (p : PartId) (e : EntryId) (s : State) : Result :=
  match s.popMsg p e.val 0 0x04 with
  | none => .next s
  | some (m, s) => match s.cluster p with
    | none => .next s
    | some c =>
      if c.leads then .next (s.removeMember p e.val (Config.fieldWord 0x7004 1 (rdLE m 16 1)) 0x7004) else .next s

/-- REDIRECT (R322, R323, R327): the member joins through the starter it names. -/
def execRedirect (p : PartId) (e : EntryId) (s : State) : Result :=
  match s.popMsg p e.val 0 0x05 with
  | none => .next s
  | some (m, s) => match s.cluster p with
    | none => .next s
    | some c =>
      let st := rdLE m 16 1
      if st = c.self ∨ c.state = .member ∨ (c.state = .paused ∧ !c.lostStarter) then .next s
      else .next ((s.updCluster p fun c => { c with starter := st, epoch := rdLE m 20 4 }).sendJoin p)

/-- LEAD_QUERY (R327): AGREE if the starter has been silent for PEER_LOSS_MS, else the answer waits. -/
def execLeadQuery (p : PartId) (e : EntryId) (s : State) : Result :=
  match s.popMsg p e.val 0 0x06 with
  | none => .next s
  | some (_, s) => match s.cluster p with
    | none => .next s
    | some c =>
      if c.silent then .next (s.sendCtl p e.val 0x07 (leBytes 4 0))
      else .next (s.updCluster p fun c => { c with queryPending := true })

/-- LEAD_REPLY (R327, R355): AGREE replies and the successor itself make more than half of the roster. -/
def execLeadReply (p : PartId) (e : EntryId) (s : State) : Result :=
  match s.popMsg p e.val 0 0x07 with
  | none => .next s
  | some (m, s) => match s.cluster p with
    | none => .next s
    | some c =>
      if !c.queried then .next s
      else if rdLE m 16 1 ≠ 0 then .next s
      else
        let s := s.updCluster p fun c => { c with agrees := mapSet c.agrees e.val (rdLE m 8 4) }
        let n := ((s.cluster p).map fun c => c.agrees.length).getD 0
        if (rosterList c.roster).length < 2 * (n + 1) then .next (s.takeover p) else .next s

/-- STARTER_QUERY (R323, R327): answered with REDIRECT, unless the asker is the starter. -/
def execStarterQuery (p : PartId) (e : EntryId) (s : State) : Result :=
  match s.popMsg p e.val 0 0x08 with
  | none => .next s
  | some (_, s) => match s.cluster p with
    | none => .next s
    | some c =>
      if c.starter = e.val ∨ (c.state = .paused ∧ !c.leads) then .next s
      else .next (s.sendCtl p e.val 0x05 (leBytes 4 c.starter ++ leBytes 4 c.epoch))

/-- LOST (R325): of the two ends of the connection the starter removes the one that is not itself, else the higher entry. -/
def execLost (p : PartId) (e : EntryId) (s : State) : Result :=
  match s.popMsg p e.val 0 0x09 with
  | none => .next s
  | some (m, s) => match s.cluster p with
    | none => .next s
    | some c =>
      let far := rdLE m 20 1
      if c.leads ∧ inMask c.roster e.val ∧ inMask c.roster far then
        let x := if e.val = c.self then far else if far = c.self then e.val else Nat.max e.val far
        .next (s.removeMember p x (Config.fieldWord 0x7004 2 0) 0x7004)
      else .next s

/-- 100 ms without a reply: JOIN again (R322). -/
def execJoinRetry (p : PartId) (s : State) : Result :=
  match s.cluster p with
  | none => .next s
  | some c => if c.state = .joining then .next (s.sendJoin p) else .next s

/-- START_TIMEOUT_S has passed: the first step begins with enough members, else CL_BELOW_MIN is raised once (R323). -/
def execStartTimeout (p : PartId) (s : State) : Result :=
  match s.cluster p with
  | none => .next s
  | some c =>
    if c.begun ∨ !c.leads then .next s
    else
      let n := c.admitted.length + 1
      let s := if n < c.cl.minMembers ∧ !c.belowRaised then
          (s.raise .mc (some p) 0x7007 [n, c.cl.minMembers]).updCluster p fun c => { c with belowRaised := true }
        else s
      .next ((s.updCluster p fun c => { c with awaitMin := true }).beginFirst p)

/-- A member of the roster that follows a starter: it runs steps, or is paused with its starter there (R326, R327). -/
def Cluster.follows (c : Cluster) : Bool :=
  !c.leads && inMask c.roster c.self && (decide (c.state = .member) || decide (c.state = .paused)) && !c.lostStarter

/-- Nothing from the starter for PEER_LOSS_MS: the successor asks every other member; another member answers AGREE to a query
that waits (R327). -/
def execStarterSilent (p : PartId) (s : State) : Result :=
  match s.cluster p with
  | none => .next s
  | some c =>
    if !c.follows then .next s
    else
      let s := s.updCluster p fun c => { c with silent := true }
      if c.successor = c.self then
        let s := s.updCluster p fun c => { c with queried := true, agrees := [] }
        .next (((rosterList c.roster).filter fun e => decide (e ≠ c.self ∧ e ≠ c.starter)).foldl
          (fun s e => s.sendCtl p e 0x06 []) s)
      else if c.queryPending then
        .next ((s.updCluster p fun c => { c with queryPending := false }).sendCtl p c.successor 0x07 (leBytes 4 0))
      else .next s

/-- No majority within PEER_LOSS_MS of the query: the successor pauses (R327). -/
def execLeadQueryTimeout (p : PartId) (s : State) : Result :=
  match s.cluster p with
  | none => .next s
  | some c =>
    if c.queried then .next ((s.updCluster p fun c => { c with queried := false, agrees := [] }).noStarter p) else .next s

/-- Neither the starter nor a LEAD_QUERY for twice PEER_LOSS_MS: the member pauses (R327). -/
def execNoStarterTimeout (p : PartId) (s : State) : Result :=
  match s.cluster p with
  | none => .next s
  | some c => if !c.follows ∨ c.queried then .next s else .next (s.noStarter p)

/-- Every 1 s a member that paused for want of a starter asks the configured starter and successor (R327); one that is paused under its
starter stays with it (R326). -/
def execStarterQueryRetry (p : PartId) (s : State) : Result :=
  match s.cluster p with
  | none => .next s
  | some c =>
    if c.state = .paused ∧ c.lostStarter then
      .next (([c.cl.starter, c.cl.successor].eraseDups.filter (· ≠ c.self)).foldl (fun s e => s.sendCtl p e 0x08 []) s)
    else .next s

end Sys2Proof.Machine
end

