-- ==== Sys2Proof/Machine/Security.lean ====
section
/-! DEFINITION. Installing firmware and staged records, attestation, presence, the seal (R376, R377, R386-R394). -/

namespace Sys2Proof.Machine

/-! ### The staging buffer (R270) -/

/-- `n` bytes of the staging buffer. -/
def State.stagedBytes (s : State) (o n : Nat) : List Byte := (List.range n).map fun i => (mapGet s.staging (o + i)).getD 0

/-- Bytes of the staging buffer. -/
def stagingSize : Nat := 0x1000000

/-! ### FW_STAGE (R386) -/

/-- The staged firmware image: its header and, where it fits into the buffer, its body. -/
def State.stagedFw (s : State) : List Byte := s.stagedBytes 0 (Nat.min stagingSize (fwLen (s.stagedBytes 0 0x2000)))

/-- FW_STAGE ends before the NVM is written. -/
def State.fwRefused (s : State) (h : Nat) (r : Refused) : State := (s.raise .sec none r.1 r.2).opDone h 3 r.1 0

/-- FW_STAGE: presence is consumed, the image checked, and its writing waits its turn. -/
def execFwStage (r : Setup) (s : State) : Result :=
  .next (s.opStart r 0x12 (fun s => match s.takePresence 0x12 0 with
      | .error e => .error e
      | .ok s => .ok (s, { num := 0, kind := 0, owner := 0, work := [0] }))
    fun h s =>
      let b := s.stagedFw
      match fwCheck b (s.counter 4) (s.counter 0) with
      | some e => s.fwRefused h e
      | none =>
        let w : NvmWork := { src := .op h, base := nvmFw, data := b, blocks := cdiv b.length 0x10000, live := false }
        ({ s with mc := { s.mc with nvmQueue := s.mc.nvmQueue ++ [w] } } : State).nvmGo)

/-- A counter advances to a value; it never decreases (R375). -/
def State.advance (s : State) (n v : Nat) : State := { s with counters := s.counters.set n (Nat.max (s.counter n) v) }

/-- FW_STAGE has programmed the image: read back, counters, header, FW_INSTALLED (R386). -/
def State.fwFinish (s : State) (h : Nat) (n : Nat) : State :=
  let b := s.nvmRd nvmFw n
  if sha3_512 (b.drop 0x2000) ≠ slice b 0x40 64 then (s.fwRefused h (0x8001, [Config.fieldWord 0x8001 5 0])).nvmNext
  else
    let s := s.advance 0 (fwSvn b)
    let s := if (fwFlags b).1 then s.advance 4 1 else s
    let s := s.writeHeader n s.imageLens.2
    ((s.raise .sec none 0x8003 [fwSvn b, b2n (fwFlags b).2]).opDone h 0 0 0).nvmNext

/-! ### NVM_WRITE (R387) -/

/-- A staged record: target, offset, data, and its place in the request. -/
structure Staged where
  target : Nat
  off : Nat
  data : List Byte

/-- The records of a staged request; the number is how many there are. -/
def stagedRecs : Nat → List Byte → Option (List Staged)
  | 0, _ => some []
  | n + 1, b =>
    let k := rdLE b 8 4
    if b.length < 16 + k ∨ rdLE b 12 4 ≠ 0 then none
    else (stagedRecs n (b.drop (16 + k))).map fun r => ⟨rdLE b 0 4, rdLE b 4 4, (b.drop 16).take k⟩ :: r

/-- Bytes of a record in the request. -/
def Staged.size (r : Staged) : Nat := 16 + r.data.length

/-- The conduct level of the installed configuration image, if one is installed. -/
def State.installedConduct (s : State) : Option Nat :=
  let b := s.nvmRd nvmCfg 0x14
  if s.imageLens.2 ≠ 0 ∧ rdLE b 0 4 = 0x43463834 then some (rdLE b 0xC 4 % 16) else none

/-- Whether a record is privileged (R387, R391). -/
def State.privileged (s : State) (r : Staged) : Bool :=
  match r.target with
  | 1 => s.mc.recovery || decide (s.installedConduct ≠ some (rdLE r.data 0xC 4 % 16))
  | 3 => s.mc.recovery
  | _ => true

/-- A debug-unlock token is accepted (R393). -/
def State.tokenOk (s : State) (t : List Byte) : Bool :=
  decide (t.length = 4659) && decide (rdLE t 0 4 = 0x44423834) && decide (rdLE t 4 4 = s.counter 2) &&
    decide (rdLE t 8 8 = Config.serial.toNat) && zeros t 0x10 0x10 &&
    s.ownerKey.any fun k => Config.mldsaVerify k (ascii "T840-DBG") (sha3_512 (slice t 0 0x20)) (slice t 0x20 4627)

/-- What a malformed record answers (R387): the checks that name no event of their own. An owner key record needs the storage
key for its tag, a pairing the PUF root (R376, R388). -/
def State.recordBad (s : State) (r : Staged) : Bool :=
  match r.target with
  | 1 => false
  | 2 => decide (r.data.length ≠ 2592) || !s.mc.storageKey
  | 3 => decide (r.off % 4096 ≠ 0) || decide (payloadBytes < r.off + r.data.length)
  | 4 => decide (r.data ≠ [])
  | 5 => !s.tokenOk r.data
  | 6 => decide (r.data ≠ []) || s.paired || !s.mc.root
  | _ => true

/-- The first CONFIG record that fails its checks, each under the owner key and the version that the records before it
leave. -/
def cfgRecordsCheck : List Staged → Option (List Byte) → Nat → Option Refused
  | [], _, _ => none
  | r :: l, owner, version =>
    match r.target with
    | 2 => cfgRecordsCheck l (some r.data) version
    | 1 => (cfgCheck r.data owner version).orElse fun _ => cfgRecordsCheck l owner (Nat.max version (rdLE r.data 8 4))
    | _ => cfgRecordsCheck l owner version

/-- The staged request, if its header and its records are whole. -/
def State.stagedRequest (s : State) : Option (List Staged) :=
  let h := s.stagedBytes 0 16
  if rdLE h 4 4 ≠ 0 ∨ rdLE h 8 8 ≠ 0 ∨ stagingSize < rdLE h 0 4 then none
  else stagedRecs (rdLE h 0 4) (s.stagedBytes 16 (stagingSize - 16))

/-- NVM_WRITE with nothing left to write is DONE. -/
def State.nvmWriteEnd (s : State) (h : Nat) : State :=
  match s.handleOf h with
  | some x => if x.work = [] then s.opDone h 0 0 0 else s
  | none => s

/-- NVM_WRITE: every record is checked, presence is consumed where one is privileged, and the writing waits its turn. The
handle's work list holds the places of the records still to apply. -/
def execNvmWrite (r : Setup) (s : State) : Result :=
  .next (s.opStart r 0x13 (fun s => match s.stagedRequest with
      | none => .error (stField, s)
      | some l =>
        if l.any s.recordBad then .error (stField, s)
        else
          let x : Handle := { num := 0, kind := 0, owner := 0 }
          match l.find? s.privileged with
          | none => .ok (s, x)
          | some p => match s.takePresence 0x13 p.target with
            | .error e => .error e
            | .ok s => .ok (s, x))
    fun h s =>
      let l := (s.stagedRequest).getD []
      match cfgRecordsCheck l s.ownerKey (s.counter 1) with
      | some e => (s.raise .sec none e.1 e.2).opDone h 3 e.1 0
      | none =>
        let total := (l.map Staged.size).foldl (· + ·) 0
        let places := (l.foldl (fun (a : List Nat × Nat) x => (a.1 ++ [a.2], a.2 + x.size)) ([], 0)).1
        let s := s.updHandle h fun x => { x with work := places, blob := s.stagedBytes 16 total }
        if l = [] then s.nvmWriteEnd h
        else ({ s with mc := { s.mc with nvmQueue := s.mc.nvmQueue ++ [{ src := .op h }] } } : State).nvmGo)

/-- The record that an NVM_WRITE applies next. -/
def Handle.nextRecord (x : Handle) : Option Staged :=
  match x.work with
  | [] => none
  | o :: _ => (stagedRecs 1 (x.blob.drop o)).bind List.head?

/-- The record of a target whose turn it is: the operation runs, heads the writes, and nothing keeps it (R377). -/
def State.dueRecord (s : State) (h target : Nat) : Option Staged :=
  match s.handleOf h, s.nvmHead with
  | some x, some w =>
    if x.kind = 0x13 ∧ x.state = .running ∧ w.src = .op h ∧ !w.live ∧ !s.mc.nvmBusy ∧ !s.nvmInhibited then
      x.nextRecord.filter fun r => decide (r.target = target)
    else none
  | _, _ => none

/-- A record has been applied: the operation goes on to its next record, or is DONE, or CANCELLED as asked (R268, R269). -/
def State.recordDone (s : State) (h : Nat) : State :=
  let s := (s.updHandle h fun x => { x with work := x.work.drop 1 }).updHead fun w => { w with live := false }
  let s := { s with mc := { s.mc with nvmBusy := false } }
  match s.handleOf h with
  | none => s.nvmNext
  | some x =>
    if x.state = .cancelling then (s.opDone h stCancelled 0 0).nvmNext
    else if x.work = [] then (s.opDone h 0 0 0).nvmNext
    else s

/-- CONFIG (R387): the writing of the image begins. -/
def execNvmConfig (h : Nat) (s : State) : Result :=
  match s.dueRecord h 1 with
  | some r => .next (s.nvmBegin nvmCfg 0 (r.data.take (rdLE r.data 0x10 4)))
  | none => .next s

/-- OWNER_KEY (R387, R388): the writing of the record with the next epoch begins. -/
def execOwnerKey (h : Nat) (s : State) : Result :=
  match s.dueRecord h 2 with
  | some r => .next (s.nvmBegin nvmOwner 0 (ownerRecord (s.counter 2 + 1) r.data))
  | none => .next s

/-- PAYLOAD (R387): the writing of the data begins. -/
def execPayload (h : Nat) (s : State) : Result :=
  match s.dueRecord h 3 with
  | some r => if r.data = [] then .next (s.recordDone h) else .next (s.nvmBegin (nvmPayload + r.off) 0 r.data)
  | none => .next s

/-- IDENTITY_RESET (R387, R389): the next generation; the endorsement goes. -/
def execIdentityReset (h : Nat) (s : State) : Result :=
  match s.dueRecord h 4 with
  | some _ =>
    let s := s.advance 3 (s.counter 3 + 1)
    let s := s.nvmErase endorsementAt endorsementBytes
    .next ((s.raise .sec none 0x8005 [s.counter 3]).recordDone h)
  | none => .next s

/-- DEBUG_UNLOCK (R393): the keys are erased, then the debug port opens. -/
def execDebugUnlock (h : Nat) (s : State) : Result :=
  match s.dueRecord h 5 with
  | some _ =>
    let s := { s with mc := { s.mc with root := false, storageKey := false, identityKey := false, debug := true } }
    .next ((s.raise .sec none 0x8006 [s.counter 2]).recordDone h)
  | none => .next s

/-- The flash is paired (R376): the counter root key derived from the PUF root becomes the key of its counters, and the pairing stands in the
counter area. -/
def State.pair (s : State) : State :=
  let s := (s.nvmErase nvmCounters eraseBytes).nvmPut nvmCounters (Config.pairingRecord (Config.counterRootKey Config.pufRoot))
  { s with paired := true, mc := { s.mc with counterKey := true } }

/-- PAIR (R376): the counters of the flash come into use. -/
def execNvmPair (h : Nat) (s : State) : Result :=
  match s.dueRecord h 6 with
  | some _ => .next (s.pair.recordDone h)
  | none => .next s

/-- A record's data has been programmed: what follows it (R387, R388). -/
def State.recordWritten (s : State) (h : Nat) (x : Handle) (w : NvmWork) : State :=
  let s := match x.nextRecord.map Staged.target with
    | some 1 => (s.advance 1 (rdLE w.data 8 4)).writeHeader s.imageLens.1 w.data.length
    | some 2 =>
      let s := s.advance 2 (s.counter 2 + 1)
      let s := { s with mc := { s.mc with ownerKey := slice w.data 8 2592 } }
      s.raise .sec none 0x8004 [s.counter 2]
    | _ => s
  s.recordDone h

/-- NVM_PAGE_COMPLETE (R377, R386): a page or block ends; with the last the write is finished, else the next begins. While writes are
inhibited, what follows the last page, the header's rewriting too, waits for the rail as a next page does. -/
def execNvmPageComplete (s : State) : Result :=
  match s.mc.nvmBusy, s.nvmHead with
  | true, some w =>
    let s := s.nvmPage w
    match s.nvmHead with
    | none => .next s
    | some w' =>
      if !w'.complete || s.nvmInhibited then .next ({ s with mc := { s.mc with nvmBusy := false } } : State).nvmGo
      else match w'.src with
        | .op h => match s.handleOf h with
          | some x => if x.kind = 0x12 then .next (s.fwFinish h w'.data.length) else .next (s.recordWritten h x w')
          | none => .next s.nvmNext
        | _ => .next s.nvmNext
  | _, _ => .next s

/-! ### Staging frames (R270) -/

/-- The check that a staging frame fails: its field, and a READ's status (R245, R270). -/
def State.stagingErr (s : State) (f : Frame) : Option (Nat × Nat × Nat) :=
  if f.gen ≠ 0 then some (0x00, 15, stRequest)
  else if f.ftype ≠ 1 ∧ f.ftype ≠ 2 then some (0x00, 31, stRequest)
  else if f.reserved ≠ 0 then some (0x00, 23, stRequest)
  else if stagingSize ≤ f.offset then some (0x08, 31, stAddress)
  else if f.length = 0 ∨ stagingSize < f.offset + f.length then some (0x0C, 31, stAddress)
  else if f.ftype = 1 ∧ BitVec.ofNat 32 f.seq ≠ s.diag.landed + 1 then some (0x04, 31, stRequest)
  else if f.ftype = 2 ∧ f.seq ≠ 0 then some (0x04, 31, stRequest)
  else if f.ftype = 1 ∧ f.tag ≠ 0 then some (0x10, 31, stRequest)
  else none

/-- The response to a READ frame (R246). -/
def stagingResponse (f : Frame) (status : Nat) (data : List Byte) : List Byte :=
  leBytes 4 (0x82 * 2 ^ 24 + status) ++ leBytes 4 0 ++ leBytes 4 f.offset ++ leBytes 4 data.length ++ leBytes 4 f.tag ++ leBytes 12 0 ++ data

/-- STAGING_FRAME (R270): a frame of DIAG or RECOVERY reads or writes the staging buffer by the rules of R243 to R246. -/
def execStagingFrame (f : Frame) (s : State) : Result :=
  if !s.linked || s.diag.resetBusy || s.diag.fault then .next s
  else
    let respond := fun (s : State) st d => { s with diag := { s.diag with responses := s.diag.responses ++ [stagingResponse f st d] } }
    match s.stagingErr f with
    | some (o, b, st) =>
      if f.ftype = 2 ∧ f.gen = 0 then .next (respond s st [])
      else
        let s := if f.ftype = 2 then respond s st [] else s
        let s := { s with diag := { s.diag with fault := true } }
        .next (s.raise .usb none 0x2004 [if s.mc.recovery then 0 else 5, f.seq, Config.fieldWord 0x2004 o b])
    | none =>
      if f.ftype = 2 then .next (respond s 0 (s.stagedBytes f.offset f.length))
      else
        let m := (indexed f.data).foldl (fun m e => mapPut 0 m (f.offset + e.1) e.2) s.staging
        .next { s with staging := m, diag := { s.diag with landed := BitVec.ofNat 32 f.seq } }

/-! ### Attestation (R390) -/

/-- ATT_GO: a report begins, unless one is in progress; without an identity none is made. -/
def execAttGo (s : State) : Result :=
  if !s.mc.on || s.mc.attBusy then .next s
  else if s.mc.identityKey then .next (({ s with mc := { s.mc with attBusy := true } } : State).setFld secAttCtl 7 0 1)
  else .next (s.setFld secAttCtl 7 0 2)

/-- Bytes of the report that are signed. -/
def State.attBody (s : State) : List Byte :=
  let flags := b2n s.mc.recovery + 2 * b2n s.mc.debug + 4 * b2n (!s.mc.sealIntact) + 8 * b2n (s.publishes && s.minOnly)
  leBytes 4 0x41543834 ++ leBytes 2 1 ++ leBytes 2 flags ++ leBytes 4 5204 ++ leBytes 4 0 ++ leBytes 8 Config.serial.toNat ++
    leBytes 4 deviceId.toNat ++ leBytes 4 s.mc.conduct ++ leBytes 8 s.mc.time ++ leBytes 8 0 ++
    (List.range 16).flatMap (fun w => leBytes 4 (s.reg (secAttNonce w)).toNat) ++ sha3_512 (slice s.mc.fwHeader 0 0xAA0) ++
    leBytes 4 (s.counter 0) ++ leBytes 4 (s.counter 4) ++ leBytes 4 (s.counter 1) ++ leBytes 4 (s.counter 5) ++
    padTo 64 s.mc.cfgDigest ++ sha3_512 s.mc.ownerKey ++ s.census ++ (if s.publishes then s.ageing else leBytes 64 0) ++
    sha3_512 s.identityPub

/-- ATT_REPORT_DONE: the report is signed with the identity key and stands in SEC_ATT_DATA; a report whose identity has gone
is not made. -/
def execAttReportDone (s : State) : Result :=
  if !s.mc.attBusy then .next s
  else
    let s := { s with mc := { s.mc with attBusy := false } }
    if !s.mc.identityKey then .next (s.setFld secAttCtl 7 0 2)
    else
      let b := s.attBody
      let (k, s) := s.fresh
      let r := b ++ slice (Config.mldsaSign (identitySeed (s.counter 3)) (ascii "T840-ATT") (sha3_512 b) k) 0 4627 ++ [0]
      let s := (indexed (toWords 1301 r)).foldl (fun s e => s.setReg (secAttData e.1) e.2) s
      .next (s.setFld secAttCtl 7 0 0)

/-! ### Presence and the seal (R391, R392) -/

/-- Least length of an assertion of PRESENCE_N in ns (R391). -/
def presenceNs : Nat := 100000000

/-- Whether the seal loop has been intact since an assertion that now ends began (R391). DESIGN CHOICE: an assertion lasts 100 ms (log entry
55). -/
def State.sealKept (s : State) : Bool := s.mc.sealIntact && s.mc.sealAt.all fun t => decide (t + presenceNs ≤ s.mc.time)

/-- PRESENCE_ASSERT: presence is armed for 60 s from the end of the assertion, unless the seal was open during it; hub 0 samples it from
AUX_3V3. -/
def execPresenceAssert (s : State) : Result :=
  if s.mc.aux && s.sealKept then .next { s with mc := { s.mc with armedUntil := some (s.mc.time + 60000000000) } } else .next s

/-- PRESENCE_EXPIRE. -/
def execPresenceExpire (s : State) : Result := .next { s with mc := { s.mc with armedUntil := none } }

/-- SEAL_OPEN: counted once for each opening, on a flash whose counters are in use (R376); without AUX_3V3 the device cannot sense it. -/
def execSealOpen (s : State) : Result :=
  if !s.mc.sealIntact then .next s
  else if !s.mc.aux then .next { s with mc := { s.mc with sealIntact := false } }
  else
    let s := if s.paired then s.advance 5 (s.counter 5 + 1) else s
    let s := { s with mc := { s.mc with sealIntact := false, armedUntil := none } }
    .next (s.raise .sec none 0x8007 [s.counter 5])

/-- SEAL_INTACT: the loop closes; the MC counter says since when. -/
def execSealIntact (s : State) : Result :=
  if s.mc.sealIntact then .next s else .next { s with mc := { s.mc with sealIntact := true, sealAt := some s.mc.time } }

end Sys2Proof.Machine
end

