-- ==== Sys2Proof/Machine/Start.lean ====
section
/-! DEFINITION. Starts of the device: power-on and cold reset, the stages of R371, the configuration applied, cascade start,
standing jobs, test mode (R330, R331, R370-R373, R382, R385, R394, R398, R399, R428, R434). -/

namespace Sys2Proof.Machine

/-! ### Stages 1 to 5 -/

/-- The MC leaves reset (R371 event 1). After an application of AUX_3V3 nothing stands in the registers that keep their value
until it is removed; the MC takes what the ageing log says. -/
def State.leaveReset (s : State) (cold : Bool) : State :=
  let s := s.volatileLost
  let s := if cold then s else { s with mc := { s.mc with root := false, testz := false, debug := false } }
  let s := { s with mc := { s.mc with on := true, aux := true, auxStart := !cold } }
  match s.fixedArea with
  | some b => s.restoreFixed b.2
  | none => s

/-- A start fails in a stage: the device enumerates with the recovery identity (R237, R373). -/
def State.startFails (s : State) (stage : Nat) (src : Src) (r : Refused) : State :=
  let s := { s with mc := { s.mc with recovery := true, stage := stage, failStage := stage, cause := r.1 % 256 } }
  let s := s.setReg usbIds (pack [(0x0840, 16), (0x2B1A, 0)])
  (s.raise src none r.1 r.2).attach

/-- A start goes on in the next stage. -/
def State.toStage (s : State) (n : Nat) : State := { s with mc := { s.mc with stage := n } }

/-- The self-test of hub 0, the MC and the security block in a stage: a failure ends the start with START_FAILED (R398). -/
def State.tested (s : State) (env : StartEnv) (n : Nat) : Except State State :=
  match env.selfFail with
  | none => .ok s
  | some (i, usb) =>
    if i.val + 2 = n then
      .error (({ s with mc := { s.mc with usbDown := !usb } } : State).startFails n .mc (0x9050, [n, Config.fieldWord 0x9050 n 0]))
    else .ok s

/-- Stage 2: on a power-on start the PUF root is reconstructed; the storage key follows from a root (R371, R389). -/
def State.startPuf (s : State) (cold : Bool) (env : StartEnv) : Except State State :=
  ((s.toStage 2).tested env 2).bind fun s =>
  if !cold && !env.pufOk then .error (s.startFails 2 .sec (0x8009, []))
  else
    let root := s.mc.root || !cold
    .ok { s with mc := { s.mc with root := root, storageKey := root } }

/-- Stage 3: the counter area carries a pairing and the counters authenticate under its key; the identity key follows (R371, R376, R389). -/
def State.startCounters (s : State) (env : StartEnv) : Except State State :=
  ((s.toStage 3).tested env 3).bind fun s =>
  let record := Config.pairingRecord (Config.counterRootKey Config.pufRoot)
  if !s.paired || decide (s.nvmRd nvmCounters record.length ≠ record) then .error (s.startFails 3 .sec (0x800A, [0xFF]))
  else if !env.countersOk then
    let (k, s) := s.fresh
    .error (s.startFails 3 .sec (0x800A, [Config.free k % 8]))
  else .ok { s with mc := { s.mc with counterKey := true, identityKey := s.mc.root } }

/-- Stage 4: the firmware image (R371, R380). -/
def State.startFirmware (s : State) (env : StartEnv) : Except State State :=
  ((s.toStage 4).tested env 4).bind fun s =>
  let b := s.nvmRd nvmFw s.imageLens.1
  match fwCheck b (s.counter 4) (s.counter 0) with
  | some e => .error (s.startFails 4 .sec e)
  | none => .ok { s with mc := { s.mc with fwHeader := b.take 0x2000 } }

/-- Stage 5: the owner key record and the configuration image (R371, R381, R388). -/
def State.startConfig (s : State) : Except State State :=
  let s := s.toStage 5
  let owner := if s.mc.storageKey then recordOwner (s.nvmRd nvmOwner 0xA68) (s.counter 2) else none
  let s := { s with mc := { s.mc with ownerKey := owner.getD [] } }
  let b := s.nvmRd nvmCfg s.imageLens.2
  match cfgCheck b owner (s.counter 1) with
  | some e => .error (s.startFails 5 .mc e)
  | none => .ok { s with mc := { s.mc with
      conduct := rdLE b 0xC 4 % 16, cfgDigest := sha3_512 b, cfg := ((cfgRecords b).getD []).map fun r => (r.ty, r.val) } }

/-- What a start reports of the time before it: a brownout, an assertion of TEST_MODE (R397, R416). -/
def State.startReports (s : State) (brownout cold : Bool) : State :=
  let s := if brownout then s.raise .pwr none 0x9002 [b2n (!cold)] else s
  if s.mc.testSeen then ({ s with mc := { s.mc with testSeen := false } } : State).raise .sec none 0x800B [] else s

/-- A start up to its request for power (R371 events 1 to 6, R428); hub 0 has passed its self-tests by then (R398). -/
def State.start (s : State) (cold : Bool) (env : StartEnv) : State :=
  let brownout := s.mc.brownout
  let s := (s.leaveReset cold).startReports brownout cold
  match ((((s.startPuf cold env).bind fun s => s.startCounters env).bind fun s => s.startFirmware env).bind
      State.startConfig) with
  | .error s => s
  | .ok s => { s.toStage 6 with mc := { (s.toStage 6).mc with pwrReq := true, hubsUp := 1 } }

/-- POWER_ON_START (R370, R371): AUX_3V3 is applied. After a brownout that left the PUF root the start is a cold one (R416). -/
def execPowerOnStart (env : StartEnv) (s : State) : Result :=
  if s.mc.aux then .next s else .next (s.start (s.mc.brownout && env.rootKept && s.mc.root) env)

/-- RST_N_ASSERT (R429, R434): the rails go off, PWR_REQ falls, and the device waits for the release. -/
def execRstNAssert (s : State) : Result :=
  if s.mc.aux then
    let s := s.finishPage.volatileLost
    .next { s with mc := { s.mc with aux := true, rstLow := true } }
  else .next s

/-- RST_N_RELEASE (R370, R434): a cold reset. -/
def execRstNRelease (env : StartEnv) (s : State) : Result := if s.mc.rstLow then .next (s.start true env) else .next s

/-- MC_RESET_CTL_COLD (R370, R395): a cold reset. -/
def execMcResetCtlCold (env : StartEnv) (s : State) : Result :=
  if s.mc.on then .next (s.finishPage.start true env) else .next s

/-! ### Stages 6 to 8: rails and proof -/

/-- Rail of a core as it comes up: delay codes and floor as the part's calibration sets them, which the spec leaves open within
their ranges (R25, R398, R410; log entry 17). -/
def CoreRail.up (r : CoreRail) (k : Nat) : CoreRail :=
  if r.retired then r
  else
    let floor := 500 + 5 * (Config.free k % 71)
    { r with
      on := true, floor := floor, volt := floor + Config.free (k + 1) % (851 - floor)
      codes := (List.range 8).map fun i => Config.free (k + 2 + i) % 64 }

/-- Every rail and every block that is not retired comes up; proof has not run (R399, R404, R428). -/
def State.blocksUp (s : State) : State :=
  let k := s.freeCtr
  let s := { s with
    freeCtr := k + 80
    cores := Vector.ofFn fun c => { s.cores[c] with inService := !s.mc.rails[c].retired }
    mc := { s.mc with
      hubRailOn := true, portsOn := true, stacksUp := 0xFF, hubsUp := 0xF, meshUp := 0x3F, regsUp := 0xF, portsUp := 0xFF
      rails := Vector.ofFn fun c => s.mc.rails[c].up (k + 10 * c.val) } }
  (allCores.filter fun c => s.mc.rails[c].retired).foldl (fun s c => s.setFld (coreFence c.val) 30 30 1) s

/-- The memory that a number names in the remap list (R413). -/
def memOf (n : Nat) : KneadMem := if n = 0 then .wm else if n = 1 then .crumb else .side

/-- A spare of a core is taken for a region of one of its memories (R194). -/
def CoreS.takeSpare (k : CoreS) (m : KneadMem) (r : Nat) : CoreS :=
  { k with spares := k.spares.set (spareSlot m r) (k.spares.getD (spareSlot m r) 0 - 1) }

/-- The knead remaps of the ageing log are applied again, and regions that fail proof take spares while there are some
(R194, R398); without one the core is fenced. -/
def State.proofRemaps (s : State) (l : List (Nat × Nat × Nat)) : State :=
  let s := s.mc.remapLog.foldl (fun s e => s.updCore (coreId e.1) fun k => k.takeSpare (memOf e.2.1) e.2.2.2) s
  l.foldl (fun s e =>
    let c := coreId e.1
    let m := memOf e.2.1
    let n := spareSlot m e.2.2
    let left := s.cores[c].spares.getD n 0
    if left = 0 then s.blockFails .core c.val 0x5021 true
    else
      let spare := (if n = 2 then 32 else 0) + (spareTotal n - left)
      let s := s.updCore c fun k => k.takeSpare m e.2.2
      ({ s with mc := { s.mc with remapLog := s.mc.remapLog ++ [(c.val, KneadMem.code m, spare, e.2.2)] } } : State).fixedLog) s

/-- Pairs as a table; of two with one key the later stands. -/
def asTable (l : List (Nat × Nat)) : List (Nat × Nat) := l.foldl (fun (m : List (Nat × Nat)) (e : Nat × Nat) => mapSet m e.1 e.2) []

/-- Listed rows are repaired, and the list is empty again (R190, R398). -/
def State.proofRepairs (s : State) (l : List (Nat × Nat)) : State :=
  let life := l.foldl (fun m e => mapSet m e.1 ((mapGet m e.1).getD 0 + e.2)) s.mc.repairsLife
  let s := { s with mc := { s.mc with repairsNow := asTable l, repairsLife := life, repairs := [] } }
  s.fixedLog

/-- Proof (R398, R399): what fails becomes unusable. -/
def State.proof (s : State) (r : ProofResult) : State :=
  let s := (s.proofRemaps r.remaps).proofRepairs r.repairs
  let spent := s.mc.rails.toList.any fun x => x.byProof
  let s := { s with mc := { s.mc with firstFail :=
    if spent then 0x5021 else match r.fails with | f :: _ => f.2.2 | [] => if r.usb2 then 0 else 0x9050 } }
  let s := r.fails.foldl (fun s f => if f.2.1 < blockCount f.1 then s.blockFails f.1 f.2.1 f.2.2 true else s) s
  { s with mc := { s.mc with
      usbMax := Nat.min 4 r.usbMax, lanes := asTable r.lanes
      proofMs := r.proofMs, firstFail := s.mc.firstFail, usbDown := !r.usb2
      rails := Vector.ofFn fun c => { s.mc.rails[c] with crumbFail := (mapGet r.crumbFail c.val).getD 0 } } }

/-- The host context regions move to the lowest-numbered usable stack when stack 0 failed (R171). -/
def State.placeHctx (s : State) : State :=
  match (List.finRange 8).find? fun k => s.mc.stacksUp.getLsbD k.val with
  | none => s
  | some k =>
    if k.val = 0 then s
    else ({ s with mc := { s.mc with hctx := k } } : State).raise .mc none 0x5030 [k.val]

/-- The start minimum (R399). -/
def State.minimum (s : State) : Bool :=
  allCores.any (fun c => s.cores[c].inService) && decide (s.mc.stacksUp ≠ 0) && s.mc.hubsUp.getLsbD 0 && decide (1 ≤ s.mc.usbMax)

/-! ### Stage 9: the configuration (R371, R382) -/

/-- Entries of a PORT_SCHED record go to the administrative bank (R288, R382). -/
def State.applyEntries (s : State) (t start n : Nat) (v : List Byte) : State :=
  (List.range n).foldl (fun s i =>
    (s.setFld (portGateEnt t ((start + i) % 256) 0) 7 0 (rdLE v (24 + 8 * i) 4)).setReg (portGateEnt t ((start + i) % 256) 1)
      (BitVec.ofNat 32 (rdLE v (28 + 8 * i) 4))) s

/-- A PORT_SCHED record: the administrative schedule, which operates at once where EN is set. -/
def State.applySched (s : State) (v : List Byte) : State :=
  let f := fun n => recField 0x24 n v
  let t := f 0
  let k := f 1
  let s := s.applyEntries t (f 4) (f 5) v
  let s := s.setReg (portGateCycle t k) (BitVec.ofNat 32 (f 6))
  let s := (s.setFld (portGateBaseNs t k) 29 0 (f 7)).setReg (portGateBaseSec t k) (BitVec.ofNat 32 (f 8))
  let s := s.setReg (portGateCtl t k) (pack [(f 2 % 2, 31), (f 3 % 16, 24), (f 4 % 256, 16), (f 5 % 512, 0)])
  if f 2 % 2 = 1 then s.copySched (Fin.ofNat 8 t) (Fin.ofNat 2 k) else s

/-- A record of a port takes effect. -/
def State.applyPort (s : State) (ty : Nat) (v : List Byte) : State :=
  let f := fun n => recField ty n v
  let t := f 0
  match ty with
  | 0x20 => s.setReg (portCtl t) (pack [(f 5 % 256, 24), (f 4 % 16, 16), (f 6 % 8, 13), (f 3 % 2, 11), (f 2 % 4, 4), (f 1 % 4, 0)])
  | 0x21 =>
    let o := portTag t (f 2)
    (((s.setFld o 31 31 (f 3)).setFld o 11 0 (f 4)).setFld o 29 24 (f 5)).setFld o 23 16 (f 6)
  | 0x22 => s.setFld (portTag t 0) 30 30 (f 10)
  | 0x24 => s.applySched v
  | 0x25 => s.setFld (portPtpCtl t) 1 0 (f 1)
  | 0x26 => s.setReg (portOtCtl t) (pack [(f 2 % 65536, 16), (f 1 % 2, 0)])
  | 0x27 => s.writeCtx (Fin.ofNat 8 t) (f 1) (v.drop 4)
  | 0x28 => s.updPort (Fin.ofNat 8 t) fun p => { p with mrs := mapSet p.mrs (f 1) ⟨f 2, f 3, f 4, f 5, f 6⟩ }
  | _ => s

/-- A CORE_MEM record: retention, the gaps and the deadline of a core (R202). -/
def State.applyCoreMem (s : State) (v : List Byte) : State :=
  let c := rdLE v 0 1
  let s := (s.setFld (coreMemRet c) 31 24 (rdLE v 2 1)).setFld (coreMemRet c) 8 8 (rdLE v 1 1)
  let s := s.setReg (coreMemKneadCtl c) (pack [(rdLE v 6 1, 16), (rdLE v 5 1, 8), (rdLE v 4 1, 0)])
  s.setFld (coreMemKneadStat c) 2 2 (b2n (decide (rdLE v 3 1 ≠ 0)))

/-- A PARTITION record: cores and ranges of a partition (R223). -/
def State.applyPart (s : State) (v : List Byte) : State :=
  let p : PartId := Fin.ofNat 4 (rdLE v 0 1)
  let m := rdLE v 1 1
  let ranges := (List.range (rdLE v 2 1)).map fun i => (rdLE v (4 + 4 * i) 2, rdLE v (6 + 4 * i) 2)
  let s := s.updPart p fun q => { q with phys := BitVec.ofNat 8 m, ranges := ranges }
  { s with cores := Vector.ofFn fun c => if m.testBit c.val then { s.cores[c] with part := some p } else s.cores[c] }

/-- A record of the configuration takes effect. -/
def State.applyRec (s : State) (r : Nat × List Byte) : State :=
  let v := r.2
  match r.1 with
  | 0x01 => s.setReg usbIds (BitVec.ofNat 32 (rdLE v 0 4))
  | 0x02 => s.setFld pwrBase 31 16 (rdLE v 0 4)
  | 0x03 => s.setFld mcRateCap 15 0 (rdLE v 0 4)
  | 0x10 => s.applyPart v
  | 0x11 => s.applyCoreMem v
  | 0x12 => s.setFld (hubHbmScrub (rdLE v 0 1 / 2) (rdLE v 0 1 % 2)) 31 24 (rdLE v 1 1)
  | 0x30 => if rdLE v 0 1 = 0 then s else (s.setFld mcSyncIo 31 30 (rdLE v 0 1)).setFld mcSyncIo 8 8 (if rdLE v 0 1 = 3 then rdLE v 2 1 else 0)
  | n => if 0x20 ≤ n ∧ n < 0x30 then s.applyPort n v else s

/-- Stage 9: the default power limit, then every record; windows at their regions, and the regions zeroed (R241, R249, R371). -/
def State.applyConfig (s : State) : State :=
  let s := s.mc.cfg.foldl State.applyRec (s.setFld pwrBase 31 16 950)
  allParts.foldl (fun s p => (s.zeroRange (s.hctx p) 0x4000000).updIface p fun i => { i with base := s.hctx p }) s

/-! ### Release (R330, R331, R385) -/

/-- Cascade position of the SYNC_IO record (R382). -/
def State.cascadePos (s : State) : Nat := ((s.syncRec 1).map fun v => rdLE v 3 1).getD 0

/-- A device that is released loads its standing jobs and starts the jobs that waited. -/
def State.release (s : State) (how : CascadeState) : State :=
  let s := { s.toStage 0xC with mc := { (s.toStage 0xC).mc with cascade := how } }
  let s := allParts.foldl (fun s p => match s.job p with
    | some j => if j.cmt.restart && s.mayRestart p then s.startStreams p else s
    | none => s) s
  s.loadAllStanding

/-- Stages 10 to 12: start completes, the host link and the ports come up, and the device is released unless cascade start
holds it (R330, R371, R372). -/
def State.completeStart (s : State) : State :=
  let s := { s.toStage 0xB with mc := { (s.toStage 0xB).mc with complete := true } }
  let (k, s) := s.fresh
  let s := s.raise .mc none 0x0001 [s.mc.time / 1000000, Config.free k % 2 ^ 32]
  let s := s.attach
  let s := (List.finRange 8).foldl (fun s t =>
    if s.mc.portsUp.getLsbD t.val then (List.finRange 4).foldl (fun s q => s.setLink t q (s.linkStart t q)) s else s) s
  if !s.mc.auxStart || (s.syncRec 1).isNone then s.release .notApplied
  else if s.cascadePos ≤ s.mc.pulses then s.release .byCount
  else { s with mc := { s.mc with cascade := .held } }

/-- Whether a start waits for its power-good inputs. -/
def State.awaitsPower (s : State) : Bool := s.mc.on && decide (s.mc.stage = 6) && decide (s.mc.failStage = 0) && s.mc.pwrReq

/-- POWER_GOOD (R371 events 6 to 12, R428): every power-good input is high (R438). -/
def execPowerGood (proof : ProofResult) (s : State) : Result :=
  if !s.awaitsPower then .next s
  else
    let s := ((s.toStage 8).setFld pwrPg 5 0 0x3F).blocksUp.proof proof |>.placeHctx
    if s.minimum && proof.usb2 then .next (s.toStage 9).applyConfig.completeStart
    else .next (s.startFails 8 .mc (0x9050, [8, Config.fieldWord 0x9050 8 0]))

/-- POWER_GOOD_TIMEOUT (R428): stage 6 fails and PWR_REQ falls. -/
def execPowerGoodTimeout (s : State) : Result :=
  if !s.awaitsPower then .next s
  else
    let s := { s with mc := { s.mc with pwrReq := false, firstFail := 0x9050 } }
    .next (s.startFails 6 .mc (0x9050, [6, Config.fieldWord 0x9050 6 0]))

/-- CASCADE_PULSE (R330): a pulse of another device is counted, and releases a held device that it brings to its position. -/
def execCascadePulse (s : State) : Result :=
  if !s.mc.on then .next s
  else
    let s := { s with mc := { s.mc with pulses := Nat.min 63 (s.mc.pulses + 1) } }
    if s.mc.cascade = .held ∧ s.cascadePos ≤ s.mc.pulses then .next (s.release .byCount) else .next s

/-- Whether every standing job that is loaded has begun its first step (R331). -/
def State.standingBegun (s : State) : Bool :=
  allParts.all fun p => (s.job p).all fun j => j.standing.isNone || j.step.started

/-- CASCADE_DELAY_EXPIRE (R331): the released device drives its one pulse; after a timed release it drives none. -/
def execCascadeDelayExpire (s : State) : Result :=
  if s.mc.complete && (s.syncRec 1).isSome && decide (s.mc.cascade = .byCount ∨ s.mc.cascade = .notApplied) && !s.mc.pulsed &&
      s.standingBegun then
    .next { s with mc := { s.mc with pulsed := true, syncOut := s.mc.syncOut + 1 } }
  else .next s

/-- CASCADE_TIMEOUT (R331): a held device releases itself. -/
def execCascadeTimeout (s : State) : Result :=
  if s.mc.cascade = .held then .next ((s.raise .mc none 0x9040 [s.cascadePos, s.mc.pulses]).release .byTimeout) else .next s

/-- STANDING_JOB_RESTART (R385): the reload that a job's end made due. -/
def execStandingJobRestart (p : PartId) (s : State) : Result :=
  match mapGet s.mc.restartAt p.val, s.standingRec p with
  | some _, some v =>
    let s := { s with mc := { s.mc with restartAt := mapErase s.mc.restartAt p.val } }
    if (s.job p).isSome then .next s else .next (s.loadStanding p v)
  | _, _ => .next s

/-! ### Test mode (R394) -/

/-- TEST_MODE_ASSERT: the keys go, then the memories of every core with the table headers in their side memory, then TESTZ is set. -/
def execTestModeAssert (s : State) : Result :=
  if s.mc.aux then
    let s := { s with mc := { s.mc with root := false, storageKey := false, identityKey := false, counterKey := false } }
    let s := s.mapCores fun k => { k with first := { k.first with tables := [] }, guest := { k.guest with tables := [] } }
    let s := (s.zeroRange (crumbBase 0) 0x800000000).zeroRange (wmBase 0) 0x80000000
    .next { s with mc := { s.mc with testz := true, testSeen := true } }
  else .next s

end Sys2Proof.Machine
end

