-- ==== Sys2Proof/Machine/RegWrite.lean ====
section
/-! DEFINITION. Register writes (R10-R12, R239, and the access columns of the register tables of spec/). -/

namespace Sys2Proof.Machine

/-- The state after a meaning; every meaning answers a next state. -/
def after (r : Result) (s : State) : State := match r with | .next s => s | _ => s

/-- A bit of a word written as 1 has an effect (W1S, R11). -/
def act (v : Word) (b : Nat) (f : State → Result) (s : State) : State := if bitAt v b then after (f s) s else s

/-! ### The MC block -/

/-- MC_LOG_SEL (R423): the entry is loaded into MC_LOG_DATA_w, free values for an index past the log. -/
def execMcLogSelWrite (value : Word) (s : State) : Result :=
  let n := fld value 23 0
  let s := s.setReg mcLogSel (BitVec.ofNat 32 n)
  let k := s.freeCtr
  let (ws, s) := if n < logEntries then (toWords 8 (s.nvmRd (logAddr n) 32), s)
    else ((List.range 8).map fun i => BitVec.ofNat 32 (Config.free (k + i)), { s with freeCtr := k + 8 })
  .next ((indexed ws).foldl (fun s e => s.setReg (mcLogData e.1) e.2) s)

/-- DRIVE of MC_SYNC_IO (R438): it keeps the value written, and drives the land only with CLAIM 3 and DIR 1. -/
def execMcSyncIoDrive (drive : Bool) (s : State) : Result := .next (s.setFld mcSyncIo 1 1 (b2n drive))

/-- MC_RESET_CTL (R395): KEY stays, COLD with the right key in the same write causes a cold reset. Whether the counters of the
flash authenticate then is the flash's answer, a free value here (log entry 2). -/
def State.writeResetCtl (s : State) (v : Word) : State :=
  if bitAt v 0 ∧ fld v 31 16 = 0xA5C3 then
    let (k, s) := s.fresh
    after (execMcResetCtlCold { pufOk := true, countersOk := decide (Config.free k % 2 = 0), rootKept := true } s) s
  else s.setFld mcResetCtl 31 16 (fld v 31 16)

/-- A write in the MC block. -/
def State.writeMc (s : State) (o : Nat) (v : Word) : State :=
  if o = mcResetCtl then s.writeResetCtl v
  else if o = mcLogSel then after (execMcLogSelWrite v s) s
  else if o = mcSyncIo then after (execMcSyncIoDrive (bitAt v 1) s) s
  else if o = mcAlert then
    let s := s.setFld mcAlert 1 1 (fld v 1 1)
    if bitAt v 0 then s.setFld mcAlert 0 0 0 else s
  else s

/-! ### The hub, core and SEC blocks -/

/-- A write in the HUB block of hub `h` (R203). -/
def State.writeHub (s : State) (h o : Nat) (v : Word) : State :=
  let p := fld v 31 24
  if (o = 0x1014 ∨ o = 0x1114) ∧ 1 ≤ p ∧ p ≤ 72 then s.setFld (hubBase h + o) 31 24 p else s

/-- A write in the CORE block of core `c`, and whether it reached an RWL field (R66, R104, R140, R166, R202, R230, R367, R422). -/
def State.writeCore (s : State) (c : CoreId) (o : Nat) (v : Word) : State × Bool :=
  match o with
  | 0x2014 => (act v 3 (execCoreNumClrSumviol c) (act v 2 (execCoreNumClrNonfin c)
      (act v 1 (execCoreNumClrOutsat c) (act v 0 (execCoreNumClrWtrunc c) s))), false)
  | 0x3304 => (act v 2 (execCoreArrClrMismatches c) (act v 1 (execCoreArrClrStalls c) (act v 0 (execCoreArrClrBeats c) s)), false)
  | 0x420C => (act v 2 (execCoreVrClrTagfail c) (act v 1 (execCoreVrClrStalls c) (act v 0 (execCoreVrClrLsteps c) s)), false)
  | 0x5058 => (act v 2 (execCoreGbClrWaits c) (act v 1 (execCoreGbClrBytes c) (act v 0 (execCoreGbClrOps c) s)), false)
  | 0x6000 => (s, true)
  | 0x6020 => (s.setFld (coreMemKneadCtl c.val) 23 0 (fld v 23 0), false)
  | 0x602C => (act v 2 (execCoreMemClrUe c) (act v 1 (execCoreMemClrCe c) (act v 0 (execCoreMemClrWaits c) s)), false)
  | 0x7100 => (act v 0 (execCoreStrClrCounts c) s, false)
  | 0x901C => (act v 2 (execCoreNetClrBubble c) (act v 1 (execCoreNetClrStalls c) (act v 0 (execCoreNetClrOps c) s)), false)
  | 0xA01C =>
    let s := s.setFld (coreFence c.val) 25 18 (fld v 25 18)
    (if fld v 25 18 = 0xA5 then act v 16 (execCoreFenceForce c) s else s, false)
  | _ => (s, false)

/-- A write in the SEC block (R396). -/
def State.writeSec (s : State) (o : Nat) (v : Word) : State :=
  if o = 0x200 then act v 31 execAttGo s
  else match within o 0x240 16 4 with
  | some (w, _) => s.setReg (secAttNonce w) v
  | none => s

/-! ### The port blocks (R288-R290, R302, R332) -/

/-- Whether an entry of the administrative bank belongs to a schedule with a change pending (R290). -/
def State.entryHeld (s : State) (t : PortId) (i : Nat) : Bool :=
  [(0 : Fin 2), 1].any fun k =>
    let o := portGateCtl t.val k.val
    s.ports[t].sched[k].pending && decide (s.regFld o 23 16 ≤ i) && decide (i < s.regFld o 23 16 + s.regFld o 8 0)

/-- PORT_GATE_CTL_k: the schedule's fields, then a withdrawal, then a change. A refused write does nothing. -/
def State.writeGateCtl (s : State) (t : PortId) (k : Fin 2) (v : Word) : State :=
  let refused := (s.gateCtlBad t k v).isSome
  let s := after (execPortGateCtlEn t k v s) s
  if refused then s else act v 30 (execPortGateCtlChange t k) (act v 29 (execPortGateCtlCancel t k) s)

/-- The registers of schedule `k`. -/
def State.writeSched (s : State) (t : PortId) (k : Fin 2) (r : Nat) (v : Word) : State :=
  if r = 0 then s.writeGateCtl t k v
  else if s.ports[t].sched[k].pending then s
  else match r with
    | 0x04 => if 1000 ≤ v.toNat ∧ v.toNat ≤ 1000000000 then s.setReg (portGateCycle t.val k.val) v else s
    | 0x08 => s.setFld (portGateBaseNs t.val k.val) 29 0 (fld v 29 0)
    | 0x0C => s.setReg (portGateBaseSec t.val k.val) v
    | _ => s

/-- PORT_QPX_SEL: its fields, and with GO the operation that OP names; the codes 2 and 3 name none. -/
def State.writeQpx (s : State) (t : PortId) (v : Word) : State :=
  if bitAt v 31 ∧ fld v 29 28 = 0 then after (execQpxRead t v s) s
  else if bitAt v 31 ∧ fld v 29 28 = 1 then after (execQpxWrite t v s) s
  else s.setReg (portQpxSel t.val) (qpxSel v)

/-- A write in the PORT block of a port, and whether it reached an RWL field. -/
def State.writePort (s : State) (t : PortId) (o : Nat) (v : Word) : State × Bool :=
  match within o 0x1000 2 0x20 with
  | some (k, r) => (s.writeSched t (Fin.ofNat 2 k) r v, false)
  | none => match within o 0x2000 256 8 with
  | some (i, r) =>
    (if s.entryHeld t i then s
     else if r = 0 then s.setFld (portGateEnt t.val i 0) 7 0 (fld v 7 0) else s.setReg (portGateEnt t.val i 1) v, false)
  | none => match within o 0x4010 16 4 with
  | some (w, _) => (s.setReg (portQpxData t.val w) v, false)
  | none => match within o 0x0010 8 4 with
  | some _ => (s, true)
  | none => match o with
    | 0x0000 => (s.setFld (portCtl t.val) 12 12 (fld v 12 12), true)
    | 0x0480 => (act v 0 (execPortCntClrAll t) s, false)
    | 0x3000 => (s, true)
    | 0x3010 => (after (execPortPtpFreq t v s) s, false)
    | 0x3014 => (after (execPortPtpStep t v s) s, false)
    | 0x4000 => (s.writeQpx t v, false)
    | 0x5000 => (s, true)
    | 0x5180 => (act v 0 (execPortOtClrAll t) s, false)
    | _ => (s, false)

/-! ### REG_WRITE (R239) -/

/-- A word is written to the register at an offset after start has completed; the flag says that it reached an RWL field, which
keeps its value (R12). -/
def State.regWrite (s : State) (o : Nat) (v : Word) : State × Bool :=
  if o < 0x100000 then (s.writeMc o v, false)
  else match within o 0x100000 4 0x10000 with
  | some (h, r) => (s.writeHub h r v, false)
  | none => match within o 0x1000000 8 0x100000 with
  | some (c, r) => s.writeCore (Fin.ofNat 8 c) r v
  | none => match within o 0x2000000 8 0x10000 with
  | some (t, r) => s.writePort (Fin.ofNat 8 t) r v
  | none => match within o secBase 1 0x100000 with
  | some (_, r) => (s.writeSec r v, false)
  | none => (s, false)

/-- REG_WRITE: the offset is checked, the fields that may be written are, and an RWL field answers LOCKED. In recovery only
MC_RESET_CTL may be written (R373). -/
def execRegWrite (r : Setup) (s : State) : Result :=
  .next (s.request r 0x02 { dev := true, dirIn := false, len := fun n => decide (n = 4), inRecovery := true } fun i s =>
    let o := r.wIndex * 65536 + r.wValue
    let v := BitVec.ofNat 32 (leNat (r.data.take 4))
    if o % 4 ≠ 0 ∨ regSpan ≤ o then s.reqFail i 0x02 stAddress 0
    else if s.mc.recovery ∧ o ≠ mcResetCtl then s.reqFail i 0x02 stRequest 0
    else
      let (s', locked) := (s.reqOk []).regWrite o v
      if locked then s'.reqFail i 0x02 stLocked 0 else s')

end Sys2Proof.Machine
end

