-- ==== Sys2Proof/Machine/Vec.lean ====
section
/-! DEFINITION. The vector engine: VEC descriptors over the vectors of their tile (R56, R107-R120, R135, R137, R155). -/

namespace Sys2Proof.Machine

/-- The bytes of table segments that an evaluation takes (R133, R134). -/
def tabReads (l n : Nat) (t : Option Tab) (d : Bool) (xs : List XNum) : List Nat :=
  match t with
  | none => []
  | some t => ((xs.filterMap (t.uses d)).eraseDups).flatMap (segAddrs l n d)

/-- What the vector `v` of a descriptor reads: its sources and the segments that its elements take (R107, R134). -/
def VecD.vecReads (d : VecD) (p : VecP) (l : Nat) (t : Option Tab) (mem : Nat → Byte) (v : Nat) : List Nat :=
  d.vectorReads p v ++
    (if d.op = 0x20 ∨ d.op = 0x21 then
      tabReads l p.tbl t (decide (d.op = 0x21)) ((List.range (Nat.min 1024 (d.rows * d.cols - v * 1024))).map fun k =>
        d.flat p mem (v * 1024 + k))
    else [])

/-- Why the vector `v` cannot be served: a byte it reads fails, or memory that it reads or writes has become unusable (R184, R190). -/
def State.vecStop (s : State) (j : Job) (l : Nat) (guest : Bool) (d : VecD) (p : VecP) (en : VecEnv) (t : Option Tab) (v : Nat) :
    Option (DErr ⊕ Nat) :=
  let mem := s.lrd j
  let reads := d.vecReads p l t mem v
  let writes := if guest then
      let before := (d.run p en t mem v).stores.map Prod.fst
      ((d.run p en t mem (v + 1)).stores.map Prod.fst).filter fun a => !before.contains a
    else []
  match (s.checkUsable j false reads).orElse fun _ => s.checkUsable j true writes with
  | some err => some (.inl err)
  | none => (s.lbad j reads).map .inr

/-- The floor of a conversion to the wire where the parameter block gives none: 63 + s_g (R50). -/
def Job.wireFloor (j : Job) : Nat := if j.numr.isSome then (63 + j.num.sg).toNat else 0

/-- What a VEC descriptor with destination `a` takes from its job (R50, R53, R114). -/
def Job.vecEnv (j : Job) (a : Nat) : VecEnv := ⟨(j.numr.map NumRec.seed).getD 0, j.commitUnder, j.wireFloor, j.inPub a⟩

/-- The use-0 tile that a CVT from WG64 reads before its tie-adds are complete (R152). -/
def State.untied (s : State) (j : Job) (l : Nat) (d : VecD) : Option Nat :=
  if d.op ≠ 0x01 ∨ d.f0 ≠ 12 then none
  else
    match j.serve l with
    | none => none
    | some v =>
      (s.lctx v).slots.findSome? fun g =>
        match j.tileOf l g.tile with
        | none => none
        | some t =>
          let uses := ((j.wtensor t.tensor).map WTensor.uses).getD 1
          let touched := runsMeet ((List.range d.rows).map fun i => (d.a0 + i * d.st0, d.cols)) [(t.addr l, t.rows * t.cols)]
          if g.state ≠ .empty ∧ t.use = 0 ∧ g.ties + 1 < uses ∧ touched then some g.tile else none

/-- A TBL_LOAD into the slot that reached its engine before a descriptor and has not finished (R135). -/
def State.loadBefore (s : State) (c : CoreId) (e : Issued) (n : Nat) : Bool :=
  s.cores[c].issued.any fun x => decide (x.part = e.part ∧ x.lcore = e.lcore ∧ x.seq < e.seq ∧ x.queue = .row ∧ x.phase ≠ .finished) &&
    decide ((rowD x.words).op = 0x10) && decide ((rowD x.words).tbl = n)

/-- A conversion that carries salt 0x03 serves RED_NONFIN and the counts Z of its tensor (R155). -/
def State.redCounts (s : State) (e : Issued) (d : VecD) (p : VecP) (o : EngineOut) : State :=
  if d.op ≠ 0x01 ∨ p.salt ≠ 3 ∨ e.mute then s
  else s.updJob e.part fun j => { j with step := { j.step with
    redNonfin := j.step.redNonfin || decide (0 < o.nonfin)
    zcounts := mapPut 0 j.step.zcounts p.tensor ((mapGet j.step.zcounts p.tensor).getD 0 + o.zeros) } }

/-- A VEC descriptor starts: the errors that memory has taken up, those that its reads correct, and its waits for memory (R107, R189). -/
def State.vecStart (s : State) (c : CoreId) (e : Issued) (j : Job) (env : MemEnv) (t : Option Tab) : State :=
  let d := vecD e.words
  let reads := (List.range d.vectors).flatMap fun v => d.vecReads (vecP e.param) e.lcore t (s.lrd j) v
  (s.takeReads env (reads.map (j.phys false))).count (coreVecMstall c.val) env.stalls

/-- A VEC descriptor runs over its vectors, up to the first that cannot be served (R107, R222). DESIGN CHOICE: every vector reads memory as
it stood when the descriptor started, also where an earlier vector's destination overlaps a later one's source, of which the spec says
nothing (log entry 35, unsafe). -/
def State.runVec (s : State) (c : CoreId) (e : Issued) (j : Job) (guest : Bool) (t : Option Tab) : State :=
  let d := vecD e.words
  let p := vecP e.param
  let en := j.vecEnv d.dA
  let s := s.touchAll ((namedBytes (d.names p)).map (j.phys false))
  let stop := (List.range d.vectors).findSome? fun v => (s.vecStop j e.lcore guest d p en t v).map fun x => (v, x)
  let n := match stop with | some (v, _) => v | none => d.vectors
  let o := d.run p en t (s.lrd j) n
  let s := s.count64 (coreVecLstepsLo c.val) (coreVecLstepsHi c.val) (n * laneSteps d.op)
  let s := ((s.lput j o.stores).outCounts c e.part p.tensor o.sat o.nonfin).redCounts e d p o
  match stop with
  | some (_, err) => s.failAccess c e err
  | none => s.finish c e

/-- The VEC descriptor of operation `op` at the head of the vector engine's queue runs (R107, R135, R152). -/
def State.vec (s : State) (c : CoreId) (op : Nat) (env : MemEnv) : State :=
  match s.headOf c .vec with
  | none => s
  | some e =>
    if (vecD e.words).op ≠ op ∨ e.phase ≠ .queued then s
    else
      match s.job e.part with
      | none => s
      | some j =>
        match j.serve e.lcore with
        | none => s
        | some v =>
          let n := (vecP e.param).tbl
          let table := decide (op = 0x20 ∨ op = 0x21)
          if table && s.loadBefore c e n then s
          else
            let t := if table then s.tableAt j e.lcore n else none
            let s := s.vecStart c e j env t
            let s := if table then s.meetHead c v.guest n else s
            if table && t.isNone then s.failDescriptor c e ⟨0x4303, [c.val, n]⟩
            else if table && s.headFails c v.guest n then s.failHead c e
            else match s.untied j e.lcore (vecD e.words) with
              | some tile => s.failDescriptor c e ⟨0x4404, [c.val, tile, 0]⟩
              | none => s.runVec c e j v.guest t

/-- CVT (R112). -/
def execCvt (c : CoreId) (env : MemEnv) (s : State) : Result := .next (s.vec c 0x01 env)

/-- SUMM (R115). -/
def execSumm (c : CoreId) (env : MemEnv) (s : State) : Result := .next (s.vec c 0x02 env)

/-- VEC_ADD (R110, R111). -/
def execVecAdd (c : CoreId) (env : MemEnv) (s : State) : Result := .next (s.vec c 0x10 env)

/-- SUB (R110, R111). -/
def execVecSub (c : CoreId) (env : MemEnv) (s : State) : Result := .next (s.vec c 0x11 env)

/-- MUL (R110, R111). -/
def execVecMul (c : CoreId) (env : MemEnv) (s : State) : Result := .next (s.vec c 0x12 env)

/-- FMA (R110, R111). -/
def execVecFma (c : CoreId) (env : MemEnv) (s : State) : Result := .next (s.vec c 0x13 env)

/-- DIV (R110, R111). -/
def execVecDiv (c : CoreId) (env : MemEnv) (s : State) : Result := .next (s.vec c 0x14 env)

/-- SQRT (R110, R111). -/
def execSqrt (c : CoreId) (env : MemEnv) (s : State) : Result := .next (s.vec c 0x15 env)

/-- RSQRT (R110, R111). -/
def execRsqrt (c : CoreId) (env : MemEnv) (s : State) : Result := .next (s.vec c 0x16 env)

/-- MAX (R110, R111). -/
def execVecMax (c : CoreId) (env : MemEnv) (s : State) : Result := .next (s.vec c 0x17 env)

/-- MIN (R110, R111). -/
def execVecMin (c : CoreId) (env : MemEnv) (s : State) : Result := .next (s.vec c 0x18 env)

/-- ABS (R110, R111). -/
def execVecAbs (c : CoreId) (env : MemEnv) (s : State) : Result := .next (s.vec c 0x19 env)

/-- TABLE (R110, R134). -/
def execVecTable (c : CoreId) (env : MemEnv) (s : State) : Result := .next (s.vec c 0x20 env)

/-- TABLE_BWD (R110, R134). -/
def execTableBwd (c : CoreId) (env : MemEnv) (s : State) : Result := .next (s.vec c 0x21 env)

/-- RELU (R110, R116). -/
def execRelu (c : CoreId) (env : MemEnv) (s : State) : Result := .next (s.vec c 0x30 env)

/-- DROPOUT (R110, R116). -/
def execDropout (c : CoreId) (env : MemEnv) (s : State) : Result := .next (s.vec c 0x31 env)

/-- MASK_APPLY (R110, R116). -/
def execMaskApply (c : CoreId) (env : MemEnv) (s : State) : Result := .next (s.vec c 0x32 env)

/-- SUM (R117). -/
def execVecSum (c : CoreId) (env : MemEnv) (s : State) : Result := .next (s.vec c 0x40 env)

/-- SUMSQ (R117). -/
def execSumsq (c : CoreId) (env : MemEnv) (s : State) : Result := .next (s.vec c 0x41 env)

/-- MAXABS (R117). -/
def execMaxabs (c : CoreId) (env : MemEnv) (s : State) : Result := .next (s.vec c 0x42 env)

/-- REDUCE_FINAL (R117). -/
def execReduceFinal (c : CoreId) (env : MemEnv) (s : State) : Result := .next (s.vec c 0x43 env)

/-- UPD_ADAMW (R118). -/
def execUpdAdamw (c : CoreId) (env : MemEnv) (s : State) : Result := .next (s.vec c 0x50 env)

/-- UPD_SGDM (R120). -/
def execUpdSgdm (c : CoreId) (env : MemEnv) (s : State) : Result := .next (s.vec c 0x51 env)

end Sys2Proof.Machine
end

