-- ==== Sys2Proof/Machine/Row.lean ====
section
/-! DEFINITION. The row engine: norms and soft maxima over rows, table loads (R121-R136, R139, R144). -/

namespace Sys2Proof.Machine

/-- The ROW descriptor of operation `op` at the head of the row engine's queue, with its job and the core's half. -/
def State.rowHead (s : State) (c : CoreId) (op : Nat) : Option (Issued × Job × Serve) :=
  match s.headOf c .row with
  | none => none
  | some e =>
    if (rowD e.words).op ≠ op ∨ e.phase ≠ .queued then none
    else (s.job e.part).bind fun j => (j.serve e.lcore).map fun v => (e, j, v)

/-- The arguments at which a soft maximum evaluates its table in row `i` (R125, R126). -/
def RowD.tabArgs (d : RowD) (p : RowP) (l : Nat) (t : Option Tab) (mem : Nat → Byte) (i : Nat) : List XNum :=
  if d.op ≠ 0x03 ∧ d.op ≠ 0x04 then []
  else
    let m := if d.op = 0x03 then (d.statsOf p t mem i).1 else (d.stored l mem i).1
    (d.maskedRow p mem i).filterMap fun x => if x.2 then none else some (mul32 (sub32 x.1 m) (f32 p.scaleLog2))

/-- The bytes that row `i` of a descriptor writes. -/
def RowD.rowWrites (d : RowD) (p : RowP) (l i : Nat) : List Nat :=
  dataNames d.fD { d.rD p with base := d.dA + i * d.dS, sr := 1 } ++
    (match fmtOf d.fD with | some f => (d.rD p).planeAddrs f i | none => []) ++
    (if d.bwd then [] else span (d.slot l + 32 + 8 * i) 8)

/-- Why row `i` cannot be served (R184, R190). -/
def State.rowStop (s : State) (j : Job) (l : Nat) (d : RowD) (p : RowP) (t : Option Tab) (i : Nat) : Option (DErr ⊕ Nat) :=
  let reads := d.reads p l i ++ tabReads l d.tbl t false (d.tabArgs p l t (s.lrd j) i)
  match (s.checkUsable j false reads).orElse fun _ => s.checkUsable j true (d.rowWrites p l i) with
  | some err => some (.inl err)
  | none => (s.lbad j reads).map .inr

/-- ROW_STAT_TAG of a backward operation whose slot does not match (R129), or why its header cannot be read. -/
def State.tagStop (s : State) (c : CoreId) (j : Job) (l : Nat) (d : RowD) : Option (DErr ⊕ Nat) :=
  if !d.bwd then none
  else
    let as := span (d.slot l) 16
    match s.checkUsable j false as with
    | some err => some (.inl err)
    | none => match s.lbad j as with
      | some a => some (.inr a)
      | none =>
        if d.tagOk j.commitUnder (as.map (s.lrd j)) then none
        else some (.inl ⟨0x4302, [c.val, d.statSet, d.micro, d.statOff / 32]⟩)

/-- Lane steps of one row (R121). -/
def RowD.rowSteps (d : RowD) : Nat := { d with rows := 1 }.laneSteps

/-- A ROW descriptor starts: the errors that memory has taken up, those that its reads correct, at each pass over a row too long for
the lanes' buffers, and its waits for memory (R121, R189). -/
def State.rowStart (s : State) (c : CoreId) (e : Issued) (j : Job) (env : MemEnv) (t : Option Tab) : State :=
  let d := rowD e.words
  let p := rowP e.param
  let l := e.lcore
  let reads := if d.op = 0x10 then (if d.fw then [] else span d.xA imageBytes)
    else (if d.bwd then span (d.slot l) 16 else []) ++ (List.range d.rows).flatMap fun i =>
      d.reads p l i ++ tabReads l d.tbl t false (d.tabArgs p l t (s.lrd j) i)
  let again := if d.op = 0x10 then [] else (List.range d.rows).flatMap (d.passReads p)
  let s := s.takeReads env (reads.map (j.phys false))
  let s := (List.range (d.passes - 1)).foldl (fun s _ => s.meetReads (again.map (j.phys false))) s
  s.count (coreRowMstall c.val) env.stalls

/-- A ROW descriptor runs over its rows, up to the first that cannot be served (R121-R129, R222); a NORM_BWD with AFFINE then owes its
column sums to the gradient buffer (R124). DESIGN CHOICE: every row reads memory as it stood when the descriptor started, also where an
earlier row's output overlaps a later row's source (log entry 35, unsafe). -/
def State.runRow (s : State) (c : CoreId) (e : Issued) (j : Job) (t : Option Tab) : State :=
  let d := rowD e.words
  let p := rowP e.param
  let s := s.touchAll ((d.slot e.lcore :: namedBytes (d.names p)).map (j.phys false))
  match s.tagStop c j e.lcore d with
  | some (.inl err) => (if err.code = 0x4302 then s.count (coreRowTagfail c.val) 1 else s).failDescriptor c e err
  | some (.inr a) => s.failRead c e a
  | none =>
    let stop := (List.range d.rows).findSome? fun i => (s.rowStop j e.lcore d p t i).map fun x => (i, x)
    let n := match stop with | some (i, _) => i | none => d.rows
    let mem := s.lrd j
    let o := d.run p e.lcore j.commitUnder t mem n
    let adds := if d.op = 0x02 ∧ d.affine ∧ !e.mute then
        [PendingAdd.mk p.tensorW (d.contributions p e.lcore mem (j.prescale p.tensorW)) false] else []
    let s := s.count64 (coreRowLstepsLo c.val) (coreRowLstepsHi c.val) (n * d.rowSteps)
    let s := s.lput j o.stores
    match stop with
    | some (_, err) => s.failAccess c e err
    | none =>
      if adds = [] then s.finish c e
      else s.updIssued c e.seq fun x => { x with phase := .running, adds := adds, prog := [2] }

/-- A norm (R123, R124). -/
def State.normRow (s : State) (c : CoreId) (op : Nat) (env : MemEnv) : State :=
  match s.rowHead c op with
  | none => s
  | some (e, j, _) => (s.rowStart c e j env none).runRow c e j none

/-- A soft maximum: its slot must hold the standard exp2 (R125, R126, R135, R136). -/
def State.smaxRowOp (s : State) (c : CoreId) (op : Nat) (env : MemEnv) : State :=
  match s.rowHead c op with
  | none => s
  | some (e, j, v) =>
    let n := (rowD e.words).tbl
    let t := s.tableAt j e.lcore n
    let s := (s.rowStart c e j env t).meetHead c v.guest n
    match t with
    | none => s.failDescriptor c e ⟨0x4303, [c.val, n]⟩
    | some t => if s.headFails c v.guest n then s.failHead c e else if t.hdr.func ≠ 5 then s.failDescriptor c e (fieldErr 0x4301 e.index 0x10 5) else s.runRow c e j (some t)

/-- NORM_FWD (R123). -/
def execNormFwd (c : CoreId) (env : MemEnv) (s : State) : Result := .next (s.normRow c 0x01 env)

/-- NORM_BWD (R124, R129). -/
def execNormBwd (c : CoreId) (env : MemEnv) (s : State) : Result := .next (s.normRow c 0x02 env)

/-- SMAX_FWD (R125). -/
def execSmaxFwd (c : CoreId) (env : MemEnv) (s : State) : Result := .next (s.smaxRowOp c 0x03 env)

/-- SMAX_BWD (R126, R129). -/
def execSmaxBwd (c : CoreId) (env : MemEnv) (s : State) : Result := .next (s.smaxRowOp c 0x04 env)

/-- TBL_LOAD (R132, R135): the image is read and checked; the load then waits for earlier uses of its slot. With FW set the function is
named by the low half of X_ADDR_LO (log entry 15). -/
def execTblLoad (c : CoreId) (env : MemEnv) (s : State) : Result :=
  match s.rowHead c 0x10 with
  | none => .next s
  | some (e, j, _) =>
    let s := s.rowStart c e j env none
    let d := rowD e.words
    match s.access j (if d.fw then [] else span d.xA imageBytes) [] with
    | (s, some err) => .next (s.failAccess c e err)
    | (s, none) =>
      match tableImage d.fw (d.xA % 65536) (if d.fw then [] else s.lrdBytes j d.xA imageBytes) with
      | .error f => .next (s.failDescriptor c e ⟨0x4304, [c.val, d.tbl, f]⟩)
      | .ok img => .next (s.updIssued c e.seq fun x => { x with phase := .running, param := img })

/-- A VEC descriptor that names the slot, reached its engine before the load and has not completed (R135). -/
def State.usedBefore (s : State) (c : CoreId) (e : Issued) (n : Nat) : Bool :=
  s.cores[c].issued.any fun x => decide (x.part = e.part ∧ x.lcore = e.lcore ∧ x.seq < e.seq ∧ x.queue = .vec ∧ x.phase ≠ .finished) &&
    decide ((vecD x.words).op = 0x20 ∨ (vecD x.words).op = 0x21) && decide ((vecP x.param).tbl = n)

/-- TBL_LOAD_APPLY (R133, R135): with every earlier use of the slot complete, the contents change. -/
def execTblLoadApply (c : CoreId) (s : State) : Result :=
  match s.headOf c .row with
  | none => .next s
  | some e =>
    let d := rowD e.words
    if d.op ≠ 0x10 ∨ e.phase ≠ .running ∨ s.usedBefore c e d.tbl then .next s
    else
      match s.job e.part with
      | none => .next s
      | some j =>
        match s.access j [] (span (tablePlace e.lcore d.tbl) 0x2000) with
        | (s, some err) => .next (s.failAccess c e err)
        | (s, none) => .next ((s.fillTable j e.lcore d.tbl e.param).finish c e)

end Sys2Proof.Machine
end

