-- ==== Sys2Proof/Machine/Transport.lean ====
section
/-! DEFINITION. The commands of the Onaden transport: frames that arrive, timers of connections and virtual channels
(R311-R319). -/

namespace Sys2Proof.Machine

/-- The datagram at the head of a port's OT input with the state past it; a bad one is discarded and counted whichever command
comes upon it (R279, R297, R311). -/
def State.takeOt (s : State) (t : PortId) (type : Nat) : State × Option (OtHdr × OtIn) :=
  match s.ports[t].otIn with
  | [] => (s, none)
  | f :: r =>
    let s' := (s.updPort t fun p => { p with otIn := r }).pfcWatch t (Fin.ofNat 4 f.sub) f.cls
    match s.otParse f with
    | none => (s'.otCount t 6 1, none)
    | some h => if h.type = type then (s', some (h, f)) else (s, none)

/-- A frame of an entry has been received: one of the starter answers a query that waits with DENY (R327). -/
def State.heard (s : State) (p : PartId) (e : Nat) : State :=
  match s.cluster p with
  | none => s
  | some c =>
    if e = c.starter ∧ (c.silent ∨ c.queryPending) then
      let s := s.updCluster p fun c => { c with silent := false, queryPending := false }
      if c.queryPending then s.sendCtl p c.successor 0x07 (leBytes 4 1) else s
    else s

/-- The far entry of a connection of this member. -/
def Cluster.far (c : Cluster) (i : Nat) : Nat := ((c.ends i).map fun x => x.2.1).getD 0

/-- A virtual channel as a connection that comes up finds it: PSN 0 in both directions, what waits to be sent kept (R313). -/
def VcRun.opened (v : VcRun) (credits : Nat) : VcRun :=
  { sendq := v.sendq, msgTx := v.msgTx, txCredit := (credits + 2 ^ 32 - 1) % 2 ^ 32, creditSent := (credits + 2 ^ 32 - 1) % 2 ^ 32 }

/-- A connection comes up: every VC starts at PSN 0, a member joins through its starter, the configured starter asks its
successor (R313, R322, R323). -/
def State.connUp (s : State) (p : PartId) (i : Nat) : State :=
  match s.cluster p with
  | none => s
  | some c =>
    let s := s.updCluster p fun c => c.updConn i fun r =>
      { r with up := true, idleTimeouts := 0, vcs := (indexed r.vcs).map fun v => v.2.opened (c.cl.credits v.1) }
    let s := match c.path i with
      | some (t, q, _, _) => s.raise (.port t.val) (some p) 0x6101 [t.val, q.val, c.cl.tag, i]
      | none => s
    let far := c.far i
    let s :=
      if c.state = .opening ∧ !c.leads ∧ far = c.starter then s.sendJoin p
      else if c.state = .opening ∧ c.leads ∧ far = c.cl.successor ∧ !c.begun then s.sendCtl p far 0x08 []
      else s
    (List.range 16).foldl (fun s v => s.pump p i v) s

/-- A frame of a connection has arrived: the starter is heard, and a frame with CE is counted for the next ACK (R312, R327). -/
def State.otHeard (s : State) (h : OtHdr) (ce : Bool) : State :=
  match s.cluster h.part with
  | none => s
  | some c => (s.heard h.part (c.far h.conn)).updCluster h.part fun c => c.updConn h.conn fun r =>
      { r with ece := r.ece + b2n ce }

/-- Any other frame than OPEN of a connection has arrived: where the far end's OPEN has been received, it says that this end's has
been too, and the connection is up (R313; log entry 43). -/
def State.otArrived (s : State) (h : OtHdr) (ce : Bool) : State :=
  let s := s.otHeard h ce
  match s.cluster h.part with
  | none => s
  | some c => if (c.run h.conn).gotOpen ∧ !(c.run h.conn).up then s.connUp h.part h.conn else s

/-- Whether a NET descriptor that runs uses connection `i` to an entry (R338, R342, R348). -/
def Cluster.netUses (c : Cluster) (far i : Nat) (e : Issued) : Bool :=
  let d := e.words
  match dfld d 0x10 31 24 with
  | 0x01 => c.redUses (segCount (dfld d 0x24 31 0) (dfld d 0x28 31 0)) far i
  | 0x02 => decide (ownerOf c.roster (dfld d 0x10 15 0) = far) && decide (c.lowest far = some i)
  | 0x03 => decide (dfld d 0x20 29 24 = far) && decide (c.route far = some i)
  | 0x04 => decide (dfld d 0x20 29 24 = far) && decide (c.route far = some i)
  | _ => false

/-- What is in flight on a connection is discarded: the frames that wait at its port and the datagrams of it that have arrived
(R313). -/
def State.dropFlight (s : State) (p : PartId) (c : Cluster) (i : Nat) : State :=
  match c.path i with
  | none => s
  | some (t, _, _, far) =>
    let ours := fun (x : TxSrc) => match x with | .ot q k _ => decide (q = p.val ∧ k = i) | _ => false
    (List.finRange 8).foldl (fun s t => s.updPort t fun x => { x with
      otIn := x.otIn.filter fun f => !(decide (rdLE f.bytes 4 4 = c.cl.tag ∧ rdLE f.bytes 0 2 = i ∧ f.src = far)) })
      (s.updPort t fun x => { x with tx := x.tx.filter fun f => !ours f.src })

/-- What an opening of a connection finds of it goes: every PSN, everything in flight on it; the NET descriptors that used it fail (R313,
R316, R338). -/
def State.connReset (s : State) (p : PartId) (i : Nat) : State :=
  match s.cluster p with
  | none => s
  | some c =>
    (s.updCluster p fun c => c.updConn i fun r =>
      { r with up := false, gotOpen := false, gotReply := false, vcs := List.replicate 16 {}, idleTimeouts := 0, cutMark := [] }).dropFlight p c i

/-- The NET descriptors that use connection `i`: those that run, and a RECV from its issue on, when it posts itself (R338, R364). -/
def State.connUsers (s : State) (p : PartId) (i : Nat) : List (CoreId × Issued) :=
  match s.cluster p with
  | none => []
  | some c => (s.issuedOf p).filter fun x => decide (x.2.queue = .net) && (decide (x.2.phase = .running) ||
      decide (x.2.phase = .queued ∧ dfld x.2.words 0x10 31 24 = 0x04)) && c.netUses (c.far i) i x.2

/-- Descriptors whose connection has gone down fail (R338). -/
def State.failConnUsers (s : State) (i : Nat) (l : List (CoreId × Issued)) : State :=
  l.foldl (fun s x => s.failDescriptor x.1 x.2 ⟨0x710B, [x.2.lcore, i]⟩) s

/-- Whether frames have been received or acknowledged on a connection since it came up. -/
def ConnRun.moved (r : ConnRun) : Bool := r.vcs.any fun v => decide (v.rxCum ≠ 0 ∨ v.rxHeld ≠ [] ∨ v.txCum ≠ 0)

/-- OPEN (R312, R313): answered with REPLY; with both OPENs received the connection is up. One that names another job key or other
ends is no OPEN of the connection. An OPEN on a connection that is up here and has carried frames says that the far end opens it again,
and this end opens it with it (R313, DEDUCED; log entry 43). -/
def execOtOpen (t : PortId) (s : State) : Result :=
  match s.takeOt t 1 with
  | (s, none) => .next s
  | (s, some (h, f)) => match s.cluster h.part with
    | none => .next s
    | some c =>
      let w := rdLE h.payload 8 4
      let good := match c.ends h.conn with
        | some (mine, e, far) => decide (rdLE h.payload 0 8 = c.cl.key ∧ nbits w 29 24 = e ∧ nbits w 18 16 = far ∧
            nbits w 13 8 = c.self ∧ nbits w 2 0 = mine)
        | none => false
      if !good then .next s
      else
        let s := s.otHeard h f.ce
        if w.testBit 31 then
          let s := s.updCluster h.part fun c => c.updConn h.conn fun r => { r with gotOpen := true, gotReply := true }
          .next (if (c.run h.conn).up then s else s.connUp h.part h.conn)
        else if (c.run h.conn).up && (c.run h.conn).moved then
          let users := s.connUsers h.part h.conn
          let s := (s.connReset h.part h.conn).updCluster h.part fun c => c.updConn h.conn fun r => { r with gotOpen := true }
          .next (((s.sendOpen h.part c h.conn true).sendOpen h.part c h.conn false).failConnUsers h.conn users)
        else
          let s := s.updCluster h.part fun c => c.updConn h.conn fun r => { r with gotOpen := true }
          let s := s.sendOpen h.part c h.conn true
          .next (if (c.run h.conn).gotReply ∧ !(c.run h.conn).up then s.connUp h.part h.conn else s)

/-- Every 1 ms until an OPEN of the connection has been received, OPEN is sent again (R313). -/
def execOtOpenRetry (p : PartId) (i : Nat) (s : State) : Result :=
  match s.cluster p with
  | none => .next s
  | some c => if (c.ends i).isSome ∧ !(c.run i).gotOpen then .next (s.sendOpen p c i false) else .next s

/-- What the receiver does with a DATA frame of its window: hold it, deliver what is in order, acknowledge where R315 says. -/
def State.receiveData (s : State) (p : PartId) (t : PortId) (i vc : Nat) (f : OtFrame) : State :=
  match s.cluster p with
  | none => s
  | some c =>
    let v := (c.run i).vc vc
    let gap := decide (f.psn ≠ v.rxCum)
    let s := s.updCluster p fun c => c.updConn i fun r =>
      { r.updVc vc (fun v => { v with rxHeld := v.rxHeld ++ [f], sinceAck := v.sinceAck + 1 }) with newRx := r.newRx + 1 }
    let s := State.drain p t i (c.far i) vc (v.rxHeld ++ [f]) s
    match s.cluster p with
    | none => s
    | some c' =>
      let v' := (c'.run i).vc vc
      let credit := (v'.rxCum + 2 ^ 32 - 1 + c'.cl.credits vc) % 2 ^ 32
      let moved := (credit + 2 ^ 32 - v'.creditSent) % 2 ^ 32
      if gap || decide (16 ≤ v'.sinceAck) || decide (8 ≤ moved ∧ moved < 2 ^ 31) then s.sendAck p i vc else s

/-- DATA (R314, R315, R319): checked against the epoch and the credit window, delivered in PSN order. -/
def execOtData (t : PortId) (s : State) : Result :=
  match s.takeOt t 2 with
  | (s, none) => .next s
  | (s, some (h, f)) =>
    let s := s.otArrived h f.ce
    match s.cluster h.part with
    | none => .next s
    | some c =>
      let r := c.run h.conn
      if !r.up then .next s
      else
        let v := r.vc h.vc
        let dist := (h.psn + 2 ^ 32 - v.rxCum) % 2 ^ 32
        let fr : OtFrame := { psn := h.psn, first := h.first, last := h.last, msg := h.msg, offset := h.offset
                              epoch := h.epoch, payload := h.payload }
        let other := decide (4 ≤ h.vc) && decide (h.epoch ≠ c.epoch)
        let old := other && leMod h.epoch c.epoch
        if other && !old then .next (s.otCount t 8 1)
        else
          let s := if old then s.otCount t 7 1 else s
          if c.cl.credits h.vc ≤ dist ∨ v.rxHeld.any (fun g => decide (g.psn = h.psn)) then .next (s.sendAck h.part h.conn h.vc)
          else .next (s.receiveData h.part t h.conn h.vc { fr with dropped := old })

/-- A frame is sent again, one of a control channel with the epoch that then holds, one of an attempt with that attempt's (R310, R315,
R318, R319; log entry 44). -/
def State.resend (s : State) (p : PartId) (i vc : Nat) (f : OtFrame) : State :=
  match s.cluster p with
  | none => s
  | some c => s.otSend p c i vc (dataBytes c i vc { f with
      retx := true, epoch := if vc < 4 then c.epoch else f.epoch })

/-- Whether an ACK's SACK field shows PSN `x` received. -/
def sackHas (cum sack x : Nat) : Bool :=
  let d := (x + 2 ^ 32 - (cum + 1)) % 2 ^ 32
  decide (d < 64) && sack.testBit d

/-- Frames that an ACK calls for again: not received, three later ones received, not sent again within the round trip
(R315). -/
def VcRun.sackMissing (v : VcRun) (cum sack : Nat) : List OtFrame :=
  v.inflight.filter fun f =>
    let later := (v.inflight.filter fun g => leMod ((f.psn + 1) % 2 ^ 32) g.psn && sackHas cum sack g.psn).length
    !sackHas cum sack f.psn && decide (3 ≤ later) &&
      !(v.sackRetx.any fun x => decide (x.1 = f.psn) && leMod cum x.2 && !(v.inflight.any fun g =>
        leMod x.2 g.psn && sackHas cum sack g.psn))

/-- The rate of a connection after an ACK with ECE of NEW frames marked (R317). -/
def cutRate (rate : Rat) (ece new : Nat) : Rat :=
  let f : Rat := if new ≤ ece then 1 else (ece : Rat) / (new : Rat)
  max (rate * (1 - f / 2)) (1 / 1000)

/-- ACK (R315, R317): credit and cumulative state advance, ECE cuts the rate once a round trip, SACK calls for frames again. -/
def execOtAck (t : PortId) (s : State) : Result :=
  match s.takeOt t 3 with
  | (s, none) => .next s
  | (s, some (h, f)) =>
    let s := s.otArrived h f.ce
    match s.cluster h.part with
    | none => .next s
    | some c =>
      let r := c.run h.conn
      if !r.up then .next s
      else
        let v := r.vc h.vc
        let cum := rdLE h.payload 0 4
        let credit := rdLE h.payload 4 4
        let sack := rdLE h.payload 8 8
        let ece := rdLE h.payload 0x12 2
        let new := rdLE h.payload 0x10 2
        let left := v.inflight.filter fun f => leMod cum f.psn
        let moved := decide (left.length < v.inflight.length)
        let free := decide (r.cutMark = []) || leMod ((r.cutMark.getD h.vc 0 + 1) % 2 ^ 32) cum
        let cut := decide (0 < ece) && free
        let s := s.updCluster h.part fun c => c.updConn h.conn fun r =>
          { r.updVc h.vc (fun v => { v with
              inflight := left, txCum := if moved then cum else v.txCum
              txCredit := if leMod v.txCredit credit then credit else v.txCredit
              sackRetx := v.sackRetx.filter fun x => leMod cum x.1 }) with
            idleTimeouts := if moved then 0 else r.idleTimeouts
            rate := if cut then cutRate r.rate ece new else r.rate
            rises := if 0 < ece then 0 else r.rises
            cutMark := if cut then r.vcs.map VcRun.txNext else if free then [] else r.cutMark }
        let s := if 0 < ece then s.otCount t 5 ece else s
        let s := if cut then s.otCount t 10 1 else s
        let miss := { v with inflight := left }.sackMissing cum sack
        let s := miss.foldl (fun s f => (s.resend h.part h.conn h.vc f).updCluster h.part fun c => c.updConn h.conn fun r =>
          r.updVc h.vc fun v => { v with
            sackRetx := (f.psn, v.txNext) :: v.sackRetx.filter (fun x => decide (x.1 ≠ f.psn)) }) s
        .next (s.pump h.part h.conn h.vc)

/-- KEEPALIVE (R316). -/
def execOtKeepalive (t : PortId) (s : State) : Result :=
  match s.takeOt t 4 with
  | (s, none) => .next s
  | (s, some (h, f)) => .next (s.otArrived h f.ce)

/-- CLOSE (R312): checked and taken; the spec gives it no further effect. -/
def execOtClose (t : PortId) (s : State) : Result :=
  match s.takeOt t 5 with
  | (s, none) => .next s
  | (s, some (h, f)) => .next (s.otArrived h f.ce)

/-- KA_INTERVAL with nothing sent on a connection that is up: a KEEPALIVE (R316). -/
def execKeepaliveTimer (p : PartId) (i : Nat) (s : State) : Result :=
  match s.cluster p with
  | none => .next s
  | some c =>
    if (c.run i).up then .next (s.otSend p c i 0 (otHeader 4 0 0 i c.cl.tag c.epoch 0 0 0 8 ++ leBytes 8 0)) else .next s

/-- 4 µs since the first frame that has not been acknowledged: an ACK (R315). -/
def execOtAckTimer (p : PartId) (i : Nat) (vc : VcId) (s : State) : Result :=
  match s.cluster p with
  | none => .next s
  | some c => if (c.run i).up ∧ 0 < ((c.run i).vc vc.val).sinceAck then .next (s.sendAck p i vc.val) else .next s

/-- A connection goes down (R316): the event, everything in flight is discarded, reopening starts, the descriptors that use it
fail, the starter hears of it or, with no other connection left to the member, removes it (R325, R334, R338). -/
def State.connDown (s : State) (p : PartId) (i cause : Nat) : State :=
  match s.cluster p with
  | none => s
  | some c =>
    if !(c.run i).up then s
    else
      let far := c.far i
      let users := s.connUsers p i
      let s := s.connReset p i
      let s := match c.path i with
        | some (t, q, _, _) => (s.otCount t 11 1).raise (.port t.val) (some p) 0x6102 [t.val, q.val, c.cl.tag, i, cause]
        | none => s
      let s := s.sendOpen p c i false
      let s := if c.leads then
          if (c.connsTo far).all (fun k => decide (k = i) || !(c.run k).up) ∧ c.begun then s.removeMember p far 0x6102 0x7004 else s
        else if c.state = .opening ∨ c.state = .joining ∨ c.state = .left then s
        else s.sendCtl p c.starter 0x09 (leBytes 4 i ++ leBytes 4 far)
      s.failConnUsers i users

/-- A connection has received no frame for PEER_LOSS_MS, or is down for the cause that the command names (R316). -/
def execOtConnDown (p : PartId) (i cause : Nat) (s : State) : Result := .next (s.connDown p i cause)

/-- The retransmission timeout of a virtual channel: its oldest frame is sent again; the sixteenth in a row without an advance of
CUM_PSN takes the connection down (R315, R316). -/
def execRetxTimeout (p : PartId) (i : Nat) (vc : VcId) (s : State) : Result :=
  match s.cluster p with
  | none => .next s
  | some c => match ((c.run i).vc vc.val).inflight with
    | [] => .next s
    | f :: _ =>
      let s := match c.path i with | some (t, _) => s.otCount t 3 1 | none => s
      if 16 ≤ (c.run i).idleTimeouts + 1 then .next (s.connDown p i (Config.fieldWord 0x6102 1 0))
      else
        let s := s.resend p i vc.val f
        .next (s.updCluster p fun c => c.updConn i fun r =>
          { r.updVc vc.val (fun v => { v with inflight := modifyAt (fun f => { f with timeouts := f.timeouts + 1 }) 0 v.inflight })
            with idleTimeouts := r.idleTimeouts + 1 })

/-- 50 µs without an ECE: the rate rises by 1 % of the subport rate, by 5 % after five rises in a row (R317). -/
def execRateIncrease (p : PartId) (i : Nat) (s : State) : Result :=
  .next (s.updCluster p fun c => c.updConn i fun r =>
    { r with rate := min 1 (r.rate + if 5 ≤ r.rises then 1 / 20 else 1 / 100), rises := r.rises + 1 })

end Sys2Proof.Machine
end

