-- ==== Sys2Proof/Machine/Dispatch.lean ====
section
/-! DEFINITION. What each command does: one arm for each constructor of Instr. -/

namespace Sys2Proof.Machine

/-- The effect of a command on everything but the queue of commands that wait. -/
def exec (i : Instr) (s : State) : Host.Outcome State Fault Refusal :=
  match i with
  | .powerOnStart env => Sys2Proof.Machine.execPowerOnStart env s
  | .rstNAssert => Sys2Proof.Machine.execRstNAssert s
  | .rstNRelease env => Sys2Proof.Machine.execRstNRelease env s
  | .mcResetCtlCold env => Sys2Proof.Machine.execMcResetCtlCold env s
  | .powerGood proof => Sys2Proof.Machine.execPowerGood proof s
  | .powerGoodTimeout => Sys2Proof.Machine.execPowerGoodTimeout s
  | .cascadePulse => Sys2Proof.Machine.execCascadePulse s
  | .cascadeDelayExpire => Sys2Proof.Machine.execCascadeDelayExpire s
  | .cascadeTimeout => Sys2Proof.Machine.execCascadeTimeout s
  | .standingJobRestart p => Sys2Proof.Machine.execStandingJobRestart p s
  | .testModeAssert => Sys2Proof.Machine.execTestModeAssert s
  | .presenceAssert => Sys2Proof.Machine.execPresenceAssert s
  | .presenceExpire => Sys2Proof.Machine.execPresenceExpire s
  | .sealOpen => Sys2Proof.Machine.execSealOpen s
  | .nvmInhibit vin mv => Sys2Proof.Machine.execNvmInhibit vin mv s
  | .nvmInhibitClear => Sys2Proof.Machine.execNvmInhibitClear s
  | .auxBrownout => Sys2Proof.Machine.execAuxBrownout s
  | .vinThrottle mv => Sys2Proof.Machine.execVinThrottle mv s
  | .vinThrottleClear => Sys2Proof.Machine.execVinThrottleClear s
  | .vinHalt mv => Sys2Proof.Machine.execVinHalt mv s
  | .vinHaltClear => Sys2Proof.Machine.execVinHaltClear s
  | .supplyLost rail mv => Sys2Proof.Machine.execSupplyLost rail mv s
  | .thermalHalt sensor tj => Sys2Proof.Machine.execThermalHalt sensor tj s
  | .thermalResume => Sys2Proof.Machine.execThermalResume s
  | .thermalTrip sensor tj => Sys2Proof.Machine.execThermalTrip sensor tj s
  | .thermalHaltLimit sensor tj => Sys2Proof.Machine.execThermalHaltLimit sensor tj s
  | .mcLoopTick r => Sys2Proof.Machine.execMcLoopTick r s
  | .ageingSurvey surveys => Sys2Proof.Machine.execAgeingSurvey surveys s
  | .replan c plan => Sys2Proof.Machine.execReplan c plan s
  | .replanQuiesceTimeout c plan => Sys2Proof.Machine.execReplanQuiesceTimeout c plan s
  | .replanDaily c => Sys2Proof.Machine.execReplanDaily c s
  | .timeLatch => Sys2Proof.Machine.execTimeLatch s
  | .ageingSummary => Sys2Proof.Machine.execAgeingSummary s
  | .ageingLogWrite => Sys2Proof.Machine.execAgeingLogWrite s
  | .coreFenceForce c => Sys2Proof.Machine.execCoreFenceForce c s
  | .mgmtProof r => Sys2Proof.Machine.execMgmtProof r s
  | .proofBlockDone h failCode => Sys2Proof.Machine.execProofBlockDone h failCode s
  | .kneadSweep r => Sys2Proof.Machine.execKneadSweep r s
  | .retentionEntry c => Sys2Proof.Machine.execRetentionEntry c s
  | .retentionWake c => Sys2Proof.Machine.execRetentionWake c s
  | .wakeDone c => Sys2Proof.Machine.execWakeDone c s
  | .kneadSelect c m => Sys2Proof.Machine.execKneadSelect c m s
  | .kneadCopyDone c m => Sys2Proof.Machine.execKneadCopyDone c m s
  | .kneadTestDone c m pass => Sys2Proof.Machine.execKneadTestDone c m pass s
  | .kneadRestoreDone c m => Sys2Proof.Machine.execKneadRestoreDone c m s
  | .kneadRemapDone c m => Sys2Proof.Machine.execKneadRemapDone c m s
  | .kneadLate c m region => Sys2Proof.Machine.execKneadLate c m region s
  | .patrolScrub k env passDone => Sys2Proof.Machine.execPatrolScrub k env passDone s
  | .descriptorIssue c x => Sys2Proof.Machine.execDescriptorIssue c x s
  | .counterSignalRemote p k => Sys2Proof.Machine.execCounterSignalRemote p k s
  | .descriptorComplete c k => Sys2Proof.Machine.execDescriptorComplete c k s
  | .streamWaitLong c x => Sys2Proof.Machine.execStreamWaitLong c x s
  | .matRun c u fault feedStalls drainStalls env => Sys2Proof.Machine.execMatRun c u fault feedStalls drainStalls env s
  | .swapToken c u row col waited loadWaits => Sys2Proof.Machine.execSwapToken c u row col waited loadWaits s
  | .matRetry c k fault feedStalls drainStalls env => Sys2Proof.Machine.execMatRetry c k fault feedStalls drainStalls env s
  | .arrayDiagnostic c u => Sys2Proof.Machine.execArrayDiagnostic c u s
  | .arrayDiagnosticDone c u found => Sys2Proof.Machine.execArrayDiagnosticDone c u found s
  | .gbAddition c k => Sys2Proof.Machine.execGbAddition c k s
  | .cvt c env => Sys2Proof.Machine.execCvt c env s
  | .summ c env => Sys2Proof.Machine.execSumm c env s
  | .vecAdd c env => Sys2Proof.Machine.execVecAdd c env s
  | .vecSub c env => Sys2Proof.Machine.execVecSub c env s
  | .vecMul c env => Sys2Proof.Machine.execVecMul c env s
  | .vecFma c env => Sys2Proof.Machine.execVecFma c env s
  | .vecDiv c env => Sys2Proof.Machine.execVecDiv c env s
  | .sqrt c env => Sys2Proof.Machine.execSqrt c env s
  | .rsqrt c env => Sys2Proof.Machine.execRsqrt c env s
  | .vecMax c env => Sys2Proof.Machine.execVecMax c env s
  | .vecMin c env => Sys2Proof.Machine.execVecMin c env s
  | .vecAbs c env => Sys2Proof.Machine.execVecAbs c env s
  | .vecTable c env => Sys2Proof.Machine.execVecTable c env s
  | .tableBwd c env => Sys2Proof.Machine.execTableBwd c env s
  | .relu c env => Sys2Proof.Machine.execRelu c env s
  | .dropout c env => Sys2Proof.Machine.execDropout c env s
  | .maskApply c env => Sys2Proof.Machine.execMaskApply c env s
  | .vecSum c env => Sys2Proof.Machine.execVecSum c env s
  | .sumsq c env => Sys2Proof.Machine.execSumsq c env s
  | .maxabs c env => Sys2Proof.Machine.execMaxabs c env s
  | .reduceFinal c env => Sys2Proof.Machine.execReduceFinal c env s
  | .updAdamw c env => Sys2Proof.Machine.execUpdAdamw c env s
  | .updSgdm c env => Sys2Proof.Machine.execUpdSgdm c env s
  | .normFwd c env => Sys2Proof.Machine.execNormFwd c env s
  | .normBwd c env => Sys2Proof.Machine.execNormBwd c env s
  | .smaxFwd c env => Sys2Proof.Machine.execSmaxFwd c env s
  | .smaxBwd c env => Sys2Proof.Machine.execSmaxBwd c env s
  | .tblLoad c env => Sys2Proof.Machine.execTblLoad c env s
  | .tblLoadApply c => Sys2Proof.Machine.execTblLoadApply c s
  | .movCopy c slot env => Sys2Proof.Machine.execMovCopy c slot env s
  | .copyRect c slot env => Sys2Proof.Machine.execCopyRect c slot env s
  | .movFill c slot env => Sys2Proof.Machine.execMovFill c slot env s
  | .gbZero c slot env => Sys2Proof.Machine.execGbZero c slot env s
  | .refill c slot env => Sys2Proof.Machine.execRefill c slot env s
  | .slotFilled c k => Sys2Proof.Machine.execSlotFilled c k s
  | .spill c slot => Sys2Proof.Machine.execSpill c slot s
  | .spillWrite c k env => Sys2Proof.Machine.execSpillWrite c k env s
  | .tieAdd c slot env => Sys2Proof.Machine.execTieAdd c slot env s
  | .gbClearDone c => Sys2Proof.Machine.execGbClearDone c s
  | .synNop c x => Sys2Proof.Machine.execSynNop c x s
  | .synSet c x => Sys2Proof.Machine.execSynSet c x s
  | .synAdd c x => Sys2Proof.Machine.execSynAdd c x s
  | .fenceStream c x => Sys2Proof.Machine.execFenceStream c x s
  | .fenceCore c x => Sys2Proof.Machine.execFenceCore c x s
  | .stepEnd c x => Sys2Proof.Machine.execStepEnd c x s
  | .endRun c x => Sys2Proof.Machine.execEndRun c x s
  | .decisionSequence p env => Sys2Proof.Machine.execDecisionSequence p env s
  | .streamsRestart p => Sys2Proof.Machine.execStreamsRestart p s
  | .coreRemap p => Sys2Proof.Machine.execCoreRemap p s
  | .reduce c slot env => Sys2Proof.Machine.execReduce c slot env s
  | .gather c slot env => Sys2Proof.Machine.execGather c slot env s
  | .send c slot env => Sys2Proof.Machine.execSend c slot env s
  | .recv c slot => Sys2Proof.Machine.execRecv c slot s
  | .mbAdmit c slot env => Sys2Proof.Machine.execMbAdmit c slot env s
  | .netStoreRead c slot => Sys2Proof.Machine.execNetStoreRead c slot s
  | .netStoreWrite c slot env => Sys2Proof.Machine.execNetStoreWrite c slot env s
  | .unitMap c x => Sys2Proof.Machine.execUnitMap c x s
  | .unitBegin c x => Sys2Proof.Machine.execUnitBegin c x s
  | .reduceUp p e vc => Sys2Proof.Machine.execReduceUp p e vc s
  | .reduceDown p e vc => Sys2Proof.Machine.execReduceDown p e vc s
  | .gatherReq p e vc => Sys2Proof.Machine.execGatherReq p e vc s
  | .gatherReply p e vc => Sys2Proof.Machine.execGatherReply p e vc s
  | .pipe p e vc => Sys2Proof.Machine.execPipe p e vc s
  | .pipePost p e vc => Sys2Proof.Machine.execPipePost p e vc s
  | .pipeDone p e vc => Sys2Proof.Machine.execPipeDone p e vc s
  | .unitXfer p e vc => Sys2Proof.Machine.execUnitXfer p e vc s
  | .startStep p e => Sys2Proof.Machine.execStartStep p e s
  | .ready p e => Sys2Proof.Machine.execReady p e s
  | .abortReq p e => Sys2Proof.Machine.execAbortReq p e s
  | .commit p e => Sys2Proof.Machine.execCommit p e s
  | .abort p e => Sys2Proof.Machine.execAbort p e s
  | .commitTimeout p => Sys2Proof.Machine.execCommitTimeout p s
  | .ckptReq p e => Sys2Proof.Machine.execCkptReq p e s
  | .ckptRead p e => Sys2Proof.Machine.execCkptRead p e s
  | .rebalanced p e => Sys2Proof.Machine.execRebalanced p e s
  | .hostOp p e => Sys2Proof.Machine.execHostOp p e s
  | .join p e => Sys2Proof.Machine.execJoin p e s
  | .joinReply p e => Sys2Proof.Machine.execJoinReply p e s
  | .roster p e => Sys2Proof.Machine.execRoster p e s
  | .leave p e => Sys2Proof.Machine.execLeave p e s
  | .redirect p e => Sys2Proof.Machine.execRedirect p e s
  | .leadQuery p e => Sys2Proof.Machine.execLeadQuery p e s
  | .leadReply p e => Sys2Proof.Machine.execLeadReply p e s
  | .starterQuery p e => Sys2Proof.Machine.execStarterQuery p e s
  | .lost p e => Sys2Proof.Machine.execLost p e s
  | .joinRetry p => Sys2Proof.Machine.execJoinRetry p s
  | .startTimeout p => Sys2Proof.Machine.execStartTimeout p s
  | .starterSilent p => Sys2Proof.Machine.execStarterSilent p s
  | .leadQueryTimeout p => Sys2Proof.Machine.execLeadQueryTimeout p s
  | .noStarterTimeout p => Sys2Proof.Machine.execNoStarterTimeout p s
  | .starterQueryRetry p => Sys2Proof.Machine.execStarterQueryRetry p s
  | .otOpen t => Sys2Proof.Machine.execOtOpen t s
  | .otOpenRetry p n => Sys2Proof.Machine.execOtOpenRetry p n s
  | .otData t => Sys2Proof.Machine.execOtData t s
  | .otAck t => Sys2Proof.Machine.execOtAck t s
  | .otKeepalive t => Sys2Proof.Machine.execOtKeepalive t s
  | .keepaliveTimer p n => Sys2Proof.Machine.execKeepaliveTimer p n s
  | .otAckTimer p n vc => Sys2Proof.Machine.execOtAckTimer p n vc s
  | .retxTimeout p n vc => Sys2Proof.Machine.execRetxTimeout p n vc s
  | .otConnDown p n cause => Sys2Proof.Machine.execOtConnDown p n cause s
  | .rateIncrease p n => Sys2Proof.Machine.execRateIncrease p n s
  | .regRead r => Sys2Proof.Machine.execRegRead r s
  | .regWrite r => Sys2Proof.Machine.execRegWrite r s
  | .getLastError r => Sys2Proof.Machine.execGetLastError r s
  | .setWindow r => Sys2Proof.Machine.execSetWindow r s
  | .doorbell r => Sys2Proof.Machine.execDoorbell r s
  | .getIfStatus r => Sys2Proof.Machine.execGetIfStatus r s
  | .funcReset r => Sys2Proof.Machine.execFuncReset r s
  | .funcResetDone n => Sys2Proof.Machine.execFuncResetDone n s
  | .opStatus r => Sys2Proof.Machine.execOpStatus r s
  | .opSuspend r => Sys2Proof.Machine.execOpSuspend r s
  | .opResume r => Sys2Proof.Machine.execOpResume r s
  | .opCancel r => Sys2Proof.Machine.execOpCancel r s
  | .opRelease r => Sys2Proof.Machine.execOpRelease r s
  | .opList r => Sys2Proof.Machine.execOpList r s
  | .opSuspendPoint h => Sys2Proof.Machine.execOpSuspendPoint h s
  | .fwStage r => Sys2Proof.Machine.execFwStage r s
  | .nvmWrite r => Sys2Proof.Machine.execNvmWrite r s
  | .nvmConfig h => Sys2Proof.Machine.execNvmConfig h s
  | .ownerKey h => Sys2Proof.Machine.execOwnerKey h s
  | .payload h => Sys2Proof.Machine.execPayload h s
  | .identityReset h => Sys2Proof.Machine.execIdentityReset h s
  | .debugUnlock h => Sys2Proof.Machine.execDebugUnlock h s
  | .nvmPair h => Sys2Proof.Machine.execNvmPair h s
  | .frameWrite p f => Sys2Proof.Machine.execFrameWrite p f s
  | .frameRead p f env => Sys2Proof.Machine.execFrameRead p f env s
  | .stagingFrame f => Sys2Proof.Machine.execStagingFrame f s
  | .frameGenTimeout p => Sys2Proof.Machine.execFrameGenTimeout p s
  | .heldRequestStale p k => Sys2Proof.Machine.execHeldRequestStale p k s
  | .noticeInterval p => Sys2Proof.Machine.execNoticeInterval p s
  | .cmdNop p => Sys2Proof.Machine.execCmdNop p s
  | .jobLoad p => Sys2Proof.Machine.execJobLoad p s
  | .storeRead p => Sys2Proof.Machine.execStoreRead p s
  | .storeWrite p env => Sys2Proof.Machine.execStoreWrite p env s
  | .checkpoint p => Sys2Proof.Machine.execCheckpoint p s
  | .modelLoad p => Sys2Proof.Machine.execModelLoad p s
  | .commandFinalRecord p => Sys2Proof.Machine.execCommandFinalRecord p s
  | .usbAttach speed orient => Sys2Proof.Machine.execUsbAttach speed orient s
  | .usbDisconnect => Sys2Proof.Machine.execUsbDisconnect s
  | .busReset => Sys2Proof.Machine.execBusReset s
  | .warmReset => Sys2Proof.Machine.execWarmReset s
  | .portLinkUp t q => Sys2Proof.Machine.execPortLinkUp t q s
  | .portLinkDown t q cause => Sys2Proof.Machine.execPortLinkDown t q cause s
  | .portFecDegraded t q ratio => Sys2Proof.Machine.execPortFecDegraded t q ratio s
  | .frameReceive t q f => Sys2Proof.Machine.execFrameReceive t q f s
  | .frameTransmit t x => Sys2Proof.Machine.execFrameTransmit t x s
  | .gateEntryChange t k => Sys2Proof.Machine.execGateEntryChange t k s
  | .scheduleChangeTime t k => Sys2Proof.Machine.execScheduleChangeTime t k s
  | .portGateCtlChange t k => Sys2Proof.Machine.execPortGateCtlChange t k s
  | .portGateCtlCancel t k => Sys2Proof.Machine.execPortGateCtlCancel t k s
  | .portGateCtlEn t k value => Sys2Proof.Machine.execPortGateCtlEn t k value s
  | .portPtpStep t value => Sys2Proof.Machine.execPortPtpStep t value s
  | .portPtpFreq t value => Sys2Proof.Machine.execPortPtpFreq t value s
  | .ptpMessage t q => Sys2Proof.Machine.execPtpMessage t q s
  | .ptpMasterLost t => Sys2Proof.Machine.execPtpMasterLost t s
  | .periodicOutput t => Sys2Proof.Machine.execPeriodicOutput t s
  | .pfcPauseExpire t q classes => Sys2Proof.Machine.execPfcPauseExpire t q classes s
  | .pfcRenew t q cls => Sys2Proof.Machine.execPfcRenew t q cls s
  | .roceRequest t q => Sys2Proof.Machine.execRoceRequest t q s
  | .roceResponse t qp q => Sys2Proof.Machine.execRoceResponse t qp q s
  | .cnp t qp => Sys2Proof.Machine.execCnp t qp s
  | .roceAckTimeout t qp => Sys2Proof.Machine.execRoceAckTimeout t qp s
  | .roceRateIncrease t qp => Sys2Proof.Machine.execRoceRateIncrease t qp s
  | .qpxRead t value => Sys2Proof.Machine.execQpxRead t value s
  | .qpxWrite t value => Sys2Proof.Machine.execQpxWrite t value s
  | .attGo => Sys2Proof.Machine.execAttGo s
  | .attReportDone => Sys2Proof.Machine.execAttReportDone s
  | .mcLogSelWrite value => Sys2Proof.Machine.execMcLogSelWrite value s
  | .coreNumClrWtrunc c => Sys2Proof.Machine.execCoreNumClrWtrunc c s
  | .coreNumClrOutsat c => Sys2Proof.Machine.execCoreNumClrOutsat c s
  | .coreNumClrNonfin c => Sys2Proof.Machine.execCoreNumClrNonfin c s
  | .coreNumClrSumviol c => Sys2Proof.Machine.execCoreNumClrSumviol c s
  | .coreArrClrBeats c => Sys2Proof.Machine.execCoreArrClrBeats c s
  | .coreArrClrStalls c => Sys2Proof.Machine.execCoreArrClrStalls c s
  | .coreArrClrMismatches c => Sys2Proof.Machine.execCoreArrClrMismatches c s
  | .coreVrClrLsteps c => Sys2Proof.Machine.execCoreVrClrLsteps c s
  | .coreVrClrStalls c => Sys2Proof.Machine.execCoreVrClrStalls c s
  | .coreVrClrTagfail c => Sys2Proof.Machine.execCoreVrClrTagfail c s
  | .coreGbClrOps c => Sys2Proof.Machine.execCoreGbClrOps c s
  | .coreGbClrBytes c => Sys2Proof.Machine.execCoreGbClrBytes c s
  | .coreGbClrWaits c => Sys2Proof.Machine.execCoreGbClrWaits c s
  | .coreMemClrWaits c => Sys2Proof.Machine.execCoreMemClrWaits c s
  | .coreMemClrCe c => Sys2Proof.Machine.execCoreMemClrCe c s
  | .coreMemClrUe c => Sys2Proof.Machine.execCoreMemClrUe c s
  | .coreStrClrCounts c => Sys2Proof.Machine.execCoreStrClrCounts c s
  | .portCntClrAll t => Sys2Proof.Machine.execPortCntClrAll t s
  | .portOtClrAll t => Sys2Proof.Machine.execPortOtClrAll t s
  | .coreNetClrOps c => Sys2Proof.Machine.execCoreNetClrOps c s
  | .coreNetClrStalls c => Sys2Proof.Machine.execCoreNetClrStalls c s
  | .coreNetClrBubble c => Sys2Proof.Machine.execCoreNetClrBubble c s
  | .usbSuspend => Sys2Proof.Machine.execUsbSuspend s
  | .usbResume => Sys2Proof.Machine.execUsbResume s
  | .otClose t => Sys2Proof.Machine.execOtClose t s
  | .blockUnusable kind index code => Sys2Proof.Machine.execBlockUnusable kind index code s
  | .sealIntact => Sys2Proof.Machine.execSealIntact s
  | .mcSyncIoDrive drive => Sys2Proof.Machine.execMcSyncIoDrive drive s
  | .nvmPageComplete => Sys2Proof.Machine.execNvmPageComplete s

end Sys2Proof.Machine
end

