-- ==== Sys2Proof/Safety.lean ====
section
/-! DEFINITION. What counts as a safe step and a sound state, in the terms that claims use. -/

namespace Sys2Proof.Machine

/-- A step that answers a next state. -/
def Completes (o : Host.Outcome State Fault Refusal) : Prop := ∃ t, o = .next t

/-- A command answers a next state, and that state has a property. -/
def Does (i : Instr) (s : State) (P : State → Prop) : Prop := ∃ t, exec i s = .next t ∧ P t

/-- The registers that delivering events may change: the event counts, the counts of lost records, the state of the log, and
the alert (R263, R413, R421, R437, R447). -/
def isEventReg (o : Nat) : Bool :=
  (List.range 6).any (fun v => decide (o = mcEvtCnt v)) || decide (o = usbMgmtEvlost) || decide (o = mcLogStat) ||
    decide (o = mcAlert) || (List.finRange 4).any fun p => decide (o = usbJobLost p)

/-- Whether an address lies in a host context region, where the rings of a partition are (R171). -/
def State.inRings (s : State) (a : Nat) : Bool := allParts.any fun p => decide (s.hctx p ≤ a ∧ a < s.hctx p + 0x4000000)

/-- What events leave alone: `t` is `s` but for the places where event records go (R421). -/
structure EventFrame (s t : State) : Prop where
  freeCtr : t.freeCtr = s.freeCtr
  pending : t.pending = s.pending
  latches : t.latches = s.latches
  cores : t.cores = s.cores
  handles : t.handles = s.handles
  lastHandle : t.lastHandle = s.lastHandle
  staging : t.staging = s.staging
  diag : t.diag = s.diag
  usb : t.usb = { s.usb with mgmt := t.usb.mgmt }
  mc : t.mc = { s.mc with evtCount := t.mc.evtCount, logWait := t.mc.logWait, nvmQueue := t.mc.nvmQueue }
  ports : t.ports = s.ports
  nvm : t.nvm = s.nvm
  counters : t.counters = s.counters
  paired : t.paired = s.paired
  parts : ∀ p : PartId, t.parts[p] = { s.parts[p] with iface := { s.parts[p].iface with hdr := t.parts[p].iface.hdr } }
  reg : ∀ o, isEventReg o = false → t.reg o = s.reg o
  rd : ∀ a, s.inRings a = false → t.rd a = s.rd a

/-- The canonical forms of the sparse tables: memory, registers, flash and read latches list rising keys, and nothing that an
unlisted key already reads as; the flash has eight counters (R375). -/
structure State.Canonical (s : State) : Prop where
  mem : Memory.wf s.mem = true
  regs : mapCanon resetReg s.regs = true
  nvm : mapCanon (fun _ => (0xFF : Byte)) s.nvm = true
  latches : keysRise s.latches = true
  counters : s.counters.length = 8

/-- A device without AUX_3V3 (R370, R371, R428): the MC off and its start not begun, no rail requested, nothing held for a cascade or a
standing job, nothing issued on any core, no job, no handle. -/
structure State.Dark (s : State) : Prop where
  aux : s.mc.aux = false
  off : s.mc.on = false
  rst : s.mc.rstLow = false
  started : s.mc.complete = false
  pwr : s.mc.pwrReq = false
  hub : s.mc.hubRailOn = false
  cascade : s.mc.cascade = .notApplied
  restart : s.mc.restartAt = []
  quiet : ∀ c : CoreId, s.cores[c].issued = []
  jobs : ∀ p, s.job p = none
  handles : s.handles = []

/-- A stream stands at a descriptor that it may take: partition `p` and logical core `l` with job `j`, list `r` not used up, the
stream issuing or waiting, nothing of it still executing in the stream, and no halt, stop or pause (R208, R210, R220, R407). -/
structure State.AtDescriptor (s : State) (c : CoreId) (x : CtxId) (p : PartId) (l : Nat) (j : Job) (r : ListRec) : Prop where
  part : s.cores[c].part = some p
  lcore : (s.cores[c].half (ctxGuest x)).lcore = some l
  job : s.job p = some j
  active : (s.stream c x).state = .issuing ∨ (s.stream c x).state = .waitCounter ∨ (s.stream c x).state = .waitQueue
  free : (s.cores[c].issued.any fun e => decide (e.ctx = x ∧ e.queue = .syn)) = false
  may : s.mayIssue c = true
  stop : j.stop = .none
  paused : j.paused = false
  list : j.listOf l (if (s.stream c x).update then 4 else (ctxStream x).val) = some r
  more : (s.stream c x).index < r.count

/-- What a descriptor of core `c` that runs to its end leaves alone: everything but its own core's issued list, slots, tables,
grids and counters, the wakes and kneading orders that its accesses cause, its partition's job, and the places that events reach. -/
structure EngineFrame (c : CoreId) (s t : State) : Prop where
  pending : t.pending = s.pending
  latches : t.latches = s.latches
  handles : t.handles = s.handles
  lastHandle : t.lastHandle = s.lastHandle
  staging : t.staging = s.staging
  diag : t.diag = s.diag
  ports : t.ports = s.ports
  nvm : t.nvm = s.nvm
  counters : t.counters = s.counters
  paired : t.paired = s.paired
  usb : t.usb = { s.usb with mgmt := t.usb.mgmt }
  mc : t.mc = { s.mc with
    evtCount := t.mc.evtCount, logWait := t.mc.logWait, nvmQueue := t.mc.nvmQueue, ceLog := t.mc.ceLog, ceRaised := t.mc.ceRaised }
  parts : ∀ p : PartId, t.parts[p] =
    { s.parts[p] with job := t.parts[p].job, iface := { s.parts[p].iface with hdr := t.parts[p].iface.hdr } }
  others : ∀ d : CoreId, d ≠ c → t.cores[d] = { s.cores[d] with ret := t.cores[d].ret, knead := t.cores[d].knead }
  own : t.cores[c] = { s.cores[c] with
    ret := t.cores[c].ret, knead := t.cores[c].knead, issued := t.cores[c].issued, first := t.cores[c].first, guest := t.cores[c].guest
    arrays := t.cores[c].arrays }

/-- The registers that accesses to memory may change besides: the wakes of a core, its corrected errors, those of a stack (R180,
R189). -/
def isMemReg (o : Nat) : Bool :=
  (List.range 8).any fun c => decide (o = coreMemWakes c) || decide (o = coreMemCeSram c) || decide (o = coreMemCeCrumb c) ||
    decide (o = hubHbmCe (c / 2) (c % 2))

/-- The number that a finite value stands for. -/
noncomputable def XNum.real : XNum → ℝ
  | .fin n m e => (if n then -1 else 1) * m * (2 : ℝ) ^ e
  | _ => 0

/-- The functions of the firmware standard set, exactly (R136): GELU in its erf form, SiLU, tanh, logistic sigmoid, exp2, softplus. -/
noncomputable def standardReal (f : Nat) (x : ℝ) : ℝ :=
  match f with
  | 1 => x / 2 * (1 + 2 / Real.sqrt Real.pi * ∫ t in (0 : ℝ)..(x / Real.sqrt 2), Real.exp (-(t ^ 2)))
  | 2 => x / (1 + Real.exp (-x))
  | 3 => Real.tanh x
  | 4 => 1 / (1 + Real.exp (-x))
  | 5 => (2 : ℝ) ^ x
  | _ => Real.log (1 + Real.exp x)

/-- The pair that a standard function loads (R133, R136). -/
def standardTab (f : Nat) : Tab :=
  ⟨tabHdr (standardImage f), fun d i => (List.range 4).map fun k => rdLE (standardImage f) (0x40 + (if d then 0x1000 else 0) + 16 * i + 4 * k) 4⟩

/-- The firmware's standard tables keep the bound of R70 and R136: over its domain, a function's value is within 2^-20 of the exact one,
relatively. The coefficients are the firmware's, so a claim that needs the bound takes this as its premise (log entry 91). -/
def StandardTablesMeet : Prop :=
  ∀ f x : Nat, standardFunc f = true → x < 2 ^ 32 → (f32 (standardDomain f).1).real ≤ (f32 x).real →
    (f32 x).real < (f32 (standardDomain f).1).real + 256 * (2 : ℝ) ^ (standardDomain f).2.1 → (f32 x ≠ .nan ∧ ∀ n, f32 x ≠ .inf n) →
    |(f32 ((standardTab f).eval false (f32 x))).real - standardReal f (f32 x).real| ≤ 1 / 2 ^ 20 * |standardReal f (f32 x).real|

end Sys2Proof.Machine
end

