-- ==== Sys2Proof/Certificates/Slice0/Obligations.lean ====
section
/-! DEFINITION. The statements about the block, for the provers. -/

open Sys2Proof Sys2Proof.Machine

/-! ### The queue and the state after reset -/

/-- A step runs the command at the front of the queue on the state with the queue's rest, and answers what it answers. With
nothing waiting the block idles (log entry 8). -/
def Obligations.StepRunsFrontCommand : Prop :=
  (∀ (c : Instr) (rest : List Instr) (s : State), step { s with pending := c :: rest } = exec c { s with pending := rest }) ∧
  (∀ s : State, s.pending = [] → step s = .next s)

/-- The state after reset meets the canonical forms, and is that of a device without AUX_3V3 (R370). -/
def Obligations.ResetKeepsInvariants : Prop :=
  State.reset.Canonical ∧ State.reset.Dark

/-- After reset every register reads its reset value, no partition has a job, no handle lives, nothing is issued, every read
of memory finds zero and the flash is erased and unpaired with its counters at 0. The model's choices: what a value of the
part is where the spec says per part (log 3), zero for memory that nothing has written (log 4), the flash, the counters, and
no job, handle or queue before the first start (log 14). -/
def Obligations.ResetValues : Prop :=
  (∀ o, State.reset.reg o = resetReg o) ∧
  (∀ p, State.reset.job p = none) ∧
  (∀ h, State.reset.handleOf h = none) ∧
  (∀ c : CoreId, State.reset.cores[c].issued = [] ∧ State.reset.cores[c].inService = false) ∧
  (∀ a, State.reset.rd a = memDefault) ∧
  (∀ a, State.reset.nvmAt a = 0xFF) ∧ (∀ n, State.reset.counter n = 0) ∧ State.reset.paired = false ∧
  State.reset.mc.on = false ∧ State.reset.mc.complete = false ∧ State.reset.mc.cascade = .notApplied

/-! ### Starts, pins and supplies -/

/-- What begins a start (R370, R371, R416, R429, R434): an application of AUX_3V3, the release of RST_N, the cold-reset bit; a
start after a brownout that kept the PUF root is a cold one. RST_N_ASSERT and a brownout stop the MC, empty memory, registers,
handles and jobs, and keep the flash counters and the pairing; RST_N_ASSERT keeps AUX_3V3 and the PUF root, and PWR_REQ and
the hub rail fall. That the contents go and PWR_REQ falls at the assertion already, where R429 and R434 put the cold reset at
the release, is the model's reading (log 106). The stages of a start before its power (R371, R373, R376, R380, R388, R389,
R398), x being the state as the MC leaves reset: stages 2 to 5 follow one another and the first that fails ends the start; a
start that passes all waits in stage 6 with PWR_REQ high and hub 0 alone usable. Without a PUF root a power-on start fails in
stage 2 with PUF_FAILED; a flash without pairing fails stage 3 with NVM_COUNTER_FAULT; a firmware image that fails its check
fails stage 4, a configuration that fails its check under the owner key stage 5, each with the check's event, and one that
passes is taken; a self-test that fails in stage 2 fails it with START_FAILED. The storage key stands with the root, the
identity key with the root on a paired flash with counters that authenticate. A failed start is in recovery, its stage and the
event's low byte in MC_START_STAT, and changes no flash byte, counter, core or memory outside the rings. A start whose
power-good inputs come shows them in PWR_PG, runs proof on the blocks and, where the start minimum and USB 2.0 hold, applies
the configuration and completes; otherwise it fails in stage 8 (R371, R398, R399, R438). Inputs that do not come fail stage 6,
and PWR_REQ falls (R428). The SOURCE of an event that its table does not give is the model's reading (log 79). Says that these
complete: powerOnStart, rstNAssert, rstNRelease, mcResetCtlCold, powerGood, powerGoodTimeout, auxBrownout. -/
def Obligations.StartsBeginAndComplete : Prop :=
  (∀ env (s : State), s.mc.aux = false → exec (.powerOnStart env) s = .next (s.start (s.mc.brownout && env.rootKept && s.mc.root) env)) ∧
  (∀ (s : State), s.mc.aux = true → ∃ t : State, exec .rstNAssert s = .next t ∧ t.mc.aux = true ∧ t.mc.rstLow = true ∧ t.mc.on = false ∧
    t.mc.pwrReq = false ∧ t.mc.hubRailOn = false ∧ t.mem = [] ∧ t.regs = [] ∧ t.handles = [] ∧ (∀ p, t.job p = none) ∧
    t.counters = s.counters ∧ t.paired = s.paired ∧ t.mc.root = s.mc.root) ∧
  (∀ env (s : State), s.mc.rstLow = true → exec (.rstNRelease env) s = .next (s.start true env)) ∧
  (∀ env (s : State), s.mc.on = true → exec (.mcResetCtlCold env) s = .next (s.finishPage.start true env)) ∧
  (∀ (s : State), s.mc.aux = true → ∃ t : State, exec .auxBrownout s = .next t ∧ t.mc.brownout = true ∧ t.mc.aux = false ∧ t.mc.on = false ∧
    t.mem = [] ∧ t.regs = [] ∧ t.handles = [] ∧ (∀ p, t.job p = none) ∧ t.counters = s.counters ∧ t.paired = s.paired) ∧
  (∀ env (x : State) (s : State), x = (s.leaveReset false).startReports s.mc.brownout false → env.selfFail = none → env.pufOk = false →
    s.start false env = (x.toStage 2).startFails 2 .sec (0x8009, [])) ∧
  (∀ cold env b (x : State) (s : State), x = (s.leaveReset cold).startReports s.mc.brownout cold → env.selfFail = some (0, b) →
    s.start cold env = ({ x.toStage 2 with mc := { (x.toStage 2).mc with usbDown := !b } } : State).startFails 2 .mc
      (0x9050, [2, Config.fieldWord 0x9050 2 0])) ∧
  (∀ cold env (x y : State) (s : State), x = (s.leaveReset cold).startReports s.mc.brownout cold → x.startPuf cold env = .ok y →
    env.selfFail = none → y.paired = false → s.start cold env = (y.toStage 3).startFails 3 .sec (0x800A, [0xFF])) ∧
  (∀ env (z : State), env.selfFail = none →
    z.startFirmware env = match fwCheck (z.nvmRd nvmFw z.imageLens.1) (z.counter 4) (z.counter 0) with
      | some e => .error ((z.toStage 4).startFails 4 .sec e)
      | none => .ok { z.toStage 4 with mc := { (z.toStage 4).mc with fwHeader := (z.nvmRd nvmFw z.imageLens.1).take 0x2000 } }) ∧
  (∀ k b (w : State), k = (if w.mc.storageKey = true then recordOwner (w.nvmRd nvmOwner 0xA68) (w.counter 2) else none) →
    b = w.nvmRd nvmCfg w.imageLens.2 →
    w.startConfig = match cfgCheck b k (w.counter 1) with
      | some e => .error (({ w.toStage 5 with mc := { (w.toStage 5).mc with ownerKey := k.getD [] } } : State).startFails 5 .mc e)
      | none => .ok { w.toStage 5 with mc := { (w.toStage 5).mc with
          ownerKey := k.getD [], conduct := rdLE b 0xC 4 % 16, cfgDigest := sha3_512 b
          cfg := ((cfgRecords b).getD []).map fun r => (r.ty, r.val) } }) ∧
  (∀ cold env (x : State) (s : State), x = (s.leaveReset cold).startReports s.mc.brownout cold →
    s.start cold env = match x.startPuf cold env with
      | .error t => t
      | .ok y => match y.startCounters env with
        | .error t => t
        | .ok z => match z.startFirmware env with
          | .error t => t
          | .ok w => match w.startConfig with
            | .error t => t
            | .ok v => { v.toStage 6 with mc := { (v.toStage 6).mc with pwrReq := true, hubsUp := 1 } }) ∧
  (∀ cold env (x y : State), x.startPuf cold env = .ok y → y.mc.storageKey = y.mc.root) ∧
  (∀ env (y z : State), y.startCounters env = .ok z →
    y.paired = true ∧ env.countersOk = true ∧ z.mc.counterKey = true ∧ z.mc.identityKey = y.mc.root) ∧
  (∀ n src (e : Refused) (s : State), (s.startFails n src e).mc.recovery = true ∧ (s.startFails n src e).mc.failStage = n ∧
    (s.startFails n src e).mc.stage = n ∧ (s.startFails n src e).mc.cause = e.1 % 256 ∧ (s.startFails n src e).nvm = s.nvm ∧
    (s.startFails n src e).counters = s.counters ∧ (s.startFails n src e).cores = s.cores ∧
    ∀ a, s.inRings a = false → (s.startFails n src e).rd a = s.rd a) ∧
  (∀ proof (u : State) (s : State), s.awaitsPower = true → u = (((s.toStage 8).setFld pwrPg 5 0 0x3F).blocksUp.proof proof).placeHctx →
    u.minimum = true → proof.usb2 = true → exec (.powerGood proof) s = .next (u.toStage 9).applyConfig.completeStart) ∧
  (∀ proof (u : State) (s : State), s.awaitsPower = true → u = (((s.toStage 8).setFld pwrPg 5 0 0x3F).blocksUp.proof proof).placeHctx →
    (u.minimum = false ∨ proof.usb2 = false) → exec (.powerGood proof) s = .next (u.startFails 8 .mc
      (0x9050, [8, Config.fieldWord 0x9050 8 0]))) ∧
  (∀ (s : State), s.awaitsPower = true → exec .powerGoodTimeout s =
    .next (({ s with mc := { s.mc with pwrReq := false, firstFail := 0x9050 } } : State).startFails 6 .mc
      (0x9050, [6, Config.fieldWord 0x9050 6 0])))

/-- Cascade start (R330, R331): a pulse counts up to 63 and releases a held device that it brings to its position; the device
drives its own pulse once, when its start is complete, its standing jobs have begun and it was not released by timeout; the
timeout of a held device raises CASCADE_TIMEOUT and releases it; a standing job whose reload is due is loaded where its
partition is free, and is due no longer (R385). That a pulse is taken for a start of any cause, and that a device released by
its timeout drives none, is the model's choice (log 82); so is CASCADE_TIMEOUT's SOURCE (log 79). Says that these complete:
cascadePulse, cascadeDelayExpire, cascadeTimeout, standingJobRestart. -/
def Obligations.CascadeActs : Prop :=
  (∀ (s : State), s.mc.on = true → ∃ t : State, t = ({ s with mc := { s.mc with pulses := Nat.min 63 (s.mc.pulses + 1) } } : State) ∧
    exec .cascadePulse s = .next (if s.mc.cascade = .held ∧ t.cascadePos ≤ t.mc.pulses then t.release .byCount else t)) ∧
  (∀ (s : State), s.mc.complete = true → (s.syncRec 1).isSome = true → (s.mc.cascade = .byCount ∨ s.mc.cascade = .notApplied) →
    s.mc.pulsed = false → s.standingBegun = true →
    exec .cascadeDelayExpire s = .next { s with mc := { s.mc with pulsed := true, syncOut := s.mc.syncOut + 1 } }) ∧
  (∀ (s : State), s.mc.cascade = .held →
    exec .cascadeTimeout s = .next ((s.raise .mc none 0x9040 [s.cascadePos, s.mc.pulses]).release .byTimeout)) ∧
  (∀ (p : PartId) (s : State) n v, mapGet s.mc.restartAt p.val = some n → s.standingRec p = some v → s.job p = none →
    exec (.standingJobRestart p) s =
      .next (({ s with mc := { s.mc with restartAt := mapErase s.mc.restartAt p.val } } : State).loadStanding p v))

/-- Test mode, where AUX_3V3 is up, erases the PUF root, the storage, identity and counter root keys, leaves every byte of the
memories of every core at zero and their table headers invalid, sets TESTZ, and leaves HBM4E, the flash and its counters, the
registers, the rest of the cores and the handles as they were (R394). Presence and the seal (R391, R392), where AUX_3V3 is up:
an assertion that ends with the seal intact for 100 ms or more arms presence until 60 s later, one that ends within 100 ms of
the loop's closing or with the loop open does not; PRESENCE_EXPIRE disarms it; an opening of an intact seal raises SEAL_OPEN
with SEAL_BREAKS, which it advances by one on a paired flash, disarms presence, and leaves the other counters, the cores, the
jobs, the handles, the flash, the registers and memory; one without AUX_3V3 is not counted; SEAL_INTACT closes the loop. The
model's choices (log 55): the meaning of these commands, an assertion of 100 ms, no count on an unpaired flash; SEAL_OPEN's
SOURCE (log 79). Says that these complete: testModeAssert, presenceAssert, presenceExpire, sealOpen, sealIntact. -/
def Obligations.SecurityInputsAct : Prop :=
  (∀ s : State, s.mc.aux = true → ∃ t : State, exec .testModeAssert s = .next t ∧ t.mc.testz = true ∧
    t.mc.root = false ∧ t.mc.storageKey = false ∧ t.mc.identityKey = false ∧ t.mc.counterKey = false ∧
    (∀ a, crumbBase 0 ≤ a → a < crumbBase 0 + 0x800000000 → t.rd a = 0) ∧
    (∀ a, wmBase 0 ≤ a → a < wmBase 0 + 0x80000000 → t.rd a = 0) ∧
    (∀ a, a < 0x10000000000 → t.rd a = s.rd a) ∧
    (∀ c : CoreId, t.cores[c] = { s.cores[c] with
      first := { s.cores[c].first with tables := [] }, guest := { s.cores[c].guest with tables := [] } }) ∧
    t.nvm = s.nvm ∧ t.counters = s.counters ∧ t.regs = s.regs ∧ t.parts = s.parts ∧ t.handles = s.handles) ∧
  (∀ (s : State), s.mc.aux = true → s.mc.sealIntact = true → (∀ t, s.mc.sealAt = some t → t + presenceNs ≤ s.mc.time) →
    exec .presenceAssert s = .next { s with mc := { s.mc with armedUntil := some (s.mc.time + 60000000000) } }) ∧
  (∀ t (s : State), s.mc.sealAt = some t → s.mc.time < t + presenceNs → exec .presenceAssert s = .next s) ∧
  (∀ (s : State), s.mc.sealIntact = false → exec .presenceAssert s = .next s) ∧
  (∀ (s : State), exec .presenceExpire s = .next { s with mc := { s.mc with armedUntil := none } }) ∧
  (∀ (s : State), s.mc.aux = true → s.mc.sealIntact = true → s.counters.length = 8 → ∃ t : State,
    exec .sealOpen s = .next (t.raise .sec none 0x8007 [t.counter 5]) ∧
    t.mc = { s.mc with sealIntact := false, armedUntil := none } ∧
    (s.paired = true → t.counter 5 = s.counter 5 + 1 ∧ ∀ n, n ≠ 5 → t.counter n = s.counter n) ∧
    (s.paired = false → t.counters = s.counters) ∧ t.cores = s.cores ∧ t.handles = s.handles ∧ t.nvm = s.nvm ∧ t.parts = s.parts ∧
    t.regs = s.regs ∧ t.mem = s.mem) ∧
  (∀ (s : State), s.mc.aux = false → exec .sealOpen s = .next { s with mc := { s.mc with sealIntact := false } }) ∧
  (∀ (s : State), s.mc.sealIntact = false → exec .sealIntact s =
    .next { s with mc := { s.mc with sealIntact := true, sealAt := some s.mc.time } })

/-- The thresholds of AUX_3V3 and VIN_CORE (R416): an inhibit is set for its rail and its event names the rail and its
voltage; an inhibit that clears lets NVM writes go on; the throttle puts every core rail that is on at its floor, limits the
duty, inhibits NVM writes and raises VIN_THROTTLE, and its clearing ends all three; VIN_HALT sets the halt and raises its
event, and its clearing ends it. The SOURCE PWR of these events is the model's choice (log 79). Losses of supply and heat
(R407, R417, R429, R437): a lost rail is recorded, and it and a trip switch the hub rail off and lower PWR_REQ, so that no
core issues, and leave the flash and its counters; a trip, of a sensor or of a halt past its limit, is counted and
THERM_TRIP_N asserted; a halt sets the halted state and raises THERMAL_HALT, and a resume ends it. A lost rail's power-good
reads low (R438). The SOURCE MC of THERMAL_HALT is the model's choice (log 79). Says that these complete: nvmInhibit,
nvmInhibitClear, vinThrottle, vinThrottleClear, vinHalt, vinHaltClear, supplyLost, thermalHalt, thermalResume, thermalTrip,
thermalHaltLimit. -/
def Obligations.SuppliesAndHeatAct : Prop :=
  (∀ mv (s : State), s.mc.on = true → exec (.nvmInhibit true mv) s =
    .next (({ s with mc := { s.mc with vinInhibit := true } } : State).raise .pwr none 0x9001 [0, mv])) ∧
  (∀ mv (s : State), s.mc.on = true → exec (.nvmInhibit false mv) s =
    .next (({ s with mc := { s.mc with auxInhibit := true } } : State).raise .pwr none 0x9001 [6, mv])) ∧
  (∀ (s : State), exec .nvmInhibitClear s = .next ({ s with mc := { s.mc with auxInhibit := false } } : State).nvmGo) ∧
  (∀ mv (s : State), s.mc.on = true → ∃ t : State, exec (.vinThrottle mv) s = .next t ∧ t.mc.vinThrottle = true ∧ t.mc.vinInhibit = true ∧
    t.mc.duty = true ∧ (∀ c : CoreId, t.mc.rails[c].on = s.mc.rails[c].on ∧ t.mc.rails[c].floor = s.mc.rails[c].floor ∧
      t.mc.rails[c].volt = if s.mc.rails[c].on then s.mc.rails[c].floor else s.mc.rails[c].volt) ∧
    t.cores = s.cores ∧ t.handles = s.handles ∧ t.nvm = s.nvm ∧ t.counters = s.counters ∧ (∀ p, t.job p = s.job p) ∧
    ∀ a, s.inRings a = false → t.rd a = s.rd a) ∧
  (∀ mv (s : State), s.mc.on = true → exec (.vinThrottle mv) s = .next (({ s.railsToFloor with mc := { s.railsToFloor.mc with
      vinThrottle := true, vinInhibit := true, duty := true } } : State).raise .pwr none 0x9003 [mv])) ∧
  (∀ (s : State), exec .vinThrottleClear s = .next ({ s with mc := { s.mc with
      vinThrottle := false, vinInhibit := false, duty := s.mc.duty && !s.mc.vinThrottle } } : State).nvmGo) ∧
  (∀ mv (s : State), s.mc.on = true → exec (.vinHalt mv) s =
    .next (({ s with mc := { s.mc with vinHalt := true } } : State).raise .pwr none 0x9004 [mv])) ∧
  (∀ (s : State), exec .vinHaltClear s = .next { s with mc := { s.mc with vinHalt := false } }) ∧
  (∀ rail mv (s : State), s.mc.on = true → s.mc.pwrReq = true → ∃ t : State, exec (.supplyLost rail mv) s = .next t ∧ t.mc.lost = true ∧
    t.mc.lostRail = rail.val ∧ t.mc.pwrReq = false ∧ t.mc.hubRailOn = false ∧ t.regFld pwrPg rail.val rail.val = 0 ∧ (∀ c : CoreId, t.cores[c].issued = []) ∧
    (∀ (c : CoreId), t.mayIssue c = false) ∧ t.nvm = s.nvm ∧ t.counters = s.counters) ∧
  (∀ sensor tj (s : State), s.mc.on = true → s.mc.hubRailOn = true → s.mc.therm ≠ .halted → s.mc.therm ≠ .tripped →
    exec (.thermalHalt sensor tj) s =
      .next (({ s with mc := { s.mc with therm := .halted } } : State).raise .mc none 0x9010 [sensor.kind, sensor.index, tj])) ∧
  (∀ (s : State), s.mc.therm = .halted → exec .thermalResume s = .next { s with mc := { s.mc with therm := .normal } }) ∧
  (∀ sensor tj (s : State), s.mc.on = true → s.mc.hubRailOn = true → s.mc.therm ≠ .tripped → ∃ t : State, exec (.thermalTrip sensor tj) s = .next t ∧
    t.mc.therm = .tripped ∧ t.mc.thermAlert = true ∧ t.mc.pwrReq = false ∧ t.mc.hubRailOn = false ∧
    t.mc.trips = satAdd 16 s.mc.trips 1 ∧ (∀ (c : CoreId), t.mayIssue c = false) ∧ t.nvm = s.nvm ∧ t.counters = s.counters) ∧
  (∀ sensor tj (s : State), s.mc.on = true → s.mc.therm = .halted → ∃ t : State, exec (.thermalHaltLimit sensor tj) s = .next t ∧
    t.mc.therm = .tripped ∧ t.mc.thermAlert = true ∧ t.mc.pwrReq = false ∧ t.mc.hubRailOn = false ∧
    t.mc.trips = satAdd 16 s.mc.trips 1 ∧ (∀ (c : CoreId), t.mayIssue c = false) ∧ t.nvm = s.nvm ∧ t.counters = s.counters)

/-! ### Regulation, ageing, fences, memory upkeep -/

/-- A loop period of the MC (R27-R29, R406, R407, R412, R415, R416): its clock advances 1 ms; every rail that is on takes one
step of its regulator, which a rate cap of 0 never lowers, and the others stand; duty limiting, for the power limit or the
rate cap, is judged on the voltages before that step; the thermal state, the peak and the hours powered and hot follow the
readings; which cores are in service, what is issued on them, the flash, the security counters, the pairing and the staging
buffer stay. The model's choices: a step of 10 mV (log 31), a rail without an answer counted at its nominal voltage (log 32),
duty on the voltages before the step (log 88). What the MC does for the ageing of the part (R26, R406, R408, R410, R412,
R413): a survey goes over the cores it names; a plan is taken at a step boundary with nothing in flight, or is set down at the
quiesce limit and taken once nothing is in flight, and sets its own core's codes and floor alone, of each family the smallest
code that gives 15 %, and the lowest voltage of the grid at which every family keeps it; the daily re-plan is asked for;
TIME_LATCH latches the MC counter and every port's clock; the summary raises its record and queues three log entries and the
fixed area; the record or the fixed area whose turn it is, is written while nothing inhibits the flash and no page write is
under way. The model's choices: where a boundary is (log 88), how the log is written (log 69). The SOURCE of an event that its
table does not give is the model's reading (log 79). Says that these complete: mcLoopTick, ageingSurvey, replan,
replanQuiesceTimeout, replanDaily, timeLatch, ageingSummary, ageingLogWrite. -/
def Obligations.RegulationAndAgeingAct : Prop :=
  (∀ r (s : State), s.mc.on = true → ∃ t : State, exec (.mcLoopTick r) s = .next t ∧
    t.mc.time = s.mc.time + 1000000 ∧
    (∀ c : CoreId, t.mc.rails[c] =
      if s.mc.rails[c].on then
        s.mc.rails[c].step
          (decide (s.powerLimit * 10000 < boardPower r) || decide (88 * 16 ≤ tjMax r) ||
            (decide (s.regFld mcRateCap 15 0 ≠ 0) && r.capBinds.getD c.val false))
          (decide (boardPower r + 100000 < s.powerLimit * 10000) && !decide (88 * 16 ≤ tjMax r) &&
            !(decide (s.regFld mcRateCap 15 0 ≠ 0) && r.capBinds.getD c.val false))
          s.mc.vinThrottle (r.marginsOk.getD c.val true)
      else s.mc.rails[c]) ∧
    (t.mc.duty = true ↔ s.mc.vinThrottle = true ∨
      (s.powerLimit * 10000 < boardPower r ∧ ∀ c : CoreId, s.mc.rails[c].on = true → s.mc.rails[c].volt ≤ s.mc.rails[c].floor) ∨
      (s.regFld mcRateCap 15 0 ≠ 0 ∧ ∃ c : CoreId, r.capBinds.getD c.val false = true ∧ s.mc.rails[c].on = true ∧
        s.mc.rails[c].volt ≤ s.mc.rails[c].floor) ∨
      (s.mc.duty = true ∧ s.powerLimit * 10000 ≤ boardPower r)) ∧
    (s.mc.therm = .normal ∨ s.mc.therm = .lowering →
      t.mc.therm = if 88 ≤ Nat.min 255 (tjMax r / 16).toNat then .lowering else .normal) ∧
    (s.mc.therm = .halted ∨ s.mc.therm = .tripped → t.mc.therm = s.mc.therm) ∧
    t.mc.tjPeak = Nat.max (Nat.min 255 (tjMax r / 16).toNat) s.mc.tjPeak ∧
    ((∃ c : CoreId, s.mc.rails[c].on = true) → t.mc.poweredNs = s.mc.poweredNs + 1000000 ∧
      t.mc.hotNs = s.mc.hotNs + if 85 ≤ Nat.min 255 (tjMax r / 16).toNat then 1000000 else 0) ∧
    ((∀ c : CoreId, s.mc.rails[c].on = false) → t.mc.poweredNs = s.mc.poweredNs ∧ t.mc.hotNs = s.mc.hotNs) ∧
    t.mc.trips = s.mc.trips ∧
    (∀ c : CoreId, t.cores[c].inService = s.cores[c].inService ∧ t.cores[c].issued = s.cores[c].issued) ∧
    t.nvm = s.nvm ∧ t.counters = s.counters ∧ t.paired = s.paired ∧ t.staging = s.staging) ∧
  (∀ l (s : State), s.mc.on = true → exec (.ageingSurvey l) s = .next (l.foldl State.surveyCore s)) ∧
  (∀ (c : CoreId) (plan : Plan) (s : State), s.mayReplan c = true → s.cores[c].issued = [] →
    s.atBoundary c = true → exec (.replan c plan) s = .next (s.replan c plan)) ∧
  (∀ (c : CoreId) (plan : Plan) (s : State), s.mayReplan c = true → exec (.replanQuiesceTimeout c plan) s =
    .next (s.updRail c fun r => { r with quiesce := some plan }).quiesceDone) ∧
  (∀ (c : CoreId) (plan : Plan) (s : State), s.mc.rails[c].quiesce = some plan → s.cores[c].issued = [] →
    (∀ d : CoreId, d ≠ c → s.mc.rails[d].quiesce = none) → s.quiesceDone = s.replan c plan) ∧
  (∀ (s : State), (∀ c : CoreId, s.mc.rails[c].quiesce = none ∨ s.cores[c].issued ≠ []) → s.quiesceDone = s) ∧
  (∀ (c : CoreId) (plan : Plan) (s : State), (s.replan c plan).mc.rails[c].codes = planCodes plan ∧ (s.replan c plan).mc.rails[c].floor = planFloor plan ∧
    (s.replan c plan).mc.rails[c].wantReplan = false ∧ (s.replan c plan).mc.rails[c].quiesce = none ∧
    (s.replan c plan).mc.rails[c].commission = some (s.mc.rails[c].commission.getD (planFloor plan)) ∧
    planFloor plan ≤ (s.replan c plan).mc.rails[c].volt ∧ (s.replan c plan).cores = s.cores ∧ (s.replan c plan).nvm = s.nvm ∧
    (∀ d : CoreId, d ≠ c → (s.replan c plan).mc.rails[d] = s.mc.rails[d])) ∧
  (∀ (plan : Plan) f k, f < 8 → k < 64 → (plan.margins.getD f [])[k]?.any (fun m => decide (15 ≤ m)) = true →
    (∀ i, i < k → (plan.margins.getD f [])[i]?.all (fun m => decide (m < 15)) = true) → (planCodes plan).getD f 0 = k) ∧
  (∀ (plan : Plan) k, k ≤ 70 → plan.keeps[k]?.any (fun m => decide (15 ≤ m)) = true →
    (∀ i, i < k → plan.keeps[i]?.all (fun m => decide (m < 15)) = true) → planFloor plan = 500 + 5 * k) ∧
  (∀ (c : CoreId) (s : State), s.coreUp c = true →
    exec (.replanDaily c) s = .next (s.updRail c fun r => { r with wantReplan := true })) ∧
  (∀ (s : State), s.mc.on = true → ∃ t : State, exec .timeLatch s = .next t ∧ t.reg mcTlatchLo = BitVec.ofNat 32 s.mc.time ∧ t.reg mcTlatchHi = BitVec.ofNat 32 (s.mc.time / 2 ^ 32) ∧
    (∀ p : PortId, t.reg (mcTlatchSec p.val) = BitVec.ofNat 32 (s.ports[p].clock / nsUnits / 1000000000) ∧
      t.reg (mcTlatchNs p.val) = BitVec.ofNat 32 (s.ports[p].clock / nsUnits % 1000000000)) ∧
    t.mc.time = s.mc.time ∧ t.ports = s.ports ∧ t.cores = s.cores ∧ t.nvm = s.nvm ∧ t.counters = s.counters) ∧
  (∀ (s : State), s.mc.on = true → exec .ageingSummary s =
    .next ((s.raise .mc none 0x0002 [s.mc.poweredNs / hourNs, s.mc.hotNs / hourNs]).logQueue
      (eventRecord .mc none 0x0002 s.mc.time [s.mc.poweredNs / hourNs, s.mc.hotNs / hourNs] ++
        toWords 16 (s.raise .mc none 0x0002 [s.mc.poweredNs / hourNs, s.mc.hotNs / hourNs]).ageing)).fixedLog) ∧
  (∀ (s : State) w r rest, s.mc.on = true → s.nvmInhibited = false → s.mc.nvmBusy = false → s.nvmHead = some w → w.src = .log →
    s.mc.logWait = r :: rest → exec .ageingLogWrite s =
      .next ((State.logRecord 3 { s with mc := { s.mc with logWait := rest } } (ofWords r)).nvmNext)) ∧
  (∀ (s : State) w, s.mc.on = true → s.nvmInhibited = false → s.mc.nvmBusy = false → s.nvmHead = some w → w.src = .fixed →
    exec .ageingLogWrite s = .next s.writeFixed.nvmNext)

/-- R411: a core whose survey finds a family with no code that gives its margin raises MARGIN_EXHAUSTED, naming the core and
the family, and is fenced. The SOURCE of an event that its table does not give is the model's reading (log 79). Says that
these complete: ageingSurvey. -/
def Obligations.ExhaustedMarginFences : Prop :=
  ∀ (v : CoreSurvey) f rest (s : State), s.mc.on = true → s.coreUp v.core = true → v.exhausted = f :: rest →
    ∃ (src : Src) (u t : State), u = (s.updRail v.core fun r => { r with worst := Nat.min 255 (v.margins.foldl Nat.min (v.margins.headD 0)) }).raise
        src s.cores[v.core].part 0x4004 [v.core.val, f] ∧
      exec (.ageingSurvey [v]) s = .next t ∧ t = u.fenceCore v.core 0x4004 false ∧
      t.cores[v.core].inService = false ∧ t.cores[v.core].issued = [] ∧ t.regFld (coreFence v.core.val) 31 31 = 1 ∧
      t.regFld (coreFence v.core.val) 15 0 = 0x4004 ∧ t.mc.rails[v.core].on = false

/-- A core that is fenced leaves service with its fence register's FENCED, FORCE cause and key, loses what it ran and what its
working memory and CRUMB held (but for ring records), shows rates of 0, and takes no other core, stack, hub, port, mesh link
or regulator with it, nor the flash or the security counters (R22, R402, R403, R405). That a fenced core's memories are lost
at once and read 0 is the model's choice (logs 60 and 4). Says that these complete: coreFenceForce. -/
def Obligations.FencedCoreLosesItselfOnly : Prop :=
  ∀ (c : CoreId) (s : State), s.cores[c].inService = true → ∃ t : State, exec (.coreFenceForce c) s = .next t ∧
    t.cores[c].inService = false ∧ t.cores[c].issued = [] ∧ t.mc.rails[c].on = false ∧
    t.regFld (coreFence c.val) 31 31 = 1 ∧ t.regFld (coreFence c.val) 15 0 = 0x4001 ∧ t.regFld (coreFence c.val) 25 18 = 0xA5 ∧
    t.regFld (coreFence c.val) 29 29 = 0 ∧ (∀ n, n < 4 → t.reg (coreRateArr c.val + 4 * n) = 0) ∧
    (∀ a, wmBase c.val ≤ a → a < wmBase c.val + 0x10000000 → s.inRings a = false → t.rd a = 0) ∧
    (∀ a, crumbBase c.val ≤ a → a < crumbBase c.val + 0x100000000 → s.inRings a = false → t.rd a = 0) ∧
    t.mc.stacksUp = s.mc.stacksUp ∧ t.mc.hubsUp = s.mc.hubsUp ∧ t.mc.portsUp = s.mc.portsUp ∧ t.mc.meshUp = s.mc.meshUp ∧
    t.mc.regsUp = s.mc.regsUp ∧ t.mc.hubRailOn = s.mc.hubRailOn ∧
    (∀ d : CoreId, d ≠ c → t.cores[d].inService = s.cores[d].inService) ∧ t.nvm = s.nvm ∧ t.counters = s.counters

/-- Blocks that fail in service (R21, R402; log entry 20) and blocks under proof (R400, R401): hub 0 takes the device down
with every port's links; any other block fails as its kind does, a core with UNUSABLE as the cause of its fence; a stack that
fails raises BLOCK_UNUSABLE and loses its contents; a proof begins a handle over the blocks selected; each block done is
wiped, fails with its code or, a fenced core that passes, is recorded, and counts on in the handle, which ends with its last
block. The model's choices: a lost stack reads 0 (log 4), what proof wipes (log 95). The SOURCE of an event that its table
does not give is the model's reading (log 79). Says that these complete: mgmtProof, proofBlockDone, blockUnusable. -/
def Obligations.BlocksFailAndAreProved : Prop :=
  (∀ code (s : State), s.mc.hubRailOn = true → ∃ t : State, exec (.blockUnusable .hub 0 code) s = .next t ∧ t.mc.on = false ∧
    t.mc.complete = false ∧ t.mc.hubRailOn = false ∧ (∀ p : PortId, t.regFld (portStat p.val) 3 0 = 0) ∧ (∀ (c : CoreId), t.mayIssue c = false)) ∧
  (∀ kind index code (s : State), s.mc.hubRailOn = true → index < blockCount kind → (kind = .hub → index ≠ 0) →
    exec (.blockUnusable kind index code) s = .next (s.blockFails kind index (if kind = .core then 0x4006 else code) false)) ∧
  (∀ (k : StackId) code (s : State), s.mc.stacksUp.getLsbD k.val = true → s.loseBlock .stack k.val code false =
    ((s.raise (.hub (k.val / 2)) none 0x4006 [1, k.val, code]).stackDown k.val)) ∧
  (∀ (k : StackId) (s : State) a, stackBase k.val ≤ a → a < stackBase k.val + 0x2000000000 →
    (s.stackDown k.val).rd a = 0 ∧ (s.stackDown k.val).mc.stacksUp.getLsbD k.val = false) ∧
  (∀ r (s : State) blocks, s.linked = true → r.vendor = true → r.bRequest = 0x30 → (formOpStart 0x10).ok s.mc.recovery r = true → s.busy (reqIface r) = false → r.wValue = 0x10 →
    s.handlesFull 0 = false → s.proofSelect r.wIndex = .ok blocks →
    exec (.mgmtProof r) s = .next (((s.openHandle fun h =>
      { num := h, kind := 0x10, owner := 0, work := blocks }).proofEnd s.nextHandle).startOk s.nextHandle)) ∧
  (∀ h x n rest code (s : State), s.handleOf h = some x → x.kind = 0x10 → x.state = .running → s.mc.hubRailOn = true → x.work = n :: rest →
    exec (.proofBlockDone h code) s = .next ((((match kindOf n with
      | none => s
      | some k => match code with
        | some code => (s.proofWipe k (n % 16)).blockFails k (n % 16) code true
        | none => if k = BlockKind.core ∧ (s.proofWipe k (n % 16)).fenced (n % 16)
            then (s.proofWipe k (n % 16)).updRail (coreId (n % 16)) fun r => { r with passed := true }
            else s.proofWipe k (n % 16) : State)).updHandle h fun x => { x with work := rest, progress := x.progress + 1 }).proofEnd h))

/-- Retention (R179, R180, R202): an idle core with IDLE_EN shows `entering`, and is retained once a loop period is over; an
access to its SRAM then begins the wake and is counted, one that comes while the core wakes waits and is counted, and one to
an active core changes nothing; the wake ends. The model's choices: an access while the core is entering wakes it and counts
as one of a retained core, and entering lasts until the loop period's end (log 47); each access waits alone (log 65). Kneading
(R188, R189, R192-R195, R270): a unit goes from its gap through copy (which reads the region), test and restore back to its
gap, over a remap that takes a spare where the test fails; without a spare the region stays unusable and the core is fenced; a
region done has no correctable error left; a late region goes first; a sweep begins a handle and a pass on each core named
that is up. The numbers of regions and spares are the model's choice (log 62). A patrol scrub of a usable stack takes the
errors of that stack alone, corrects what it reads, reports each unit that cannot be corrected once, and counts a pass that is
done; nothing issued, no job, no flash, no security counter and no byte outside the rings changes (R188, R190, R191). The
SOURCE of an event that its table does not give is the model's reading (log 79). Says that these complete: kneadSweep,
retentionEntry, retentionWake, wakeDone, kneadSelect, kneadCopyDone, kneadTestDone, kneadRestoreDone, kneadRemapDone,
kneadLate, patrolScrub. -/
def Obligations.MemoryUpkeepActs : Prop :=
  (∀ (c : CoreId) (s : State), s.coreUp c = true → bitAt (s.reg (coreMemRet c.val)) 8 = true → s.cores[c].ret = .active →
    s.coreIdle c = true → exec (.retentionEntry c) s = .next (s.updCore c fun k => { k with ret := .entering })) ∧
  (∀ (c : CoreId) (s : State), (s.cores[c].ret = .entering → s.retain.cores[c].ret = .retained) ∧
    (s.cores[c].ret ≠ .entering → s.retain.cores[c] = s.cores[c])) ∧
  (∀ (c : CoreId) (s : State), s.cores[c].ret = .retained ∨ s.cores[c].ret = .entering → ∃ t : State,
    exec (.retentionWake c) s = .next t ∧ t.cores[c].ret = .waking ∧
    t.regFld (coreMemWakes c.val) 15 0 = satAdd 16 (s.regFld (coreMemWakes c.val) 15 0) 1 ∧
    t.regFld (coreMemWakes c.val) 31 16 = satAdd 16 (s.regFld (coreMemWakes c.val) 31 16) 1 ∧
    (∀ o, o ≠ coreMemWakes c.val → t.reg o = s.reg o) ∧ (∀ d : CoreId, d ≠ c → t.cores[d] = s.cores[d]) ∧ t.mem = s.mem ∧
    t.mc = s.mc ∧ t.parts = s.parts ∧ t.handles = s.handles) ∧
  (∀ (c : CoreId) (s : State), s.cores[c].ret = .waking → exec (.retentionWake c) s = .next (s.countFld (coreMemWakes c.val) 31 16 1)) ∧
  (∀ (c : CoreId) (s : State), s.cores[c].ret = .active → exec (.retentionWake c) s = .next s) ∧
  (∀ (c : CoreId) (s : State), exec (.wakeDone c) s =
    .next (s.updCore c fun k => { k with ret := if k.ret = .waking then .active else k.ret })) ∧
  (∀ (c : CoreId) m (s : State), s.coreUp c = true → (s.kneadOf c m).phase = .gap → s.cores[c].ret ≠ .retained → s.kneadGap c m ≠ 0 →
    exec (.kneadSelect c m) s = .next (s.updKnead c m Knead.select)) ∧
  (∀ (c : CoreId) m r (s : State), s.coreUp c = true → (s.kneadOf c m).phase = .copy r →
    exec (.kneadCopyDone c m) s = .next ((s.meetUnits (inKneadRegion c m r)).updKnead c m fun k => { k with phase := .test r })) ∧
  (∀ (c : CoreId) m r (s : State), s.coreUp c = true → (s.kneadOf c m).phase = .test r →
    exec (.kneadTestDone c m true) s = .next (s.updKnead c m fun k => { k with phase := .restore r })) ∧
  (∀ (c : CoreId) m r (s : State), s.coreUp c = true → (s.kneadOf c m).phase = .test r → 0 < s.cores[c].spares.getD (spareSlot m r) 0 →
    exec (.kneadTestDone c m false) s = .next (s.updKnead c m fun k => { k with phase := .remap r })) ∧
  (∀ (c : CoreId) m r (s : State), s.coreUp c = true → (s.kneadOf c m).phase = .test r → s.cores[c].spares.getD (spareSlot m r) 0 = 0 →
    exec (.kneadTestDone c m false) s = .next (((((s.updKnead c m fun k => { k with phase := .stuck r }).raise (.core c.val)
      s.cores[c].part 0x5021 [c.val, KneadMem.code m, r]).fenceCore c 0x5021 false)).sweepCheck)) ∧
  (∀ (c : CoreId) m r (s : State), s.coreUp c = true → (s.kneadOf c m).phase = .restore r →
    exec (.kneadRestoreDone c m) s = .next (s.kneadDone c m r)) ∧
  (∀ (c : CoreId) m r (s : State), s.coreUp c = true → (s.kneadOf c m).phase = .remap r →
    let left := s.cores[c].spares.getD (spareSlot m r) 0
    let v := s.updCore c fun k => { k with spares := k.spares.set (spareSlot m r) (left - 1) }
    let v : State := { v with mc := { v.mc with remapLog := v.mc.remapLog ++ [(c.val, KneadMem.code m,
      (if spareSlot m r = 2 then 32 else 0) + (spareTotal (spareSlot m r) - left), r)] } }
    exec (.kneadRemapDone c m) s = .next ((v.fixedLog.raise (.core c.val) s.cores[c].part 0x5020
      [c.val, KneadMem.code m, r, v.cores[c].sparesLeft m]).kneadDone c m r)) ∧
  (∀ (c : CoreId) m r (s : State), ((s.kneadDone c m r).kneadOf c m).phase = .gap ∧ (s.kneadDone c m r).nvm = s.nvm ∧
    ∀ u, u ∈ (s.kneadDone c m r).weakUnits → u ∈ s.weakUnits ∧ inKneadRegion c m r u = false) ∧
  (∀ (c : CoreId) m region (s : State), s.coreUp c = true → bitAt (s.reg (coreMemKneadStat c.val)) 2 = true → region < kneadRegions m →
    exec (.kneadLate c m region) s = .next ((s.kneadFirst c (kneadUnit m) [region]).raise (.core c.val) s.cores[c].part 0x5022
      [c.val, KneadMem.code m, region])) ∧
  (∀ r (s : State), s.linked = true → r.vendor = true → r.bRequest = 0x30 → (formOpStart 0x11).ok s.mc.recovery r = true → s.busy (reqIface r) = false → r.wValue = 0x11 →
    s.handlesFull 0 = false → r.wIndex < 256 → ∃ u t : State, exec (.kneadSweep r) s = .next t ∧ t = (u.sweepCheck).startOk s.nextHandle ∧
      u.handles = s.handles ++ [{ num := s.nextHandle, kind := 0x11, owner := 0, work := [r.wIndex] }] ∧
      (∀ (c : CoreId) m, r.wIndex.testBit c.val = true → s.coreUp c = true → (u.kneadOf c m).sweepLeft = kneadRegions m) ∧
      (∀ (c : CoreId) m, r.wIndex.testBit c.val = false ∨ s.coreUp c = false → u.kneadOf c m = s.kneadOf c m)) ∧
  (∀ (k : StackId) env done (s : State), s.mc.stacksUp.getLsbD k.val = true → s.mc.hubRailOn = true → ∃ u t : State,
    exec (.patrolScrub k env done) s = .next t ∧
    u = ((env.ue.filter (onStack k)).map unitOf).eraseDups.foldl (fun s a => s.uncorrectable none a)
      (s.takeReads { env with ce := env.ce.filter (onStack k), ue := env.ue.filter (onStack k) } (env.ce.filter (onStack k))) ∧
    t = (if done then u.countFld (hubHbmScrub (k.val / 2) (k.val % 2)) 15 0 1 else u) ∧
    t.cores.map (fun c => c.issued) = s.cores.map (fun c => c.issued) ∧ t.nvm = s.nvm ∧ t.counters = s.counters ∧
    (∀ p, t.job p = s.job p) ∧ (∀ a, s.inRings a = false → t.rd a = s.rd a))

/-! ### Streams and counters -/

/-- R208: when a wait is satisfied: a target equal to the value satisfies it, additions that do not run 2^31 ahead of the
target leave it satisfied, and a descriptor has no unsatisfied wait exactly when each wait that it enables is satisfied. -/
def Obligations.WaitsHoldDescriptors : Prop :=
  (∀ v t : Word, waitMet v t = true ↔ (v.toNat + 2 ^ 32 - t.toNat) % 2 ^ 32 < 2 ^ 31) ∧
  (∀ t : Word, waitMet t t = true) ∧
  (∀ v t k : Word, waitMet v t = true → (v - t).toNat + k.toNat < 2 ^ 31 → waitMet (v + k) t = true) ∧
  (∀ (h : LCtx) d, unmet h d = none ↔
    (dbit d 0 0 = true → waitMet (h.counter (dfld d 4 31 24)) (wordAt d 2) = true) ∧
    (dbit d 0 1 = true → waitMet (h.counter (dfld d 4 23 16)) (wordAt d 3) = true))

/-- How a descriptor issues (R208, R210, R211, R229, R230): one with an enabled wait that is not satisfied does not issue and
its stream shows the counter wait and its target, the index kept (that the stream shows WAIT_COUNTER once it has looked is the
model's choice, log 77); one whose waits are satisfied goes on to its checks, unless a ready stream of a lower logical core on
the same core goes first (that order is the model's reading, log 90); a SYN descriptor that passes them enters the core's
issued list, with the commit and the attempt under which it issued, and its stream moves on by one, with no other core and
nothing outside the cores changed; a descriptor whose queue is full does not issue and its stream shows that it waits for the
queue. R219: when every stream of a RUN has parked at END its job ends; a LOOP starts its streams again, unless it is to be
suspended; a change of step starts them again once no descriptor is left; starting puts every stream of the first logical core
of a core of the partition at index 0 with its counters at 0, makes the SENDs and RECVs of the job begin again, and changes no
memory and no slot (R364). Says that these complete: descriptorIssue, streamsRestart. -/
def Obligations.StreamsIssueInOrder : Prop :=
  (∀ (c : CoreId) x p l j r d (v u : State) w n tgt (s : State), s.AtDescriptor c x p l j r →
    s.access j (span (r.addr + 64 * (s.stream c x).index) 64) [] = (v, none) →
    (v.meetReads ((span (r.addr + 64 * (s.stream c x).index) 64).map (j.phys false))).fetchDesc j r (s.stream c x).index = (d, u) →
    unmet (s.cores[c].half (ctxGuest x)) d = some (w, n, tgt) → ∃ t : State, exec (.descriptorIssue c x) s = .next t ∧
      t.cores[c].issued = s.cores[c].issued ∧ (t.stream c x).state = .waitCounter ∧ (t.stream c x).waitTgt = tgt ∧
      (t.stream c x).index = (s.stream c x).index) ∧
  (∀ (c : CoreId) x p l j r d (v u : State) (s : State), s.AtDescriptor c x p l j r →
    s.access j (span (r.addr + 64 * (s.stream c x).index) 64) [] = (v, none) →
    (v.meetReads ((span (r.addr + 64 * (s.stream c x).index) 64).map (j.phys false))).fetchDesc j r (s.stream c x).index = (d, u) →
    unmet (s.cores[c].half (ctxGuest x)) d = none →
    exec (.descriptorIssue c x) s = .next (if u.yields c x then u else u.tryIssue c x p j l r (s.stream c x).index d)) ∧
  (∀ (c : CoreId) x p j l r i d (s : State), j.relocation r i = none → hClass d = 6 → paramBytes d = 0 → headerError j.lcores d = none →
    s.descCheck p j l r.list i d [] = none → (i + 1 = r.count → endsAs (j.endingOf r) d = true) → ∃ t : State, s.tryIssue c x p j l r i d = t ∧
      t.cores[c].issued = s.cores[c].issued ++ [{ mkIssued s.cores[c].nextSeq x p l r.list i d .syn [] with stamp := (j.commitUnder, j.step.attempt) }] ∧
      (t.stream c x).index = (s.stream c x).index + 1 ∧ (t.stream c x).state = (if 0x10 ≤ sOp d then .waitFence else .issuing) ∧
      (∀ d : CoreId, d ≠ c → t.cores[d] = s.cores[d]) ∧ t = { s with cores := t.cores }) ∧
  (∀ (c : CoreId) x p j l r i d (s : State), j.relocation r i = none → hClass d ≠ 6 → (hClass d = 5 → nOp d ≠ 8 ∧ nOp d ≠ 9) →
    1 ≤ hClass d → hClass d ≤ 6 → queueDepth (s.queueOf c (relocate id d)) ≤ s.queued c (s.queueOf c (relocate id d)) →
    ∃ t : State, s.tryIssue c x p j l r i d = t ∧ t.cores[c].issued = s.cores[c].issued ∧ (t.stream c x).state = .waitQueue ∧
      (t.stream c x).index = (s.stream c x).index) ∧
  (∀ p j (s : State), s.job p = some j → s.allParked j = true → j.stop = .none → j.kind = .run → s.allEnded p = s.finishJob p) ∧
  (∀ p j (s : State), s.job p = some j → s.allParked j = true → j.stop = .none → j.kind = .loop →
    ((s.handleOf j.handle).any fun x => x.suspendPending) = false → s.allEnded p = s.startStreams p) ∧
  (∀ p j (s : State), s.job p = some j → j.cmt.restart = true → s.mayRestart p = true →
    exec (.streamsRestart p) s = .next (s.startStreams p)) ∧
  (∀ (p : PartId) (c : CoreId) l (s : State), s.cores[c].part = some p → s.cores[c].first.lcore = some l →
    (s.startStreams p).cores[c].first.cnt = [] ∧
    (∀ k : Fin 4, (s.startStreams p).cores[c].first.streams[k].state = .issuing ∧
      (s.startStreams p).cores[c].first.streams[k].index = 0) ∧
    (s.startStreams p).mem = s.mem ∧ (s.startStreams p).cores[c].first.slots = s.cores[c].first.slots) ∧
  (∀ p k (s : State), (s.startStreams p).cluster p = some k → k.sendNext = [] ∧ k.recvDone = [])

/-- R207, R209, R212, R220, R221: a change of an event counter is exact modulo 2^32 and touches no other counter; a descriptor
that has finished completes, one that has not does not; completing adds the increment of its first signal to its own logical
core and puts a remote second signal under way, but neither after a stop; a signal under way reaches its counter when it
arrives; a long wait is reported once. The SOURCE of an event that its table does not give is the model's reading (log 79).
Says that these complete: counterSignalRemote, descriptorComplete, streamWaitLong. -/
def Obligations.SignalsReachCounters : Prop :=
  (∀ (h : LCtx) n k, (h.addCounter n k).counter n = h.counter n + k ∧ ∀ m, m ≠ n → (h.addCounter n k).counter m = h.counter m) ∧
  (∀ (h : LCtx) n v, (h.setCounter n v).counter n = v ∧ ∀ m, m ≠ n → (h.setCounter n v).counter m = h.counter m) ∧
  (∀ (p : PartId) k l n inc (s : State), s.parts[p].flying[k]? = some (l, n, inc) →
    exec (.counterSignalRemote p k) s = .next ((s.updPart p fun q => { q with flying := q.flying.eraseIdx k }).signal p l n inc)) ∧
  (∀ (p : PartId) j l v n inc (s : State), s.job p = some j → j.serve l = some v →
    ((s.signal p l n inc).lctx v).counter n = (s.lctx v).counter n + BitVec.ofNat 32 inc ∧
    (s.signal p l n inc).mem = s.mem ∧ (s.signal p l n inc).regs = s.regs ∧ (s.signal p l n inc).parts = s.parts) ∧
  (∀ (c : CoreId) k e (s : State), s.cores[c].issued[k]? = some e → e.phase = .finished →
    exec (.descriptorComplete c k) s = .next ((s.complete c e).settle e.part)) ∧
  (∀ (c : CoreId) k e (s : State), s.cores[c].issued[k]? = some e → e.phase ≠ .finished → exec (.descriptorComplete c k) s = .next s) ∧
  (∀ e (s : State), e.mute = true → s.perform e = s) ∧
  (∀ e j (s : State), s.job e.part = some j → j.stop ≠ .none → s.perform e = s) ∧
  (∀ e j (s : State), s.job e.part = some j → j.stop = .none → e.mute = false → hNotify e.words = false → dbit e.words 0 3 = false →
    s.perform e = if dbit e.words 0 2 = true then s.signal e.part e.lcore (dfld e.words 4 15 8) (hInc e.words) else s) ∧
  (∀ e j (s : State), s.job e.part = some j → j.stop = .none → e.mute = false → hNotify e.words = false → dbit e.words 0 2 = false →
    dbit e.words 0 3 = true → hRemote e.words = true →
    s.perform e = s.updPart e.part fun q => { q with flying := q.flying ++ [(hS1Core e.words, dfld e.words 4 7 0, hInc e.words)] }) ∧
  (∀ (c : CoreId) x (s : State), (s.stream c x).longRaised = true → exec (.streamWaitLong c x) s = .next s) ∧
  (∀ (c : CoreId) x p l (s : State), s.cores[c].part = some p → (s.cores[c].half (ctxGuest x)).lcore = some l →
    (s.stream c x).state = .waitCounter → (s.stream c x).longRaised = false →
    exec (.streamWaitLong c x) s = .next ((s.raise (.core c.val) (some p) 0x4504 [l, (ctxStream x).val,
      (s.stream c x).waitCnt.toNat, ((s.cores[c].half (ctxGuest x)).counter (s.stream c x).waitCnt.toNat).toNat,
      (s.stream c x).waitTgt.toNat]).updStream c x fun t => { t with longRaised := true }))

/-- The SYN operations and the two NET operations handled at issue (R216, R219, R345, R346): NOP and UNIT_MAP complete; SET
and ADD first change one counter of the logical core, after a stop too (R220); the fences complete once what came before has,
and wait until then; STEP_END and END then park the stream; UNIT_BEGIN skips the section of a unit that the member does not
hold. Says that these complete: synNop, synSet, synAdd, fenceStream, fenceCore, stepEnd, endRun, unitMap, unitBegin. -/
def Obligations.SynOperationsAct : Prop :=
  (∀ (c : CoreId) x e (s : State), s.synEntry c x (synIs 0x00) = some e → exec (.synNop c x) s = .next (s.synDone c e)) ∧
  (∀ (c : CoreId) x e (s : State), s.synEntry c x (synIs 0x01) = some e → exec (.synSet c x) s =
    .next ((s.synAct e fun l => l.setCounter (sCnt e.words) (wordAt e.words 5)).synDone c e)) ∧
  (∀ (c : CoreId) x e (s : State), s.synEntry c x (synIs 0x02) = some e → exec (.synAdd c x) s =
    .next ((s.synAct e fun l => l.addCounter (sCnt e.words) (wordAt e.words 5)).synDone c e)) ∧
  (∀ e j v f (s : State), s.job e.part = some j → j.serve e.lcore = some v →
    ((s.synAct e f).lctx v) = f (s.lctx v) ∧ (s.synAct e f).mem = s.mem ∧ (s.synAct e f).parts = s.parts ∧
    (s.synAct e f).regs = s.regs ∧ ∀ d : CoreId, d ≠ v.core → (s.synAct e f).cores[d] = s.cores[d]) ∧
  (∀ (c : CoreId) x e (s : State), s.synEntry c x (synIs 0x10) = some e → s.streamClear c e = true →
    exec (.fenceStream c x) s = .next (s.synDone c e)) ∧
  (∀ (c : CoreId) x e (s : State), s.synEntry c x (synIs 0x11) = some e → s.coreClear c e = true →
    exec (.fenceCore c x) s = .next (s.synDone c e)) ∧
  (∀ (c : CoreId) x e (s : State), s.synEntry c x (synIs 0x10) = some e → s.streamClear c e = false → exec (.fenceStream c x) s = .next s) ∧
  (∀ (c : CoreId) x e (s : State), s.synEntry c x (synIs 0x11) = some e → s.coreClear c e = false → exec (.fenceCore c x) s = .next s) ∧
  (∀ (c : CoreId) x e (s : State), s.synEntry c x (synIs 0x20) = some e → s.streamClear c e = true →
    exec (.stepEnd c x) s = .next ((s.park c e).settle e.part)) ∧
  (∀ (c : CoreId) x e (s : State), s.synEntry c x (synIs 0x21) = some e → s.streamClear c e = true →
    exec (.endRun c x) s = .next (((s.park c e).settle e.part).allEnded e.part)) ∧
  (∀ (c : CoreId) x e (s : State), (s.synEntry c x fun d => decide (hClass d = 5 ∧ nOp d = 8)) = some e →
    exec (.unitMap c x) s = .next (s.synDone c e)) ∧
  (∀ (c : CoreId) x e (s : State), (s.synEntry c x fun d => decide (hClass d = 5 ∧ nOp d = 9)) = some e →
    ((s.cluster e.part).any fun k => (k.slotOf (nId e.words)).isSome) = true →
    exec (.unitBegin c x) s = .next (s.synDone c e)) ∧
  (∀ (c : CoreId) x e (s : State), (s.synEntry c x fun d => decide (hClass d = 5 ∧ nOp d = 9)) = some e →
    ((s.cluster e.part).any fun k => (k.slotOf (nId e.words)).isSome) = false →
    exec (.unitBegin c x) s = .next ((s.updStream c x fun t => { t with index := t.index + nPa e.words }).synDone c e))

/-! ### The engines -/

/-- MAT and its retry (R83, R87, R96, R100): the instruction at the head of a unit's queue runs there, on a gang on its four
arrays; on a gang with an array out of service it fails instead; the retry runs it once more, on the unit that took it or on
the same gang, from the sets that had passed. Where a queued retry stands and which array a gang names is the model's choice
(logs 23 and 25). The swap token (R81-R83, R104) and the diagnostics (R98): at a cell that the token has reached and not yet
passed, the cell takes its shadow weights, and waits are counted, each stall and each line of the load that follows at most
once in a fold, and no line where no load follows; a row or column whose cells have all swapped then takes the load that
follows, singly; the last cell ends the fold, and the shadows hold that load whole, or stand empty; a cell that the token has
not reached stays; a suspect unit is tried, returns to service clean, or goes out of service with its cell placed. That the
command takes the token cell by cell, and that a load is written line by line as its cells have swapped, is the model's choice
(log 29); where a queued retry goes is log 23, and the array that a gang's report names is log 25. Says that these complete:
matRun, swapToken, matRetry, arrayDiagnostic, arrayDiagnosticDone. -/
def Obligations.MatInstructionsRun : Prop :=
  (∀ (c : CoreId) u e flaws feed drain env (s : State), s.headOf c (s.matQueue c u) = some e → e.phase = .queued → e.isRetry = false →
    s.cores[c].ganged = false → exec (.matRun c u flaws feed drain env) s =
      .next ((s.takeFor env e.part (matD e.words).readAddrs).runMat c u e none 0 flaws feed drain)) ∧
  (∀ (c : CoreId) u e flaws feed drain env (s : State), s.headOf c (s.matQueue c u) = some e → e.phase = .queued → e.isRetry = false →
    s.cores[c].ganged = true → s.cores[c].gangOut = none → exec (.matRun c u flaws feed drain env) s =
      .next ((s.takeFor env e.part (matD e.words).readAddrs).runMat c ⟨u.array, 0⟩ e none 0 flaws feed drain)) ∧
  (∀ (c : CoreId) u a e flaws feed drain env (s : State), s.headOf c (s.matQueue c u) = some e → e.phase = .queued → e.isRetry = false →
    s.cores[c].ganged = true → s.cores[c].gangOut = some a → exec (.matRun c u flaws feed drain env) s =
      .next (((s.takeFor env e.part (matD e.words).readAddrs).matDone c e ⟨u.array, 0⟩ 0 true false).failDescriptor c e
        ⟨0x4106, [c.val, a]⟩)) ∧
  (∀ (c : CoreId) k e u flaws feed drain env (s : State), s.cores[c].issued[k]? = some e → e.queue = .mat u → e.isRetry = true →
    e.phase = .queued → (s.headOf c e.queue).map Issued.seq = some e.seq → exec (.matRetry c k flaws feed drain env) s =
      .next ((s.takeFor env e.part (matD e.words).readAddrs).runMat c
        (if s.cores[c].ganged then ⟨Fin.ofNat 4 (e.prog.getD 2 0), Fin.ofNat 3 (e.prog.getD 3 0)⟩ else u) e
        (some ⟨Fin.ofNat 4 (e.prog.getD 2 0), Fin.ofNat 3 (e.prog.getD 3 0)⟩) (e.prog.getD 1 0) flaws feed drain)) ∧
  (∀ (c : CoreId) u (row col : Fin 256) waited waits e n (s : State), s.loading c u = some (e, n) →
    (s.cores[c].unit u).grid.loads = some (e.seq, n) → col.val < unitWidth u → (s.cores[c].unit u).grid.reaches row.val col.val = true →
    ¬ (row.val = 255 ∧ col.val + 1 = unitWidth u) →
    ∃ t : State, ∃ lines, ∃ g : Grid, exec (.swapToken c u row col waited waits) s = .next t ∧
      lines = lineWaits u (s.nextLoad c u e n) (s.cores[c].unit u).grid.lineWaits waits ∧
      g = { (s.cores[c].unit u).grid.swap (row.val * 256 + col.val) with
        stallCounted := (s.cores[c].unit u).grid.stallCounted || waited, lineWaits := (s.cores[c].unit u).grid.lineWaits + lines } ∧
      (s.nextLoad c u e n = none → (t.cores[c].unit u).grid = g) ∧
      (∀ x, s.nextLoad c u e n = some x → (t.cores[c].unit u).grid =
        if (lineCells u (matD x.1.words).trB (if (matD x.1.words).trB then col.val else row.val)).all g.swapped.contains
        then g.fillFrom (x.1.seq, x.2) (s.loadCells c u x)
          (lineCells u (matD x.1.words).trB (if (matD x.1.words).trB then col.val else row.val)).contains
        else g) ∧
      t.reg (coreArrLdwait c.val u.array.val) = BitVec.ofNat 32 (satAdd 32 (s.reg (coreArrLdwait c.val u.array.val)).toNat lines) ∧
      (waited = true ∧ (s.cores[c].unit u).grid.stallCounted = false → t.reg (coreArrShstall c.val u.array.val) =
        BitVec.ofNat 32 (satAdd 32 (s.reg (coreArrShstall c.val u.array.val)).toNat 1)) ∧
      (waited = false ∨ (s.cores[c].unit u).grid.stallCounted = true →
        t.reg (coreArrShstall c.val u.array.val) = s.reg (coreArrShstall c.val u.array.val)) ∧
      (∀ o, o ≠ coreArrLdwait c.val u.array.val → o ≠ coreArrShstall c.val u.array.val → t.reg o = s.reg o) ∧
      t.mem = s.mem ∧ t.parts = s.parts ∧ t.mc = s.mc ∧ t.cores[c].issued = s.cores[c].issued) ∧
  (∀ u counted waits, lineWaits u none counted waits = 0) ∧
  (∀ (g : Grid) x ws cells cell w, (cell, w) ∈ ws → cells cell = true → (mapGet (g.fillFrom x ws cells).shadow cell).isSome = true) ∧
  (∀ (c : CoreId) u waited waits e n (row col : Fin 256) (s : State), s.loading c u = some (e, n) →
    (s.cores[c].unit u).grid.loads = some (e.seq, n) → (s.cores[c].unit u).grid.reaches row.val col.val = true →
    row.val = 255 → col.val + 1 = unitWidth u → s.nextLoad c u e n = none →
    ∃ t : State, exec (.swapToken c u row col waited waits) s = .next t ∧ (t.cores[c].unit u).grid.swapped = [] ∧
      (t.cores[c].unit u).grid.stallCounted = false ∧ (t.cores[c].unit u).grid.lineWaits = 0 ∧
      (t.cores[c].unit u).grid.loads = none ∧ (t.cores[c].unit u).grid.shadow = []) ∧
  (∀ (c : CoreId) u waited waits e n x k (row col : Fin 256) (s : State), s.loading c u = some (e, n) →
    (s.cores[c].unit u).grid.loads = some (e.seq, n) → (s.cores[c].unit u).grid.reaches row.val col.val = true →
    row.val = 255 → col.val + 1 = unitWidth u → s.nextLoad c u e n = some (x, k) →
    ∃ t : State, exec (.swapToken c u row col waited waits) s = .next t ∧ (t.cores[c].unit u).grid.swapped = [] ∧
      (t.cores[c].unit u).grid.stallCounted = false ∧ (t.cores[c].unit u).grid.lineWaits = 0 ∧
      (t.cores[c].unit u).grid.loads = some (x.seq, k) ∧
      ∀ cell w, (cell, w) ∈ s.loadCells c u (x, k) → (mapGet (t.cores[c].unit u).grid.shadow cell).isSome = true) ∧
  (∀ (c : CoreId) u waited waits e n (row col : Fin 256) (s : State), s.loading c u = some (e, n) →
    (s.cores[c].unit u).grid.loads = some (e.seq, n) → (s.cores[c].unit u).grid.reaches row.val col.val = false →
    exec (.swapToken c u row col waited waits) s = .next s) ∧
  (∀ (c : CoreId) u (s : State), s.cores[c].inService = true →
    (s.cores[c].records u).all (fun h => decide (h.service = .suspect) && !h.diag) = true →
    exec (.arrayDiagnostic c u) s = .next (s.updRecords c u fun h => { h with diag := true })) ∧
  (∀ (c : CoreId) u (s : State), s.cores[c].inService = true → (s.cores[c].records u).all (fun h => h.diag) = true →
    ∃ t : State, exec (.arrayDiagnosticDone c u none) s = .next t ∧ (t.cores[c].unit u).service = .inService ∧
      (t.cores[c].unit u).mismatches = [] ∧ (t.cores[c].unit u).diag = false ∧ t.nvm = s.nvm ∧ (∀ p, t.job p = s.job p)) ∧
  (∀ (c : CoreId) u (r k : Fin 256) (s : State), s.cores[c].inService = true → (s.cores[c].records u).all (fun h => h.diag) = true →
    ∃ t : State, exec (.arrayDiagnosticDone c u (some (r, k))) s = .next t ∧ (t.cores[c].unit u).service = .out ∧
      t.regFld (coreArrFaultloc c.val u.array.val) 15 8 = r.val ∧ t.regFld (coreArrFaultloc c.val u.array.val) 7 0 = k.val ∧
      t.regFld (coreArrFaultloc c.val u.array.val) 30 30 = 1)

/-- A MAT whose operands are readable, hold their summaries, do not truncate where that is forbidden and pass every score
check (R75, R87, R91-R95, R104, R105, R212): without ACC, memory holds the outputs and what rests of partial sums in a gang's
gradient buffer, and outside the host's rings nothing else of it changes; the stream's report names the unit and the
truncations; the instruction finishes and the rest of the machine stays. With ACC, its sets wait to be added and memory takes
only what rests. The model's choices in it: the array of a ganged report (log 25), how scores are cut and compared (log 26, a
reading), and where a gang's partial sums rest in the gradient buffer (log 27). -/
def Obligations.MatRunFinishes : Prop :=
  (∀ (c : CoreId) u e first lo flaws feed drain j (v : State) (s : State), s.job e.part = some j → (matD e.words).acc = false →
    (s.countStalls c u (matD e.words) (s.width c u) feed drain).access j (matD e.words).readAddrs
      ((matD e.words).rO.addrs (matD e.words).fO true) = (v, none) →
    (matD e.words).breaches (v.lrd j) = [] → ((matD e.words).strict = true → (matD e.words).trunc (v.lrd j) = 0) →
    (matD e.words).verdict (v.lrd j) flaws (s.width c u) = none →
    ∃ t : State, s.runMat c u e first lo flaws feed drain = t ∧
      (∀ a, s.inRings a = false → t.rd a =
        ((s.lput j ((matD e.words).stores (v.lrd j) flaws (s.width c u) ((matD e.words).groups (s.width c u)))).put
          (((matD e.words).rests (v.lrd j) (s.width c u) ((matD e.words).groups (s.width c u))).map fun x =>
            (gbBase c.val + x.1, x.2))).rd a) ∧
      (∀ a, v.lrd j a = s.lrd j a) ∧
      t.reg (coreMatRptWt c.val e.ctx.val) = BitVec.ofNat 32 (satAdd 32 0 ((matD e.words).trunc (v.lrd j))) ∧
      t.reg (coreMatRptInfo c.val e.ctx.val) = BitVec.ofNat 32 (256 * b2n first.isSome + 16 * u.half.val + u.array.val) ∧
      (∀ x ∈ t.cores[c].issued, x.seq = e.seq → x.phase = .finished) ∧
      (t.cores[c].issued.map fun x => (x.seq, x.words, x.queue)) = (s.cores[c].issued.map fun x => (x.seq, x.words, x.queue)) ∧
      EngineFrame c s t) ∧
  (∀ (c : CoreId) u e first lo flaws feed drain j (v : State) (s : State), s.job e.part = some j → (matD e.words).acc = true →
    e.mute = false →
    (s.countStalls c u (matD e.words) (s.width c u) feed drain).access j (matD e.words).readAddrs (matD e.words).accAddrs = (v, none) →
    (matD e.words).breaches (v.lrd j) = [] → ((matD e.words).strict = true → (matD e.words).trunc (v.lrd j) = 0) →
    (matD e.words).verdict (v.lrd j) flaws (s.width c u) = none →
    ∃ t : State, s.runMat c u e first lo flaws feed drain = t ∧
      (∀ a, s.inRings a = false → t.rd a =
        (s.put (((matD e.words).rests (v.lrd j) (s.width c u) ((matD e.words).groups (s.width c u))).map fun x =>
            (gbBase c.val + x.1, x.2))).rd a) ∧
      (∀ x ∈ t.cores[c].issued, x.seq = e.seq → x.phase = .running ∧ ∃ y ∈ s.cores[c].issued, y.seq = e.seq ∧
        x.adds = y.adds ++ [⟨(matD e.words).tensorW, (matD e.words).contributions (v.lrd j) flaws (s.width c u) lo
          ((matD e.words).groups (s.width c u)) (j.prescale (matD e.words).tensorW), false⟩]) ∧
      EngineFrame c s t)

/-- A score check that fails (R95-R97, R99, R104): the mismatch is counted at its array and joins those of the last 24 hours
at the unit; the place register shows half, group and, where the score row placed it, the column. On a unit with no other
mismatch in that time, or out of service already, the service stays and nothing else of the core, no other core, no job, no
flash, no security counter and no memory outside the rings changes. A second mismatch makes a unit in service suspect and adds
a mark to its core: while it is not the third of the day and another unit is left, the core stays in service and, unless
ganged, nothing queued for the unit but a retry stays there; a third mark fences the core. A mark counts as long as 24 hours
have not passed, a native array keeps its mismatches at half 0, and where a queued retry goes is the model's choice (logs 22,
23 and 25). -/
def Obligations.MismatchIsCounted : Prop :=
  (∀ (c : CoreId) u m w f (s : State),
    ¬ (2 ≤ (s.within24 (s.cores[c].unit u).mismatches ++ [s.mc.time]).length ∧ (s.cores[c].unit u).service = .inService) →
    ∃ t : State, s.mismatch c u m w f = t ∧
      t.reg (coreArrMismatch c.val u.array.val) = BitVec.ofNat 32 (satAdd 32 (s.reg (coreArrMismatch c.val u.array.val)).toNat 1) ∧
      t.regFld (coreArrFaultloc c.val u.array.val) 31 31 = 1 ∧ t.regFld (coreArrFaultloc c.val u.array.val) 29 29 = (unitIdx u).val ∧
      t.regFld (coreArrFaultloc c.val u.array.val) 28 28 = b2n f.col.isSome ∧
      t.regFld (coreArrFaultloc c.val u.array.val) 23 16 = m.groupField w f.group % 256 ∧
      t.regFld (coreArrFaultloc c.val u.array.val) 15 0 = (f.col.map (cellColumn u w)).getD 0 ∧
      (t.cores[c].unit u).mismatches = s.within24 (s.cores[c].unit u).mismatches ++ [s.mc.time] ∧
      (t.cores[c].unit u).service = (s.cores[c].unit u).service ∧ t.cores[c].issued = s.cores[c].issued ∧
      (∀ d : CoreId, d ≠ c → t.cores[d] = s.cores[d]) ∧ t.nvm = s.nvm ∧ t.counters = s.counters ∧
      (∀ p, t.job p = s.job p) ∧ ∀ a, s.inRings a = false → t.rd a = s.rd a) ∧
  (∀ (c : CoreId) u v m w f (s : State), 2 ≤ (s.within24 (s.cores[c].unit u).mismatches ++ [s.mc.time]).length →
    (s.cores[c].unit u).service = .inService → (s.within24 s.cores[c].marks).length < 2 → s.cores[c].serviceable v = true →
    v.array ≠ u.array ∨ (u.half ≠ 0 ∧ v.half ≠ 0 ∧ v.half ≠ u.half) →
    ∃ t : State, s.mismatch c u m w f = t ∧
      t.reg (coreArrMismatch c.val u.array.val) = BitVec.ofNat 32 (satAdd 32 (s.reg (coreArrMismatch c.val u.array.val)).toNat 1) ∧
      (t.cores[c].unit u).service = .suspect ∧ t.cores[c].marks = s.within24 s.cores[c].marks ++ [s.mc.time] ∧
      t.cores[c].inService = s.cores[c].inService ∧ t.cores[c].serviceable v = true ∧
      (s.cores[c].ganged = false → ∀ e ∈ t.cores[c].issued, e.queue = .mat u → e.isRetry = true ∨ e.phase ≠ .queued) ∧
      (∀ d : CoreId, d ≠ c → t.cores[d] = s.cores[d]) ∧ t.nvm = s.nvm ∧ (∀ p, t.job p = s.job p) ∧
      ∀ a, s.inRings a = false → t.rd a = s.rd a) ∧
  (∀ (c : CoreId) u m w f (s : State), 2 ≤ (s.within24 (s.cores[c].unit u).mismatches ++ [s.mc.time]).length →
    (s.cores[c].unit u).service = .inService → 2 ≤ (s.within24 s.cores[c].marks).length → s.cores[c].inService = true →
    ∃ t : State, s.mismatch c u m w f = t ∧ t.cores[c].inService = false ∧ t.cores[c].issued = [])

/-- The commands of the vector engine but those that evaluate a table, with their operation codes (R110). -/
def vecCommands : List (Nat × (CoreId → MemEnv → Instr)) :=
  [(0x01, .cvt), (0x02, .summ), (0x10, .vecAdd), (0x11, .vecSub), (0x12, .vecMul), (0x13, .vecFma), (0x14, .vecDiv), (0x15, .sqrt),
   (0x16, .rsqrt), (0x17, .vecMax), (0x18, .vecMin), (0x19, .vecAbs), (0x30, .relu), (0x31, .dropout), (0x32, .maskApply),
   (0x40, .vecSum), (0x41, .sumsq), (0x42, .maxabs), (0x43, .reduceFinal), (0x50, .updAdamw), (0x51, .updSgdm)]

/-- The commands of the vector engine that evaluate a table (R110, R134). -/
def tableCommands : List (Nat × (CoreId → MemEnv → Instr)) := [(0x20, .vecTable), (0x21, .tableBwd)]

/-- A VEC descriptor of any operation at the head of its queue runs over its vectors (R107, R110), a CVT from WG64 once its
tiles are tied; one that evaluates a table waits for an earlier load of its slot, runs on the loaded pair, and fails without
one (R135). A ROW descriptor at the head of its queue runs over its rows (R121-R126); a soft maximum runs on the exp2 pair of
its slot and without one fails (R135, R136). Says that these complete: cvt, summ, vecAdd, vecSub, vecMul, vecFma, vecDiv,
sqrt, rsqrt, vecMax, vecMin, vecAbs, vecTable, tableBwd, relu, dropout, maskApply, vecSum, sumsq, maxabs, reduceFinal,
updAdamw, updSgdm, normFwd, normBwd, smaxFwd, smaxBwd. -/
def Obligations.VecAndRowDescriptorsRun : Prop :=
  (∀ x ∈ vecCommands, ∀ (c : CoreId) env e j v (s : State), s.headOf c .vec = some e → (vecD e.words).op = x.1 → e.phase = .queued →
    s.job e.part = some j → j.serve e.lcore = some v → (s.vecStart c e j env none).untied j e.lcore (vecD e.words) = none →
    exec (x.2 c env) s = .next ((s.vecStart c e j env none).runVec c e j v.guest none)) ∧
  (∀ x ∈ tableCommands, ∀ (c : CoreId) env e j v t (u : State) (s : State), s.headOf c .vec = some e → (vecD e.words).op = x.1 →
    e.phase = .queued → s.job e.part = some j → j.serve e.lcore = some v → s.loadBefore c e (vecP e.param).tbl = false →
    s.tableAt j e.lcore (vecP e.param).tbl = some t → u = (s.vecStart c e j env (some t)).meetHead c v.guest (vecP e.param).tbl →
    u.headFails c v.guest (vecP e.param).tbl = false → exec (x.2 c env) s = .next (u.runVec c e j v.guest (some t))) ∧
  (∀ x ∈ tableCommands, ∀ (c : CoreId) env e j v (s : State), s.headOf c .vec = some e → (vecD e.words).op = x.1 →
    e.phase = .queued → s.job e.part = some j → j.serve e.lcore = some v → s.loadBefore c e (vecP e.param).tbl = false →
    s.tableAt j e.lcore (vecP e.param).tbl = none →
    exec (x.2 c env) s = .next (((s.vecStart c e j env none).meetHead c v.guest (vecP e.param).tbl).failDescriptor c e
      ⟨0x4303, [c.val, (vecP e.param).tbl]⟩)) ∧
  (∀ x ∈ tableCommands, ∀ (c : CoreId) env e j v (s : State), s.headOf c .vec = some e → (vecD e.words).op = x.1 →
    e.phase = .queued → s.job e.part = some j → j.serve e.lcore = some v → s.loadBefore c e (vecP e.param).tbl = true →
    exec (x.2 c env) s = .next s) ∧
  (∀ (c : CoreId) env e j v (s : State), s.rowHead c 0x01 = some (e, j, v) → exec (.normFwd c env) s =
    .next ((s.rowStart c e j env none).runRow c e j none)) ∧
  (∀ (c : CoreId) env e j v (s : State), s.rowHead c 0x02 = some (e, j, v) → exec (.normBwd c env) s =
    .next ((s.rowStart c e j env none).runRow c e j none)) ∧
  (∀ x ∈ ([(0x03, .smaxFwd), (0x04, .smaxBwd)] : List (Nat × (CoreId → MemEnv → Instr))), ∀ (c : CoreId) env e j v t (u : State)
    (s : State), s.rowHead c x.1 = some (e, j, v) → s.tableAt j e.lcore (rowD e.words).tbl = some t → t.hdr.func = 5 →
    u = (s.rowStart c e j env (some t)).meetHead c v.guest (rowD e.words).tbl → u.headFails c v.guest (rowD e.words).tbl = false →
    exec (x.2 c env) s = .next (u.runRow c e j (some t))) ∧
  (∀ x ∈ ([(0x03, .smaxFwd), (0x04, .smaxBwd)] : List (Nat × (CoreId → MemEnv → Instr))), ∀ (c : CoreId) env e j v (s : State),
    s.rowHead c x.1 = some (e, j, v) → s.tableAt j e.lcore (rowD e.words).tbl = none →
    exec (x.2 c env) s = .next (((s.rowStart c e j env none).meetHead c v.guest (rowD e.words).tbl).failDescriptor c e
      ⟨0x4303, [c.val, (rowD e.words).tbl]⟩))

/-- A VEC descriptor whose vectors can all be served finishes (R107, R110, R140, R212): outside the host's rings memory is as
it was with the descriptor's results stored, its lane steps are counted, and the rest of the machine stays. That every vector
computes from memory as it stood at the start is the model's choice (log 35), as is what a cut block keeps (log 30). A ROW
descriptor whose tag matches and whose rows can all be served (R121-R129, R140, R212): outside the host's rings memory takes
its rows and statistics and nothing else, its lane steps are counted, the rest of the machine stays; it finishes, or, a
NORM_BWD with AFFINE, then waits for the gradient buffer to take its column sums. That every row computes from memory as it
stood at the start is the model's choice (log 35). -/
def Obligations.VecAndRowRunsFinish : Prop :=
  (∀ (c : CoreId) e j g tab (s : State), s.job e.part = some j →
    (∀ n, n < (vecD e.words).vectors → s.vecStop j e.lcore g (vecD e.words) (vecP e.param) (j.vecEnv (vecD e.words).dA) tab n = none) →
    ∃ t : State, s.runVec c e j g tab = t ∧
      (∀ a, s.inRings a = false → t.rd a =
        (s.lput j ((vecD e.words).run (vecP e.param) (j.vecEnv (vecD e.words).dA) tab (s.lrd j) (vecD e.words).vectors).stores).rd a) ∧
      (t.reg (coreVecLstepsHi c.val)).toNat * 2 ^ 32 + (t.reg (coreVecLstepsLo c.val)).toNat =
        satAdd 64 ((s.reg (coreVecLstepsHi c.val)).toNat * 2 ^ 32 + (s.reg (coreVecLstepsLo c.val)).toNat)
          ((vecD e.words).vectors * laneSteps (vecD e.words).op) ∧
      (∀ x ∈ t.cores[c].issued, x.seq = e.seq → x.phase = .finished) ∧
      (∀ x ∈ t.cores[c].issued, x.seq ≠ e.seq → x ∈ s.cores[c].issued) ∧
      t.cores[c].first = s.cores[c].first ∧ t.cores[c].guest = s.cores[c].guest ∧
      t.cores[c].arrays = s.cores[c].arrays ∧
      (∀ o, isEventReg o = false → isMemReg o = false →
        o ∉ [coreVecLstepsLo c.val, coreVecLstepsHi c.val, coreNumOutsat c.val, coreNumNonfin c.val] → t.reg o = s.reg o) ∧
      EngineFrame c s t) ∧
  (∀ (c : CoreId) e j tab (s : State), s.job e.part = some j → s.tagStop c j e.lcore (rowD e.words) = none →
    (∀ n, n < (rowD e.words).rows → s.rowStop j e.lcore (rowD e.words) (rowP e.param) tab n = none) →
    ∃ t : State, s.runRow c e j tab = t ∧
      (∀ a, s.inRings a = false → t.rd a = (s.lput j
        ((rowD e.words).run (rowP e.param) e.lcore j.commitUnder tab (s.lrd j) (rowD e.words).rows).stores).rd a) ∧
      (t.reg (coreRowLstepsHi c.val)).toNat * 2 ^ 32 + (t.reg (coreRowLstepsLo c.val)).toNat =
        satAdd 64 ((s.reg (coreRowLstepsHi c.val)).toNat * 2 ^ 32 + (s.reg (coreRowLstepsLo c.val)).toNat)
          ((rowD e.words).rows * (rowD e.words).rowSteps) ∧
      ((rowD e.words).op ≠ 0x02 ∨ (rowD e.words).affine = false ∨ e.mute = true →
        ∀ x ∈ t.cores[c].issued, x.seq = e.seq → x.phase = .finished) ∧
      ((rowD e.words).op = 0x02 → (rowD e.words).affine = true → e.mute = false →
        ∀ x ∈ t.cores[c].issued, x.seq = e.seq → x.phase = .running ∧ x.adds = [⟨(rowP e.param).tensorW,
          (rowD e.words).contributions (rowP e.param) e.lcore (s.lrd j) (j.prescale (rowP e.param).tensorW), false⟩]) ∧
      t.cores[c].first = s.cores[c].first ∧ t.cores[c].guest = s.cores[c].guest ∧ t.cores[c].arrays = s.cores[c].arrays ∧
      EngineFrame c s t)

/-- A table load (R132-R136): an image that passes its checks is held by the descriptor, which runs on; once no earlier use of
the slot is left the pair slot holds the image and the descriptor finishes, and until then it waits; an image that fails fails
the load. That FW's FUNC_ID is the image operand modulo 65536 is the model's choice (log 15). Says that these complete:
tblLoad, tblLoadApply. -/
def Obligations.TableLoadsFillSlots : Prop :=
  (∀ (c : CoreId) env e j v img (u : State) (s : State), s.rowHead c 0x10 = some (e, j, v) →
    (s.rowStart c e j env none).access j
      (if (rowD e.words).fw then [] else span (rowD e.words).xA imageBytes) [] = (u, none) →
    tableImage (rowD e.words).fw ((rowD e.words).xA % 65536)
      (if (rowD e.words).fw then [] else u.lrdBytes j (rowD e.words).xA imageBytes) = .ok img →
    exec (.tblLoad c env) s = .next (u.updIssued c e.seq fun x => { x with phase := .running, param := img })) ∧
  (∀ (c : CoreId) env e j v f (u : State) (s : State), s.rowHead c 0x10 = some (e, j, v) →
    (s.rowStart c e j env none).access j
      (if (rowD e.words).fw then [] else span (rowD e.words).xA imageBytes) [] = (u, none) →
    tableImage (rowD e.words).fw ((rowD e.words).xA % 65536)
      (if (rowD e.words).fw then [] else u.lrdBytes j (rowD e.words).xA imageBytes) = .error f →
    exec (.tblLoad c env) s = .next (u.failDescriptor c e ⟨0x4304, [c.val, (rowD e.words).tbl, f]⟩)) ∧
  (∀ (c : CoreId) e j v (u : State) (s : State), s.headOf c .row = some e → (rowD e.words).op = 0x10 → e.phase = .running →
    s.usedBefore c e (rowD e.words).tbl = false → s.job e.part = some j → j.serve e.lcore = some v →
    s.access j [] (span (tablePlace e.lcore (rowD e.words).tbl) 0x2000) = (u, none) →
    ∃ t : State, exec (.tblLoadApply c) s = .next t ∧ mapGet (t.lctx v).tables (rowD e.words).tbl = some (slice e.param 0 64) ∧
      (∀ n, n ≠ (rowD e.words).tbl → mapGet (t.lctx v).tables n = mapGet (s.lctx v).tables n) ∧
      (∀ a, t.rd a = (s.put ((indexed (slice e.param 0x40 0x2000)).map fun x =>
        (translate j.serves j.guests (tablePlace e.lcore (rowD e.words).tbl + x.1), x.2))).rd a) ∧
      (∀ x ∈ t.cores[c].issued, x.seq = e.seq → x.phase = .finished) ∧
      t.parts = s.parts ∧ t.handles = s.handles ∧ t.nvm = s.nvm) ∧
  (∀ (c : CoreId) e (s : State), s.headOf c .row = some e → s.usedBefore c e (rowD e.words).tbl = true →
    exec (.tblLoadApply c) s = .next s)

/-- A copying move or a fill that starts in a place of the move engine's queue runs whole (R197, R199, R200). A move that
meets no unusable memory and no failing unit finishes (R172, R197, R199, R212): row by row, each destination byte takes what
its source byte, or the fill, held before its row was written, and nothing else of memory changes; the rest of the machine
stays. Says that these complete: movCopy, copyRect, movFill. -/
def Obligations.MovesRunAndFinish : Prop :=
  (∀ x ∈ ([(0x0, .movCopy), (0x1, .copyRect), (0x2, .movFill)] : List (Nat × (CoreId → Fin 8 → MemEnv → Instr))),
    ∀ (c : CoreId) slot env e j (s : State), s.startMov c slot x.1 = some (e, j) →
      exec (x.2 c slot env) s = .next ((s.takeFor env e.part (movD e.words).readAddrs).runMov c e j)) ∧
  (∀ (c : CoreId) e j (s : State), (∀ n, n < (movD e.words).rows → ∀ x ∈ (movD e.words).cells n, s.cellStop j x = none) →
    ∃ t : State, s.runMov c e j = t ∧
      t.mem = (((List.range (movD e.words).rows).map (movD e.words).cells).foldl
        (fun (u : State) row => u.lput j (row.map fun x => (x.dst, u.cellVal j x))) s).mem ∧
      (∀ x ∈ t.cores[c].issued, x.seq = e.seq → x.phase = .finished) ∧ t.parts = s.parts ∧ t.mc = s.mc ∧ t.handles = s.handles ∧
      t.cores[c].arrays = s.cores[c].arrays ∧ (∀ o, isMemReg o = false → t.reg o = s.reg o) ∧ EngineFrame c s t)

/-! ### Gradients, decision, numerics -/

/-- An addition into slots that are LIVE with the addition's tensor and not clearing, or SPILLING by a SPILL that issued
later, is made (R48, R85, R144, R148): each element becomes the old value plus the contribution, rounded once, outside the
rings no other byte changes, and the descriptor's debt is settled. Its reads correct the errors that they meet (R188, R189).
An addition that meets a slot being filled or cleared waits, and its wait is counted once; one that meets no slot, or a slot
in another state or with another tensor's tile, fails with GB_TILE_ABSENT (R144, R145, R148). Says that these complete:
gbAddition. -/
def Obligations.GbAdditionsAreMade : Prop :=
  (∀ (c : CoreId) k e j v (q u : State) (s : State), s.cores[c].issued[k]? = some e → s.job e.part = some j → e.addsToGb = true → e.mute = false → e.adds ≠ [] →
    s.addBlocked c e = false → j.serve e.lcore = some v →
    (∀ o ∈ (s.lctx v).targetSlots e.lcore e.gbRuns, ∃ i, o = some i ∧ State.addFate j (s.lctx v) e i = .made) →
    q = s.meetReads (((e.adds.flatMap PendingAdd.elems).flatMap fun x => span x.1 8).map (j.phys false)) →
    q.access j ((e.adds.flatMap PendingAdd.elems).flatMap fun x => span x.1 8)
      ((e.adds.flatMap PendingAdd.elems).flatMap fun x => span x.1 8) = (u, none) →
    exec (.gbAddition c k) s = .next ((u.putSums c e.part j e.tensorW (u.sums j (e.adds.flatMap PendingAdd.elems))).addsMade c e) ∧
    (∀ a, u.lrd j a = q.lrd j a) ∧ (∀ a, s.inRings a = false → q.rd a = s.rd a) ∧
    (∀ a, s.inRings a = false → (u.putSums c e.part j e.tensorW (u.sums j (e.adds.flatMap PendingAdd.elems))).rd a =
      (q.lput j ((q.sums j (e.adds.flatMap PendingAdd.elems)).flatMap fun w =>
        (indexed (leBytes 8 w.2)).map fun b => (w.1 + b.1, b.2))).rd a)) ∧
  (∀ (c : CoreId) k e j v (s : State), s.cores[c].issued[k]? = some e → s.job e.part = some j → e.addsToGb = true → e.mute = false → e.adds ≠ [] →
    s.addBlocked c e = false → j.serve e.lcore = some v →
    (∀ o ∈ (s.lctx v).targetSlots e.lcore e.gbRuns, ∃ i, o = some i ∧ State.addFate j (s.lctx v) e i ≠ .absent) →
    (∃ i, some i ∈ (s.lctx v).targetSlots e.lcore e.gbRuns ∧ State.addFate j (s.lctx v) e i = .waits) →
    ∃ t : State, exec (.gbAddition c k) s = .next t ∧ t.mem = s.mem ∧ t.parts = s.parts ∧
      (e.adds.any PendingAdd.waited = true → t = s) ∧
      (e.adds.any PendingAdd.waited = false →
        t.reg (coreGbWaits c.val) = BitVec.ofNat 32 (satAdd 32 (s.reg (coreGbWaits c.val)).toNat 1) ∧
        ∀ x ∈ t.cores[c].issued, x.seq = e.seq → ∀ a ∈ x.adds, a.waited = true)) ∧
  (∀ (c : CoreId) k e j v (s : State), s.cores[c].issued[k]? = some e → s.job e.part = some j → e.addsToGb = true → e.mute = false → e.adds ≠ [] →
    s.addBlocked c e = false → j.serve e.lcore = some v → (none ∈ (s.lctx v).targetSlots e.lcore e.gbRuns ∨
      ∃ i, some i ∈ (s.lctx v).targetSlots e.lcore e.gbRuns ∧ State.addFate j (s.lctx v) e i = .absent) →
    ∃ o, exec (.gbAddition c k) s = .next (s.addFails c e (.inl ⟨0x4401, [c.val, o, e.tensorW]⟩)))

/-- The gradient operations on a slot in the state that each needs (R147-R150, R152): ZERO and REFILL fill an EMPTY slot,
whose filling ends with the tile LIVE, or EMPTY after a change of step; SPILL runs on the slot that it turned SPILLING when it
issued, and once its image is written the slot is EMPTY; TIE_ADD adds the next use in order into the first, and after a change
of step does nothing; the clearing of resident tiles ends. The image of a SPILL carries the commit and the attempt under which
the SPILL issued, and a REFILL is compared with its own. What a change of step or a failure leaves of a SPILL, a REFILL and a
TIE_ADD is the model's choice (log 59). Says that these complete: gbZero, refill, slotFilled, spill, spillWrite, tieAdd,
gbClearDone. -/
def Obligations.GbTileOperationsAct : Prop :=
  (∀ (c : CoreId) slot env e j t v k g (q u : State) (s : State), s.startMov c slot 0x8 = some (e, j) → q = s.takeFor env e.part [] →
    q.gradTarget j e (movD e.words).tile = some (t, v, k, g) → t.resident = false → g.state = .empty →
    q.access j [] (span (t.addr e.lcore) t.bytes) = (u, none) →
    exec (.gbZero c slot env) s =
      .next ((u.zeroRange (j.phys true (t.addr e.lcore)) t.bytes).beginFill c e v k (movD e.words).tile 0)) ∧
  (∀ (c : CoreId) slot env e j t v k g (q u w : State) (s : State), s.startMov c slot 0x9 = some (e, j) →
    q = s.takeFor env e.part (j.spillAddrs e.lcore (movD e.words).tile) →
    q.gradTarget j e (movD e.words).tile = some (t, v, k, g) → t.resident = false → g.state = .empty →
    q.access j (span t.spill 64) [] = (u, none) →
    refillTag e.stamp t (movD e.words).micro (u.lrdBytes j t.spill 64) = none →
    (u.touchAll ((span t.spill (64 + t.bytes)).map (j.phys false))).movRows j
      [copyCells (span (t.spill + 64) t.bytes) (span (t.addr e.lcore) t.bytes)] = (w, none) →
    exec (.refill c slot env) s =
      .next (w.beginFill c e v k (movD e.words).tile (rdLE (u.lrdBytes j t.spill 64) 0x18 4 % 4))) ∧
  (∀ (c : CoreId) (e : Issued) v k tile ties (s : State), k < (s.lctx v).slots.length →
    ((s.beginFill c e v k tile ties).lctx v).slots[k]? =
      ((s.lctx v).slots[k]?).map fun g => { g with state := .filling, tile := tile, ties := ties }) ∧
  (∀ (c : CoreId) i e j t v k g (s : State), s.cores[c].issued[i]? = some e → hClass e.words = 4 → (movD e.words).op = 0x8 ∨ (movD e.words).op = 0x9 →
    e.phase = .running → s.job e.part = some j →
    s.gradTarget j e (movD e.words).tile = some (t, v, k, g) → g.state = .filling →
    ∃ r, exec (.slotFilled c i) s = .next r ∧
      (r.lctx v).slots[k]? = ((s.lctx v).slots[k]?).map (fun g =>
        { g with state := if g.state = .filling then (if e.mute then .empty else .live) else g.state }) ∧
      r.reg (coreGbRefills c.val) = BitVec.ofNat 32 (satAdd 32 (s.reg (coreGbRefills c.val)).toNat 1) ∧
      (∀ x ∈ r.cores[c].issued, x.seq = e.seq → x.phase = .finished) ∧ r.mem = s.mem ∧ r.parts = s.parts) ∧
  (∀ (c : CoreId) slot e j t v k g (s : State), s.startMov c slot 0xA = some (e, j) →
    s.gradTarget j e (movD e.words).tile = some (t, v, k, g) → e.mute = true ∨ (g.state = .spilling ∧ g.spiller = e.seq) →
    exec (.spill c slot) s = .next (s.updIssued c e.seq fun x => { x with
        phase := .running, prog := [e.stamp.1, e.stamp.2, g.ties, j.prescale t.tensor] })) ∧
  (∀ j e t v k g (s : State), hClass e.words = 4 → (movD e.words).op = 0xA →
    s.gradTarget j e (movD e.words).tile = some (t, v, k, g) → t.resident = false → g.state = .live → g.tile = (movD e.words).tile →
    s.spillIssues j e = s.updGbSlot v k fun g => { g with state := .spilling, spiller := e.seq }) ∧
  (∀ (c : CoreId) i env e j t v k g (s : State), s.cores[c].issued[i]? = some e → hClass e.words = 4 → (movD e.words).op = 0xA →
    e.phase = .running → s.job e.part = some j →
    s.gradTarget j e (movD e.words).tile = some (t, v, k, g) → s.spillWaits c e t = false →
    (∀ y ∈ fillCells ((span t.spill 64).zip (imageHeader t (e.prog.getD 0 0) (e.prog.getD 1 0) (movD e.words).micro
        (e.prog.getD 3 0) (e.prog.getD 2 0))) ++ copyCells (span (t.addr e.lcore) t.bytes) (span (t.spill + 64) t.bytes),
      (s.takeFor env e.part (j.tileAddrs e.lcore (movD e.words).tile)).cellStop j y = none) →
    ∃ r, exec (.spillWrite c i env) s = .next r ∧
      (∀ x ∈ r.cores[c].issued, x.seq = e.seq → x.phase = .finished) ∧
      r.reg (coreGbSpills c.val) = BitVec.ofNat 32 (satAdd 32 (s.reg (coreGbSpills c.val)).toNat 1) ∧
      (e.mute = false → k < (s.lctx v).slots.length → g.state = .spilling → ((r.lctx v).slots[k]?).map GbSlot.state = some .empty) ∧
      r.nvm = s.nvm ∧ (∀ p, r.job p = s.job p)) ∧
  (∀ (c : CoreId) slot env e j t v k g b v' k' g' (q u : State) (s : State), s.startMov c slot 0xB = some (e, j) → e.mute = false →
    q = s.takeFor env e.part (j.tileAddrs e.lcore (movD e.words).tile ++ j.tileAddrs e.lcore (dfld e.words 0x38 15 0)) →
    q.gradTarget j e (movD e.words).tile = some (t, v, k, g) →
    q.gradTarget j e (dfld e.words 0x38 15 0) = some (b, v', k', g') → g.state = .live →
    g.tile = (movD e.words).tile → g'.state = .live → g'.tile = dfld e.words 0x38 15 0 → b.use = g.ties + 1 →
    u = q.touchAll ((span (t.addr e.lcore) t.bytes ++ span (b.addr e.lcore) t.bytes).map (j.phys false)) →
    (u.tieUntil j (t.addr e.lcore) (b.addr e.lcore) (t.rows * t.cols)) = (t.rows * t.cols, none) →
    exec (.tieAdd c slot env) s = .next ((((u.putSums c e.part j t.tensor (u.sums j ((List.range (t.rows * t.cols)).map fun i =>
      (t.addr e.lcore + 8 * i, wgDecode (leNat (u.lrdBytes j (b.addr e.lcore + 8 * i) 8)))))).updGbSlot v k
        fun g => { g with ties := g.ties + 1 }).count (coreGbTieadds c.val) 1).finish c e)) ∧
  (∀ (c : CoreId) slot env e j (s : State), s.startMov c slot 0xB = some (e, j) → e.mute = true →
    exec (.tieAdd c slot env) s = .next (s.finish c e)) ∧
  (∀ (c : CoreId) (s : State), ∃ t : State, exec (.gbClearDone c) s = .next t ∧ (∀ g ∈ t.cores[c].first.slots, g.clearing = false) ∧
    (∀ g ∈ t.cores[c].guest.slots, g.clearing = false) ∧ t.mem = s.mem ∧ t.regs = s.regs ∧ t.parts = s.parts ∧
    ∀ d : CoreId, d ≠ c → t.cores[d] = s.cores[d])

/-- The decision is taken once every step list is complete and every bucket reduced (R157, R158): a step that overflows is
skipped and lowers the scale as R59 says, any other proceeds with the norm, the clip and the numerics of its commit, its
update lists begin, and neither numerics nor commit number move before the commit; a commit after a step that proceeded turns
the live bank and counts an optimiser step, one after a skip does neither. When the events of a decision come is the model's
choice (log 93). A logical core whose physical core has left service moves to the lowest spare core of its partition, or,
where the job allows it a guest's place, to a host, once nothing of the job is issued and no ABORT is awaited (R23, R225,
R226, R229); a ganged job cannot be served and pauses. That a RUN or LOOP job then starts its iteration again is the model's
reading (log 12), and so is the order in which a guest and its host are served (log 90). Says that these complete:
decisionSequence, coreRemap. -/
def Obligations.DecisionsAreTaken : Prop :=
  (∀ p env j (u : State) (s : State), s.job p = some j → s.decisionDue p j = true →
    u = (s.takeReads env (j.normAddrs.map (j.phys false) ++ span j.jstateLive 0x40)).touchAll (j.normAddrs.map (j.phys false)) →
    u.lbad j j.normAddrs = none → u.firstBad (span j.jstateLive 0x40) = none → (j.step.overflow || j.step.redNonfin) = true →
    exec (.decisionSequence p env) s = .next (u.decideSkip p j)) ∧
  (∀ p env j (u : State) (s : State), s.job p = some j → s.decisionDue p j = true →
    u = (s.takeReads env (j.normAddrs.map (j.phys false) ++ span j.jstateLive 0x40)).touchAll (j.normAddrs.map (j.phys false)) →
    u.lbad j j.normAddrs = none → u.firstBad (span j.jstateLive 0x40) = none → (j.step.overflow || j.step.redNonfin) = false →
    exec (.decisionSequence p env) s = .next (u.decideProceed p j)) ∧
  (∀ p j (s : State), s.job p = some j → ∃ k, (s.decideProceed p j).job p = some k ∧ k.step.decision = .proceed ∧ k.step.updating = true ∧
    k.step.shadow = some j.proceeded.1 ∧ k.step.norm = s.normOf j ∧ k.step.clip = clipOf (j.upd.getD {}).maxNorm (s.normOf j) ∧
    k.num = j.num ∧ k.step.commit = j.step.commit) ∧
  (∀ n : NumState, n.skipped.clean = 0 ∧ n.skipped.sg = (if n.sg ≤ -32 then n.sg else n.sg - 1) ∧ n.skipped.words = n.words) ∧
  (∀ (j : Job) n, j.step.decision = .skip → (j.committed n).step.liveB = j.step.liveB ∧ (j.committed n).step.optSteps = j.step.optSteps) ∧
  (∀ (j : Job) n, j.step.decision = .proceed → (j.committed n).step.liveB = !j.step.liveB ∧
    (j.committed n).step.optSteps = j.step.optSteps + 1) ∧
  (∀ p j l (c : CoreId) r k (s : State), s.job p = some j → s.orphans j = (l, c) :: r → s.issuedOf p = [] → j.paused = false →
    j.awaitsAbort = false → (List.range j.lcores).any j.ganged = false →
    ((State.remapAll p ((l, c) :: r) s).checkUnits p).job p = some k → k.kind = .train →
    exec (.coreRemap p) s = .next ((State.remapAll p ((l, c) :: r) s).checkUnits p)) ∧
  (∀ p j l (c : CoreId) r k (s : State), s.job p = some j → s.orphans j = (l, c) :: r → s.issuedOf p = [] → j.paused = false →
    j.awaitsAbort = false → (List.range j.lcores).any j.ganged = false →
    ((State.remapAll p ((l, c) :: r) s).checkUnits p).job p = some k → k.kind ≠ .train → k.paused = false → k.stop = .abort →
    exec (.coreRemap p) s = .next (((State.remapAll p ((l, c) :: r) s).checkUnits p).updJob p fun j =>
      { j with cmt := { j.cmt with restart := true } })) ∧
  (∀ p j l (c : CoreId) r (s : State), s.job p = some j → s.orphans j = (l, c) :: r → s.issuedOf p = [] → j.paused = false →
    j.awaitsAbort = false → (List.range j.lcores).any j.ganged = true → exec (.coreRemap p) s = .next (s.remapFailed p l)) ∧
  (∀ p j (s : State), s.job p = some j → j.awaitsAbort = true ∨ s.issuedOf p ≠ [] ∨ j.paused = true → exec (.coreRemap p) s = .next s) ∧
  (∀ p j l old d r (s : State), s.job p = some j → s.spareFor p j.serves = some d →
    State.remapAll p ((l, old) :: r) s = State.remapAll p r (s.remapTo p l old ⟨d, false⟩)) ∧
  (∀ p j l old d r (s : State), s.job p = some j → s.spareFor p j.serves = none → (j.guests[l]?).join.isSome = true →
    s.hostFor p j.serves (some (old.val / 2)) = some d →
    State.remapAll p ((l, old) :: r) s = State.remapAll p r (s.remapTo p l old ⟨d, true⟩)) ∧
  (∀ p m d (s : State), s.spareFor p m = some d → s.cores[d].part = some p ∧ s.cores[d].inService = true ∧ (servedBy m d).1 = 0 ∧
    ∀ x : CoreId, x < d → s.cores[x].part = some p → s.cores[x].inService = true → (servedBy m x).1 ≠ 0)

/-- The gradient scale (R60): a committed step that does not overflow adds 1 to the clean-step count; at 2,000 the scale rises
by 1, up to 32, and the count returns to 0; the commit takes the numerics over, and a rise raises GSCALE_UP there, before the
alarms of the silent layers. That the event comes with the commit is the model's choice (log 93), as is its SOURCE (log 79). -/
def Obligations.CleanStepsRaiseTheScale : Prop :=
  (∀ j : Job, j.num.clean + 1 < 2000 → j.proceeded.1.clean = j.num.clean + 1 ∧ j.proceeded.1.sg = j.num.sg) ∧
  (∀ j : Job, 2000 ≤ j.num.clean + 1 → j.proceeded.1.clean = 0 ∧
    (j.num.sg < 32 → j.proceeded.1.sg = j.num.sg + 1) ∧ (32 ≤ j.num.sg → j.proceeded.1.sg = j.num.sg)) ∧
  (∀ (j : Job) n m, j.step.shadow = some m → (j.committed n).num = m) ∧
  (∀ p (j : Job) n (s : State), j.num.sg < (j.step.shadow.getD j.num).sg →
    s.commitEvents p j n = j.step.silent.foldl
      (fun s t => s.raise .mc (some p) 0x3020 [t, fld ((j.step.shadow.getD j.num).words.getD (j.wpos t) 0) 20 16])
      (s.raise .mc (some p) 0x3012 [n, toTwos 32 (j.step.shadow.getD j.num).sg])) ∧
  (∀ p (j : Job) n (s : State), (j.step.shadow.getD j.num).sg ≤ j.num.sg → j.step.silent = [] → s.commitEvents p j n = s)

/-- The floating formats of R30. -/
def floatFormats : List FloatFmt := [fFP32, fBF16, fFP16, fE5M2, fE4M3, fE3M2, fE2M3, fE2M1]

/-- R35: a finite value of any format, subnormals included, is read and written back as it is, whatever the rounding. -/
def Obligations.SubnormalsAreExact : Prop :=
  ∀ f ∈ floatFormats, ∀ mode raw neg m e, raw < 2 ^ (1 + f.eb + f.mb) → f.decode raw = .fin neg m e →
    f.encode mode (f.decode raw) = (raw, .ok)

/-- Rounding to nearest even (R53): the result is within half a unit of the exact value, and even when it is half a unit away.
Stochastic rounding of a magnitude (R54): the result is the value cut down to whole units or one unit more, and a value that
is whole units already stays. -/
def Obligations.RoundingsAreRight : Prop :=
  (∀ (m : Nat) (e q : Int), e < q →
    let u := 2 ^ (q - e).toNat
    let n := roundMag .nearest m e q
    2 * (n * u) ≤ 2 * m + u ∧ 2 * m ≤ 2 * (n * u) + u ∧ ((2 * (n * u) = 2 * m + u ∨ 2 * m = 2 * (n * u) + u) → n % 2 = 0)) ∧
  (∀ (r m : Nat) (e q : Int), e < q → r < 2 ^ 32 →
    let u := 2 ^ (q - e).toNat
    (roundMag (.stoch r) m e q = m / u ∨ roundMag (.stoch r) m e q = m / u + 1) ∧
    (m % u = 0 → roundMag (.stoch r) m e q = m / u) ∧
    (roundMag (.stoch r) m e q = m / u + 1 ↔ 2 ^ 32 ≤ (m % u) * 2 ^ 32 / u + r))

/-! ### Collectives and pipelines -/

/-- Messages of a channel are taken in order, each once (R314, R320, R339): the command whose kind is that of the first
message from its sender takes that message and nothing else; a command with no such message leaves the state as it is (log
entry 7). Says that these complete: reduceUp, reduceDown, gatherReq, gatherReply, pipe, pipePost, pipeDone, unitXfer. -/
def Obligations.MessagesAreTakenOnce : Prop :=
  (∀ p e vc k m (u : State) (s : State), s.popMsg p e vc k = some (m, u) → ∃ c n, s.cluster p = some c ∧ n < c.inbox.length ∧
    (c.inbox.getD n default).bytes = m ∧ (c.inbox.getD n default).entry = e ∧ (c.inbox.getD n default).vc = vc ∧
    (∀ i, i < n → ¬ ((c.inbox.getD i default).entry = e ∧ (c.inbox.getD i default).vc = vc)) ∧
    u.cluster p = some { c with inbox := c.inbox.eraseIdx n } ∧
    u.mem = s.mem ∧ u.regs = s.regs ∧ u.cores = s.cores ∧ u.mc = s.mc ∧ u.ports = s.ports ∧ u.handles = s.handles ∧
    ∀ q, q ≠ p → u.job q = s.job q) ∧
  (∀ x ∈ ([(1, .reduceUp), (2, .reduceDown), (3, .gatherReq), (4, .gatherReply), (5, .pipe), (6, .pipePost), (7, .pipeDone),
      (8, .unitXfer)] : List (Nat × (PartId → EntryId → VcId → Instr))), ∀ p (e : EntryId) (vc : VcId) (s : State),
    s.popMsg p e.val vc.val x.1 = none → exec (x.2 p e vc) s = .next s) ∧
  (∀ x ∈ ([(0x01, .join), (0x02, .joinReply), (0x03, .roster), (0x04, .leave), (0x05, .redirect), (0x06, .leadQuery),
      (0x07, .leadReply), (0x08, .starterQuery), (0x09, .lost), (0x20, .startStep), (0x21, .ready), (0x22, .abortReq),
      (0x23, .commit), (0x24, .abort), (0x25, .ckptReq), (0x26, .ckptRead), (0x27, .rebalanced), (0x28, .hostOp)] :
      List (Nat × (PartId → EntryId → Instr))), ∀ p (e : EntryId) (s : State),
    s.popMsg p e.val 0 x.1 = none → exec (x.2 p e) s = .next s)

/-- REDUCE (R336, R339-R343): of a job alone it copies the bucket, or a bucket of zeros, notes its overflow and finishes; in a
cluster it opens its segments, steps them, and takes the partials that had arrived. A partial that comes up is taken, a result
that comes down and agrees is the segment's result; one whose data differs from what the receiver expects is answered with
STATUS 4 and fails the descriptor with NET_MISMATCH, and one that says that the ends disagree fails it too. Says that these
complete: reduce, reduceUp, reduceDown. -/
def Obligations.ReductionsAct : Prop :=
  (∀ (c : CoreId) slot env e j (u : State) (s : State), s.startNet c slot.val 0x01 = some (e, j) → j.cluster = none →
    (s.takeFor env e.part (netReads e.words)).access j (if nA0 e.words = 0 then [] else span (nA0 e.words) (nLen e.words * gwBytes (nWide e.words)))
      (span (nA1 e.words) (nLen e.words * gwBytes (nWide e.words))) = (u, none) →
    let own := if nA0 e.words = 0 then j.zeroBlocks (nWide e.words) (nId e.words) (nLen e.words)
      else (span (nA0 e.words) (nLen e.words * gwBytes (nWide e.words))).map (u.lrd j)
    ∃ t : State, exec (.reduce c slot env) s = .next t ∧ t.mem = (u.lputBytes j (nA1 e.words) own).mem ∧
      (∀ k, u.job e.part = some k → ∃ k', t.job e.part = some k' ∧ k'.step.reduced = k.step.reduced ++ [nId e.words] ∧
        k'.step.overflow = (k.step.overflow ||
          (List.range (nLen e.words)).any fun x => decide (rdLE own (gwBytes (nWide e.words) * x) 1 = 0xFF))) ∧
      (∀ x ∈ t.cores[c].issued, x.seq = e.seq → x.phase = .finished) ∧ t.handles = s.handles ∧ t.nvm = s.nvm) ∧
  (∀ (c : CoreId) slot env e j k own (u w : State) (s : State), s.startNet c slot.val 0x01 = some (e, j) → j.cluster = some k →
    (s.takeFor env e.part (netReads e.words)).access j (if nA0 e.words = 0 then [] else span (nA0 e.words) (nLen e.words * gwBytes (nWide e.words)))
      (span (nA1 e.words) (nLen e.words * gwBytes (nWide e.words))) = (u, none) →
    own = (if nA0 e.words = 0 then j.zeroBlocks (nWide e.words) (nId e.words) (nLen e.words)
      else (span (nA0 e.words) (nLen e.words * gwBytes (nWide e.words))).map (u.lrd j)) →
    w = ((u.running c e).updCluster e.part fun k => { k with reds := k.reds ++ [{
      core := c, seq := e.seq, lcore := e.lcore, bucket := nId e.words, len := nLen e.words, seg := Nat.max 1 (nPa e.words),
      vc := nVc e.words, wide := nWide e.words, dst := nA1 e.words,
      segs := (List.range (segCount (nLen e.words) (Nat.max 1 (nPa e.words)))).map fun i =>
        { acc := slice own (i * Nat.max 1 (nPa e.words) * gwBytes (nWide e.words))
            (Nat.min (Nat.max 1 (nPa e.words)) (nLen e.words - i * Nat.max 1 (nPa e.words)) * gwBytes (nWide e.words)) } }] }) →
    exec (.reduce c slot env) s = .next ((((w.cluster e.part).map Cluster.heldReds).getD []).foldl (fun s m => s.takeUp e.part m)
      ((List.range (segCount (nLen e.words) (Nat.max 1 (nPa e.words)))).foldl (fun s i => s.redStep e.part (nId e.words) i)
        (w.updCluster e.part fun k => { k with heldReds := [] })))) ∧
  (∀ (p : PartId) (e : EntryId) (vc : VcId) m (u : State) (s : State), s.popMsg p e.val vc.val 1 = some (m, u) →
    exec (.reduceUp p e vc) s = .next (u.takeUp p ⟨e.val, vc.val, m, s.msgPort p e.val vc.val⟩)) ∧
  (∀ (p : PartId) (e : EntryId) (vc : VcId) m k r (u : State) (s : State), s.popMsg p e.val vc.val 2 = some (m, u) →
    u.cluster p = some k → k.red (rdLE m 8 4) = some r → rdLE m 2 1 ≠ 4 → r.differs m = none →
    exec (.reduceDown p e vc) s = .next (u.redResult p r.bucket (rdLE m 12 4) (m.drop 32))) ∧
  (∀ (p : PartId) (e : EntryId) (vc : VcId) m k r (u : State) (s : State), s.popMsg p e.val vc.val 2 = some (m, u) →
    u.cluster p = some k → k.red (rdLE m 8 4) = some r → rdLE m 2 1 = 4 →
    exec (.reduceDown p e vc) s = .next (u.failDescriptor r.core (u.redIssued r) (mismatch (u.redIssued r) 2 r.bucket 0))) ∧
  (∀ (p : PartId) (e : EntryId) (vc : VcId) m k r off (u : State) (s : State), s.popMsg p e.val vc.val 2 = some (m, u) →
    u.cluster p = some k → k.red (rdLE m 8 4) = some r → rdLE m 2 1 ≠ 4 → r.differs m = some off →
    exec (.reduceDown p e vc) s = .next ((u.sendNet p e.val vc.val 2 4 r.bucket (rdLE m 12 4) (rdLE m 16 4) (rdLE m 0x14 6) []).failDescriptor
      r.core (u.redIssued r) (mismatch (u.redIssued r) (rdLE m 3 1) r.bucket off))) ∧
  (∀ (r : RedRun) m, r.differs m = none ↔ rdLE m 12 4 < segCount r.len r.seg ∧ rdLE m 16 4 = r.len ∧ rdLE m 0x14 6 = r.seg ∧
    m.length - 32 = r.segBlocks (rdLE m 12 4) * gwBytes r.wide)

/-- The node of the reduction trees (R51, R341) takes its partials in the order of the rounds: one that comes before its round
waits, and joining changes neither the number of blocks nor their format. -/
def Obligations.PartialsJoinInOrder : Prop :=
  (∀ wide rounds g k, rounds[g.round]? = some k → (g.held.find? fun h => decide (h.1 = k)) = none →
    ∀ f, RedSeg.join wide rounds f g = g) ∧
  (∀ wide rounds g k b f, rounds[g.round]? = some k → (g.held.find? fun h => decide (h.1 = k)) = some (k, b) →
    RedSeg.join wide rounds (f + 1) g = RedSeg.join wide rounds f { g with
      acc := nodeAdd wide g.acc b, round := g.round + 1, held := g.held.filter fun x => decide (x.1 ≠ k) }) ∧
  (∀ wide a b, (nodeAdd wide a b).length = a.length / gwBytes wide * gwBytes wide)

/-- GATHER (R336, R339, R348): a unit of one's own is copied at once, another's is asked for; its owner answers with the
bytes, or with a status, or holds the request; the bytes of a reply that agrees go to the destination if its tag is the step's
commit number, and otherwise the gather fails with SHARD_VERSION; a reply that disagrees is answered with STATUS 4 and fails
the gather with NET_MISMATCH. The model's choices: an owner that cannot read the unit reports the failure and sends nothing
(log 102); whether a request was held is a free value where the reply leaves it open (log 46). The SOURCE of an event that its
table does not give is the model's reading (log 79). Says that these complete: gather, gatherReq, gatherReply. -/
def Obligations.GathersAct : Prop :=
  (∀ (c : CoreId) slot env e j k m (s : State), s.startNet c slot.val 0x02 = some (e, j) → j.cluster = some k → j.unitMap = some m →
    ownerOf k.roster (nId e.words) ≠ k.self → exec (.gather c slot env) s =
      .next (((s.takeFor env e.part (netReads e.words)).running c e).sendGather e.part (ownerOf k.roster (nId e.words)) (nVc e.words) 3 0 (nId e.words)
        (nPa e.words) (nLen e.words) [])) ∧
  (∀ (c : CoreId) slot env e j k m (u : State) (s : State), s.startNet c slot.val 0x02 = some (e, j) → j.cluster = some k →
    j.unitMap = some m → ownerOf k.roster (nId e.words) = k.self → nPa e.words + nLen e.words ≤ m.pubBytes →
    ((s.takeFor env e.part (netReads e.words)).meetReads
      ((pubAddrs m ((k.slotOf (nId e.words)).getD 0) (nPa e.words) (nLen e.words)).map (j.phys false))).access j (pubAddrs m ((k.slotOf (nId e.words)).getD 0) (nPa e.words) (nLen e.words))
      (span (nA1 e.words) (nLen e.words)) = (u, none) →
    exec (.gather c slot env) s = .next ((u.lputBytes j (nA1 e.words)
      ((pubAddrs m ((k.slotOf (nId e.words)).getD 0) (nPa e.words) (nLen e.words)).map (u.lrd j))).finish c e)) ∧
  (∀ (p : PartId) (e : EntryId) (vc : VcId) m (u : State) (s : State), s.popMsg p e.val vc.val 3 = some (m, u) →
    exec (.gatherReq p e vc) s = .next (u.serveGather p ⟨e.val, vc.val, m, none⟩)) ∧
  (∀ p j k m st as (s : State), s.job p = some j → s.cluster p = some k →
    gatherAnswer j k (rdLE m.bytes 8 4) (rdLE m.bytes 12 4) (rdLE m.bytes 16 4) (rdLE m.bytes 4 4) = some (st, as) → s.lbad j as = none →
    s.serveGather p m = ((s.touchAll (as.map (j.phys false))).meetReads (as.map (j.phys false))).sendGather p m.entry m.vc 4 st
      (rdLE m.bytes 8 4) (rdLE m.bytes 12 4) (rdLE m.bytes 16 4)
      (as.map (((s.touchAll (as.map (j.phys false))).meetReads (as.map (j.phys false))).lrd j))) ∧
  (∀ p j k m (s : State), s.job p = some j → s.cluster p = some k →
    gatherAnswer j k (rdLE m.bytes 8 4) (rdLE m.bytes 12 4) (rdLE m.bytes 16 4) (rdLE m.bytes 4 4) = none →
    s.serveGather p m = s.updCluster p fun c => { c with heldGathers := c.heldGathers ++ [m] }) ∧
  (∀ p j k m st as a (s : State), s.job p = some j → s.cluster p = some k →
    gatherAnswer j k (rdLE m.bytes 8 4) (rdLE m.bytes 12 4) (rdLE m.bytes 16 4) (rdLE m.bytes 4 4) = some (st, as) → s.lbad j as = some a →
    s.serveGather p m = ((s.uncorrectable (some p) a).reportAbort p 0x5011 none).fenceByErrors a) ∧
  (∀ (p : PartId) (e : EntryId) (vc : VcId) m j (c : CoreId) x (u : State) (s : State), s.popMsg p e.val vc.val 4 = some (m, u) → u.job p = some j →
    u.gatherOf p vc.val m = some (c, x) → gatherDiffers x.words m = none → rdLE m 2 1 = 0 → rdLE m 4 4 = j.step.commit →
    (∀ a ∈ span (nA1 x.words) (nLen x.words), u.unusable (j.phys true a) = none) →
    ∃ t : State, exec (.gatherReply p e vc) s = .next t ∧
      t.mem = (u.lputBytes j (nA1 x.words) (slice m 32 (nLen x.words))).mem ∧
      (∀ y ∈ t.cores[c].issued, y.seq = x.seq → y.phase = .finished) ∧ t.handles = s.handles ∧ t.nvm = s.nvm) ∧
  (∀ (p : PartId) (e : EntryId) (vc : VcId) m j (c : CoreId) x (u : State) (s : State), s.popMsg p e.val vc.val 4 = some (m, u) → u.job p = some j →
    u.gatherOf p vc.val m = some (c, x) → gatherDiffers x.words m = none → rdLE m 2 1 = 1 ∨ (rdLE m 2 1 = 0 ∧ rdLE m 4 4 ≠ j.step.commit) →
    ∃ v : State, exec (.gatherReply p e vc) s = .next (v.failDescriptor c x (shardVersion (nId x.words) j.step.commit (rdLE m 4 4) e.val)) ∧
      v.mem = u.mem ∧ v.parts = u.parts ∧ (heldReply (rdLE m 2 1) (rdLE m 4 4) j.step.commit = false → v = u)) ∧
  (∀ (p : PartId) (e : EntryId) (vc : VcId) m j (c : CoreId) x off (u : State) (s : State), s.popMsg p e.val vc.val 4 = some (m, u) →
    u.job p = some j → u.gatherOf p vc.val m = some (c, x) → gatherDiffers x.words m = some off →
    exec (.gatherReply p e vc) s = .next ((u.sendGather p e.val vc.val 4 4 (nId x.words) (nPa x.words) (nLen x.words) []).failDescriptor
      c x (mismatch x 4 (nId x.words) off)))

/-- Pipelines (R337, R364, R365): SEND goes with its post, or counts that it waits for it; RECV posts its place when it
issues; a post lets the SENDs of its channel go on; a message for a RECV that runs and agrees is written where it asked, its
wait joins the bubble and the RECV finishes, and a message for a RECV that has issued and not started waits for it; its
acknowledgement ends the SEND, or fails it where the ends disagree. Says that these complete: send, recv, pipe, pipePost,
pipeDone. -/
def Obligations.PipelinesAct : Prop :=
  (∀ (c : CoreId) slot env e j k (s : State), s.startNet c slot.val 0x03 = some (e, j) → j.cluster = some k →
    exec (.send c slot env) s = .next (State.sendGo e.part (nPeer e.words) (nVc e.words) sendFuel
      (if (k.posts.any fun q => decide (q.entry = nPeer e.words ∧ q.vc = nVc e.words ∧ q.m = nPa e.words ∧ q.commit = j.step.commit))
        then (s.takeFor env e.part (netReads e.words)).running c e else ((s.takeFor env e.part (netReads e.words)).running c e).count (coreNetPstall c.val) 1))) ∧
  (∀ (c : CoreId) slot e j (s : State), s.startNet c slot.val 0x04 = some (e, j) → exec (.recv c slot) s = .next (s.running c e)) ∧
  (∀ (c : CoreId) x p j l r i d (s : State), j.relocation r i = none → hClass d = 5 → nOp d = 4 → paramBytes d = 0 →
    s.queued c .net < queueDepth .net → j.recvReady d = true → headerError j.lcores d = none → j.peerErr l d = none →
    s.descCheck p j l r.list i d [] = none → i + 1 ≠ r.count → ∃ e : Issued, e.words = d ∧ e.queue = .net ∧ e.phase = .queued ∧
      s.tryIssue c x p j l r i d = (s.issueInto c x e).sendNet p (nPeer d) (nVc d) 6 0 (nPa d) (nLen d) 0 (nA1 d) []) ∧
  (∀ (p : PartId) (e : EntryId) (vc : VcId) m (u : State) (s : State), s.popMsg p e.val vc.val 6 = some (m, u) →
    exec (.pipePost p e vc) s = .next (State.sendGo p e.val vc.val sendFuel (u.updCluster p fun c => { c with
      posts := c.posts ++ [⟨e.val, vc.val, rdLE m 8 4, rdLE m 12 4, rdLE m 0x14 6, rdLE m 4 4, rdLE m 16 4⟩] }))) ∧
  (∀ (p : PartId) (e : EntryId) (vc : VcId) m j (c : CoreId) x (u v : State) (s : State), s.popMsg p e.val vc.val 5 = some (m, u) → u.job p = some j →
    u.recvQueued p e.val vc.val (rdLE m 8 4) = false → (u.netRunning p fun d => decide (nOp d = 0x04 ∧ nPeer d = e.val ∧ nVc d = vc.val ∧ nPa d = rdLE m 8 4)) = some (c, x) →
    rdLE m 2 1 ≠ 4 → rdLE m 12 4 = nLen x.words → rdLE m 16 4 = 0 → rdLE m 0x14 6 = nA1 x.words →
    u.access j [] (span (nA1 x.words) (nLen x.words)) = (v, none) →
    ∃ t : State, exec (.pipe p e vc) s = .next t ∧
      t.mem = (v.lputBytes j (nA1 x.words) (slice m 32 (nLen x.words))).mem ∧
      (∀ y ∈ t.cores[c].issued, y.seq = x.seq → y.phase = .finished) ∧
      (t.reg (coreNetBubbleHi c.val)).toNat * 2 ^ 32 + (t.reg (coreNetBubbleLo c.val)).toNat =
        satAdd 64 ((u.reg (coreNetBubbleHi c.val)).toNat * 2 ^ 32 + (u.reg (coreNetBubbleLo c.val)).toNat)
          ((u.mc.time - x.prog.headD u.mc.time) / 1000) ∧
      ∀ k, u.cluster p = some k → ∃ k', t.cluster p = some k' ∧ k'.recvDone = k.recvDone ++ [(pipeKey e.val vc.val, rdLE m 8 4)]) ∧
  (∀ (p : PartId) (e : EntryId) (vc : VcId) m (u : State) (s : State), s.popMsg p e.val vc.val 5 = some (m, u) →
    u.recvQueued p e.val vc.val (rdLE m 8 4) = true → exec (.pipe p e vc) s = .next s) ∧
  (∀ (p : PartId) (e : EntryId) (vc : VcId) m (c : CoreId) x (u : State) (s : State), s.popMsg p e.val vc.val 7 = some (m, u) →
    (u.netRunning p fun d => decide (nOp d = 0x03 ∧ nPeer d = e.val ∧ nVc d = vc.val ∧ nPa d = rdLE m 8 4)) = some (c, x) →
    rdLE m 2 1 ≠ 4 → exec (.pipeDone p e vc) s = .next (u.finish c x)) ∧
  (∀ (p : PartId) (e : EntryId) (vc : VcId) m (c : CoreId) x (u : State) (s : State), s.popMsg p e.val vc.val 7 = some (m, u) →
    (u.netRunning p fun d => decide (nOp d = 0x03 ∧ nPeer d = e.val ∧ nVc d = vc.val ∧ nPa d = rdLE m 8 4)) = some (c, x) →
    rdLE m 2 1 = 4 → exec (.pipeDone p e vc) s = .next (u.failDescriptor c x (mismatch x 7 (nPa x.words) 0)))

/-- MB_ADMIT (R336, R366): of a micro-batch that fits, every sample is admitted; of a larger one, counted, samples are
admitted and deferred as policies 0 and 1 say, with BATCH_OVERSIZE unless a stop mutes it, and under policy 2 the descriptor
fails with it; what is admitted comes to the batch, the rest of which is zero, and the record names the tokens and the samples
taken and deferred. Storage descriptors (R299, R336): a read or a write on a queue pair that the partition may use is posted
there, the descriptor running; a queue pair that refuses fails it. The SOURCE of an event that its table does not give is the
model's reading (log 79). Says that these complete: mbAdmit, netStoreRead, netStoreWrite. -/
def Obligations.AdmissionAndStorageAct : Prop :=
  (∀ (c : CoreId) slot env e j samples ts (u v w : State) (s : State), s.startNet c slot.val 0x05 = some (e, j) →
    (s.takeFor env e.part (netReads e.words)).access j (span (nA0 e.words) 16) [] = (u, none) → samples = leNat (u.lrdBytes j (nA0 e.words + 4) 4) →
    1 ≤ samples → samples ≤ 4096 → u.moveNames e.part j e.lcore e.index ([(0x14, 31, span (nA0 e.words + 16) (4 * samples))], []) = none →
    u.access j (span (nA0 e.words + 16) (4 * samples)) [] = (v, none) →
    w = v.meetReads ((span (nA0 e.words + 16) (4 * samples)).map (j.phys false)) →
    ts = (List.range samples).map (fun i => leNat (w.lrdBytes j (nA0 e.words + 16 + 4 * i) 4)) →
    ts.sum = leNat (u.lrdBytes j (nA0 e.words) 4) →
    (ts.sum ≤ nPa e.words → exec (.mbAdmit c slot env) s =
      .next (w.takeBatch c e j (16 + 4 * samples) ts.sum { takes := (sampleStarts 0 ts).zip ts, total := ts.sum })) ∧
    (nPa e.words < ts.sum → ∃ z : State,
      z = (w.updJob e.part fun j => { j with cmt := { j.cmt with oversize := satAdd 16 j.cmt.oversize 1 } }) ∧
      (dfld e.words 0x20 19 18 = 2 → exec (.mbAdmit c slot env) s =
        .next (z.failDescriptor c e ⟨0x7109, [e.lcore, ts.sum, nPa e.words, 2]⟩)) ∧
      (dfld e.words 0x20 19 18 ≠ 2 → exec (.mbAdmit c slot env) s = .next
        ((if z.muted e then z else z.raise (.core c.val) (some e.part) 0x7109 [e.lcore, ts.sum, nPa e.words, dfld e.words 0x20 19 18]).takeBatch
          c e j (16 + 4 * samples) ts.sum
          ((indexed ((sampleStarts 0 ts).zip ts)).foldl (Admission.sample (dfld e.words 0x20 19 18) (nPa e.words)) {}))))) ∧
  (∀ (c : CoreId) e j head tokens ad src rec_ (v : State) (s : State),
    src = ad.takes.flatMap (fun t => span (nA0 e.words + (head + 63) / 64 * 64 + t.1 * nLen e.words) (t.2 * nLen e.words)) →
    rec_ = leBytes 4 ad.total ++ leBytes 4 ad.takes.length ++ leBytes 4 ad.defers.length ++ leBytes 4 tokens ++
      ad.defers.flatMap (fun x => leBytes 4 x.1 ++ leBytes 4 x.2) →
    s.moveNames e.part j e.lcore e.index (admitNames e.words head src rec_.length) = none →
    s.access j (namedBytes (admitNames e.words head src rec_.length).1) (namedBytes (admitNames e.words head src rec_.length).2) = (v, none) →
    ∃ t : State, s.takeBatch c e j head tokens ad = t ∧
      (∀ a, s.inRings a = false → t.rd a = ((s.lputBytes j (nA1 e.words) (src.map (s.lrd j) ++
        List.replicate ((nPa e.words - ad.total) * nLen e.words) 0)).lputBytes j (nExt e.words) rec_).rd a) ∧
      (∀ x ∈ t.cores[c].issued, x.seq = e.seq → x.phase = .finished) ∧ t.handles = s.handles ∧ t.nvm = s.nvm) ∧
  (∀ (c : CoreId) slot e j (u : State) (s : State), s.startNet c slot.val 0x06 = some (e, j) → s.qpRefuses e.part (nQp e.words) = none →
    s.access j [] (span (nA0 e.words) (nLen e.words)) = (u, none) → exec (.netStoreRead c slot) s =
      .next ((u.running c e).postRead (nQp e.words).1 (nQp e.words).2 (.net c.val e.seq) (nA0 e.words) (nExt e.words)
        (nPa e.words) (nLen e.words))) ∧
  (∀ (c : CoreId) slot env e j (u : State) (s : State), s.startNet c slot.val 0x07 = some (e, j) →
    s.qpRefuses e.part (nQp e.words) = none →
    (s.takeFor env e.part (span (nA0 e.words) (nLen e.words))).access j (span (nA0 e.words) (nLen e.words)) [] = (u, none) → exec (.netStoreWrite c slot env) s =
      .next ((u.running c e).postWrite (nQp e.words).1 (nQp e.words).2 (.net c.val e.seq) (nExt e.words) (nPa e.words)
        ((span (nA0 e.words) (nLen e.words)).map (u.lrd j)))) ∧
  (∀ (c : CoreId) slot e j err (s : State), s.startNet c slot.val 0x06 = some (e, j) → s.qpRefuses e.part (nQp e.words) = some err →
    exec (.netStoreRead c slot) s = .next (s.failDescriptor c e err)) ∧
  (∀ (c : CoreId) slot env e j err (s : State), s.startNet c slot.val 0x07 = some (e, j) → s.qpRefuses e.part (nQp e.words) = some err →
    exec (.netStoreWrite c slot env) s = .next (s.failDescriptor c e err))

/-! ### Units, commit and membership -/

/-- UNIT_MAP does nothing but end; UNIT_BEGIN of a unit that is here ends, of one that is not skips its body; a transferred
unit with the step's commit number is placed, and one with another raises SHARD_VERSION and reports it (R345, R346, R358). The
SOURCE of an event that its table does not give is the model's reading (log 79). Says that these complete: unitMap, unitBegin,
unitXfer. -/
def Obligations.UnitsAreFollowed : Prop :=
  (∀ (c : CoreId) (x : CtxId) e (s : State), (s.synEntry c x fun d => decide (hClass d = 5 ∧ nOp d = 8)) = some e →
    exec (.unitMap c x) s = .next (s.synDone c e)) ∧
  (∀ (c : CoreId) (x : CtxId) e (s : State), (s.synEntry c x fun d => decide (hClass d = 5 ∧ nOp d = 9)) = some e →
    (s.cluster e.part).any (fun k => (k.slotOf (nId e.words)).isSome) = true → exec (.unitBegin c x) s = .next (s.synDone c e)) ∧
  (∀ (c : CoreId) (x : CtxId) e (s : State), (s.synEntry c x fun d => decide (hClass d = 5 ∧ nOp d = 9)) = some e →
    (s.cluster e.part).any (fun k => (k.slotOf (nId e.words)).isSome) = false → exec (.unitBegin c x) s =
      .next ((s.updStream c x fun t => { t with index := t.index + nPa e.words }).synDone c e)) ∧
  (∀ (p : PartId) (e : EntryId) (vc : VcId) m j (u : State) (s : State), s.popMsg p e.val vc.val 8 = some (m, u) →
    u.job p = some j → rdLE m 4 4 = j.step.commit →
    exec (.unitXfer p e vc) s = .next ((u.placeUnit p ⟨e.val, vc.val, m, none⟩).rebalanceEnd p)) ∧
  (∀ (p : PartId) (e : EntryId) (vc : VcId) m j (u : State) (s : State), s.popMsg p e.val vc.val 8 = some (m, u) →
    u.job p = some j → rdLE m 4 4 ≠ j.step.commit → exec (.unitXfer p e vc) s =
      .next ((u.raise .mc (some p) 0x7105 [rdLE m 8 4, j.step.commit, rdLE m 4 4, e.val]).reportAbort p 0x7105 (some e.val)))

/-- READY and ABORT_REQ reach the starter (R349-R352): a READY of this attempt joins those held, starts the commit timer
unless a checkpoint is read, and all are weighed; one of another attempt or step, of a decided attempt, of a member heard
already or from outside the roster is dropped; an ABORT_REQ of this attempt ends it, naming the member and the cause, and one
that finds a stale shard of another member removes that member, and one with cause CKPT_MISMATCH, whatever step it names,
raises that event and ends the attempt (the member tells its own committed number so: the model's reading, log 103); when the
commit timer expires the lowest member without READY is named and the attempt ends, but a member named for the third time
running is removed. Turns of a checkpoint, rebalancing and host operations (R357, R358, R360): a request for a checkpoint is
kept once and nothing else moves; reads are noted, and the last turns the commit timer on where READYs are held; a member that
has rebalanced is noted and the starter starts if it may, but one that tells another committed number before the first step
ends the attempt with CKPT_MISMATCH (R362; how it tells it is the model's reading, log 103); a host operation of a member is
taken. The SOURCE of an event that its table does not give is the model's reading (log 79). Says that these complete: ready,
abortReq, commitTimeout, ckptReq, ckptRead, rebalanced, hostOp. -/
def Obligations.StarterWeighsTheStep : Prop :=
  (∀ (p : PartId) (e : EntryId) m j k (u : State) (s : State), s.popMsg p e.val 0 0x21 = some (m, u) → s.job p = some j →
    s.cluster p = some k → k.leads = true → j.cmt.decided = false → rdLE m 16 4 = j.step.commit + 1 →
    rdLE m 20 1 = j.step.attempt → inMask k.roster e.val = true → (∀ r ∈ j.cmt.readies, r.entry ≠ e.val) →
    exec (.ready p e) s = .next ((u.updJob p fun j => { j with cmt := { j.cmt with
      readies := j.cmt.readies ++ [⟨e.val, rdLE m 21 1, rdLE m 22 1, rdLE m 24 4⟩], timer := !j.cmt.ckptWait } }).weighReady p)) ∧
  (∀ (p : PartId) (e : EntryId) m j k (u : State) (s : State), s.popMsg p e.val 0 0x21 = some (m, u) → s.job p = some j →
    s.cluster p = some k → j.ahead (rdLE m 16 4) = false →
    (k.leads = false ∨ j.cmt.decided = true ∨ rdLE m 16 4 ≠ j.step.commit + 1 ∨ rdLE m 20 1 ≠ j.step.attempt ∨
      inMask k.roster e.val = false ∨ ∃ r ∈ j.cmt.readies, r.entry = e.val) → exec (.ready p e) s = .next u) ∧
  (∀ (p : PartId) (e : EntryId) m j k (u : State) (s : State), s.popMsg p e.val 0 0x22 = some (m, u) → s.job p = some j →
    s.cluster p = some k → k.leads = true → j.cmt.decided = false → rdLE m 16 4 = j.step.commit + 1 →
    rdLE m 20 1 = j.step.attempt → rdLE m 22 2 ≠ 0x7105 → rdLE m 22 2 ≠ 0x7107 →
    exec (.abortReq p e) s = .next (u.starterAbort p (rdLE m 22 2) (rdLE m 24 1) 0 k.targets)) ∧
  (∀ (p : PartId) (e : EntryId) m j k (u : State) (s : State), s.popMsg p e.val 0 0x22 = some (m, u) → s.job p = some j →
    s.cluster p = some k → k.leads = true → j.cmt.decided = false → rdLE m 16 4 = j.step.commit + 1 →
    rdLE m 20 1 = j.step.attempt → rdLE m 22 2 = 0x7105 → rdLE m 24 1 ≠ k.self →
    exec (.abortReq p e) s = .next (u.removeMember p (rdLE m 24 1) 0x7105 0x7105)) ∧
  (∀ (p : PartId) (e : EntryId) m j k (u : State) (s : State), s.popMsg p e.val 0 0x22 = some (m, u) → s.job p = some j →
    s.cluster p = some k → k.leads = true → j.cmt.decided = false → rdLE m 22 2 = 0x7107 →
    exec (.abortReq p e) s = .next ((u.raise .mc (some p) 0x7107 [Config.fieldWord 0x7107 1 0, 0]).starterAbort p 0x7107 (rdLE m 24 1) 0
      k.targets)) ∧
  (∀ (p : PartId) j k x (s : State), s.job p = some j → s.cluster p = some k → k.leads = true → j.cmt.timer = true →
    j.cmt.decided = false → ((rosterList k.roster).find? fun e => !j.cmt.readies.any fun r => decide (r.entry = e)) = some x →
    j.cmt.namedLate.take 2 ≠ [x, x] ∨ x = k.self →
    exec (.commitTimeout p) s = .next (((s.raise .mc (some p) 0x7102 [j.step.commit + 1, j.step.attempt, x]).updJob p fun j =>
      { j with cmt := { j.cmt with namedLate := x :: j.cmt.namedLate } }).starterAbort p 0x7102 x 0 k.targets)) ∧
  (∀ (p : PartId) j k x (s : State), s.job p = some j → s.cluster p = some k → k.leads = true → j.cmt.timer = true →
    j.cmt.decided = false → ((rosterList k.roster).find? fun e => !j.cmt.readies.any fun r => decide (r.entry = e)) = some x →
    j.cmt.namedLate.take 2 = [x, x] → x ≠ k.self →
    exec (.commitTimeout p) s = .next (((s.raise .mc (some p) 0x7102 [j.step.commit + 1, j.step.attempt, x]).updJob p fun j =>
      { j with cmt := { j.cmt with namedLate := x :: j.cmt.namedLate } }).removeMember p x 0x7102 0x7102)) ∧
  (∀ (p : PartId) (e : EntryId) m j (u : State) (s : State), s.popMsg p e.val 0 0x25 = some (m, u) → u.job p = some j →
    ∃ t : State, exec (.ckptReq p e) s = .next t ∧
      t.job p = some { j with cmt := { j.cmt with ckptReqs := (t.job p).elim [] fun k => k.cmt.ckptReqs } } ∧
      (∀ x, x ∈ ((t.job p).elim [] fun k => k.cmt.ckptReqs) ↔ x ∈ j.cmt.ckptReqs ∨ x = e.val) ∧
      t.mem = s.mem ∧ t.regs = s.regs ∧ t.cores = s.cores ∧ t.handles = s.handles ∧ t.nvm = s.nvm ∧ t.mc = s.mc ∧ t.ports = s.ports ∧
      t.usb = s.usb ∧ ∀ q, q ≠ p → t.parts[q] = s.parts[q]) ∧
  (∀ (p : PartId) (e : EntryId) m j k (u : State) (s : State), s.popMsg p e.val 0 0x26 = some (m, u) → u.job p = some j →
    u.cluster p = some k → (∃ x ∈ rosterList k.roster, x ∉ j.cmt.ckptReads ∧ x ≠ e.val) →
    exec (.ckptRead p e) s = .next (u.updJob p fun j => { j with cmt := { j.cmt with ckptReads := j.cmt.ckptReads ++ [e.val] } })) ∧
  (∀ (p : PartId) (e : EntryId) m j k (u : State) (s : State), s.popMsg p e.val 0 0x26 = some (m, u) → u.job p = some j →
    u.cluster p = some k → (∀ x ∈ rosterList k.roster, x ∈ j.cmt.ckptReads ∨ x = e.val) →
    exec (.ckptRead p e) s = .next (u.updJob p fun j => { j with cmt := { j.cmt with
      ckptReads := [], ckptWait := false, timer := j.cmt.timer || decide (j.cmt.readies ≠ []) } })) ∧
  (∀ (p : PartId) (e : EntryId) m j k (u : State) (s : State), s.popMsg p e.val 0 0x27 = some (m, u) → s.job p = some j →
    s.cluster p = some k → j.cmt.decided = false → k.leads = true → rdLE m 16 4 = k.epoch →
    j.step.started = true ∨ rdLE m 8 4 = j.step.commit → exec (.rebalanced p e) s = .next ((u.updJob p fun j => { j with cmt := { j.cmt with
      rebalanced := j.cmt.rebalanced ++ [e.val] } }).tryStart p)) ∧
  (∀ (p : PartId) (e : EntryId) m j k (u : State) (s : State), s.popMsg p e.val 0 0x27 = some (m, u) → s.job p = some j →
    s.cluster p = some k → j.cmt.decided = false → k.leads = true → rdLE m 16 4 = k.epoch → j.step.started = false →
    rdLE m 8 4 ≠ j.step.commit → exec (.rebalanced p e) s =
      .next ((u.raise .mc (some p) 0x7107 [Config.fieldWord 0x7107 0 0, 0]).starterAbort p 0x7107 e.val 0 k.targets)) ∧
  (∀ (p : PartId) (e : EntryId) m (u : State) (s : State), s.popMsg p e.val 0 0x28 = some (m, u) →
    exec (.hostOp p e) s = .next (u.hostOp p (rdLE m 16 1)))

/-- START_STEP begins an attempt, and a member of the roster that was paused is one again; COMMIT of the step under way ends
it and ABORT of its next attempt repeats it, and requests held for it are served; to a member that awaits admission COMMIT
applies the roster that is due; any other is counted as a message out of turn at the port where it came (R320, R321,
R348-R353). That a joiner takes its commit number from the COMMIT with the due ROSTER is the model's reading (log 73); after a
START the starter removes a member that no connection reaches (R325), and reads that a decision has made fence what they make
due (R402). Says that these complete: startStep, commit, abort. -/
def Obligations.MembersFollowTheStarter : Prop :=
  (∀ (p : PartId) (e : EntryId) m j k (u : State) (s : State), s.popMsg p e.val 0 0x20 = some (m, u) → u.job p = some j →
    u.cluster p = some k → rdLE m 16 4 = j.step.commit + 1 → j.stop ≠ .cancel → j.stop ≠ .failed → k.roster ≠ 0 →
    exec (.startStep p e) s = .next (((((u.updHandle j.handle fun x => if x.state = .suspended then { x with state := .running } else x).updJob
      p fun j => { j with
        paused := false, stop := .none, step := { j.step with attempt := rdLE m 20 1 }
        cmt := { j.cmt with phase := .running, spoke := false, decided := false, readies := [], timer := false } }).updCluster p fun c =>
      { c with state := if c.state = .paused ∧ inMask c.roster c.self then .member else c.state }).restartWhenClear p).removeUnreached p)) ∧
  (∀ (p : PartId) (e : EntryId) m j k (u : State) (s : State), s.popMsg p e.val 0 0x23 = some (m, u) → u.job p = some j →
    u.cluster p = some k → k.state ≠ .admitting → rdLE m 16 4 = j.step.commit + 1 →
    rdLE m 20 1 = j.step.attempt ∨ rdLE m 20 1 = 0xFF →
    exec (.commit p e) s = .next (((u.applyCommit p (rdLE m 16 4) (rdLE m 21 1)).serveHeldGathers p).afterDecision p).fenceDue) ∧
  (∀ (p : PartId) (e : EntryId) m j k (u : State) (s : State), s.popMsg p e.val 0 0x23 = some (m, u) → u.job p = some j →
    u.cluster p = some k → k.state ≠ .admitting →
    rdLE m 16 4 ≠ j.step.commit + 1 ∨ (rdLE m 20 1 ≠ j.step.attempt ∧ rdLE m 20 1 ≠ 0xFF) →
    exec (.commit p e) s = .next (u.otBad (s.msgPort p e.val 0))) ∧
  (∀ (p : PartId) (e : EntryId) m j k (u : State) (s : State), s.popMsg p e.val 0 0x24 = some (m, u) → u.job p = some j →
    u.cluster p = some k → k.state ≠ .admitting → rdLE m 16 4 = j.step.commit + 1 → rdLE m 20 1 = j.step.attempt + 1 →
    exec (.abort p e) s = .next (((u.applyAbort p (rdLE m 20 1) (rdLE m 21 1) (rdLE m 22 2) (rdLE m 24 1) (rdLE m 4 4)).serveHeldGathers
      p).afterDecision p).fenceDue) ∧
  (∀ (p : PartId) (e : EntryId) m j k (u : State) (s : State), s.popMsg p e.val 0 0x24 = some (m, u) → u.job p = some j →
    u.cluster p = some k → k.state ≠ .admitting → rdLE m 16 4 ≠ j.step.commit + 1 ∨ rdLE m 20 1 ≠ j.step.attempt + 1 →
    exec (.abort p e) s = .next (u.otBad (s.msgPort p e.val 0))) ∧
  (∀ (p : PartId) (e : EntryId) m j k r (u : State) (s : State), s.popMsg p e.val 0 0x23 = some (m, u) → u.job p = some j →
    u.cluster p = some k → k.state = .admitting → k.dueRoster (rdLE m 16 4) = some r → inMask r.mask k.self = true →
    exec (.commit p e) s = .next ((u.updJob p fun j => { j with
      step := { j.step with commit := rdLE m 16 4, attempt := 0 } }).applyRoster p r false))

/-- JOIN (R322-R324): a member that does not lead answers where the starter is; the starter refuses with the reason and its
event, or admits: the entry joins those admitted and is told, and the first step may begin or a paused job be restored.
JOIN_REPLY lets the joiner await admission or ends its job; REDIRECT makes a member that does not run join through the starter
named, but one paused under its own starter stays with it (R326); ROSTER is held, or takes effect at once where a MODEL_LOAD
waits for it (R362), and a first one that begins at another committed number than the member's is reported (log 103). The
SOURCE of an event that its table does not give is the model's reading (log 79). Says that these complete: join, joinReply,
roster, redirect. -/
def Obligations.JoiningActs : Prop :=
  (∀ (p : PartId) (e : EntryId) m k (u : State) (s : State), s.popMsg p e.val 0 0x01 = some (m, u) → u.cluster p = some k →
    k.leads = false → exec (.join p e) s = .next (u.sendCtl p e.val 0x05 (leBytes 4 k.starter ++ leBytes 4 k.epoch))) ∧
  (∀ (p : PartId) (e : EntryId) m k (u : State) (s : State), s.popMsg p e.val 0 0x01 = some (m, u) → u.cluster p = some k →
    k.leads = true → u.joinRefusal k e.val m ≠ 0 → exec (.join p e) s =
      .next ((u.raise .mc (some p) 0x7002 [e.val, u.joinRefusal k e.val m]).sendCtl p e.val 0x02
        (leBytes 4 (u.joinRefusal k e.val m)))) ∧
  (∀ (p : PartId) (e : EntryId) m k (u : State) (s : State), s.popMsg p e.val 0 0x01 = some (m, u) → u.cluster p = some k →
    k.leads = true → u.joinRefusal k e.val m = 0 → exec (.join p e) s =
      .next ((((u.updCluster p fun c => { c with
        admitted := (c.admitted ++ [e.val]).mergeSort (· ≤ ·), serials := mapSet c.serials e.val (rdLE m 16 8)
        numbers := mapSet c.numbers e.val (rdLE m 8 4) }).sendCtl p e.val 0x02 (leBytes 4 0)).beginFirst p).restoreRoster p)) ∧
  (∀ (p : PartId) (e : EntryId) m k (u : State) (s : State), s.popMsg p e.val 0 0x02 = some (m, u) → u.cluster p = some k →
    rdLE m 16 1 = 0 → ∃ t : State, exec (.joinReply p e) s = .next t ∧
      t.cluster p = some { k with state := if k.state = .joining then .admitting else k.state } ∧ t.handles = s.handles ∧
      t.mem = s.mem ∧ t.cores = s.cores ∧ ∀ q, q ≠ p → t.job q = s.job q) ∧
  (∀ (p : PartId) (e : EntryId) m (u : State) (s : State), s.popMsg p e.val 0 0x02 = some (m, u) → rdLE m 16 1 ≠ 0 →
    exec (.joinReply p e) s = .next ((u.updCluster p fun c => { c with state := .left }).endJob p .failed 3 0x7002)) ∧
  (∀ (p : PartId) (e : EntryId) m k (u : State) (s : State), s.popMsg p e.val 0 0x05 = some (m, u) → u.cluster p = some k →
    rdLE m 16 1 ≠ k.self → k.state ≠ .member → k.state ≠ .paused ∨ k.lostStarter = true → exec (.redirect p e) s =
      .next ((u.updCluster p fun c => { c with starter := rdLE m 16 1, epoch := rdLE m 20 4 }).sendJoin p)) ∧
  (∀ (p : PartId) (e : EntryId) m k (u : State) (s : State), s.popMsg p e.val 0 0x05 = some (m, u) → u.cluster p = some k →
    k.state = .paused → k.lostStarter = false → exec (.redirect p e) s = .next u) ∧
  (∀ (p : PartId) (e : EntryId) m k (u : State) (s : State), s.popMsg p e.val 0 0x03 = some (m, u) → u.cluster p = some k →
    k.roster = 0 → u.loadWaits p = true → exec (.roster p e) s = .next (((u.applyRoster p (rosterOf m) true).loadRoster p).removeUnreached p)) ∧
  (∀ (p : PartId) (e : EntryId) m k (u : State) (s : State), s.popMsg p e.val 0 0x03 = some (m, u) → u.cluster p = some k →
    k.roster = 0 → u.loadWaits p = false → (u.updCluster p fun c => { c with heldRosters := c.heldRosters ++ [rosterOf m] }).startsElsewhere
      p (rosterOf m) = true → exec (.roster p e) s =
        .next ((u.updCluster p fun c => { c with heldRosters := c.heldRosters ++ [rosterOf m] }).sendAbortReq p 0x7107 k.self)) ∧
  (∀ (p : PartId) (e : EntryId) m k (u : State) (s : State), s.popMsg p e.val 0 0x03 = some (m, u) → u.cluster p = some k →
    k.roster ≠ 0 → ∃ t : State, exec (.roster p e) s = .next t ∧
      t.cluster p = some { k with heldRosters := k.heldRosters ++ [rosterOf m] } ∧ t.mem = s.mem ∧ t.cores = s.cores ∧
      t.handles = s.handles ∧ ∀ q, q ≠ p → t.job q = s.job q)

/-- Leaving, loss and a silent starter (R325, R327, R355): the starter removes a member that leaves, and the higher entry of
two other members that lost each other; a member agrees that the starter is silent, or keeps the query; a successor that asked
takes over once more than half of the roster agrees; a query for the starter is answered. A takeover names the new starter,
completes the highest committed number on every member not known to hold it, and sends ROSTER without the old starter and
ABORT of the next step under the next epoch; that a member which has not answered gets that COMMIT too is the model's choice
(log 45). The timers of membership (R321-R327): an unanswered JOIN is sent again; at the start timeout a starter with too few
members says so once and goes on awaiting them; a member of the roster that hears nothing, running or paused, calls the
starter silent and the successor asks; no answer, and no starter, pause the job; a member that paused for want of a starter
asks again, and one paused under its starter does not (R326). The SOURCE of an event that its table does not give is the
model's reading (log 79). Says that these complete: leave, leadQuery, leadReply, starterQuery, lost, joinRetry, startTimeout,
starterSilent, leadQueryTimeout, noStarterTimeout, starterQueryRetry. -/
def Obligations.LossAndTakeoverAct : Prop :=
  (∀ (p : PartId) (e : EntryId) m k (u : State) (s : State), s.popMsg p e.val 0 0x04 = some (m, u) → u.cluster p = some k →
    k.leads = true → exec (.leave p e) s =
      .next (u.removeMember p e.val (Config.fieldWord 0x7004 1 (rdLE m 16 1)) 0x7004)) ∧
  (∀ (p : PartId) (e : EntryId) m k (u : State) (s : State), s.popMsg p e.val 0 0x09 = some (m, u) → u.cluster p = some k →
    k.leads = true → inMask k.roster e.val = true → inMask k.roster (rdLE m 20 1) = true → e.val ≠ k.self → rdLE m 20 1 ≠ k.self →
    exec (.lost p e) s = .next (u.removeMember p (Nat.max e.val (rdLE m 20 1)) (Config.fieldWord 0x7004 2 0) 0x7004)) ∧
  (∀ (p : PartId) (e : EntryId) m k (u : State) (s : State), s.popMsg p e.val 0 0x06 = some (m, u) → u.cluster p = some k →
    exec (.leadQuery p e) s = .next (if k.silent then u.sendCtl p e.val 0x07 (leBytes 4 0)
      else u.updCluster p fun c => { c with queryPending := true })) ∧
  (∀ (p : PartId) (e : EntryId) m k (u v : State) (s : State), s.popMsg p e.val 0 0x07 = some (m, u) → u.cluster p = some k →
    k.queried = true → rdLE m 16 1 = 0 → v = (u.updCluster p fun c => { c with agrees := mapSet c.agrees e.val (rdLE m 8 4) }) →
    ∃ n, n = (mapSet k.agrees e.val (rdLE m 8 4)).length ∧ exec (.leadReply p e) s =
      .next (if (rosterList k.roster).length < 2 * (n + 1) then v.takeover p else v)) ∧
  (∀ (p : PartId) (e : EntryId) m k (u : State) (s : State), s.popMsg p e.val 0 0x08 = some (m, u) → u.cluster p = some k →
    k.starter ≠ e.val → ¬ (k.state = .paused ∧ k.leads = false) → exec (.starterQuery p e) s =
      .next (u.sendCtl p e.val 0x05 (leBytes 4 k.starter ++ leBytes 4 k.epoch))) ∧
  (∀ (p : PartId) j k cmax m epoch (v w : State) (s : State), s.job p = some j → s.cluster p = some k →
    cmax = (k.agrees.map Prod.snd).foldl Nat.max j.step.commit → m = delEntry k.roster k.starter → epoch = (k.epoch + 1) % 2 ^ 32 →
    k.cl.shrink = true → k.cl.minMembers ≤ (rosterList m).length → (if j.step.commit = cmax then j.step.attempt + 1 else 1) < 254 →
    v = (((s.raise .mc (some p) 0x7005 [k.starter, k.self, epoch]).updCluster p fun c =>
        { c with starter := c.self, takeovers := c.takeovers + 1, queried := false, agrees := [], silent := false }).sendAll p
      ((rosterList m).filter fun e => if e = k.self then decide (j.step.commit + 1 = cmax) else decide (mapGet k.agrees e ≠ some cmax))
      k.epoch 0x23 (leBytes 4 cmax ++ leBytes 1 0xFF ++ leBytes 1 0 ++ leBytes 2 0)) →
    w = (v.raise .mc (some p) 0x7004 [k.starter, 0x7005, epoch]).sendAll p (rosterList m) k.epoch 0x03
      (RosterMsg.mk epoch cmax k.self (successorIn m k.self k.starter) m).body →
    s.takeover p = (w.updJob p fun j => { j with cmt := { j.cmt with decided := true, readies := [], timer := false } }).sendAll p
      (rosterList m) epoch 0x24 (leBytes 4 (cmax + 1) ++ leBytes 1 (if j.step.commit = cmax then j.step.attempt + 1 else 1) ++
        leBytes 1 0 ++ leBytes 2 0x7005 ++ leBytes 1 k.starter)) ∧
  (∀ (p : PartId) j k (s : State), s.job p = some j → s.cluster p = some k → ∃ k', (s.takeover p).cluster p = some k' ∧
    k'.starter = k.self ∧ k'.takeovers = k.takeovers + 1 ∧ k'.queried = false ∧ k'.agrees = [] ∧ k'.roster = k.roster ∧
    k'.epoch = k.epoch ∧ ∃ j', (s.takeover p).job p = some j' ∧ j'.cmt.decided = true ∧ j'.cmt.readies = [] ∧ j'.step = j.step ∧
    j'.num = j.num ∧ ∀ a, s.inRings a = false → (s.takeover p).rd a = s.rd a) ∧
  (∀ (p : PartId) k (s : State), s.cluster p = some k → k.state = .joining → exec (.joinRetry p) s = .next (s.sendJoin p)) ∧
  (∀ (p : PartId) k (s : State), s.cluster p = some k → k.begun = false → k.leads = true → k.cl.minMembers ≤ k.admitted.length + 1 →
    exec (.startTimeout p) s = .next ((s.updCluster p fun c => { c with awaitMin := true }).beginFirst p)) ∧
  (∀ (p : PartId) k (s : State), s.cluster p = some k → k.begun = false → k.leads = true → k.admitted.length + 1 < k.cl.minMembers →
    k.belowRaised = false → exec (.startTimeout p) s =
      .next ((((s.raise .mc (some p) 0x7007 [k.admitted.length + 1, k.cl.minMembers]).updCluster p fun c =>
        { c with belowRaised := true }).updCluster p fun c => { c with awaitMin := true }).beginFirst p)) ∧
  (∀ (p : PartId) k (s : State), s.cluster p = some k → k.leads = false → inMask k.roster k.self = true → k.state = .member ∨ k.state = .paused →
    k.lostStarter = false → k.successor = k.self →
    exec (.starterSilent p) s = .next (((rosterList k.roster).filter fun e => decide (e ≠ k.self ∧ e ≠ k.starter)).foldl
      (fun s e => s.sendCtl p e 0x06 []) ((s.updCluster p fun c => { c with silent := true }).updCluster p fun c =>
        { c with queried := true, agrees := [] }))) ∧
  (∀ (p : PartId) k (s : State), s.cluster p = some k → k.leads = false → inMask k.roster k.self = true → k.state = .member ∨ k.state = .paused →
    k.lostStarter = false → k.successor ≠ k.self →
    k.queryPending = true → exec (.starterSilent p) s =
      .next (((s.updCluster p fun c => { c with silent := true }).updCluster p fun c => { c with queryPending := false }).sendCtl p
        k.successor 0x07 (leBytes 4 0))) ∧
  (∀ (p : PartId) k (s : State), s.cluster p = some k → k.queried = true → exec (.leadQueryTimeout p) s =
    .next ((s.updCluster p fun c => { c with queried := false, agrees := [] }).noStarter p)) ∧
  (∀ (p : PartId) k (s : State), s.cluster p = some k → k.leads = false → inMask k.roster k.self = true → k.state = .member ∨ k.state = .paused →
    k.lostStarter = false → k.queried = false → exec (.noStarterTimeout p) s = .next (s.noStarter p)) ∧
  (∀ (p : PartId) k (s : State), s.cluster p = some k → k.state = .paused → k.lostStarter = true → exec (.starterQueryRetry p) s =
    .next (([k.cl.starter, k.cl.successor].eraseDups.filter (· ≠ k.self)).foldl (fun s e => s.sendCtl p e 0x08 []) s)) ∧
  (∀ (p : PartId) k (s : State), s.cluster p = some k → k.lostStarter = false → exec (.starterQueryRetry p) s = .next s)

/-! ### The transport -/

/-- Frames of a connection (R312-R316, R319): KEEPALIVE and CLOSE show that it lives (that a CLOSE does nothing else is log
68); OPEN of the connection is answered, and with the answer or its reply the connection comes up, while one with any other
end or another key is ignored; an OPEN on a connection that is up and has carried frames opens it anew (when a connection is
up, and this, are the model's reading, log 43); a frame of an older epoch is counted, one of a newer epoch is counted and
dropped; DATA in the window is taken, without delivery where it is of an older epoch, and one outside the window or held
already is only acknowledged. ACK without ECN marks and without gaps, no rate cut under way (R314-R317): the frames up to its
cumulative number leave the window, the credit only grows, the rate stays, and what waited is sent. The rate recovers in steps
of one hundredth, of one twentieth after five, up to the whole. Says that these complete: otOpen, otData, otAck, otKeepalive,
rateIncrease, otClose. -/
def Obligations.TransportFramesAct : Prop :=
  (∀ (o : PortId) h f (u : State) (s : State), s.takeOt o 4 = (u, some (h, f)) → exec (.otKeepalive o) s = .next (u.otArrived h f.ce)) ∧
  (∀ (o : PortId) h f (u : State) (s : State), s.takeOt o 5 = (u, some (h, f)) → exec (.otClose o) s = .next (u.otArrived h f.ce)) ∧
  (∀ (o : PortId) h f (k : Cluster) (u v : State) (s : State) mine e far, s.takeOt o 1 = (u, some (h, f)) → u.cluster h.part = some k →
    k.ends h.conn = some (mine, e, far) → rdLE h.payload 0 8 = k.cl.key → nbits (rdLE h.payload 8 4) 29 24 = e →
    nbits (rdLE h.payload 8 4) 18 16 = far → nbits (rdLE h.payload 8 4) 13 8 = k.self → nbits (rdLE h.payload 8 4) 2 0 = mine →
    (rdLE h.payload 8 4).testBit 31 = true →
    v = ((u.otHeard h f.ce).updCluster h.part fun c => c.updConn h.conn fun r => { r with gotOpen := true, gotReply := true }) →
    exec (.otOpen o) s = .next (if (k.run h.conn).up then v else v.connUp h.part h.conn)) ∧
  (∀ (o : PortId) h f (k : Cluster) (u v : State) (s : State) mine e far, s.takeOt o 1 = (u, some (h, f)) → u.cluster h.part = some k →
    k.ends h.conn = some (mine, e, far) → rdLE h.payload 0 8 = k.cl.key → nbits (rdLE h.payload 8 4) 29 24 = e →
    nbits (rdLE h.payload 8 4) 18 16 = far → nbits (rdLE h.payload 8 4) 13 8 = k.self → nbits (rdLE h.payload 8 4) 2 0 = mine →
    (rdLE h.payload 8 4).testBit 31 = false → (k.run h.conn).up = false ∨ (k.run h.conn).moved = false →
    v = ((u.otHeard h f.ce).updCluster h.part fun c => c.updConn h.conn fun r => { r with gotOpen := true }).sendOpen h.part k h.conn true →
    exec (.otOpen o) s = .next (if (k.run h.conn).gotReply ∧ !(k.run h.conn).up then v.connUp h.part h.conn else v)) ∧
  (∀ (o : PortId) h f (k : Cluster) (u q : State) (s : State) mine e far, s.takeOt o 1 = (u, some (h, f)) → u.cluster h.part = some k →
    k.ends h.conn = some (mine, e, far) → rdLE h.payload 0 8 = k.cl.key → nbits (rdLE h.payload 8 4) 29 24 = e →
    nbits (rdLE h.payload 8 4) 18 16 = far → nbits (rdLE h.payload 8 4) 13 8 = k.self → nbits (rdLE h.payload 8 4) 2 0 = mine →
    (rdLE h.payload 8 4).testBit 31 = false → (k.run h.conn).up = true → (k.run h.conn).moved = true → q = u.otHeard h f.ce →
    exec (.otOpen o) s = .next (((((q.connReset h.part h.conn).updCluster h.part fun c => c.updConn h.conn fun r =>
      { r with gotOpen := true }).sendOpen h.part k h.conn true).sendOpen h.part k h.conn false).failConnUsers h.conn
        (q.connUsers h.part h.conn))) ∧
  (∀ (o : PortId) h f (k : Cluster) (u : State) (s : State), s.takeOt o 1 = (u, some (h, f)) → u.cluster h.part = some k →
    rdLE h.payload 0 8 ≠ k.cl.key ∨ k.ends h.conn = none → exec (.otOpen o) s = .next u) ∧
  (∀ (o : PortId) h f (k : Cluster) (u : State) (s : State) mine e far, s.takeOt o 1 = (u, some (h, f)) → u.cluster h.part = some k →
    k.ends h.conn = some (mine, e, far) → nbits (rdLE h.payload 8 4) 29 24 ≠ e ∨ nbits (rdLE h.payload 8 4) 18 16 ≠ far ∨
      nbits (rdLE h.payload 8 4) 13 8 ≠ k.self ∨ nbits (rdLE h.payload 8 4) 2 0 ≠ mine → exec (.otOpen o) s = .next u) ∧
  (∀ (o : PortId) h f (k : Cluster) (u v : State) (s : State), s.takeOt o 2 = (u, some (h, f)) → v = u.otArrived h f.ce →
    v.cluster h.part = some k → (k.run h.conn).up = true →
    (h.psn + 2 ^ 32 - ((k.run h.conn).vc h.vc).rxCum) % 2 ^ 32 < k.cl.credits h.vc →
    (∀ g ∈ ((k.run h.conn).vc h.vc).rxHeld, g.psn ≠ h.psn) →
    (h.vc < 4 ∨ h.epoch = k.epoch → exec (.otData o) s = .next (v.receiveData h.part o h.conn h.vc
      { psn := h.psn, first := h.first, last := h.last, msg := h.msg, offset := h.offset, epoch := h.epoch, payload := h.payload })) ∧
    (4 ≤ h.vc → h.epoch ≠ k.epoch → leMod h.epoch k.epoch = true → exec (.otData o) s =
      .next ((v.otCount o 7 1).receiveData h.part o h.conn h.vc
        { psn := h.psn, first := h.first, last := h.last, msg := h.msg, offset := h.offset, epoch := h.epoch
          payload := h.payload, dropped := true })) ∧
    (4 ≤ h.vc → h.epoch ≠ k.epoch → leMod h.epoch k.epoch = false → exec (.otData o) s = .next (v.otCount o 8 1))) ∧
  (∀ (o : PortId) h f (k : Cluster) (u v : State) (s : State), s.takeOt o 2 = (u, some (h, f)) → v = u.otArrived h f.ce →
    v.cluster h.part = some k → (k.run h.conn).up = true →
    (k.cl.credits h.vc ≤ (h.psn + 2 ^ 32 - ((k.run h.conn).vc h.vc).rxCum) % 2 ^ 32 ∨
      ∃ g ∈ ((k.run h.conn).vc h.vc).rxHeld, g.psn = h.psn) →
    (h.vc < 4 ∨ h.epoch = k.epoch → exec (.otData o) s = .next (v.sendAck h.part h.conn h.vc)) ∧
    (4 ≤ h.vc → h.epoch ≠ k.epoch → leMod h.epoch k.epoch = true →
      exec (.otData o) s = .next ((v.otCount o 7 1).sendAck h.part h.conn h.vc)) ∧
    (4 ≤ h.vc → h.epoch ≠ k.epoch → leMod h.epoch k.epoch = false → exec (.otData o) s = .next (v.otCount o 8 1))) ∧
  (∀ (o : PortId) h f (k : Cluster) (u v : State) (s : State), s.takeOt o 3 = (u, some (h, f)) → v = u.otArrived h f.ce →
    v.cluster h.part = some k → (k.run h.conn).up = false → exec (.otAck o) s = .next v) ∧
  (∀ (o : PortId) h f (k : Cluster) (u q : State) (s : State), s.takeOt o 3 = (u, some (h, f)) → q = u.otArrived h f.ce →
    q.cluster h.part = some k → (k.run h.conn).up = true → rdLE h.payload 0x12 2 = 0 → (k.run h.conn).cutMark = [] →
    let v := (k.run h.conn).vc h.vc
    let cum := rdLE h.payload 0 4
    let left := v.inflight.filter fun f => leMod cum f.psn
    ({ v with inflight := left } : VcRun).sackMissing cum (rdLE h.payload 8 8) = [] →
    exec (.otAck o) s = .next ((q.updCluster h.part fun c => c.updConn h.conn fun r =>
      { r.updVc h.vc (fun v => { v with
          inflight := left, txCum := if left.length < v.inflight.length then cum else v.txCum
          txCredit := if leMod v.txCredit (rdLE h.payload 4 4) then rdLE h.payload 4 4 else v.txCredit
          sackRetx := v.sackRetx.filter fun x => leMod cum x.1 }) with
        idleTimeouts := if left.length < v.inflight.length then 0 else r.idleTimeouts
        cutMark := [] }).pump h.part h.conn h.vc)) ∧
  (∀ (p : PartId) i (s : State), exec (.rateIncrease p i) s = .next (s.updCluster p fun c => c.updConn i fun r =>
    { r with rate := min 1 (r.rate + if 5 ≤ r.rises then 1 / 20 else 1 / 100), rises := r.rises + 1 }))

/-- The timers of a connection (R312, R313, R315, R316, R334, R338): OPEN is sent again until one has been received, a
keepalive while it is up, an ACK for what was received; the oldest unacknowledged frame is sent again and counted, and the
sixteenth time running takes the connection down; a connection that fails stands down, what is in flight on it is discarded,
it is counted, raises OT_CONN_DOWN, is opened anew, and fails the descriptors that use it. The SOURCE of an event that its
table does not give is the model's reading (log 79). Says that these complete: otOpenRetry, keepaliveTimer, otAckTimer,
retxTimeout, otConnDown. -/
def Obligations.TransportTimersAct : Prop :=
  (∀ (p : PartId) i (k : Cluster) (s : State), s.cluster p = some k → (k.ends i).isSome = true → (k.run i).gotOpen = false →
    exec (.otOpenRetry p i) s = .next (s.sendOpen p k i false)) ∧
  (∀ (p : PartId) i (k : Cluster) (s : State), s.cluster p = some k → (k.run i).gotOpen = true → exec (.otOpenRetry p i) s = .next s) ∧
  (∀ (p : PartId) i (k : Cluster) (s : State), s.cluster p = some k → (k.run i).up = true → exec (.keepaliveTimer p i) s =
    .next (s.otSend p k i 0 (otHeader 4 0 0 i k.cl.tag k.epoch 0 0 0 8 ++ leBytes 8 0))) ∧
  (∀ (p : PartId) i (vc : VcId) (k : Cluster) (s : State), s.cluster p = some k → (k.run i).up = true →
    0 < ((k.run i).vc vc.val).sinceAck → exec (.otAckTimer p i vc) s = .next (s.sendAck p i vc.val)) ∧
  (∀ (p : PartId) i (vc : VcId) (k : Cluster) f r (s : State), s.cluster p = some k →
    ((k.run i).vc vc.val).inflight = f :: r → (k.run i).idleTimeouts + 1 < 16 → exec (.retxTimeout p i vc) s =
      .next ((((k.path i).elim s fun x => s.otCount x.1 3 1).resend p i vc.val f).updCluster p fun c => c.updConn i fun r =>
        { r.updVc vc.val (fun v => { v with inflight := modifyAt (fun f => { f with timeouts := f.timeouts + 1 }) 0 v.inflight })
          with idleTimeouts := r.idleTimeouts + 1 })) ∧
  (∀ (p : PartId) i (vc : VcId) (k : Cluster) f r (s : State), s.cluster p = some k →
    ((k.run i).vc vc.val).inflight = f :: r → 16 ≤ (k.run i).idleTimeouts + 1 → exec (.retxTimeout p i vc) s =
      .next (((k.path i).elim s fun x => s.otCount x.1 3 1).connDown p i (Config.fieldWord 0x6102 1 0))) ∧
  (∀ (p : PartId) i cause (s : State), exec (.otConnDown p i cause) s = .next (s.connDown p i cause)) ∧
  (∀ (p : PartId) i cause (k : Cluster) (s : State), s.cluster p = some k → (k.run i).up = false → s.connDown p i cause = s) ∧
  (∀ (p : PartId) i cause j x (k : Cluster) (s : State), s.job p = some j → s.cluster p = some k → (k.run i).up = true →
    k.leads = true → k.begun = false → k.path i = some x → s.connDown p i cause =
      ((((s.connReset p i).otCount x.1 11 1).raise (.port x.1.val) (some p) 0x6102 [x.1.val, x.2.1.val, k.cl.tag, i, cause]).sendOpen
        p k i false).failConnUsers i (s.connUsers p i)) ∧
  (∀ (p : PartId) i (k : Cluster) (s : State), s.cluster p = some k → s.connReset p i =
    (s.updCluster p fun c => c.updConn i fun r => { r with up := false, gotOpen := false, gotReply := false
                                                           vcs := List.replicate 16 {}, idleTimeouts := 0, cutMark := [] }).dropFlight p k i) ∧
  (∀ (p : PartId) i (k : Cluster) c e (s : State), s.cluster p = some k → ((c, e) ∈ s.connUsers p i ↔ (c, e) ∈ s.issuedOf p ∧
    e.queue = .net ∧ (e.phase = .running ∨ (e.phase = .queued ∧ nOp e.words = 0x04)) ∧ k.netUses (k.far i) i e = true)) ∧
  (∀ i l (s : State), s.failConnUsers i l = l.foldl (fun s x => s.failDescriptor x.1 x.2 ⟨0x710B, [x.2.lcore, i]⟩) s)

/-! ### The host link -/

/-- The requests, with their codes and forms. -/
def requestTable : List (Nat × ReqForm × (Setup → Instr)) :=
  [(0x01, { dev := true, dirIn := true, len := fun n => decide (n % 4 = 0 ∧ 4 ≤ n ∧ n ≤ 1024), inRecovery := true }, .regRead),
   (0x02, { dev := true, dirIn := false, len := fun n => decide (n = 4), inRecovery := true }, .regWrite),
   (0x03, { dev := true, lo := 0, hi := 5, dirIn := true, len := fun n => decide (n = 8), value0 := true, index0 := true, inRecovery := true }, .getLastError),
   (0x10, jobForm false 16, .setWindow), (0x11, jobForm false 8, .doorbell), (0x12, jobForm true 32, .getIfStatus),
   (0x13, { dev := false, lo := 1, hi := 5, dirIn := false, len := fun n => decide (n = 0) }, .funcReset),
   (0x20, handleForm true 16 true, .opStatus), (0x21, handleForm false 0 false, .opSuspend),
   (0x22, handleForm false 0 false, .opResume), (0x23, handleForm false 0 true, .opCancel),
   (0x24, handleForm false 0 true, .opRelease), (0x25, handleForm true 256 true, .opList),
   (0x30, formOpStart 0x10, .mgmtProof), (0x30, formOpStart 0x11, .kneadSweep), (0x30, formOpStart 0x12, .fwStage),
   (0x30, formOpStart 0x13, .nvmWrite)]

/-- A vendor request of code `b` arrives: the device is linked, the request's form is `q`, and its interface is not being reset. -/
def Arrives (s : State) (b : Nat) (q : ReqForm) (r : Setup) : Prop :=
  s.linked = true ∧ r.vendor = true ∧ r.bRequest = b ∧ q.ok s.mc.recovery r = true ∧ s.busy (reqIface r) = false

/-- Every request is checked against its row (R234, R238, R239, R264): without a link nothing happens; a standard request is
answered by its descriptor, and never by the row; another code or a wrong form stalls with REQUEST and an interface that is
being reset with RESET_BUSY, and the failure record of the recipient says so; memory, registers, cores, handles, controller,
ports, flash, counters, staging buffer and jobs stay. -/
def Obligations.RequestsAreChecked : Prop :=
  ∀ x ∈ requestTable, ∀ (r : Setup) (s : State),
    (s.linked = false → exec (x.2.2 r) s = .next s) ∧
    (s.linked = true → r.vendor = false → exec (x.2.2 r) s = .next (s.standardRequest r)) ∧
    (s.linked = true → r.vendor = true → r.bRequest ≠ x.1 → exec (x.2.2 r) s =
      .next (s.reqFail (if r.recip = .iface then r.wIndex % 256 else 0) r.bRequest stRequest 0)) ∧
    (s.linked = true → r.vendor = true → r.bRequest = x.1 → x.2.1.ok s.mc.recovery r = false → ∃ t : State, exec (x.2.2 r) s = .next t ∧ t.usb.stalled = true ∧ t.usb.data = [] ∧
      t.errorOf (if r.recip = .iface then r.wIndex % 256 else 0) = leBytes 2 x.1 ++ leBytes 2 stRequest ++ leBytes 4 0 ∧
      t.mem = s.mem ∧ t.regs = s.regs ∧ t.cores = s.cores ∧ t.handles = s.handles ∧ t.mc = s.mc ∧ t.ports = s.ports ∧
      t.nvm = s.nvm ∧ t.counters = s.counters ∧ t.staging = s.staging ∧ ∀ p, t.job p = s.job p) ∧
    (s.linked = true → r.vendor = true → r.bRequest = x.1 → x.2.1.ok s.mc.recovery r = true → s.busy (reqIface r) = true → ∃ t : State, exec (x.2.2 r) s = .next t ∧
      t.usb.stalled = true ∧ t.usb.data = [] ∧
      t.errorOf (reqIface r) = leBytes 2 x.1 ++ leBytes 2 stResetBusy ++ leBytes 4 0 ∧
      t.mem = s.mem ∧ t.regs = s.regs ∧ t.cores = s.cores ∧ t.handles = s.handles ∧ t.mc = s.mc ∧ t.ports = s.ports ∧
      t.nvm = s.nvm ∧ t.counters = s.counters ∧ t.staging = s.staging ∧ ∀ p, t.job p = s.job p)

/-- REG_READ, REG_WRITE and GET_LAST_ERROR (R239, R373): outside recovery a read of whole registers inside the space answers
them in ascending order, each read with its side effects before the next; a write gives one register its value, or is LOCKED;
in recovery no register but MC_RESET_CTL is written; a failure record is answered and stays. Says that these complete:
regRead, regWrite, getLastError. -/
def Obligations.RegisterRequestsAct : Prop :=
  (∀ r (s : State), Arrives s 0x01 { dev := true, dirIn := true, len := fun n => decide (n % 4 = 0 ∧ 4 ≤ n ∧ n ≤ 1024), inRecovery := true } r →
    r.wValue % 4 = 0 → r.wIndex * 65536 + r.wValue + r.wLength ≤ regSpan → s.mc.recovery = false →
    exec (.regRead r) s = .next ((s.readRegs (r.wLength / 4) (r.wIndex * 65536 + r.wValue)).2.reqOk
      (ofWords (s.readRegs (r.wLength / 4) (r.wIndex * 65536 + r.wValue)).1))) ∧
  (∀ n o (s : State), (s.readRegs (n + 1) o).1 = (s.regRead o).1 :: ((s.regRead o).2.readRegs n (o + 4)).1 ∧
    (s.readRegs (n + 1) o).2 = ((s.regRead o).2.readRegs n (o + 4)).2 ∧ s.readRegs 0 o = ([], s)) ∧
  (∀ r (s : State), Arrives s 0x02 { dev := true, dirIn := false, len := fun n => decide (n = 4), inRecovery := true } r →
    r.wValue % 4 = 0 → r.wIndex * 65536 + r.wValue < regSpan → s.mc.recovery = false →
    exec (.regWrite r) s = .next (let u := (s.reqOk []).regWrite (r.wIndex * 65536 + r.wValue) (BitVec.ofNat 32 (leNat (r.data.take 4)))
      if u.2 then u.1.reqFail (reqIface r) 0x02 stLocked 0 else u.1)) ∧
  (∀ r (s : State), Arrives s 0x02 { dev := true, dirIn := false, len := fun n => decide (n = 4), inRecovery := true } r →
    s.mc.recovery = true → r.wValue % 4 = 0 → r.wIndex * 65536 + r.wValue < regSpan → r.wIndex * 65536 + r.wValue ≠ mcResetCtl →
    exec (.regWrite r) s = .next (s.reqFail (reqIface r) 0x02 stRequest 0)) ∧
  (∀ r (s : State), Arrives s 0x03 { dev := true, lo := 0, hi := 5, dirIn := true, len := fun n => decide (n = 8), value0 := true, index0 := true, inRecovery := true } r → exec (.getLastError r) s =
    .next { s with usb := { s.usb with stalled := false, data := s.errorOf (reqIface r) } })

/-- SET_WINDOW, DOORBELL, GET_IF_STATUS and FUNC_RESET (R241, R250-R252, R264): a 1 MiB aligned window base clear of the
register region, and a tail that the command ring has room for, join the held requests; where none is held and the request's
number has landed it is applied at once; GET_IF_STATUS answers the interface's eight registers; FUNC_RESET of a job interface
without flags gives up frame, held requests and responses, empties the rings and stays busy; FUNC_RESET_DONE without CLEAR,
once every cancelled handle is DONE, releases them and ends the reset with its event; DIAG's reset ends with its event. The
SOURCE of an event that its table does not give is the model's reading (log 79). Says that these complete: setWindow,
doorbell, getIfStatus, funcReset, funcResetDone. -/
def Obligations.InterfaceRequestsAct : Prop :=
  (∀ r (s : State), Arrives s 0x10 (jobForm false 16) r → rdLE r.data 12 4 = 0 → rdLE r.data 0 6 % 0x100000 = 0 →
    (rdLE r.data 0 6 + 0x4000000 ≤ regRegion ∨ regRegion + regSpan ≤ rdLE r.data 0 6) →
    exec (.setWindow r) s = .next (s.hold (Fin.ofNat 4 (reqIface r - 1)) 0x10
      (.window (rdLE r.data 0 6) (rdLE r.data 6 2) (rdLE r.data 8 4)))) ∧
  (∀ r (s : State), Arrives s 0x11 (jobForm false 8) r → rdLE r.data 0 2 < 4096 → rdLE r.data 2 2 = 0 →
    (let h := s.parts[(Fin.ofNat 4 (reqIface r - 1) : PartId)].iface.hdr;
      (rdLE r.data 0 2 + 4096 - h.cmdTail) % 4096 + (h.cmdTail + 4096 - h.cmdHead) % 4096 ≤ 4095) →
    exec (.doorbell r) s = .next (s.hold (Fin.ofNat 4 (reqIface r - 1)) 0x11 (.doorbell (rdLE r.data 0 2) (rdLE r.data 4 4)))) ∧
  (∀ (p : PartId) b q (s : State), s.parts[p].iface.held = [] → s.parts[p].iface.heldFrame = none →
    s.parts[p].iface.hasLanded q.e = true → s.hold p b q = ((s.reqOk []).updIface p fun i => { i with held := [] }).applyHeld p q) ∧
  (∀ r (s : State), Arrives s 0x12 (jobForm true 32) r → exec (.getIfStatus r) s =
    .next (s.reqOk (ofWords ((List.range 8).map fun k => s.regView (usbJobWinLo (reqIface r - 1) + 4 * k))))) ∧
  (∀ (p : PartId) r (s : State), Arrives s 0x13 { dev := false, lo := 1, hi := 5, dirIn := false, len := fun n => decide (n = 0) } r →
    reqIface r = 1 + p.val → r.wValue = 0 → ∃ t : State, exec (.funcReset r) s = .next t ∧
      t.parts[p].iface.resetBusy = true ∧ t.parts[p].iface.heldFrame = none ∧ t.parts[p].iface.held = [] ∧
      t.parts[p].iface.responses = [] ∧ t.parts[p].iface.base = s.hctx p ∧ t.parts[p].iface.gen = 0 ∧ t.parts[p].iface.landed = 0 ∧
      t.parts[p].iface.fault = false ∧ t.parts[p].iface.phase = true ∧ t.parts[p].iface.hdr.cmdHead = 0 ∧
      t.parts[p].iface.hdr.cmdTail = 0 ∧ t.parts[p].iface.hdr.cplTail = 0 ∧ t.parts[p].iface.hdr.evtTail = 0 ∧
      t.handles = s.handles ∧ t.regs = s.regs ∧ (∀ q, t.job q = s.job q) ∧ (∀ q, q ≠ p → t.parts[q] = s.parts[q]) ∧
      ∀ a, a < s.hctx p ∨ s.hctx p + 64 ≤ a → t.rd a = s.rd a) ∧
  (∀ (i : Fin 5) (p : PartId) (s : State), i.val = p.val → s.parts[p].iface.resetBusy = true →
    (∀ h ∈ s.parts[p].iface.resetHandles, ∀ x, s.handleOf h = some x → x.state = .done) →
    s.parts[p].iface.resetFlags.testBit 1 = false → exec (.funcResetDone i) s =
      .next ((({ s with handles := s.handles.filter fun x => !s.parts[p].iface.resetHandles.contains x.num } : State).updIface p
        fun i => { i with resetBusy := false, resetHandles := [] }).raise .usb (some p) 0x2007
        [1 + p.val, s.parts[p].iface.resetFlags])) ∧
  (∀ (i : Fin 5) (s : State), i.val = 4 → s.diag.resetBusy = true → exec (.funcResetDone i) s =
    .next (({ s with diag := { s.diag with resetBusy := false } } : State).raise .usb none 0x2007 [5, s.diag.resetFlags]))

/-- Requests on a handle (R267-R269, R271): a number that is no live handle of the interface is UNKNOWN; OP_STATUS answers the
handle's bytes; OP_SUSPEND of a running operation that may suspend, not a job, marks it; OP_RESUME of a suspended one, not a
job, runs it again; OP_CANCEL of a running one that may still be cancelled cancels it; OP_RELEASE frees a DONE handle and no
other; OP_LIST lists the interface's handles from a number on; a marked operation suspends at its suspend point. Says that
these complete: opStatus, opSuspend, opResume, opCancel, opRelease, opList, opSuspendPoint. -/
def Obligations.HandleRequestsAct : Prop :=
  (∀ x ∈ ([(0x20, handleForm true 16 true, .opStatus), (0x21, handleForm false 0 false, .opSuspend),
      (0x22, handleForm false 0 false, .opResume), (0x23, handleForm false 0 true, .opCancel),
      (0x24, handleForm false 0 true, .opRelease)] : List (Nat × ReqForm × (Setup → Instr))), ∀ r (s : State), Arrives s x.1 x.2.1 r →
    s.ownHandle (reqIface r) r.wValue = none → exec (x.2.2 r) s = .next (s.reqFail (reqIface r) x.1 stUnknown 0)) ∧
  (∀ r h (s : State), Arrives s 0x20 (handleForm true 16 true) r → s.ownHandle (reqIface r) r.wValue = some h →
    exec (.opStatus r) s = .next (s.reqOk h.statusBytes)) ∧
  (∀ r h (s : State), Arrives s 0x21 (handleForm false 0 false) r → s.ownHandle (reqIface r) r.wValue = some h → h.state = .running →
    h.suspendPending = false → s.canSuspend h = true → h.kind ≠ 1 → exec (.opSuspend r) s =
      .next ((s.updHandle h.num fun x => { x with suspendPending := true }).reqOk [])) ∧
  (∀ r h (s : State), Arrives s 0x22 (handleForm false 0 false) r → s.ownHandle (reqIface r) r.wValue = some h → h.state = .suspended →
    h.kind ≠ 1 → exec (.opResume r) s = .next ((((s.updHandle h.num fun x => { x with suspendPending := false }).updHandle h.num
      fun x => { x with state := .running }).workOn h).reqOk [])) ∧
  (∀ r h (s : State), Arrives s 0x23 (handleForm false 0 true) r → s.ownHandle (reqIface r) r.wValue = some h → h.state = .running →
    h.pastReturn = false → exec (.opCancel r) s = .next ((s.cancelOp h).reqOk [])) ∧
  (∀ r h (s : State), Arrives s 0x24 (handleForm false 0 true) r → s.ownHandle (reqIface r) r.wValue = some h → h.state = .done →
    exec (.opRelease r) s = .next { s with
      handles := s.handles.filter fun y => decide (y.num ≠ h.num), usb := { s.usb with stalled := false, data := [] } }) ∧
  (∀ r h (s : State), Arrives s 0x24 (handleForm false 0 true) r → s.ownHandle (reqIface r) r.wValue = some h → h.state ≠ .done →
    exec (.opRelease r) s = .next (s.reqFail (reqIface r) 0x24 stRequest 0)) ∧
  (∀ r (s : State), Arrives s 0x25 (handleForm true 256 true) r → exec (.opList r) s = .next (s.reqOk (slice
    ((listFrom (if reqIface r = 0 then s.handles else s.handles.filter fun x => decide (x.owner = reqIface r)) 64 r.wValue).flatMap
      fun x => leBytes 2 x.num ++ leBytes 1 x.kind ++ leBytes 1 x.state.code) 0 256))) ∧
  (∀ h x (s : State), s.handleOf h = some x → x.suspendPending = true → x.state = .running → s.atSuspendPoint x = true →
    exec (.opSuspendPoint h) s = .next (s.updHandle h fun x => { x with state := .suspended, suspendPending := false }))

/-- FW_STAGE and NVM_WRITE begin under a new handle (R270, R386, R387, R391): FW_STAGE consumes armed presence while the seal
is intact, and its image waits for its turn to be written, or ends the operation as the failed check says; without presence or
seal it is refused with PRESENCE_DENIED; both are refused when the handle table is full; a staged request of sound and valid
records waits for its turn with its records' places, consuming armed presence where one of them is privileged, and without
presence or seal a privileged one is refused; a record that fails its configuration check ends the operation FAILED with the
check's event; a staging buffer that holds no whole request, or a malformed record, is refused with FIELD. That a write erases
block by block before it programs, and FIELD for a malformed request, is the model's choice (log 70). The records of an
NVM_WRITE whose turn it is (R377, R387-R390, R393): a configuration image, an owner key under the next epoch and a payload
begin to be written, an empty payload is done; an identity reset advances its counter, erases the endorsement and is reported;
a debug unlock erases root, storage and identity key and is reported; a pairing puts its record at the start of the flash's
counter area, makes the derived key that of its counters and pairs; and a security counter takes the greater of its value and
the one asked for, no other counter moving. Where endorsement and pairing record lie, and what the record holds, is the
model's choice (log 54), and that a write erases and then programs is log 70. The SOURCE of an event that its table does not
give is the model's reading (log 79). Says that these complete: fwStage, nvmWrite, nvmConfig, ownerKey, payload,
identityReset, debugUnlock, nvmPair. -/
def Obligations.FlashOperationsAct : Prop :=
  (∀ r (s : State), Arrives s 0x30 (formOpStart 0x12) r → r.wValue = 0x12 → s.handlesFull 0 = false → s.mc.armedUntil.isSome = true →
    s.mc.sealIntact = true → exec (.fwStage r) s = .next (match fwCheck s.stagedFw (s.counter 4) (s.counter 0) with
      | none => (({ (s.openHandle fun h => { num := h, kind := 0x12, owner := 0, work := [0] }) with
        mc := { s.mc with armedUntil := none, nvmQueue := s.mc.nvmQueue ++ [{ src := .op s.nextHandle, base := nvmFw, data := s.stagedFw, blocks := cdiv s.stagedFw.length 0x10000, live := false }] } } : State).nvmGo).startOk s.nextHandle
      | some e => ((({ s with mc := { s.mc with armedUntil := none } } : State).openHandle fun h =>
        { num := h, kind := 0x12, owner := 0, work := [0] }).fwRefused s.nextHandle e).startOk s.nextHandle)) ∧
  (∀ r (s : State), Arrives s 0x30 (formOpStart 0x12) r → r.wValue = 0x12 → s.handlesFull 0 = false →
    (s.mc.armedUntil = none ∨ s.mc.sealIntact = false) →
    exec (.fwStage r) s = .next ((s.raise .sec none 0x8008 [0x12, 0]).startNo stPresence)) ∧
  (∀ x ∈ ([(0x12, .fwStage), (0x13, .nvmWrite)] : List (Nat × (Setup → Instr))), ∀ r (s : State), Arrives s 0x30 (formOpStart x.1) r → r.wValue = x.1 →
    s.handlesFull 0 = true → exec (x.2 r) s = .next (s.startNo stHandlesFull)) ∧
  (∀ r l (s : State), Arrives s 0x30 (formOpStart 0x13) r → r.wValue = 0x13 → s.handlesFull 0 = false → s.stagedRequest = some l → l ≠ [] →
    s.handleOf s.nextHandle = none →
    (∀ x ∈ l, s.recordBad x = false ∧ s.privileged x = false) → cfgRecordsCheck l s.ownerKey (s.counter 1) = none →
    ∃ w blob, exec (.nvmWrite r) s = .next
      ((({ (s.openHandle fun h => { num := h, kind := 0x13, owner := 0, work := w, blob := blob }) with
        mc := { s.mc with nvmQueue := s.mc.nvmQueue ++ [{ src := .op s.nextHandle }] } } : State).nvmGo).startOk s.nextHandle) ∧
      blob = s.stagedBytes 16 ((l.map Staged.size).foldl (· + ·) 0) ∧ w.length = l.length ∧ w.head? = some 0) ∧
  (∀ r l x (s : State), Arrives s 0x30 (formOpStart 0x13) r → r.wValue = 0x13 → s.handlesFull 0 = false → s.stagedRequest = some l →
    s.handleOf s.nextHandle = none → (∀ y ∈ l, s.recordBad y = false) → l.find? s.privileged = some x → s.mc.armedUntil.isSome = true →
    s.mc.sealIntact = true → cfgRecordsCheck l s.ownerKey (s.counter 1) = none →
    ∃ w blob, exec (.nvmWrite r) s = .next
      ((({ (s.openHandle fun h => { num := h, kind := 0x13, owner := 0, work := w, blob := blob }) with
        mc := { s.mc with armedUntil := none, nvmQueue := s.mc.nvmQueue ++ [{ src := .op s.nextHandle }] } } : State).nvmGo).startOk s.nextHandle) ∧
      blob = s.stagedBytes 16 ((l.map Staged.size).foldl (· + ·) 0) ∧ w.length = l.length ∧ w.head? = some 0) ∧
  (∀ r l x (s : State), Arrives s 0x30 (formOpStart 0x13) r → r.wValue = 0x13 → s.handlesFull 0 = false → s.stagedRequest = some l →
    (∀ y ∈ l, s.recordBad y = false) → l.find? s.privileged = some x → s.mc.armedUntil = none ∨ s.mc.sealIntact = false →
    exec (.nvmWrite r) s = .next ((s.raise .sec none 0x8008 [0x13, x.target]).startNo stPresence)) ∧
  (∀ r l (s : State), Arrives s 0x30 (formOpStart 0x13) r → r.wValue = 0x13 → s.handlesFull 0 = false → s.stagedRequest = some l →
    (∃ y ∈ l, s.recordBad y = true) → exec (.nvmWrite r) s = .next (s.startNo stField)) ∧
  (∀ r l x e (s : State), Arrives s 0x30 (formOpStart 0x13) r → r.wValue = 0x13 → s.handlesFull 0 = false → s.stagedRequest = some l →
    (∀ y ∈ l, s.recordBad y = false) → (l.find? s.privileged = none ∨ s.mc.armedUntil.isSome = true ∧ s.mc.sealIntact = true) →
    cfgRecordsCheck l s.ownerKey (s.counter 1) = some (e, x) →
    exec (.nvmWrite r) s = .next ((((({ s with mc := { s.mc with
      armedUntil := if (l.find? s.privileged).isSome then none else s.mc.armedUntil } } : State).openHandle fun h =>
      { num := h, kind := 0x13, owner := 0 }).raise .sec none e x).opDone s.nextHandle 3 e 0).startOk s.nextHandle)) ∧
  (∀ r (s : State), Arrives s 0x30 (formOpStart 0x13) r → r.wValue = 0x13 → s.handlesFull 0 = false → s.stagedRequest = none →
    exec (.nvmWrite r) s = .next (s.startNo stField)) ∧
  (∀ h r (s : State), s.dueRecord h 1 = some r → exec (.nvmConfig h) s =
    .next (s.nvmBegin nvmCfg 0 (r.data.take (rdLE r.data 0x10 4)))) ∧
  (∀ h r (s : State), s.dueRecord h 2 = some r → exec (.ownerKey h) s =
    .next (s.nvmBegin nvmOwner 0 (ownerRecord (s.counter 2 + 1) r.data))) ∧
  (∀ h r (s : State), s.dueRecord h 3 = some r → r.data ≠ [] → exec (.payload h) s = .next (s.nvmBegin (nvmPayload + r.off) 0 r.data)) ∧
  (∀ h r (s : State), s.dueRecord h 3 = some r → r.data = [] → exec (.payload h) s = .next (s.recordDone h)) ∧
  (∀ h r (s : State), s.dueRecord h 4 = some r → exec (.identityReset h) s =
    .next ((((s.advance 3 (s.counter 3 + 1)).nvmErase endorsementAt endorsementBytes).raise .sec none 0x8005
      [(s.advance 3 (s.counter 3 + 1)).counter 3]).recordDone h)) ∧
  (∀ h r (s : State), s.dueRecord h 5 = some r → exec (.debugUnlock h) s =
    .next ((({ s with mc := { s.mc with root := false, storageKey := false, identityKey := false, debug := true } } : State).raise
      .sec none 0x8006 [s.counter 2]).recordDone h)) ∧
  (∀ h r (s : State), s.dueRecord h 6 = some r → exec (.nvmPair h) s = .next (s.pair.recordDone h)) ∧
  (∀ (s : State), s.pair.paired = true ∧ s.pair.mc = { s.mc with counterKey := true } ∧
    s.pair.nvmRd nvmCounters (Config.pairingRecord (Config.counterRootKey Config.pufRoot)).length =
      Config.pairingRecord (Config.counterRootKey Config.pufRoot) ∧
    (∀ a, a < nvmCounters ∨ (nvmCounters + eraseBytes ≤ a ∧
      nvmCounters + (Config.pairingRecord (Config.counterRootKey Config.pufRoot)).length ≤ a) → s.pair.nvmAt a = s.nvmAt a) ∧
    s.pair.mem = s.mem ∧ s.pair.counters = s.counters) ∧
  (∀ (s : State), (s.nvmErase endorsementAt endorsementBytes).endorsed = false) ∧
  (∀ n v (s : State), n < 8 → s.counters.length = 8 → (s.advance n v).counter n = Nat.max (s.counter n) v ∧
    ∀ m, m ≠ n → (s.advance n v).counter m = s.counter m)

/-- NVM_PAGE_COMPLETE (R377, R386): without a write under way nothing happens; a page of a write that no operation asked for
programs what is left of its data, up to 256 bytes, and no other byte of the flash; a block is erased to 0xFF, and no other
byte, while more of the write is to come; memory, registers, cores, counters and jobs stay. That a page has 256 bytes and a
block 64 KiB is the model's choice (log 16). Says that these complete: nvmPageComplete. -/
def Obligations.PagesAreProgrammed : Prop :=
  (∀ (s : State), s.mc.nvmBusy = false ∨ s.nvmHead = none → exec .nvmPageComplete s = .next s) ∧
  (∀ w (s : State), s.mc.nvmBusy = true → s.nvmHead = some w → (∀ h, w.src ≠ .op h) → w.blocks ≤ w.erased →
    w.data.length ≤ w.pos + pageBytes → ∃ t : State, exec .nvmPageComplete s = .next t ∧
      (∀ i, w.pos ≤ i → i < w.data.length → t.nvmAt (w.base + i) = w.data.getD i 0) ∧
      (∀ a, a < w.base + w.pos ∨ w.base + w.data.length ≤ a → t.nvmAt a = s.nvmAt a) ∧
      t.mem = s.mem ∧ t.regs = s.regs ∧ t.cores = s.cores ∧ t.counters = s.counters ∧ ∀ p, t.job p = s.job p) ∧
  (∀ w (s : State), s.mc.nvmBusy = true → s.nvmHead = some w → w.erased < w.blocks →
    (w.erased + 1 < w.blocks ∨ w.pos < w.data.length) → ∃ t : State, exec .nvmPageComplete s = .next t ∧
      (∀ a, w.base + w.erased * eraseBytes ≤ a → a < w.base + (w.erased + 1) * eraseBytes → t.nvmAt a = 0xFF) ∧
      (∀ a, a < w.base + w.erased * eraseBytes ∨ w.base + (w.erased + 1) * eraseBytes ≤ a → t.nvmAt a = s.nvmAt a) ∧
      t.mem = s.mem ∧ t.regs = s.regs ∧ t.cores = s.cores ∧ t.counters = s.counters ∧ ∀ p, t.job p = s.job p)

/-- Frames of a job interface (R243-R246): with nothing held a sound WRITE of the current generation stores its bytes through
the window and L becomes its number, handles, flash, controller and jobs staying; a sound READ answers the bytes read through
the window and changes no memory outside the host's regions; a WRITE of another generation is held; one held too long is a
WINDOW_FAULT; in WINDOW_FAULT a WRITE is dropped; a WRITE whose header is wrong sets WINDOW_FAULT; a held request too long
there is discarded, counted and reported; a notice goes out when its values differ from the last one's. Frames of the staging
buffer (R270, R273): a sound WRITE puts its bytes into the buffer and no other byte, L becomes its number, and memory,
registers, cores, interfaces, controller, handles, control pipe and flash stay; a sound READ answers its bytes; a wrong header
of a WRITE sets the fault of the interface and is reported. The SOURCE of an event that its table does not give is the model's
reading (log 79). Says that these complete: frameWrite, frameRead, stagingFrame, frameGenTimeout, heldRequestStale,
noticeInterval. -/
def Obligations.WindowFramesAct : Prop :=
  (∀ (p : PartId) f (s : State), s.hostUp = true → s.parts[p].iface.resetBusy = false → s.parts[p].iface.heldFrame = none →
    s.parts[p].iface.fault = false → f.gen = s.parts[p].iface.gen → s.frameErr p f = none → f.ftype = 1 →
    s.parts[p].iface.held = [] → exec (.frameWrite p f) s = .next (s.writeFrame p f)) ∧
  (∀ (p : PartId) f (s : State), (s.writeFrame p f).parts[p].iface.landed = BitVec.ofNat 32 f.seq ∧
    (s.writeFrame p f).mem = (s.lputBytes (s.windowJob p) (s.parts[p].iface.base + f.offset) f.data).mem ∧
    (s.writeFrame p f).handles = s.handles ∧ (s.writeFrame p f).nvm = s.nvm ∧ (s.writeFrame p f).mc = s.mc ∧
    ∀ q, (s.writeFrame p f).job q = s.job q) ∧
  (∀ (p : PartId) f env (u : State) (s : State), u = s.takeEnv env → u.hostUp = true → u.parts[p].iface.resetBusy = false →
    u.parts[p].iface.heldFrame = none → u.parts[p].iface.fault = false → f.gen = u.parts[p].iface.gen → u.frameErr p f = none →
    f.ftype = 2 → u.parts[p].iface.held = [] → exec (.frameRead p f env) s = .next (u.readFrame p f)) ∧
  (∀ (p : PartId) f (s : State), s.lbad (s.windowJob p) (spanOf (s.parts[p].iface.base + f.offset) f.length) = none →
    (s.readFrame p f).parts[p].iface.responses = s.parts[p].iface.responses ++ [readResponse f 0
      ((spanOf (s.parts[p].iface.base + f.offset) f.length).map (s.lrd (s.windowJob p)))] ∧
    ∀ a, s.inRings a = false → (s.readFrame p f).rd a = s.rd a) ∧
  (∀ (p : PartId) f (s : State), s.hostUp = true → s.parts[p].iface.resetBusy = false → s.parts[p].iface.heldFrame = none →
    s.parts[p].iface.fault = false → f.gen ≠ s.parts[p].iface.gen →
    exec (.frameWrite p f) s = .next (s.updIface p fun i => { i with heldFrame := some f })) ∧
  (∀ (p : PartId) f (s : State), s.parts[p].iface.fault = true → exec (.frameWrite p f) s = .next s) ∧
  (∀ (p : PartId) f o b st (s : State), s.hostUp = true → s.parts[p].iface.resetBusy = false → s.parts[p].iface.heldFrame = none →
    s.parts[p].iface.fault = false → f.gen = s.parts[p].iface.gen → s.frameErr p f = some (o, b, st) → f.ftype ≠ 2 →
    s.parts[p].iface.held = [] → exec (.frameWrite p f) s = .next (s.windowFault p f (o, b))) ∧
  (∀ (p : PartId) f (s : State), s.parts[p].iface.heldFrame = some f → f.ftype ≠ 2 → exec (.frameGenTimeout p) s =
    .next (((s.updIface p fun i => { i with heldFrame := none }).windowFault p f (0x00, 15)).goOn p)) ∧
  (∀ (p : PartId) k t e (s : State), s.parts[p].iface.held[k]? = some (.doorbell t e) → exec (.heldRequestStale p k) s =
    .next (((((s.updIface p fun i => { i with held := i.held.eraseIdx k }).updIface p fun i => { i with staleD := true }).countFld
      (usbJobStale p.val) 15 0 1).raise .usb (some p) 0x2002 [1 + p.val, e, s.parts[p].iface.landed.toNat, t]).goOn p)) ∧
  (∀ (p : PartId) k b g e (s : State), s.parts[p].iface.held[k]? = some (.window b g e) → exec (.heldRequestStale p k) s =
    .next (((((s.updIface p fun i => { i with held := i.held.eraseIdx k }).updIface p fun i => { i with staleW := true }).countFld
      (usbJobStale p.val) 31 16 1).raise .usb (some p) 0x2003 [1 + p.val, e, s.parts[p].iface.landed.toNat]).goOn p)) ∧
  (∀ (p : PartId) (s : State), s.hostUp = true → s.parts[p].iface.notice ≠ s.parts[p].iface.lastNotice → exec (.noticeInterval p) s =
    .next (s.updIface p fun i => { i with
      notices := i.notices ++ [i.notice], lastNotice := i.notice, staleD := false, staleW := false })) ∧
  (∀ f (s : State), s.linked = true → s.diag.resetBusy = false → s.diag.fault = false → s.stagingErr f = none → f.ftype ≠ 2 →
    ∃ t : State, exec (.stagingFrame f) s = .next t ∧ t.diag = { s.diag with landed := BitVec.ofNat 32 f.seq } ∧
      (∀ i, i < f.data.length → t.stagedBytes (f.offset + i) 1 = [f.data.getD i 0]) ∧
      (∀ a, a < f.offset ∨ f.offset + f.data.length ≤ a → t.stagedBytes a 1 = s.stagedBytes a 1) ∧
      t.mem = s.mem ∧ t.regs = s.regs ∧ t.cores = s.cores ∧ t.parts = s.parts ∧ t.mc = s.mc ∧ t.handles = s.handles ∧
      t.usb = s.usb ∧ t.nvm = s.nvm) ∧
  (∀ f (s : State), s.linked = true → s.diag.resetBusy = false → s.diag.fault = false → s.stagingErr f = none → f.ftype = 2 →
    exec (.stagingFrame f) s = .next { s with diag := { s.diag with
      responses := s.diag.responses ++ [stagingResponse f 0 (s.stagedBytes f.offset f.length)] } }) ∧
  (∀ f o b st (s : State), s.linked = true → s.diag.resetBusy = false → s.diag.fault = false → s.stagingErr f = some (o, b, st) →
    f.ftype ≠ 2 → exec (.stagingFrame f) s = .next (({ s with diag := { s.diag with fault := true } } : State).raise .usb none
      0x2004 [if s.mc.recovery then 0 else 5, f.seq, Config.fieldWord 0x2004 o b]))

/-- The commands of a ring, with their OP, the environment of their reads and what they do once taken. -/
def ringCommands : List (Nat × (PartId → MemEnv → Instr) × (State → PartId → List Byte → TakenCmd → State)) :=
  [(0x00, fun p _ => .cmdNop p, State.nopCmd), (0x10, fun p _ => .jobLoad p, State.jobLoadCmd),
   (0x20, fun p _ => .storeRead p, State.storeReadCmd), (0x21, fun p e => .storeWrite p e, State.storeWriteCmd),
   (0x30, fun p _ => .checkpoint p, State.checkpointCmd), (0x31, fun p _ => .modelLoad p, State.modelLoadCmd)]

/-- A ring's next command (R254, R255): the entry at the head, if it is of the command's kind, need not wait and finds room
for its records, is taken and performed; otherwise the state is that of the unnamed entries skipped; a taken entry leaves the
ring, is counted in the interface's counter, reserves its records, and beyond the corrected errors that its reads meet (R188,
R189) changes no other register, no memory outside the ring header, and no core, handle, flash byte or job. That the device
holds the ring header's words is the model's choice (log 71). What the ring commands do (R255, R256, R260, R360, R362): a NOP
writes its final record, or the one that refuses its fields; JOB_LOAD begins the job that the loader accepts under the next
handle, and is refused while the partition has a job; STORE_READ and a STORE_WRITE with a level above LOCAL post on their
queue pair; CHECKPOINT of a job alone and MODEL_LOAD begin under a handle of their own; the oldest final record that waits is
written when there is room, and lost, counted, when its region cannot be reached. That an operand check comes before the level
check is the model's reading (log 74), and that the device holds the ring header's words is log 71. Says that these complete:
cmdNop, jobLoad, storeRead, storeWrite, checkpoint, modelLoad, commandFinalRecord. -/
def Obligations.RingCommandsAct : Prop :=
  (∀ x ∈ ringCommands, ∀ (p : PartId) env head b (u v : State) (s : State),
    u = (if x.1 = 0x21 then s.takeEnv env else s).skipUnnamed p → u.frontCmd p = some (head, some b) → (cmdOf head b).op = x.1 →
    u.mustWait p b = false → u.take p (cmdOf head b) = some v →
    exec (x.2.1 p env) s = .next ((x.2.2 v p b (cmdOf head b)).skipUnnamed p)) ∧
  (∀ x ∈ ringCommands, ∀ (p : PartId) env head b (u : State) (s : State),
    u = (if x.1 = 0x21 then s.takeEnv env else s).skipUnnamed p → u.frontCmd p = some (head, some b) →
    ((cmdOf head b).op ≠ x.1 ∨ u.mustWait p b = true ∨ u.take p (cmdOf head b) = none) → exec (x.2.1 p env) s = .next u) ∧
  (∀ (p : PartId) k (m u : State) (s : State), s.take p k = some u → m = s.meetEntry p →
    u.parts[p].iface.hdr.cmdHead = (s.parts[p].iface.hdr.cmdHead + 1) % 4096 ∧
    u.parts[p].iface.taken = s.parts[p].iface.taken ++ [k] ∧
    u.parts[p].iface.reserved = s.parts[p].iface.reserved + k.records ∧
    u.reg (usbJobCmds p) = BitVec.ofNat 32 (satAdd 32 (s.reg (usbJobCmds p)).toNat 1) ∧
    (∀ o, o ≠ usbJobCmds p → u.reg o = m.reg o) ∧ (∀ a, a < s.hctx p ∨ s.hctx p + 64 ≤ a → u.rd a = m.rd a) ∧ u.cores = m.cores ∧
    u.handles = s.handles ∧ u.mc = m.mc ∧ u.nvm = m.nvm ∧ (∀ q, u.job q = s.job q) ∧ (s.weakUnits = [] → m = s) ∧
    ∀ a, s.inRings a = false → m.rd a = s.rd a) ∧
  (∀ (p : PartId) b k (s : State), entryOk b [(0x10, 48)] = true → k.level = 0 → s.nopCmd p b k = s.finalRecord p k 0 0 0 0 0) ∧
  (∀ (p : PartId) b k (s : State), entryOk b [(0x10, 48)] = false → s.nopCmd p b k = s.failCmd p k stField 0) ∧
  (∀ (p : PartId) b k j (u : State) (s : State), entryOk b [(0x16, 2), (0x20, 32)] = true → rdLE b 0x18 8 ≤ 1 → k.level = 0 →
    s.parts[p].phys ≠ 0 → s.job p = none → s.handlesFull (1 + p.val) = false → s.loadJob p (rdLE b 0x10 6) = .ok (u, j) →
    s.jobLoadCmd p b k = (u.setTaken p k { k with handle := u.nextHandle }).beginJob p j (rdLE b 0x18 4 = 1)
      (some { k with handle := u.nextHandle }) none) ∧
  (∀ (p : PartId) b k (s : State), entryOk b [(0x16, 2), (0x20, 32)] = true → rdLE b 0x18 8 ≤ 1 → k.level = 0 →
    s.parts[p].phys ≠ 0 → (s.job p).isSome = true → s.jobLoadCmd p b k = s.failCmd p k stPartBusy 0) ∧
  (∀ (p : PartId) b k (s : State), s.storeCheck p b k 0 true = none → s.storeReadCmd p b k =
    (s.setTaken p k (storeRec b k)).postRead (entryQp b).1 (entryQp b).2 (.cmd p.val k.index) (rdLE b 0x10 6) (rdLE b 0x18 8)
      (rdLE b 0x20 4) (rdLE b 0x24 4)) ∧
  (∀ (p : PartId) b k (u : State) (s : State), s.storeCheck p b k 2 false = none →
    u = s.touchAll ((spanOf (rdLE b 0x10 6) (rdLE b 0x24 4)).map ((s.windowJob p).phys false)) →
    u.lbad (s.windowJob p) (spanOf (rdLE b 0x10 6) (rdLE b 0x24 4)) = none → k.level ≠ 0 → s.storeWriteCmd p b k =
    ((u.meetReads ((spanOf (rdLE b 0x10 6) (rdLE b 0x24 4)).map ((s.windowJob p).phys false))).setTaken p k (storeRec b k)).postWrite
      (entryQp b).1 (entryQp b).2 (.cmd p.val k.index) (rdLE b 0x18 8)
      (rdLE b 0x20 4) ((spanOf (rdLE b 0x10 6) (rdLE b 0x24 4)).map (u.lrd (s.windowJob p)))) ∧
  (∀ (p : PartId) b k (s : State), s.imageCheck p b k 1 2 (fun _ _ => none) = none → s.cluster p = none → s.checkpointCmd p b k =
    (s.beginImage p b k 2).updJob p fun j => { j with cmt := { j.cmt with ckptPend := true } }) ∧
  (∀ (p : PartId) b k (s : State),
    s.imageCheck p b k 0 0 (fun x j => if x.state = .suspended ∧ j.step.started = false then none else some stField) = none →
    s.modelLoadCmd p b k = (s.beginImage p b k 3).loadBegin s.nextHandle) ∧
  (∀ (p : PartId) r l (s : State), s.parts[p].iface.waiting = r :: l → s.hctxUp = true → 0 < s.cplRoom p →
    exec (.commandFinalRecord p) s =
      .next ((s.writeCpl p r).updIface p fun i => { i with waiting := l, reserved := i.reserved - 1 })) ∧
  (∀ (p : PartId) r l (s : State), s.parts[p].iface.waiting = r :: l → s.hctxUp = false → exec (.commandFinalRecord p) s =
    .next ((s.countFld (usbJobLost p) 15 0 1).updIface p fun i => { i with waiting := l, reserved := i.reserved - 1 }))

/-- The link of the host (R233, R234, R265, R273): a started device attaches when VBUS is sensed, one that is not started only
notes it, and one whose USB controller failed its self-test does not attach (R398); an attachment takes the best rate offered
that passed proof, high speed in recovery, and counts a fallback below Gen 2x2; a full-rate attachment changes no other
register, no memory, handle, core, controller field or job; a disconnect while the device is on and VBUS was there, and a
reset of a link that was up, lose the host; a lost host resets frames, held requests, responses and windows of every job
interface, keeping its rings and job, resets DIAG, is counted and reported; a suspension and a resumption change LSTATE and
the link alone. The SOURCE of an event that its table does not give is the model's reading (log 79). Says that these complete:
usbAttach, usbDisconnect, busReset, warmReset, usbSuspend, usbResume. -/
def Obligations.HostLinkActs : Prop :=
  (∀ speed o (s : State), s.mc.on = true → s.mc.complete = true ∨ s.mc.recovery = true → exec (.usbAttach speed o) s =
    .next (({ s with usb := { s.usb with vbus := true, offered := speed.val + 1, orient := o } } : State).attach)) ∧
  (∀ speed o (s : State), ¬(s.mc.on = true ∧ (s.mc.complete = true ∨ s.mc.recovery = true)) → exec (.usbAttach speed o) s =
    .next { s with usb := { s.usb with vbus := true, offered := speed.val + 1, orient := o } }) ∧
  (∀ (n : Nat) (s : State), n = (if s.mc.recovery = true then 1 else Nat.min s.usb.offered s.mc.usbMax) → n < 8 → s.usb.vbus = true →
    s.mc.usbDown = false → s.attach.regFld usbLink 2 0 = n ∧ (4 ≤ n → s.attach.reg usbLinkcnt = s.reg usbLinkcnt) ∧
    (n < 4 → s.attach.regFld usbLinkcnt 31 16 = satAdd 16 (s.regFld usbLinkcnt 31 16) 1)) ∧
  (∀ (s : State), s.mc.usbDown = true → s.attach = s) ∧
  (∀ (s : State), s.usb.vbus = true → s.mc.usbDown = false → s.mc.recovery = false → s.usb.offered ≤ 4 → 4 ≤ Nat.min s.usb.offered s.mc.usbMax → s.attach.linked = (s.mc.on && s.mc.complete) ∧
    (∀ o, o ≠ usbLink → s.attach.reg o = s.reg o) ∧ s.attach.mem = s.mem ∧ s.attach.handles = s.handles ∧ s.attach.cores = s.cores ∧
    s.attach.mc = s.mc ∧ (∀ p, s.attach.job p = s.job p)) ∧
  (∀ (u : State) (s : State),
    u = ({ s with usb := { s.usb with vbus := false, suspended := false, stalled := false, data := [] } } : State).setReg usbLink
      (pack [(4, 8)]) → (s.mc.on = true → s.usb.vbus = true → exec .usbDisconnect s = .next (u.hostLost 0)) ∧
      (s.mc.on = false ∨ s.usb.vbus = false → exec .usbDisconnect s = .next u)) ∧
  (∀ x ∈ ([(1, .busReset), (2, .warmReset)] : List (Nat × Instr)), ∀ (s : State), s.linked = true ∨ s.usb.suspended = true →
    exec x.2 s = .next ((({ s with usb := { s.usb with suspended := false, stalled := false, data := [] } } : State).setFld usbLink 10 8
      0).hostLost x.1)) ∧
  (∀ n (s : State), ∃ u, s.hostLost n = (u : State).raise .usb none 0x2009 [Config.fieldWord 0x2009 n 0] ∧
    (∀ p : PartId, u.parts[p].iface.heldFrame = none ∧ u.parts[p].iface.held = [] ∧ u.parts[p].iface.responses = [] ∧
      u.parts[p].iface.base = s.hctx p ∧ u.parts[p].iface.gen = 0 ∧ u.parts[p].iface.landed = 0 ∧ u.parts[p].iface.fault = false ∧
      u.parts[p].iface.hdr = s.parts[p].iface.hdr ∧ u.parts[p].job = s.parts[p].job) ∧ u.diag = s.diag.reset 0 ∧
    u.regFld usbLinkcnt 15 0 = satAdd 16 (s.regFld usbLinkcnt 15 0) 1 ∧ (∀ o, o ≠ usbLinkcnt → u.reg o = s.reg o) ∧
    u.mem = s.mem ∧ u.handles = s.handles ∧ u.cores = s.cores ∧ u.mc = s.mc) ∧
  (∀ (s : State), s.linked = true → ∃ t : State, exec .usbSuspend s = .next t ∧ t.usb = { s.usb with suspended := true } ∧
    t.regFld usbLink 10 8 = 3 ∧ (∀ o, o ≠ usbLink → t.reg o = s.reg o) ∧ t.mem = s.mem ∧ t.cores = s.cores ∧ t.parts = s.parts ∧
    t.handles = s.handles ∧ t.mc = s.mc ∧ t.ports = s.ports) ∧
  (∀ (s : State), s.usb.suspended = true → ∃ t : State, exec .usbResume s = .next t ∧ t.usb = { s.usb with suspended := false } ∧
    t.regFld usbLink 10 8 = 0 ∧ (∀ o, o ≠ usbLink → t.reg o = s.reg o) ∧ t.mem = s.mem ∧ t.cores = s.cores ∧ t.parts = s.parts ∧
    t.handles = s.handles ∧ t.mc = s.mc ∧ t.ports = s.ports)

/-! ### Ports -/

/-- The links of a port and the frames received (R275-R277, R279, R284, R297): a link that comes up shows in PORT_STAT, raises
its event and sends its LLDP frame; one that goes down clears LINK, discards what the transmit buffer holds of its subport and
counts it, and changes no other port, no core, handle, flash byte or job, and no memory outside the host's regions; the FEC
warning comes at most once an hour for a subport; a frame received is counted and classified by its bytes: too short, lost for
want of its class's share, broken and counted or captured, for another station, wrongly tagged, PFC, ARP, PTP, LLDP, or given
to IP or the capture ring. The model's choices: the formats (log 39), the share of a class without record (log 40), corners of
frames (log 85). Frames sent, and PFC (R278, R281, R283, R289, R297): while the line of the subport is busy nothing starts; on
a free line a PFC frame goes first, then the classes are tried from the highest; a class that is paused, or whose gate is
closed for its head frame, is passed over, and one whose head frame may go and knows its next hop sends it; a frame that
starts, and carries no PTP event, leaves the transmit queue; a pause that expires within the loop period frees the classes
that it names and no other; a pause that this port keeps on a class still above XON is renewed. By which clock pauses and
paces run is the model's choice (log 49). The SOURCE of an event that its table does not give is the model's reading (log 79).
Says that these complete: portLinkUp, portLinkDown, portFecDegraded, frameReceive, frameTransmit, pfcPauseExpire, pfcRenew. -/
def Obligations.PortFramesAct : Prop :=
  (∀ (o : PortId) (q : SubId) (s : State), s.portOn o = true → s.subOn o.val q.val = true → s.linkUp o.val q.val = false →
    exec (.portLinkUp o q) s = .next ((((s.setLink o q (if s.regFld (portCtl o.val) 5 4 ≤ 1 then .trained else s.linkStart o q)).setFld
      (portStat o.val) q.val q.val 1).raise (.port o.val) none 0x6001 [o.val, q.val, s.regFld (portCtl o.val) 5 4]).sendLldp o q)) ∧
  (∀ (o : PortId) (q : SubId) cause n (s : State), s.linkUp o.val q.val = true → n = (s.stored o).length →
    ∃ t : State, exec (.portLinkDown o q cause) s = .next t ∧ t.linkUp o.val q.val = false ∧
    t.ports[o].tx = (s.ports[o].tx.take n).filter (fun f => decide (f.sub ≠ q)) ++ s.ports[o].tx.drop n ∧
    t.reg (portCnt o.val 23) = BitVec.ofNat 32 (satAdd 32 (s.reg (portCnt o.val 23)).toNat 1) ∧
    t.reg (portCnt o.val 13) = BitVec.ofNat 32 (satAdd 32 (s.reg (portCnt o.val 13)).toNat
      ((s.ports[o].tx.take n).filter fun f => decide (f.sub = q)).length) ∧
    (∀ p, p ≠ o → t.ports[p] = s.ports[p]) ∧ t.cores = s.cores ∧ t.handles = s.handles ∧ t.nvm = s.nvm ∧
    (∀ p, t.job p = s.job p) ∧ ∀ a, s.inRings a = false → t.rd a = s.rd a) ∧
  (∀ (o : PortId) (q : SubId) r (s : State), s.linkUp o.val q.val = true → mapGet s.ports[o].fecAt q.val = none →
    exec (.portFecDegraded o q r) s = .next (((s.setFld (portStat o.val) (28 + q.val) (28 + q.val) 1).updPort o fun p =>
      { p with fecAt := mapSet p.fecAt q.val s.mc.time }).raise (.port o.val) none 0x6003 [o.val, q.val, r])) ∧
  (∀ (o : PortId) (q : SubId) r n (s : State), s.linkUp o.val q.val = true → mapGet s.ports[o].fecAt q.val = some n →
    s.mc.time < n + 3600000000000 → exec (.portFecDegraded o q r) s =
      .next (s.setFld (portStat o.val) (28 + q.val) (28 + q.val) 1)) ∧
  (∀ (o : PortId) (q : SubId) f (g : RxFrame) (v u : State) (s : State), s.portOn o = true → s.linkUp o.val q.val = true →
    s.portReach o (s.ports[o].clock + f.wait) = some v →
    u = ((v.portCount o 16 f.fecCorr).portCount o 17 f.fecUncorr).portCount2 o 6 f.bytes.length →
    g = parseFrame (!f.pcsError && decide (f.fecUncorr = 0)) f.bytes →
    (g.wireLen < 64 → exec (.frameReceive o q f) s = .next (u.portCount o 8 1)) ∧
    (64 ≤ g.wireLen → u.classShare o.val q.val (rxClass g) < u.rxFill o q.val (rxClass g) + g.wireLen →
      exec (.frameReceive o q f) s = .next u) ∧
    (64 ≤ g.wireLen → u.rxFill o q.val (rxClass g) + g.wireLen ≤ u.classShare o.val q.val (rxClass g) →
      ((g.fcsOk = false ∨ 9216 < g.wireLen) → bitAt (u.reg (portCtl o.val)) 12 = false →
        exec (.frameReceive o q f) s = .next (u.portCount o 9 1)) ∧
      ((g.fcsOk = false ∨ 9216 < g.wireLen) → bitAt (u.reg (portCtl o.val)) 12 = true → exec (.frameReceive o q f) s =
        .next (u.capture o q g ((if g.fcsOk then 0 else 1) + (if 9216 < g.wireLen then 2 else 0)) 9)) ∧
      (g.fcsOk = true → g.wireLen ≤ 9216 →
        (u.dstOk o.val q.val g.dst = false → exec (.frameReceive o q f) s = .next u) ∧
        (u.dstOk o.val q.val g.dst = true → u.tagsOk o.val q.val g.tags = false →
          exec (.frameReceive o q f) s = .next (u.portCount o 10 1)) ∧
        (u.dstOk o.val q.val g.dst = true → u.tagsOk o.val q.val g.tags = true →
          (∀ m quanta, g.pfc = some (m, quanta) → u.regFld (portCtl o.val) 31 24 ≠ 0 →
            exec (.frameReceive o q f) s = .next ((u.rxCount o).pfcIn o q m quanta)) ∧
          (g.pfc = none → g.etherType = 0x88F7 → exec (.frameReceive o q f) s = .next (u.ptpArrives o q g)) ∧
          (g.pfc = none → g.etherType = 0x88CC → exec (.frameReceive o q f) s = .next (u.rxCount o)) ∧
          (g.pfc = none → g.etherType = 0x0806 → exec (.frameReceive o q f) s = .next ((u.rxCount o).arpIn o q g.payload)) ∧
          (g.pfc = none → g.etherType ≠ 0x88F7 → g.etherType ≠ 0x88CC → g.etherType ≠ 0x0806 →
            exec (.frameReceive o q f) s = .next (g.ip.elim (u.capture o q g 128 11) fun ip => u.ipIn o q g ip)))))) ∧
  (∀ (o : PortId) (q : SubId) w (u : State) (s : State), s.portOn o = true → s.linkUp o.val q.val = true →
    s.portReach o (s.ports[o].clock + w) = some u →
    (u.lineBusy o q = true → exec (.frameTransmit o ⟨q, w⟩) s = .next u) ∧
    (∀ f, u.lineBusy o q = false → u.pfcFrame o q = some f → exec (.frameTransmit o ⟨q, w⟩) s = .next (u.startTx o f)) ∧
    (u.lineBusy o q = false → u.pfcFrame o q = none →
      exec (.frameTransmit o ⟨q, w⟩) s = .next (State.sendNext o q [7, 6, 5, 4, 3, 2, 1, 0] u))) ∧
  (∀ (o : PortId) (q : SubId) c cs f (s : State), s.headFrame o q c = some f →
    (s.isPaused o q.val c = true → State.sendNext o q (c :: cs) s = State.sendNext o q cs s) ∧
    (s.isPaused o q.val c = false → s.gateNever o q.val c (s.frameTime o f) = false → s.gateOpen o q.val c (s.frameTime o f) = false →
      State.sendNext o q (c :: cs) s = State.sendNext o q cs s) ∧
    (s.isPaused o q.val c = false → s.gateNever o q.val c (s.frameTime o f) = false → s.gateOpen o q.val c (s.frameTime o f) = true →
      f.mac ≠ [] → State.sendNext o q (c :: cs) s = s.startTx o f) ∧
    (s.isPaused o q.val c = false → s.gateNever o q.val c (s.frameTime o f) = true →
      State.sendNext o q (c :: cs) s = s.dropOversize o f)) ∧
  (∀ (o : PortId) f (s : State), f.ptpEvent = none → (s.startTx o f).ports[o].tx = s.ports[o].tx.erase f ∧
    ∀ p, p ≠ o → (s.startTx o f).ports[p] = s.ports[p]) ∧
  (∀ (o : PortId) (q : SubId) m (named : Nat × Nat → Bool) (u : State) (s : State),
    named = (fun k => decide (k.1 / 8 = q.val) && m.getLsbD (k.1 % 8)) →
    s.portReach o (s.ports[o].clock + (((s.ports[o].paused.filter named).map Prod.snd).foldl Nat.max (s.now o) - s.now o)) = some u →
    exec (.pfcPauseExpire o q m) s = .next (u.updPort o fun p => { p with paused := p.paused.filter fun k => !named k })) ∧
  (∀ (o : PortId) (q : SubId) (k : Fin 8) (s : State), s.portOn o = true → q.val * 8 + k.val ∈ s.ports[o].pausing →
    s.classField o.val q.val k.val 8 < s.rxFill o q.val k.val → exec (.pfcRenew o q k) s = .next (s.sendPfc o q k.val 65535))

/-- The gates (R288, R290, R296): where the schedule runs, the clock of its port goes to the end of the entry in force; a
pending change copies the administrative list at its time, to which the clock goes first; a change is set to the first cycle
of the new list at least 1000 ns ahead and changes nothing else, and is cancelled; a control word that breaks a rule is
refused with its register and field, another is kept, and copies the administrative list where it enables the schedule. How
port time runs between two happenings, and that enabling copies the list, is the model's choice (logs 11 and 85). The PTP
clock (R291-R295): software steps it and sets its rate only while PTP is off, the rate only within its range; the message that
came first is taken, and an offset that it completes steps the clock by whole nanoseconds if it is above the limit, and
otherwise leaves the rate to the servo, a free value; a request for the peer delay is answered; a lost master is reported and
the instance becomes its own master; a periodic output goes to the next period and drives SYNC_IO for the port that claims it,
and is idle without its comparator or period. The messages and roles are the model's presumption (log 41), and how long the
pin is held its reading (log 42). The SOURCE of an event that its table does not give is the model's reading (log 79). Says
that these complete: gateEntryChange, scheduleChangeTime, portGateCtlChange, portGateCtlCancel, portGateCtlEn, portPtpStep,
portPtpFreq, ptpMessage, ptpMasterLost, periodicOutput. -/
def Obligations.PortTimeActs : Prop :=
  (∀ (o : PortId) (k : Fin 2) (u : State) (s : State), s.schedOn o.val k.val = true → (s.operList o k).isEmpty = false →
    s.portReach o (s.ports[o].clock + (entryAt (s.operList o k)
      (cyclePos s.ports[o].clock s.ports[o].sched[k].base s.ports[o].sched[k].cycle)).2) = some u →
    exec (.gateEntryChange o k) s = .next u) ∧
  (∀ (o : PortId) n (u : State) (s : State), s.portReach o n = some u → u = (s.updPort o fun p => { p with clock := n })) ∧
  (∀ (o : PortId) (k : Fin 2) (s : State), s.ports[o].sched[k].pending = true → s.ports[o].sched[k].changeAt ≤ s.ports[o].clock →
    exec (.scheduleChangeTime o k) s = .next (s.copySched o k)) ∧
  (∀ (o : PortId) (k : Fin 2) (u : State) (s : State), s.ports[o].sched[k].pending = true →
    s.ports[o].clock < s.ports[o].sched[k].changeAt → s.portReach o s.ports[o].sched[k].changeAt = some u →
    exec (.scheduleChangeTime o k) s = .next (u.copySched o k)) ∧
  (∀ (o : PortId) (k : Fin 2) (s : State), ∃ t : State, exec (.portGateCtlChange o k) s = .next t ∧ t.ports[o].sched[k].pending = true ∧
    t.ports[o].sched[k].changeAt = cycleFrom (s.adminBase o k) ((s.reg (portGateCycle o.val k.val)).toNat * nsUnits)
      (s.ports[o].clock + 1000 * nsUnits) ∧ t = (s.updPort o fun p => { p with sched := t.ports[o].sched })) ∧
  (∀ (o : PortId) (k : Fin 2) (s : State), ∃ t : State, exec (.portGateCtlCancel o k) s = .next t ∧ t.ports[o].sched[k].pending = false ∧
    t.ports[o].sched[k].changeAt = 0 ∧ t = (s.updPort o fun p => { p with sched := t.ports[o].sched })) ∧
  (∀ (o : PortId) (k : Fin 2) v n (s : State), s.gateCtlBad o k v = some n →
    exec (.portGateCtlEn o k v) s = .next (s.portRefuse o (portGateCtl o.val k.val) n)) ∧
  (∀ (o : PortId) (k : Fin 2) v (s : State), s.gateCtlBad o k v = none → exec (.portGateCtlEn o k v) s =
    .next (if bitAt v 31 = true ∧ s.schedOn o.val k.val = false then (s.setReg (portGateCtl o.val k.val) (v &&& 0x8FFF01FF)).copySched o k
      else s.setReg (portGateCtl o.val k.val) (v &&& 0x8FFF01FF))) ∧
  (∀ (o : PortId) v (s : State), s.regFld (portPtpCtl o.val) 1 0 = 0 → exec (.portPtpStep o v) s = .next (s.stepPort o v.toInt)) ∧
  (∀ (o : PortId) v (s : State), s.regFld (portPtpCtl o.val) 1 0 ≠ 0 → exec (.portPtpStep o v) s = .next s ∧
    exec (.portPtpFreq o v) s = .next s) ∧
  (∀ (o : PortId) v (s : State), s.regFld (portPtpCtl o.val) 1 0 = 0 → -freqMax ≤ v.toInt → v.toInt ≤ freqMax →
    exec (.portPtpFreq o v) s = .next (s.setReg (portPtpFreq o.val) v)) ∧
  (∀ (o : PortId) m r (u : State) (s : State), s.ptpMode o ≠ 0 → s.portOn o = true → s.ports[o].ptpIn = m :: r →
    ((s.updPort o fun p => { p with ptpIn := r }).ptpTake o m = (u, none) → exec (.ptpMessage o m.sub) s = .next u) ∧
    (∀ n : Int, (s.updPort o fun p => { p with ptpIn := r }).ptpTake o m = (u, some n) →
      ((if u.ptpField o.val 3 = 0 then 1000 else u.ptpField o.val 3) * 65536 < n.natAbs →
        exec (.ptpMessage o m.sub) s = .next (u.stepPort o (-(n / 65536)))) ∧
      (n.natAbs ≤ (if u.ptpField o.val 3 = 0 then 1000 else u.ptpField o.val 3) * 65536 → exec (.ptpMessage o m.sub) s =
        .next (({ u with freeCtr := u.freeCtr + 1 } : State).setReg (portPtpFreq o.val) (freqOf (Config.free u.freeCtr)))))) ∧
  (∀ (o : PortId) m (s : State), rdLE m.bytes 4 1 = 0 → 44 ≤ m.bytes.length → ptpType m.bytes = 2 → s.ptpTake o m =
    (s.ptpSend o m.sub 3 (ptpSeq m.bytes) true (ptpCorr m.bytes) (ptpTime m.stamp ++ ptpFrom m.bytes), none)) ∧
  (∀ (o : PortId) (s : State), s.ptpMode o ≠ 0 → s.portOn o = true → s.ports[o].ptp.role ≠ .master → exec (.ptpMasterLost o) s =
    .next (((s.setFld (portPtpCtl o.val) 3 3 1).raise (.port o.val) none 0x6007 [o.val, s.ports[o].master % 2 ^ 32]).updPtp o fun r =>
      { r with role := .master, best := none, syncRx := none, measured := none })) ∧
  (∀ (o : PortId) n (u : State) (s : State), n = s.ptpField o.val 4 * 1000000000 * nsUnits → s.cmpUse o.val 2 = 3 → n ≠ 0 →
    s.portReach o ((s.ports[o].clock / n + 1) * n) = some u →
    ((∃ v, u.syncRec 2 = some v ∧ rdLE v 1 1 = o.val) → exec (.periodicOutput o) s = .next { u with
      mc := { u.mc with syncOut := u.mc.syncOut + 1, ppsTill := some (o, u.now o + u.ptpField o.val 5 * nsUnits) } }) ∧
    ((∀ v, u.syncRec 2 = some v → rdLE v 1 1 ≠ o.val) → exec (.periodicOutput o) s = .next u)) ∧
  (∀ (o : PortId) (s : State), s.cmpUse o.val 2 ≠ 3 ∨ s.ptpField o.val 4 = 0 → exec (.periodicOutput o) s = .next s)

/-- RoCE packets (R299-R301): the packet ahead in the receive buffer is taken by its kind; for a queue pair in service a
request of the expected PSN is done (WRITE, READ, SEND), a later one is answered with a sequence NAK, an earlier READ is
answered again and anything else earlier acknowledged; an acknowledge header and a read response go to the requester, which
goes on; a CE mark on either is answered with a congestion notice, at most once in 50 µs; a congestion notice cuts the rate by
one eighth and a rate timer adds one hundredth up to 1, each changing the one queue pair alone; an unanswered request is sent
again at its timeout. The responder's details are the model's presumption (log 50). Contexts and memory regions (R300-R302):
QPX_READ shows the sixteen words of the entry selected and changes no other register, no memory, port, core, partition, handle
or controller field; QPX_WRITE makes sound words the entry, and refuses words that break a rule with their register and bit,
and a region past the last with the selector. What a context that is written does to the work of its queue pair is the model's
choice (log 52). Says that these complete: roceRequest, roceResponse, cnp, roceAckTimeout, roceRateIncrease, qpxRead,
qpxWrite. -/
def Obligations.RoceActs : Prop :=
  (∀ (o : PortId) (q : SubId) k (u v : State) (s : State), s.portOn o = true → s.takeRoce o (fun x => x.asks q) = some (u, k) → u.qpServes o k = true →
    v = u.cnpFor o k.qp k.ce →
    (psnDist (v.qp o k.qp).expect k.psn = 0 → exec (.roceRequest o q) s = .next (v.requestIn o (v.qp o k.qp) k)) ∧
    (psnDist (v.qp o k.qp).expect k.psn ≠ 0 → psnDist (v.qp o k.qp).expect k.psn < 2 ^ 23 →
      exec (.roceRequest o q) s = .next (v.sendAeth o k.qp synSeq (v.qp o k.qp).expect)) ∧
    (2 ^ 23 ≤ psnDist (v.qp o k.qp).expect k.psn → k.op = opReadRequest →
      exec (.roceRequest o q) s = .next (v.readIn o (v.qp o k.qp) k true)) ∧
    (2 ^ 23 ≤ psnDist (v.qp o k.qp).expect k.psn → k.op ≠ opReadRequest →
      exec (.roceRequest o q) s = .next (v.sendAeth o k.qp synAck (psnAdd (v.qp o k.qp).expect (2 ^ 24 - 1))))) ∧
  (∀ (o : PortId) q k (s : State), (k.op = opWriteOnly → s.requestIn o q k = s.writeIn o q k) ∧
    (k.op = opReadRequest → s.requestIn o q k = s.readIn o q k false) ∧
    (k.op = opSendOnly → q.confirms k = none → s.requestIn o q k = s.sendIn o q k)) ∧
  (∀ (o : PortId) n (q : SubId) k (u : State) (s : State), s.portOn o = true →
    s.takeRoce o (fun x => x.answers n q) = some (u, k) → u.qpServes o k = true →
    (k.op = opAck → exec (.roceResponse o n q) s = .next (((u.cnpFor o k.qp k.ce).aethIn o k.qp k.psn (rdLE k.body 0 1)).runQp o k.qp)) ∧
    (k.op ≠ opAck → exec (.roceResponse o n q) s = .next ((((u.cnpFor o k.qp k.ce).acked o k.qp (psnAdd k.psn (2 ^ 24 - 1))).readArrives o k.qp k.psn
      (if k.op = opReadMiddle then k.body else k.body.drop 4)).runQp o k.qp))) ∧
  (∀ (o : PortId) n ce (s : State), s.cnpFor o n ce = if ce = true ∧ cnpDue (s.qp o n).cnpAt (s.nowNs o) = true then
    (s.updQp o n fun q => { q with cnpAt := some (s.nowNs o) }).sendRoce o n opCnp 0 false (List.replicate 16 0) [] else s) ∧
  (∀ (o : PortId) n k (u : State) (s : State), s.portOn o = true →
    s.takeRoce o (fun x => decide (x.op = opCnp ∧ x.qp = n)) = some (u, k) → u.qpServes o k = true →
    cnpDue (u.qp o k.qp).cutAt (u.nowNs o) = true → ∃ t : State, exec (.cnp o n) s = .next t ∧
      t.qp o k.qp = { u.qp o k.qp with rate := (u.qp o k.qp).rate * 7 / 8, cutAt := some (u.nowNs o) } ∧
      (∀ m, m ≠ k.qp → t.qp o m = s.qp o m) ∧ (∀ p, p ≠ o → t.ports[p] = s.ports[p]) ∧ t.mem = s.mem ∧ t.regs = s.regs ∧
      t.cores = s.cores ∧ t.parts = s.parts ∧ t.handles = s.handles ∧ t.mc = s.mc) ∧
  (∀ (o : PortId) (n : Fin 1024) (s : State), s.portOn o = true → (s.qp o n.val).rts = true → (s.qp o n.val).oldest.isSome = true →
    exec (.roceAckTimeout o n) s = .next (s.retryQp o n.val false (Config.fieldWord 0x6008 2 0))) ∧
  (∀ (o : PortId) (n : Fin 1024) (s : State), s.portOn o = true → (s.qp o n.val).rts = true → ∃ t : State,
    exec (.roceRateIncrease o n) s = .next t ∧ t.qp o n.val = { s.qp o n.val with rate := min 1 ((s.qp o n.val).rate + 1 / 100) } ∧
      (∀ m, m ≠ n.val → t.qp o m = s.qp o m) ∧ (∀ p, p ≠ o → t.ports[p] = s.ports[p]) ∧ t.mem = s.mem ∧ t.regs = s.regs ∧
      t.cores = s.cores ∧ t.parts = s.parts ∧ t.handles = s.handles ∧ t.mc = s.mc) ∧
  (∀ (o : PortId) v (s : State), ∃ t : State, exec (.qpxRead o v) s = .next t ∧ t.reg (portQpxSel o.val) = qpxSel v ∧
    (∀ i, i < 16 → t.reg (portQpxData o.val i) = (toWords 16 (s.qpxEntry o (fld v 27 27) (fld v 9 0))).getD i 0) ∧
    (∀ r, r ≠ portQpxSel o.val → (∀ i, i < 16 → r ≠ portQpxData o.val i) → t.reg r = s.reg r) ∧
    t.mem = s.mem ∧ t.ports = s.ports ∧ t.cores = s.cores ∧ t.parts = s.parts ∧ t.handles = s.handles ∧ t.mc = s.mc) ∧
  (∀ (o : PortId) v b (u : State) (s : State), b = ofWords ((List.range 16).map fun w => s.reg (portQpxData o.val w)) →
    u = s.setReg (portQpxSel o.val) (qpxSel v) →
    (bitAt v 27 = true → 256 ≤ fld v 9 0 → exec (.qpxWrite o v) s = .next (u.portRefuse o (portQpxSel o.val) 9)) ∧
    (bitAt v 27 = true → fld v 9 0 < 256 → u.mrBad b = none → exec (.qpxWrite o v) s = .next (u.writeMr o (fld v 9 0) b)) ∧
    (∀ f, bitAt v 27 = true → fld v 9 0 < 256 → u.mrBad b = some f →
      exec (.qpxWrite o v) s = .next (u.portRefuse o (portQpxData o.val (f.1 / 4)) f.2)) ∧
    (bitAt v 27 = false → u.ctxRefused o (u.qp o (fld v 9 0)) b = none →
      exec (.qpxWrite o v) s = .next (u.writeCtx o (fld v 9 0) b)) ∧
    (∀ f, bitAt v 27 = false → u.ctxRefused o (u.qp o (fld v 9 0)) b = some f →
      exec (.qpxWrite o v) s = .next (u.portRefuse o (portQpxData o.val (f.1 / 4)) f.2)))

/-! ### Registers that act -/

/-- Attestation, the log window and the SYNC_IO pin (R390, R423, R438): GO is busy where the device has its identity key and
refused where it has none; a report ends with the status clear, or refused where the key is gone, writes no register but its
own, and changes no memory, core, partition, handle, flash byte or counter; selecting a log entry shows its eight words and
changes nothing else of those; DRIVE keeps its bit: that it is stored whatever the configuration claims is the model's choice
(log 83). Says that these complete: attGo, attReportDone, mcLogSelWrite, mcSyncIoDrive. -/
def Obligations.ServiceRegistersAct : Prop :=
  (∀ (s : State), s.mc.on = true → s.mc.attBusy = false → s.mc.identityKey = true → exec .attGo s =
    .next (({ s with mc := { s.mc with attBusy := true } } : State).setFld secAttCtl 7 0 1)) ∧
  (∀ (s : State), s.mc.on = true → s.mc.attBusy = false → s.mc.identityKey = false →
    exec .attGo s = .next (s.setFld secAttCtl 7 0 2)) ∧
  (∀ (s : State), s.mc.attBusy = true → ∃ t : State, exec .attReportDone s = .next t ∧ t.mc = { s.mc with attBusy := false } ∧
    t.regFld secAttCtl 7 0 = (if s.mc.identityKey then 0 else 2) ∧
    (∀ o, o ≠ secAttCtl → (∀ i, i < 1301 → o ≠ secAttData i) → t.reg o = s.reg o) ∧ t.mem = s.mem ∧ t.cores = s.cores ∧
    t.parts = s.parts ∧ t.handles = s.handles ∧ t.nvm = s.nvm ∧ t.counters = s.counters) ∧
  (∀ v (s : State), fld v 23 0 < logEntries → ∃ t : State, exec (.mcLogSelWrite v) s = .next t ∧
    t.reg mcLogSel = BitVec.ofNat 32 (fld v 23 0) ∧
    (∀ i, i < 8 → t.reg (mcLogData i) = (toWords 8 (s.nvmRd (logAddr (fld v 23 0)) 32)).getD i 0) ∧
    (∀ o, o ≠ mcLogSel → (∀ i, i < 8 → o ≠ mcLogData i) → t.reg o = s.reg o) ∧ t.freeCtr = s.freeCtr ∧ t.mem = s.mem ∧
    t.cores = s.cores ∧ t.parts = s.parts ∧ t.handles = s.handles ∧ t.nvm = s.nvm ∧ t.mc = s.mc) ∧
  (∀ b (s : State), exec (.mcSyncIoDrive b) s = .next (s.setFld mcSyncIo 1 1 (b2n b)))

/-- Clear commands (R66, R104, R140, R166, R202, R230, R302, R332, R367): the registers of the command hold 0, every other
register and everything else stays. CORE_MEM_CLR.UE clears the count and keeps the address; CORE_STR_CLR.COUNTS clears the two
counts of every stream of the core, keeps states and indices of its streams, its issued list and every other core. Says that
these complete: coreNumClrWtrunc, coreNumClrOutsat, coreNumClrNonfin, coreNumClrSumviol, coreArrClrBeats, coreArrClrStalls,
coreArrClrMismatches, coreVrClrLsteps, coreVrClrStalls, coreVrClrTagfail, coreGbClrOps, coreGbClrBytes, coreGbClrWaits,
coreMemClrWaits, coreMemClrCe, coreMemClrUe, coreStrClrCounts, portCntClrAll, portOtClrAll, coreNetClrOps, coreNetClrStalls,
coreNetClrBubble. -/
def Obligations.CountersAreCleared : Prop :=
  (∀ (c : CoreId) (o : PortId), ∀ x ∈ ([(.coreNumClrWtrunc c, [coreNumWtruncLo c, coreNumWtruncHi c]), (.coreNumClrOutsat c, [coreNumOutsat c]),
   (.coreNumClrNonfin c, [coreNumNonfin c]), (.coreNumClrSumviol c, [coreNumSumviol c]),
   (.coreArrClrBeats c, eachArray (coreArrBeatsLo c) ++ eachArray (coreArrBeatsHi c)),
   (.coreArrClrStalls c, eachArray (coreArrShstall c) ++ eachArray (coreArrLdwait c) ++ eachArray (coreArrFdstall c)),
   (.coreArrClrMismatches c, eachArray (coreArrMismatch c)),
   (.coreVrClrLsteps c, [coreVecLstepsLo c, coreVecLstepsHi c, coreRowLstepsLo c, coreRowLstepsHi c]),
   (.coreVrClrStalls c, [coreVecMstall c, coreRowMstall c]), (.coreVrClrTagfail c, [coreRowTagfail c]),
   (.coreGbClrOps c, [coreGbSpills c, coreGbRefills c, coreGbTieadds c]), (.coreGbClrBytes c, [coreGbBytesLo c, coreGbBytesHi c]),
   (.coreGbClrWaits c, [coreGbWaits c]), (.coreMemClrWaits c, [coreMemBankwait c, coreMemWakes c]),
   (.coreMemClrCe c, [coreMemCeSram c, coreMemCeCrumb c]), (.coreNetClrOps c, [coreNetDone c, coreNetCancel c]),
   (.coreNetClrStalls c, [coreNetPstall c, coreNetGheld c]), (.coreNetClrBubble c, [coreNetBubbleLo c, coreNetBubbleHi c]),
   (.portCntClrAll o, (List.range 32).map (portCnt o)), (.portOtClrAll o, (List.range 32).map (portOtCnt o))] : List (Instr × List Nat)),
    ∀ (s : State), ∃ t : State, exec x.1 s = .next t ∧
    (∀ r ∈ x.2, t.reg r = 0) ∧ (∀ r, r ∉ x.2 → t.reg r = s.reg r) ∧ t = { s with regs := t.regs }) ∧
  (∀ (c : CoreId) (s : State), ∃ t : State, exec (.coreMemClrUe c) s = .next t ∧ t.regFld (coreMemUe c) 15 0 = 0 ∧
    t.regFld (coreMemUe c) 31 16 = s.regFld (coreMemUe c) 31 16 ∧ (∀ r, r ≠ coreMemUe c → t.reg r = s.reg r) ∧
    t = { s with regs := t.regs }) ∧
  (∀ (c : CoreId) (s : State), ∃ t : State, exec (.coreStrClrCounts c) s = .next t ∧
    (∀ x : CtxId, (t.stream c x).issued = 0 ∧ (t.stream c x).qstall = 0 ∧ (t.stream c x).state = (s.stream c x).state ∧
      (t.stream c x).index = (s.stream c x).index) ∧ (∀ d : CoreId, d ≠ c → t.cores[d] = s.cores[d]) ∧
    t.cores[c].issued = s.cores[c].issued ∧ t = { s with cores := t.cores })

/-! ### What holds of every step -/

/-- Every command answers a next state, whatever the state and the operands, and leaves the commands that wait alone: none
faults or is refused. That a command which the state does not call for changes nothing is the model's choice (log 7); this
says nothing of a command's own effect, which the other statements give. -/
def Obligations.EveryCommandCompletes : Prop :=
  ∀ (i : Instr) (s : State), ∃ t : State, exec i s = .next t ∧ t.pending = s.pending

/-- Every step keeps the canonical forms of memory, registers, flash and latches, and the number of counters, from every state
that has them (the model's invariant). -/
def Obligations.StepsKeepCanonicalForms : Prop :=
  ∀ s t : State, s.Canonical → step s = .next t → t.Canonical

/-- No command decreases one of the eight monotonic counters of the flash (R375). -/
def Obligations.SecurityCountersNeverDecrease : Prop :=
  ∀ (i : Instr) (s t : State), s.counters.length = 8 → exec i s = .next t → ∀ n, s.counter n ≤ t.counter n

/-- A device without AUX_3V3 stays off (R370, R371, R416, R428): as long as the command at the front is no application of
AUX_3V3, a step from a state without supply, jobs, handles or issued descriptors gives such a state again. -/
def Obligations.UnpoweredDeviceStaysOff : Prop :=
  ∀ s t : State, s.Dark → (∀ env, s.pending.head? ≠ some (.powerOnStart env)) → step s = .next t → t.Dark
end

