-- ==== Sys2Proof/Laws/Tables.lean ====
section
/-! SUPPORT. Laws of the sparse tables: what a read finds after a write, and that writes keep the canonical form. -/

namespace Sys2Proof.Machine

variable {α : Type}

theorem mapGet_mapSet_same (m : List (Nat × α)) (k : Nat) (v : α) : mapGet (mapSet m k v) k = some v := by
  induction m with
  | nil => simp [mapSet, mapGet]
  | cons e r ih =>
    obtain ⟨k', v'⟩ := e
    simp only [mapSet]
    split
    · simp [mapGet]
    · split
      · simp [mapGet]
      · next h => simp [mapGet, Ne.symm h, ih]

theorem mapGet_mapSet_other (m : List (Nat × α)) {k a : Nat} (v : α) (h : a ≠ k) :
    mapGet (mapSet m k v) a = mapGet m a := by
  induction m with
  | nil => simp [mapSet, mapGet, Ne.symm h]
  | cons e r ih =>
    obtain ⟨k', v'⟩ := e
    simp only [mapSet]
    split
    · simp [mapGet, Ne.symm h]
    · split
      · next hk => subst hk; simp [mapGet, Ne.symm h]
      · simp [mapGet, ih]

theorem mapGet_mapErase_same (m : List (Nat × α)) (k : Nat) : mapGet (mapErase m k) k = none := by
  induction m with
  | nil => rfl
  | cons e r ih =>
    obtain ⟨k', v'⟩ := e
    simp only [mapErase]
    split
    · exact ih
    · next h => simp [mapGet, h, ih]

theorem mapGet_mapErase_other (m : List (Nat × α)) {k a : Nat} (h : a ≠ k) : mapGet (mapErase m k) a = mapGet m a := by
  induction m with
  | nil => rfl
  | cons e r ih =>
    obtain ⟨k', v'⟩ := e
    simp only [mapErase]
    split
    · next hk => subst hk; simp [mapGet, Ne.symm h, ih]
    · simp [mapGet, ih]

theorem getD_mapPut_same [DecidableEq α] (d : α) (m : List (Nat × α)) (k : Nat) (v : α) :
    (mapGet (mapPut d m k v) k).getD d = v := by
  unfold mapPut
  split
  · next h => simp [mapGet_mapErase_same, h]
  · simp [mapGet_mapSet_same]

theorem mapGet_mapPut_other [DecidableEq α] (d : α) (m : List (Nat × α)) {k a : Nat} (v : α) (h : a ≠ k) :
    mapGet (mapPut d m k v) a = mapGet m a := by
  unfold mapPut
  split
  · exact mapGet_mapErase_other m h
  · exact mapGet_mapSet_other m v h

/-- Rising keys as a relation between every two entries. -/
theorem keysRise_iff (m : List (Nat × α)) : keysRise m = true ↔ m.Pairwise fun a b => a.1 < b.1 := by
  induction m with
  | nil => simp [keysRise]
  | cons e r ih =>
    cases r with
    | nil => simp [keysRise]
    | cons f r =>
      simp only [keysRise, Bool.and_eq_true, decide_eq_true_eq, ih, List.pairwise_cons, List.mem_cons]
      constructor
      · rintro ⟨h, hr⟩
        refine ⟨?_, hr⟩
        rintro x (rfl | hx)
        · exact h
        · exact Nat.lt_trans h (hr.1 x hx)
      · rintro ⟨h, hr⟩
        exact ⟨h f (Or.inl rfl), hr⟩

theorem keysRise_filter (p : Nat × α → Bool) {m : List (Nat × α)} (h : keysRise m = true) : keysRise (m.filter p) = true :=
  (keysRise_iff _).mpr (((keysRise_iff m).mp h).filter p)

theorem mapErase_eq_filter (m : List (Nat × α)) (k : Nat) : mapErase m k = m.filter fun e => !decide (e.1 = k) := by
  induction m with
  | nil => rfl
  | cons e r ih =>
    obtain ⟨k', v'⟩ := e
    by_cases h : k' = k <;> simp [mapErase, h, ih]

theorem mem_mapSet {m : List (Nat × α)} {k : Nat} {v : α} {e : Nat × α} (h : e ∈ mapSet m k v) : e = (k, v) ∨ e ∈ m := by
  induction m with
  | nil => simpa [mapSet] using h
  | cons f r ih =>
    obtain ⟨k', v'⟩ := f
    simp only [mapSet] at h
    split at h
    · simpa using h
    · split at h
      · rcases List.mem_cons.mp h with h | h
        · exact Or.inl h
        · exact Or.inr (List.mem_cons_of_mem _ h)
      · rcases List.mem_cons.mp h with h | h
        · exact Or.inr (h ▸ List.mem_cons_self)
        · exact (ih h).imp id (List.mem_cons_of_mem _)

theorem keysRise_mapSet {m : List (Nat × α)} (k : Nat) (v : α) (h : keysRise m = true) : keysRise (mapSet m k v) = true := by
  rw [keysRise_iff] at *
  induction m with
  | nil => simp [mapSet]
  | cons f r ih =>
    obtain ⟨k', v'⟩ := f
    have hr := List.pairwise_cons.mp h
    simp only [mapSet]
    split
    · next hk =>
      refine List.pairwise_cons.mpr ⟨?_, h⟩
      intro x hx
      rcases List.mem_cons.mp hx with rfl | hx
      · exact hk
      · exact Nat.lt_trans hk (hr.1 x hx)
    · split
      · next hk => subst hk; exact List.pairwise_cons.mpr hr
      · next h1 h2 =>
        refine List.pairwise_cons.mpr ⟨?_, ih hr.2⟩
        intro x hx
        rcases mem_mapSet hx with rfl | hx
        · change k' < k; omega
        · exact hr.1 x hx

theorem keysRise_mapErase {m : List (Nat × α)} (k : Nat) (h : keysRise m = true) : keysRise (mapErase m k) = true := by
  rw [mapErase_eq_filter]
  exact keysRise_filter _ h

/-- The canonical form in terms of entries. -/
theorem mapCanon_iff [DecidableEq α] (d : Nat → α) (m : List (Nat × α)) :
    mapCanon d m = true ↔ keysRise m = true ∧ ∀ e ∈ m, e.2 ≠ d e.1 := by
  simp [mapCanon]

theorem mapCanon_nil [DecidableEq α] (d : Nat → α) : mapCanon d ([] : List (Nat × α)) = true := rfl

theorem mapCanon_mapPut [DecidableEq α] (d : Nat → α) {m : List (Nat × α)} (k : Nat) (v : α) (h : mapCanon d m = true) :
    mapCanon d (mapPut (d k) m k v) = true := by
  rw [mapCanon_iff] at *
  unfold mapPut
  split
  · refine ⟨keysRise_mapErase k h.1, ?_⟩
    intro e he
    rw [mapErase_eq_filter] at he
    exact h.2 e (List.mem_filter.mp he).1
  · next hv =>
    refine ⟨keysRise_mapSet k v h.1, ?_⟩
    intro e he
    rcases mem_mapSet he with rfl | he
    · exact hv
    · exact h.2 e he

theorem mapCanon_filter [DecidableEq α] (d : Nat → α) (p : Nat × α → Bool) {m : List (Nat × α)} (h : mapCanon d m = true) :
    mapCanon d (m.filter p) = true := by
  rw [mapCanon_iff] at *
  exact ⟨keysRise_filter p h.1, fun e he => h.2 e (List.mem_filter.mp he).1⟩

/-- Writing entry after entry keeps the canonical form. -/
theorem mapCanon_foldl_mapPut {β : Type} [DecidableEq α] (d : Nat → α) (key : β → Nat) (val : β → α) (l : List β)
    {m : List (Nat × α)} (h : mapCanon d m = true) :
    mapCanon d (l.foldl (fun m e => mapPut (d (key e)) m (key e) (val e)) m) = true := by
  induction l generalizing m with
  | nil => exact h
  | cons e r ih => exact ih (mapCanon_mapPut d _ _ h)

theorem mapGet_filter (m : List (Nat × α)) (p : Nat → Bool) (a : Nat) :
    mapGet (m.filter fun e => p e.1) a = if p a then mapGet m a else none := by
  induction m with
  | nil => simp [mapGet]
  | cons e r ih =>
    obtain ⟨k', v'⟩ := e
    by_cases h : p k' = true
    · simp only [List.filter_cons, h, if_true, mapGet]
      by_cases hk : k' = a
      · subst hk; simp [h]
      · simp [hk, ih]
    · simp only [List.filter_cons, h, mapGet]
      by_cases hk : k' = a
      · subst hk; simp [h, ih]
      · simp [hk, ih]

end Sys2Proof.Machine
end

