-- ==== Sys2Proof/Laws/Memory.lean ====
section
/-! SUPPORT. Laws of memory and of the register table: a read after a write, every other place left alone, the canonical form
kept. -/

namespace Sys2Proof.Machine

/-! ### Memory -/

@[simp] theorem memGet_memSet_same (m : List Host.Cell) (a : Nat) (b : Byte) : memGet (memSet m a b) a = b :=
  getD_mapPut_same memDefault m a b

theorem memGet_memSet_other (m : List Host.Cell) {a k : Nat} (b : Byte) (h : a ≠ k) : memGet (memSet m k b) a = memGet m a := by
  unfold memGet memSet
  rw [mapGet_mapPut_other _ _ _ h]

/-- A byte that no write of the list names stays. -/
theorem memGet_memPut_other (w : List (Nat × Byte)) (m : List Host.Cell) {a : Nat} (h : a ∉ w.map Prod.fst) :
    memGet (memPut m w) a = memGet m a := by
  induction w generalizing m with
  | nil => rfl
  | cons e r ih =>
    obtain ⟨k, b⟩ := e
    simp only [List.map_cons, List.mem_cons, not_or] at h
    exact (ih _ h.2).trans (memGet_memSet_other m b h.1)

/-- A byte that the list writes last, and once, holds it. -/
theorem memGet_memPut_last (w v : List (Nat × Byte)) (m : List Host.Cell) {a : Nat} {b : Byte} (h : a ∉ v.map Prod.fst) :
    memGet (memPut m (w ++ (a, b) :: v)) a = b := by
  induction w generalizing m with
  | nil => exact (memGet_memPut_other v _ h).trans (memGet_memSet_same m a b)
  | cons e r ih => exact ih _

theorem wf_memSet {m : List Host.Cell} (a : Nat) (b : Byte) (h : Memory.wf m = true) : Memory.wf (memSet m a b) = true :=
  mapCanon_mapPut (fun _ => memDefault) a b h

theorem wf_memPut (w : List (Nat × Byte)) {m : List Host.Cell} (h : Memory.wf m = true) : Memory.wf (memPut m w) = true := by
  induction w generalizing m with
  | nil => exact h
  | cons e r ih => exact ih (wf_memSet e.1 e.2 h)

theorem wf_put (s : State) (w : List (Nat × Byte)) (h : Memory.wf s.mem = true) : Memory.wf (s.put w).mem = true :=
  wf_memPut w h

theorem wf_zeroRange (s : State) (a n : Nat) (h : Memory.wf s.mem = true) : Memory.wf (s.zeroRange a n).mem = true :=
  mapCanon_filter (fun _ => memDefault) _ h

theorem rd_put_other (s : State) (w : List (Nat × Byte)) {a : Nat} (h : a ∉ w.map Prod.fst) : (s.put w).rd a = s.rd a :=
  memGet_memPut_other w s.mem h

/-- Zeroing reads as zeros inside the range and changes nothing outside it. -/
theorem rd_zeroRange (s : State) (a n x : Nat) : (s.zeroRange a n).rd x = if a ≤ x ∧ x < a + n then 0 else s.rd x := by
  have h := mapGet_filter s.mem (fun k => !(decide (a ≤ k) && decide (k < a + n))) x
  simp only [State.rd, State.zeroRange, memGet, h]
  by_cases hx : a ≤ x ∧ x < a + n
  · simp [hx, memDefault]
  · rw [if_neg hx, if_pos (by simp; omega)]

/-- The bytes that a run of bytes is stored to. -/
theorem indexed_keys (a : Nat) (bs : List Byte) :
    ((indexed bs).map fun e => (a + e.1, e.2)).map Prod.fst = (List.range bs.length).map (a + ·) := by
  have h : (indexed bs).map Prod.fst = List.range bs.length := List.map_fst_zip (by simp)
  rw [← h]
  simp [Function.comp_def]

theorem rd_putBytes_other (s : State) (a : Nat) (bs : List Byte) {x : Nat} (h : x < a ∨ a + bs.length ≤ x) :
    (s.putBytes a bs).rd x = s.rd x := by
  apply rd_put_other
  rw [indexed_keys]
  simp only [List.mem_map, List.mem_range, not_exists, not_and]
  omega

/-! ### Registers -/

@[simp] theorem reg_setReg_same (s : State) (o : Nat) (v : Word) : (s.setReg o v).reg o = v :=
  getD_mapPut_same (resetReg o) s.regs o v

theorem reg_setReg_other (s : State) {o x : Nat} (v : Word) (h : x ≠ o) : (s.setReg o v).reg x = s.reg x := by
  unfold State.reg State.setReg
  rw [mapGet_mapPut_other _ _ _ h]

@[simp] theorem reg_setFld_same (s : State) (o hi lo v : Nat) : (s.setFld o hi lo v).reg o = putFld (s.reg o) hi lo v :=
  reg_setReg_same s o _

theorem reg_setFld_other (s : State) {o x : Nat} (hi lo v : Nat) (h : x ≠ o) : (s.setFld o hi lo v).reg x = s.reg x :=
  reg_setReg_other s _ h

theorem reg_countFld_other (s : State) {o x : Nat} (hi lo k : Nat) (h : x ≠ o) : (s.countFld o hi lo k).reg x = s.reg x :=
  reg_setFld_other s hi lo _ h

theorem reg_count_other (s : State) {o x : Nat} (k : Nat) (h : x ≠ o) : (s.count o k).reg x = s.reg x :=
  reg_countFld_other s 31 0 k h

theorem canon_setReg (s : State) (o : Nat) (v : Word) (h : mapCanon resetReg s.regs = true) :
    mapCanon resetReg (s.setReg o v).regs = true := mapCanon_mapPut resetReg o v h

end Sys2Proof.Machine
end

