-- ==== Sys2Proof/Laws/State.lean ====
section
/-! SUPPORT. What each update of State leaves alone: one lemma for each update and field, and what readers of one field see of
updates of another. -/

namespace Sys2Proof.Machine

/-! ### setReg -/

@[simp] theorem setReg_freeCtr (s : State) (o : Nat) (v : Word) : (s.setReg o v).freeCtr = s.freeCtr := rfl
@[simp] theorem setReg_pending (s : State) (o : Nat) (v : Word) : (s.setReg o v).pending = s.pending := rfl
@[simp] theorem setReg_mem (s : State) (o : Nat) (v : Word) : (s.setReg o v).mem = s.mem := rfl
@[simp] theorem setReg_badUnits (s : State) (o : Nat) (v : Word) : (s.setReg o v).badUnits = s.badUnits := rfl
@[simp] theorem setReg_weakUnits (s : State) (o : Nat) (v : Word) : (s.setReg o v).weakUnits = s.weakUnits := rfl
@[simp] theorem setReg_latches (s : State) (o : Nat) (v : Word) : (s.setReg o v).latches = s.latches := rfl
@[simp] theorem setReg_cores (s : State) (o : Nat) (v : Word) : (s.setReg o v).cores = s.cores := rfl
@[simp] theorem setReg_parts (s : State) (o : Nat) (v : Word) : (s.setReg o v).parts = s.parts := rfl
@[simp] theorem setReg_handles (s : State) (o : Nat) (v : Word) : (s.setReg o v).handles = s.handles := rfl
@[simp] theorem setReg_lastHandle (s : State) (o : Nat) (v : Word) : (s.setReg o v).lastHandle = s.lastHandle := rfl
@[simp] theorem setReg_staging (s : State) (o : Nat) (v : Word) : (s.setReg o v).staging = s.staging := rfl
@[simp] theorem setReg_diag (s : State) (o : Nat) (v : Word) : (s.setReg o v).diag = s.diag := rfl
@[simp] theorem setReg_usb (s : State) (o : Nat) (v : Word) : (s.setReg o v).usb = s.usb := rfl
@[simp] theorem setReg_mc (s : State) (o : Nat) (v : Word) : (s.setReg o v).mc = s.mc := rfl
@[simp] theorem setReg_ports (s : State) (o : Nat) (v : Word) : (s.setReg o v).ports = s.ports := rfl
@[simp] theorem setReg_nvm (s : State) (o : Nat) (v : Word) : (s.setReg o v).nvm = s.nvm := rfl
@[simp] theorem setReg_counters (s : State) (o : Nat) (v : Word) : (s.setReg o v).counters = s.counters := rfl
@[simp] theorem setReg_paired (s : State) (o : Nat) (v : Word) : (s.setReg o v).paired = s.paired := rfl
@[simp] theorem setReg_rd (s : State) (o : Nat) (v : Word) (z : Nat) : (s.setReg o v).rd z = s.rd z := rfl
@[simp] theorem setReg_job (s : State) (o : Nat) (v : Word) (y : PartId) : (s.setReg o v).job y = s.job y := rfl
@[simp] theorem setReg_counter (s : State) (o : Nat) (v : Word) (y : Nat) : (s.setReg o v).counter y = s.counter y := rfl

/-! ### setFld -/

@[simp] theorem setFld_freeCtr (s : State) (o hi lo v : Nat) : (s.setFld o hi lo v).freeCtr = s.freeCtr := rfl
@[simp] theorem setFld_pending (s : State) (o hi lo v : Nat) : (s.setFld o hi lo v).pending = s.pending := rfl
@[simp] theorem setFld_mem (s : State) (o hi lo v : Nat) : (s.setFld o hi lo v).mem = s.mem := rfl
@[simp] theorem setFld_badUnits (s : State) (o hi lo v : Nat) : (s.setFld o hi lo v).badUnits = s.badUnits := rfl
@[simp] theorem setFld_weakUnits (s : State) (o hi lo v : Nat) : (s.setFld o hi lo v).weakUnits = s.weakUnits := rfl
@[simp] theorem setFld_latches (s : State) (o hi lo v : Nat) : (s.setFld o hi lo v).latches = s.latches := rfl
@[simp] theorem setFld_cores (s : State) (o hi lo v : Nat) : (s.setFld o hi lo v).cores = s.cores := rfl
@[simp] theorem setFld_parts (s : State) (o hi lo v : Nat) : (s.setFld o hi lo v).parts = s.parts := rfl
@[simp] theorem setFld_handles (s : State) (o hi lo v : Nat) : (s.setFld o hi lo v).handles = s.handles := rfl
@[simp] theorem setFld_lastHandle (s : State) (o hi lo v : Nat) : (s.setFld o hi lo v).lastHandle = s.lastHandle := rfl
@[simp] theorem setFld_staging (s : State) (o hi lo v : Nat) : (s.setFld o hi lo v).staging = s.staging := rfl
@[simp] theorem setFld_diag (s : State) (o hi lo v : Nat) : (s.setFld o hi lo v).diag = s.diag := rfl
@[simp] theorem setFld_usb (s : State) (o hi lo v : Nat) : (s.setFld o hi lo v).usb = s.usb := rfl
@[simp] theorem setFld_mc (s : State) (o hi lo v : Nat) : (s.setFld o hi lo v).mc = s.mc := rfl
@[simp] theorem setFld_ports (s : State) (o hi lo v : Nat) : (s.setFld o hi lo v).ports = s.ports := rfl
@[simp] theorem setFld_nvm (s : State) (o hi lo v : Nat) : (s.setFld o hi lo v).nvm = s.nvm := rfl
@[simp] theorem setFld_counters (s : State) (o hi lo v : Nat) : (s.setFld o hi lo v).counters = s.counters := rfl
@[simp] theorem setFld_paired (s : State) (o hi lo v : Nat) : (s.setFld o hi lo v).paired = s.paired := rfl
@[simp] theorem setFld_rd (s : State) (o hi lo v : Nat) (z : Nat) : (s.setFld o hi lo v).rd z = s.rd z := rfl
@[simp] theorem setFld_job (s : State) (o hi lo v : Nat) (y : PartId) : (s.setFld o hi lo v).job y = s.job y := rfl
@[simp] theorem setFld_counter (s : State) (o hi lo v : Nat) (y : Nat) : (s.setFld o hi lo v).counter y = s.counter y := rfl

/-! ### countFld -/

@[simp] theorem countFld_freeCtr (s : State) (o hi lo k : Nat) : (s.countFld o hi lo k).freeCtr = s.freeCtr := rfl
@[simp] theorem countFld_pending (s : State) (o hi lo k : Nat) : (s.countFld o hi lo k).pending = s.pending := rfl
@[simp] theorem countFld_mem (s : State) (o hi lo k : Nat) : (s.countFld o hi lo k).mem = s.mem := rfl
@[simp] theorem countFld_badUnits (s : State) (o hi lo k : Nat) : (s.countFld o hi lo k).badUnits = s.badUnits := rfl
@[simp] theorem countFld_weakUnits (s : State) (o hi lo k : Nat) : (s.countFld o hi lo k).weakUnits = s.weakUnits := rfl
@[simp] theorem countFld_latches (s : State) (o hi lo k : Nat) : (s.countFld o hi lo k).latches = s.latches := rfl
@[simp] theorem countFld_cores (s : State) (o hi lo k : Nat) : (s.countFld o hi lo k).cores = s.cores := rfl
@[simp] theorem countFld_parts (s : State) (o hi lo k : Nat) : (s.countFld o hi lo k).parts = s.parts := rfl
@[simp] theorem countFld_handles (s : State) (o hi lo k : Nat) : (s.countFld o hi lo k).handles = s.handles := rfl
@[simp] theorem countFld_lastHandle (s : State) (o hi lo k : Nat) : (s.countFld o hi lo k).lastHandle = s.lastHandle := rfl
@[simp] theorem countFld_staging (s : State) (o hi lo k : Nat) : (s.countFld o hi lo k).staging = s.staging := rfl
@[simp] theorem countFld_diag (s : State) (o hi lo k : Nat) : (s.countFld o hi lo k).diag = s.diag := rfl
@[simp] theorem countFld_usb (s : State) (o hi lo k : Nat) : (s.countFld o hi lo k).usb = s.usb := rfl
@[simp] theorem countFld_mc (s : State) (o hi lo k : Nat) : (s.countFld o hi lo k).mc = s.mc := rfl
@[simp] theorem countFld_ports (s : State) (o hi lo k : Nat) : (s.countFld o hi lo k).ports = s.ports := rfl
@[simp] theorem countFld_nvm (s : State) (o hi lo k : Nat) : (s.countFld o hi lo k).nvm = s.nvm := rfl
@[simp] theorem countFld_counters (s : State) (o hi lo k : Nat) : (s.countFld o hi lo k).counters = s.counters := rfl
@[simp] theorem countFld_paired (s : State) (o hi lo k : Nat) : (s.countFld o hi lo k).paired = s.paired := rfl
@[simp] theorem countFld_rd (s : State) (o hi lo k : Nat) (z : Nat) : (s.countFld o hi lo k).rd z = s.rd z := rfl
@[simp] theorem countFld_job (s : State) (o hi lo k : Nat) (y : PartId) : (s.countFld o hi lo k).job y = s.job y := rfl
@[simp] theorem countFld_counter (s : State) (o hi lo k : Nat) (y : Nat) : (s.countFld o hi lo k).counter y = s.counter y := rfl

/-! ### count -/

@[simp] theorem count_freeCtr (s : State) (o k : Nat) : (s.count o k).freeCtr = s.freeCtr := rfl
@[simp] theorem count_pending (s : State) (o k : Nat) : (s.count o k).pending = s.pending := rfl
@[simp] theorem count_mem (s : State) (o k : Nat) : (s.count o k).mem = s.mem := rfl
@[simp] theorem count_badUnits (s : State) (o k : Nat) : (s.count o k).badUnits = s.badUnits := rfl
@[simp] theorem count_weakUnits (s : State) (o k : Nat) : (s.count o k).weakUnits = s.weakUnits := rfl
@[simp] theorem count_latches (s : State) (o k : Nat) : (s.count o k).latches = s.latches := rfl
@[simp] theorem count_cores (s : State) (o k : Nat) : (s.count o k).cores = s.cores := rfl
@[simp] theorem count_parts (s : State) (o k : Nat) : (s.count o k).parts = s.parts := rfl
@[simp] theorem count_handles (s : State) (o k : Nat) : (s.count o k).handles = s.handles := rfl
@[simp] theorem count_lastHandle (s : State) (o k : Nat) : (s.count o k).lastHandle = s.lastHandle := rfl
@[simp] theorem count_staging (s : State) (o k : Nat) : (s.count o k).staging = s.staging := rfl
@[simp] theorem count_diag (s : State) (o k : Nat) : (s.count o k).diag = s.diag := rfl
@[simp] theorem count_usb (s : State) (o k : Nat) : (s.count o k).usb = s.usb := rfl
@[simp] theorem count_mc (s : State) (o k : Nat) : (s.count o k).mc = s.mc := rfl
@[simp] theorem count_ports (s : State) (o k : Nat) : (s.count o k).ports = s.ports := rfl
@[simp] theorem count_nvm (s : State) (o k : Nat) : (s.count o k).nvm = s.nvm := rfl
@[simp] theorem count_counters (s : State) (o k : Nat) : (s.count o k).counters = s.counters := rfl
@[simp] theorem count_paired (s : State) (o k : Nat) : (s.count o k).paired = s.paired := rfl
@[simp] theorem count_rd (s : State) (o k : Nat) (z : Nat) : (s.count o k).rd z = s.rd z := rfl
@[simp] theorem count_job (s : State) (o k : Nat) (y : PartId) : (s.count o k).job y = s.job y := rfl
@[simp] theorem count_counter (s : State) (o k : Nat) (y : Nat) : (s.count o k).counter y = s.counter y := rfl

/-! ### count64 -/

@[simp] theorem count64_freeCtr (s : State) (lo hi k : Nat) : (s.count64 lo hi k).freeCtr = s.freeCtr := by
  rw [State.count64]; exact (setReg_freeCtr _ _ _).trans (setReg_freeCtr _ _ _)
@[simp] theorem count64_pending (s : State) (lo hi k : Nat) : (s.count64 lo hi k).pending = s.pending := by
  rw [State.count64]; exact (setReg_pending _ _ _).trans (setReg_pending _ _ _)
@[simp] theorem count64_mem (s : State) (lo hi k : Nat) : (s.count64 lo hi k).mem = s.mem := by
  rw [State.count64]; exact (setReg_mem _ _ _).trans (setReg_mem _ _ _)
@[simp] theorem count64_badUnits (s : State) (lo hi k : Nat) : (s.count64 lo hi k).badUnits = s.badUnits := by
  rw [State.count64]; exact (setReg_badUnits _ _ _).trans (setReg_badUnits _ _ _)
@[simp] theorem count64_weakUnits (s : State) (lo hi k : Nat) : (s.count64 lo hi k).weakUnits = s.weakUnits := by
  rw [State.count64]; exact (setReg_weakUnits _ _ _).trans (setReg_weakUnits _ _ _)
@[simp] theorem count64_latches (s : State) (lo hi k : Nat) : (s.count64 lo hi k).latches = s.latches := by
  rw [State.count64]; exact (setReg_latches _ _ _).trans (setReg_latches _ _ _)
@[simp] theorem count64_cores (s : State) (lo hi k : Nat) : (s.count64 lo hi k).cores = s.cores := by
  rw [State.count64]; exact (setReg_cores _ _ _).trans (setReg_cores _ _ _)
@[simp] theorem count64_parts (s : State) (lo hi k : Nat) : (s.count64 lo hi k).parts = s.parts := by
  rw [State.count64]; exact (setReg_parts _ _ _).trans (setReg_parts _ _ _)
@[simp] theorem count64_handles (s : State) (lo hi k : Nat) : (s.count64 lo hi k).handles = s.handles := by
  rw [State.count64]; exact (setReg_handles _ _ _).trans (setReg_handles _ _ _)
@[simp] theorem count64_lastHandle (s : State) (lo hi k : Nat) : (s.count64 lo hi k).lastHandle = s.lastHandle := by
  rw [State.count64]; exact (setReg_lastHandle _ _ _).trans (setReg_lastHandle _ _ _)
@[simp] theorem count64_staging (s : State) (lo hi k : Nat) : (s.count64 lo hi k).staging = s.staging := by
  rw [State.count64]; exact (setReg_staging _ _ _).trans (setReg_staging _ _ _)
@[simp] theorem count64_diag (s : State) (lo hi k : Nat) : (s.count64 lo hi k).diag = s.diag := by
  rw [State.count64]; exact (setReg_diag _ _ _).trans (setReg_diag _ _ _)
@[simp] theorem count64_usb (s : State) (lo hi k : Nat) : (s.count64 lo hi k).usb = s.usb := by
  rw [State.count64]; exact (setReg_usb _ _ _).trans (setReg_usb _ _ _)
@[simp] theorem count64_mc (s : State) (lo hi k : Nat) : (s.count64 lo hi k).mc = s.mc := by
  rw [State.count64]; exact (setReg_mc _ _ _).trans (setReg_mc _ _ _)
@[simp] theorem count64_ports (s : State) (lo hi k : Nat) : (s.count64 lo hi k).ports = s.ports := by
  rw [State.count64]; exact (setReg_ports _ _ _).trans (setReg_ports _ _ _)
@[simp] theorem count64_nvm (s : State) (lo hi k : Nat) : (s.count64 lo hi k).nvm = s.nvm := by
  rw [State.count64]; exact (setReg_nvm _ _ _).trans (setReg_nvm _ _ _)
@[simp] theorem count64_counters (s : State) (lo hi k : Nat) : (s.count64 lo hi k).counters = s.counters := by
  rw [State.count64]; exact (setReg_counters _ _ _).trans (setReg_counters _ _ _)
@[simp] theorem count64_paired (s : State) (lo hi k : Nat) : (s.count64 lo hi k).paired = s.paired := by
  rw [State.count64]; exact (setReg_paired _ _ _).trans (setReg_paired _ _ _)
@[simp] theorem count64_rd (s : State) (lo hi k : Nat) (z : Nat) : (s.count64 lo hi k).rd z = s.rd z := by
  rw [State.count64]; exact (setReg_rd _ _ _ _).trans (setReg_rd _ _ _ _)
@[simp] theorem count64_job (s : State) (lo hi k : Nat) (y : PartId) : (s.count64 lo hi k).job y = s.job y := by
  rw [State.count64]; exact (setReg_job _ _ _ _).trans (setReg_job _ _ _ _)
@[simp] theorem count64_counter (s : State) (lo hi k : Nat) (y : Nat) : (s.count64 lo hi k).counter y = s.counter y := by
  rw [State.count64]; exact (setReg_counter _ _ _ _).trans (setReg_counter _ _ _ _)

/-! ### updCore -/

@[simp] theorem updCore_freeCtr (s : State) (c : CoreId) (f : CoreS → CoreS) : (s.updCore c f).freeCtr = s.freeCtr := rfl
@[simp] theorem updCore_pending (s : State) (c : CoreId) (f : CoreS → CoreS) : (s.updCore c f).pending = s.pending := rfl
@[simp] theorem updCore_mem (s : State) (c : CoreId) (f : CoreS → CoreS) : (s.updCore c f).mem = s.mem := rfl
@[simp] theorem updCore_badUnits (s : State) (c : CoreId) (f : CoreS → CoreS) : (s.updCore c f).badUnits = s.badUnits := rfl
@[simp] theorem updCore_weakUnits (s : State) (c : CoreId) (f : CoreS → CoreS) : (s.updCore c f).weakUnits = s.weakUnits := rfl
@[simp] theorem updCore_regs (s : State) (c : CoreId) (f : CoreS → CoreS) : (s.updCore c f).regs = s.regs := rfl
@[simp] theorem updCore_latches (s : State) (c : CoreId) (f : CoreS → CoreS) : (s.updCore c f).latches = s.latches := rfl
@[simp] theorem updCore_parts (s : State) (c : CoreId) (f : CoreS → CoreS) : (s.updCore c f).parts = s.parts := rfl
@[simp] theorem updCore_handles (s : State) (c : CoreId) (f : CoreS → CoreS) : (s.updCore c f).handles = s.handles := rfl
@[simp] theorem updCore_lastHandle (s : State) (c : CoreId) (f : CoreS → CoreS) : (s.updCore c f).lastHandle = s.lastHandle := rfl
@[simp] theorem updCore_staging (s : State) (c : CoreId) (f : CoreS → CoreS) : (s.updCore c f).staging = s.staging := rfl
@[simp] theorem updCore_diag (s : State) (c : CoreId) (f : CoreS → CoreS) : (s.updCore c f).diag = s.diag := rfl
@[simp] theorem updCore_usb (s : State) (c : CoreId) (f : CoreS → CoreS) : (s.updCore c f).usb = s.usb := rfl
@[simp] theorem updCore_mc (s : State) (c : CoreId) (f : CoreS → CoreS) : (s.updCore c f).mc = s.mc := rfl
@[simp] theorem updCore_ports (s : State) (c : CoreId) (f : CoreS → CoreS) : (s.updCore c f).ports = s.ports := rfl
@[simp] theorem updCore_nvm (s : State) (c : CoreId) (f : CoreS → CoreS) : (s.updCore c f).nvm = s.nvm := rfl
@[simp] theorem updCore_counters (s : State) (c : CoreId) (f : CoreS → CoreS) : (s.updCore c f).counters = s.counters := rfl
@[simp] theorem updCore_paired (s : State) (c : CoreId) (f : CoreS → CoreS) : (s.updCore c f).paired = s.paired := rfl
@[simp] theorem updCore_reg (s : State) (c : CoreId) (f : CoreS → CoreS) (r : Nat) : (s.updCore c f).reg r = s.reg r := rfl
@[simp] theorem updCore_rd (s : State) (c : CoreId) (f : CoreS → CoreS) (z : Nat) : (s.updCore c f).rd z = s.rd z := rfl
@[simp] theorem updCore_job (s : State) (c : CoreId) (f : CoreS → CoreS) (y : PartId) : (s.updCore c f).job y = s.job y := rfl
@[simp] theorem updCore_counter (s : State) (c : CoreId) (f : CoreS → CoreS) (y : Nat) : (s.updCore c f).counter y = s.counter y := rfl

/-! ### mapCores -/

@[simp] theorem mapCores_freeCtr (s : State) (f : CoreS → CoreS) : (s.mapCores f).freeCtr = s.freeCtr := rfl
@[simp] theorem mapCores_pending (s : State) (f : CoreS → CoreS) : (s.mapCores f).pending = s.pending := rfl
@[simp] theorem mapCores_mem (s : State) (f : CoreS → CoreS) : (s.mapCores f).mem = s.mem := rfl
@[simp] theorem mapCores_badUnits (s : State) (f : CoreS → CoreS) : (s.mapCores f).badUnits = s.badUnits := rfl
@[simp] theorem mapCores_weakUnits (s : State) (f : CoreS → CoreS) : (s.mapCores f).weakUnits = s.weakUnits := rfl
@[simp] theorem mapCores_regs (s : State) (f : CoreS → CoreS) : (s.mapCores f).regs = s.regs := rfl
@[simp] theorem mapCores_latches (s : State) (f : CoreS → CoreS) : (s.mapCores f).latches = s.latches := rfl
@[simp] theorem mapCores_parts (s : State) (f : CoreS → CoreS) : (s.mapCores f).parts = s.parts := rfl
@[simp] theorem mapCores_handles (s : State) (f : CoreS → CoreS) : (s.mapCores f).handles = s.handles := rfl
@[simp] theorem mapCores_lastHandle (s : State) (f : CoreS → CoreS) : (s.mapCores f).lastHandle = s.lastHandle := rfl
@[simp] theorem mapCores_staging (s : State) (f : CoreS → CoreS) : (s.mapCores f).staging = s.staging := rfl
@[simp] theorem mapCores_diag (s : State) (f : CoreS → CoreS) : (s.mapCores f).diag = s.diag := rfl
@[simp] theorem mapCores_usb (s : State) (f : CoreS → CoreS) : (s.mapCores f).usb = s.usb := rfl
@[simp] theorem mapCores_mc (s : State) (f : CoreS → CoreS) : (s.mapCores f).mc = s.mc := rfl
@[simp] theorem mapCores_ports (s : State) (f : CoreS → CoreS) : (s.mapCores f).ports = s.ports := rfl
@[simp] theorem mapCores_nvm (s : State) (f : CoreS → CoreS) : (s.mapCores f).nvm = s.nvm := rfl
@[simp] theorem mapCores_counters (s : State) (f : CoreS → CoreS) : (s.mapCores f).counters = s.counters := rfl
@[simp] theorem mapCores_paired (s : State) (f : CoreS → CoreS) : (s.mapCores f).paired = s.paired := rfl
@[simp] theorem mapCores_reg (s : State) (f : CoreS → CoreS) (r : Nat) : (s.mapCores f).reg r = s.reg r := rfl
@[simp] theorem mapCores_rd (s : State) (f : CoreS → CoreS) (z : Nat) : (s.mapCores f).rd z = s.rd z := rfl
@[simp] theorem mapCores_job (s : State) (f : CoreS → CoreS) (y : PartId) : (s.mapCores f).job y = s.job y := rfl
@[simp] theorem mapCores_counter (s : State) (f : CoreS → CoreS) (y : Nat) : (s.mapCores f).counter y = s.counter y := rfl

/-! ### updStream -/

@[simp] theorem updStream_freeCtr (s : State) (c : CoreId) (x : CtxId) (f : Stream → Stream) : (s.updStream c x f).freeCtr = s.freeCtr := rfl
@[simp] theorem updStream_pending (s : State) (c : CoreId) (x : CtxId) (f : Stream → Stream) : (s.updStream c x f).pending = s.pending := rfl
@[simp] theorem updStream_mem (s : State) (c : CoreId) (x : CtxId) (f : Stream → Stream) : (s.updStream c x f).mem = s.mem := rfl
@[simp] theorem updStream_badUnits (s : State) (c : CoreId) (x : CtxId) (f : Stream → Stream) : (s.updStream c x f).badUnits = s.badUnits := rfl
@[simp] theorem updStream_weakUnits (s : State) (c : CoreId) (x : CtxId) (f : Stream → Stream) : (s.updStream c x f).weakUnits = s.weakUnits := rfl
@[simp] theorem updStream_regs (s : State) (c : CoreId) (x : CtxId) (f : Stream → Stream) : (s.updStream c x f).regs = s.regs := rfl
@[simp] theorem updStream_latches (s : State) (c : CoreId) (x : CtxId) (f : Stream → Stream) : (s.updStream c x f).latches = s.latches := rfl
@[simp] theorem updStream_parts (s : State) (c : CoreId) (x : CtxId) (f : Stream → Stream) : (s.updStream c x f).parts = s.parts := rfl
@[simp] theorem updStream_handles (s : State) (c : CoreId) (x : CtxId) (f : Stream → Stream) : (s.updStream c x f).handles = s.handles := rfl
@[simp] theorem updStream_lastHandle (s : State) (c : CoreId) (x : CtxId) (f : Stream → Stream) : (s.updStream c x f).lastHandle = s.lastHandle := rfl
@[simp] theorem updStream_staging (s : State) (c : CoreId) (x : CtxId) (f : Stream → Stream) : (s.updStream c x f).staging = s.staging := rfl
@[simp] theorem updStream_diag (s : State) (c : CoreId) (x : CtxId) (f : Stream → Stream) : (s.updStream c x f).diag = s.diag := rfl
@[simp] theorem updStream_usb (s : State) (c : CoreId) (x : CtxId) (f : Stream → Stream) : (s.updStream c x f).usb = s.usb := rfl
@[simp] theorem updStream_mc (s : State) (c : CoreId) (x : CtxId) (f : Stream → Stream) : (s.updStream c x f).mc = s.mc := rfl
@[simp] theorem updStream_ports (s : State) (c : CoreId) (x : CtxId) (f : Stream → Stream) : (s.updStream c x f).ports = s.ports := rfl
@[simp] theorem updStream_nvm (s : State) (c : CoreId) (x : CtxId) (f : Stream → Stream) : (s.updStream c x f).nvm = s.nvm := rfl
@[simp] theorem updStream_counters (s : State) (c : CoreId) (x : CtxId) (f : Stream → Stream) : (s.updStream c x f).counters = s.counters := rfl
@[simp] theorem updStream_paired (s : State) (c : CoreId) (x : CtxId) (f : Stream → Stream) : (s.updStream c x f).paired = s.paired := rfl
@[simp] theorem updStream_reg (s : State) (c : CoreId) (x : CtxId) (f : Stream → Stream) (r : Nat) : (s.updStream c x f).reg r = s.reg r := rfl
@[simp] theorem updStream_rd (s : State) (c : CoreId) (x : CtxId) (f : Stream → Stream) (z : Nat) : (s.updStream c x f).rd z = s.rd z := rfl
@[simp] theorem updStream_job (s : State) (c : CoreId) (x : CtxId) (f : Stream → Stream) (y : PartId) : (s.updStream c x f).job y = s.job y := rfl
@[simp] theorem updStream_counter (s : State) (c : CoreId) (x : CtxId) (f : Stream → Stream) (y : Nat) : (s.updStream c x f).counter y = s.counter y := rfl

/-! ### updIssued -/

@[simp] theorem updIssued_freeCtr (s : State) (c : CoreId) (q : Nat) (f : Issued → Issued) : (s.updIssued c q f).freeCtr = s.freeCtr := rfl
@[simp] theorem updIssued_pending (s : State) (c : CoreId) (q : Nat) (f : Issued → Issued) : (s.updIssued c q f).pending = s.pending := rfl
@[simp] theorem updIssued_mem (s : State) (c : CoreId) (q : Nat) (f : Issued → Issued) : (s.updIssued c q f).mem = s.mem := rfl
@[simp] theorem updIssued_badUnits (s : State) (c : CoreId) (q : Nat) (f : Issued → Issued) : (s.updIssued c q f).badUnits = s.badUnits := rfl
@[simp] theorem updIssued_weakUnits (s : State) (c : CoreId) (q : Nat) (f : Issued → Issued) : (s.updIssued c q f).weakUnits = s.weakUnits := rfl
@[simp] theorem updIssued_regs (s : State) (c : CoreId) (q : Nat) (f : Issued → Issued) : (s.updIssued c q f).regs = s.regs := rfl
@[simp] theorem updIssued_latches (s : State) (c : CoreId) (q : Nat) (f : Issued → Issued) : (s.updIssued c q f).latches = s.latches := rfl
@[simp] theorem updIssued_parts (s : State) (c : CoreId) (q : Nat) (f : Issued → Issued) : (s.updIssued c q f).parts = s.parts := rfl
@[simp] theorem updIssued_handles (s : State) (c : CoreId) (q : Nat) (f : Issued → Issued) : (s.updIssued c q f).handles = s.handles := rfl
@[simp] theorem updIssued_lastHandle (s : State) (c : CoreId) (q : Nat) (f : Issued → Issued) : (s.updIssued c q f).lastHandle = s.lastHandle := rfl
@[simp] theorem updIssued_staging (s : State) (c : CoreId) (q : Nat) (f : Issued → Issued) : (s.updIssued c q f).staging = s.staging := rfl
@[simp] theorem updIssued_diag (s : State) (c : CoreId) (q : Nat) (f : Issued → Issued) : (s.updIssued c q f).diag = s.diag := rfl
@[simp] theorem updIssued_usb (s : State) (c : CoreId) (q : Nat) (f : Issued → Issued) : (s.updIssued c q f).usb = s.usb := rfl
@[simp] theorem updIssued_mc (s : State) (c : CoreId) (q : Nat) (f : Issued → Issued) : (s.updIssued c q f).mc = s.mc := rfl
@[simp] theorem updIssued_ports (s : State) (c : CoreId) (q : Nat) (f : Issued → Issued) : (s.updIssued c q f).ports = s.ports := rfl
@[simp] theorem updIssued_nvm (s : State) (c : CoreId) (q : Nat) (f : Issued → Issued) : (s.updIssued c q f).nvm = s.nvm := rfl
@[simp] theorem updIssued_counters (s : State) (c : CoreId) (q : Nat) (f : Issued → Issued) : (s.updIssued c q f).counters = s.counters := rfl
@[simp] theorem updIssued_paired (s : State) (c : CoreId) (q : Nat) (f : Issued → Issued) : (s.updIssued c q f).paired = s.paired := rfl
@[simp] theorem updIssued_reg (s : State) (c : CoreId) (q : Nat) (f : Issued → Issued) (r : Nat) : (s.updIssued c q f).reg r = s.reg r := rfl
@[simp] theorem updIssued_rd (s : State) (c : CoreId) (q : Nat) (f : Issued → Issued) (z : Nat) : (s.updIssued c q f).rd z = s.rd z := rfl
@[simp] theorem updIssued_job (s : State) (c : CoreId) (q : Nat) (f : Issued → Issued) (y : PartId) : (s.updIssued c q f).job y = s.job y := rfl
@[simp] theorem updIssued_counter (s : State) (c : CoreId) (q : Nat) (f : Issued → Issued) (y : Nat) : (s.updIssued c q f).counter y = s.counter y := rfl

/-! ### dropIssued -/

@[simp] theorem dropIssued_freeCtr (s : State) (c : CoreId) (q : Nat) : (s.dropIssued c q).freeCtr = s.freeCtr := rfl
@[simp] theorem dropIssued_pending (s : State) (c : CoreId) (q : Nat) : (s.dropIssued c q).pending = s.pending := rfl
@[simp] theorem dropIssued_mem (s : State) (c : CoreId) (q : Nat) : (s.dropIssued c q).mem = s.mem := rfl
@[simp] theorem dropIssued_badUnits (s : State) (c : CoreId) (q : Nat) : (s.dropIssued c q).badUnits = s.badUnits := rfl
@[simp] theorem dropIssued_weakUnits (s : State) (c : CoreId) (q : Nat) : (s.dropIssued c q).weakUnits = s.weakUnits := rfl
@[simp] theorem dropIssued_regs (s : State) (c : CoreId) (q : Nat) : (s.dropIssued c q).regs = s.regs := rfl
@[simp] theorem dropIssued_latches (s : State) (c : CoreId) (q : Nat) : (s.dropIssued c q).latches = s.latches := rfl
@[simp] theorem dropIssued_parts (s : State) (c : CoreId) (q : Nat) : (s.dropIssued c q).parts = s.parts := rfl
@[simp] theorem dropIssued_handles (s : State) (c : CoreId) (q : Nat) : (s.dropIssued c q).handles = s.handles := rfl
@[simp] theorem dropIssued_lastHandle (s : State) (c : CoreId) (q : Nat) : (s.dropIssued c q).lastHandle = s.lastHandle := rfl
@[simp] theorem dropIssued_staging (s : State) (c : CoreId) (q : Nat) : (s.dropIssued c q).staging = s.staging := rfl
@[simp] theorem dropIssued_diag (s : State) (c : CoreId) (q : Nat) : (s.dropIssued c q).diag = s.diag := rfl
@[simp] theorem dropIssued_usb (s : State) (c : CoreId) (q : Nat) : (s.dropIssued c q).usb = s.usb := rfl
@[simp] theorem dropIssued_mc (s : State) (c : CoreId) (q : Nat) : (s.dropIssued c q).mc = s.mc := rfl
@[simp] theorem dropIssued_ports (s : State) (c : CoreId) (q : Nat) : (s.dropIssued c q).ports = s.ports := rfl
@[simp] theorem dropIssued_nvm (s : State) (c : CoreId) (q : Nat) : (s.dropIssued c q).nvm = s.nvm := rfl
@[simp] theorem dropIssued_counters (s : State) (c : CoreId) (q : Nat) : (s.dropIssued c q).counters = s.counters := rfl
@[simp] theorem dropIssued_paired (s : State) (c : CoreId) (q : Nat) : (s.dropIssued c q).paired = s.paired := rfl
@[simp] theorem dropIssued_reg (s : State) (c : CoreId) (q : Nat) (r : Nat) : (s.dropIssued c q).reg r = s.reg r := rfl
@[simp] theorem dropIssued_rd (s : State) (c : CoreId) (q : Nat) (z : Nat) : (s.dropIssued c q).rd z = s.rd z := rfl
@[simp] theorem dropIssued_job (s : State) (c : CoreId) (q : Nat) (y : PartId) : (s.dropIssued c q).job y = s.job y := rfl
@[simp] theorem dropIssued_counter (s : State) (c : CoreId) (q : Nat) (y : Nat) : (s.dropIssued c q).counter y = s.counter y := rfl

/-! ### updLCtx -/

@[simp] theorem updLCtx_freeCtr (s : State) (v : Serve) (f : LCtx → LCtx) : (s.updLCtx v f).freeCtr = s.freeCtr := rfl
@[simp] theorem updLCtx_pending (s : State) (v : Serve) (f : LCtx → LCtx) : (s.updLCtx v f).pending = s.pending := rfl
@[simp] theorem updLCtx_mem (s : State) (v : Serve) (f : LCtx → LCtx) : (s.updLCtx v f).mem = s.mem := rfl
@[simp] theorem updLCtx_badUnits (s : State) (v : Serve) (f : LCtx → LCtx) : (s.updLCtx v f).badUnits = s.badUnits := rfl
@[simp] theorem updLCtx_weakUnits (s : State) (v : Serve) (f : LCtx → LCtx) : (s.updLCtx v f).weakUnits = s.weakUnits := rfl
@[simp] theorem updLCtx_regs (s : State) (v : Serve) (f : LCtx → LCtx) : (s.updLCtx v f).regs = s.regs := rfl
@[simp] theorem updLCtx_latches (s : State) (v : Serve) (f : LCtx → LCtx) : (s.updLCtx v f).latches = s.latches := rfl
@[simp] theorem updLCtx_parts (s : State) (v : Serve) (f : LCtx → LCtx) : (s.updLCtx v f).parts = s.parts := rfl
@[simp] theorem updLCtx_handles (s : State) (v : Serve) (f : LCtx → LCtx) : (s.updLCtx v f).handles = s.handles := rfl
@[simp] theorem updLCtx_lastHandle (s : State) (v : Serve) (f : LCtx → LCtx) : (s.updLCtx v f).lastHandle = s.lastHandle := rfl
@[simp] theorem updLCtx_staging (s : State) (v : Serve) (f : LCtx → LCtx) : (s.updLCtx v f).staging = s.staging := rfl
@[simp] theorem updLCtx_diag (s : State) (v : Serve) (f : LCtx → LCtx) : (s.updLCtx v f).diag = s.diag := rfl
@[simp] theorem updLCtx_usb (s : State) (v : Serve) (f : LCtx → LCtx) : (s.updLCtx v f).usb = s.usb := rfl
@[simp] theorem updLCtx_mc (s : State) (v : Serve) (f : LCtx → LCtx) : (s.updLCtx v f).mc = s.mc := rfl
@[simp] theorem updLCtx_ports (s : State) (v : Serve) (f : LCtx → LCtx) : (s.updLCtx v f).ports = s.ports := rfl
@[simp] theorem updLCtx_nvm (s : State) (v : Serve) (f : LCtx → LCtx) : (s.updLCtx v f).nvm = s.nvm := rfl
@[simp] theorem updLCtx_counters (s : State) (v : Serve) (f : LCtx → LCtx) : (s.updLCtx v f).counters = s.counters := rfl
@[simp] theorem updLCtx_paired (s : State) (v : Serve) (f : LCtx → LCtx) : (s.updLCtx v f).paired = s.paired := rfl
@[simp] theorem updLCtx_reg (s : State) (v : Serve) (f : LCtx → LCtx) (r : Nat) : (s.updLCtx v f).reg r = s.reg r := rfl
@[simp] theorem updLCtx_rd (s : State) (v : Serve) (f : LCtx → LCtx) (z : Nat) : (s.updLCtx v f).rd z = s.rd z := rfl
@[simp] theorem updLCtx_job (s : State) (v : Serve) (f : LCtx → LCtx) (y : PartId) : (s.updLCtx v f).job y = s.job y := rfl
@[simp] theorem updLCtx_counter (s : State) (v : Serve) (f : LCtx → LCtx) (y : Nat) : (s.updLCtx v f).counter y = s.counter y := rfl

/-! ### updPart -/

@[simp] theorem updPart_freeCtr (s : State) (p : PartId) (f : Part → Part) : (s.updPart p f).freeCtr = s.freeCtr := rfl
@[simp] theorem updPart_pending (s : State) (p : PartId) (f : Part → Part) : (s.updPart p f).pending = s.pending := rfl
@[simp] theorem updPart_mem (s : State) (p : PartId) (f : Part → Part) : (s.updPart p f).mem = s.mem := rfl
@[simp] theorem updPart_badUnits (s : State) (p : PartId) (f : Part → Part) : (s.updPart p f).badUnits = s.badUnits := rfl
@[simp] theorem updPart_weakUnits (s : State) (p : PartId) (f : Part → Part) : (s.updPart p f).weakUnits = s.weakUnits := rfl
@[simp] theorem updPart_regs (s : State) (p : PartId) (f : Part → Part) : (s.updPart p f).regs = s.regs := rfl
@[simp] theorem updPart_latches (s : State) (p : PartId) (f : Part → Part) : (s.updPart p f).latches = s.latches := rfl
@[simp] theorem updPart_cores (s : State) (p : PartId) (f : Part → Part) : (s.updPart p f).cores = s.cores := rfl
@[simp] theorem updPart_handles (s : State) (p : PartId) (f : Part → Part) : (s.updPart p f).handles = s.handles := rfl
@[simp] theorem updPart_lastHandle (s : State) (p : PartId) (f : Part → Part) : (s.updPart p f).lastHandle = s.lastHandle := rfl
@[simp] theorem updPart_staging (s : State) (p : PartId) (f : Part → Part) : (s.updPart p f).staging = s.staging := rfl
@[simp] theorem updPart_diag (s : State) (p : PartId) (f : Part → Part) : (s.updPart p f).diag = s.diag := rfl
@[simp] theorem updPart_usb (s : State) (p : PartId) (f : Part → Part) : (s.updPart p f).usb = s.usb := rfl
@[simp] theorem updPart_mc (s : State) (p : PartId) (f : Part → Part) : (s.updPart p f).mc = s.mc := rfl
@[simp] theorem updPart_ports (s : State) (p : PartId) (f : Part → Part) : (s.updPart p f).ports = s.ports := rfl
@[simp] theorem updPart_nvm (s : State) (p : PartId) (f : Part → Part) : (s.updPart p f).nvm = s.nvm := rfl
@[simp] theorem updPart_counters (s : State) (p : PartId) (f : Part → Part) : (s.updPart p f).counters = s.counters := rfl
@[simp] theorem updPart_paired (s : State) (p : PartId) (f : Part → Part) : (s.updPart p f).paired = s.paired := rfl
@[simp] theorem updPart_reg (s : State) (p : PartId) (f : Part → Part) (r : Nat) : (s.updPart p f).reg r = s.reg r := rfl
@[simp] theorem updPart_rd (s : State) (p : PartId) (f : Part → Part) (z : Nat) : (s.updPart p f).rd z = s.rd z := rfl
@[simp] theorem updPart_counter (s : State) (p : PartId) (f : Part → Part) (y : Nat) : (s.updPart p f).counter y = s.counter y := rfl

/-! ### updJob -/

@[simp] theorem updJob_freeCtr (s : State) (p : PartId) (f : Job → Job) : (s.updJob p f).freeCtr = s.freeCtr := rfl
@[simp] theorem updJob_pending (s : State) (p : PartId) (f : Job → Job) : (s.updJob p f).pending = s.pending := rfl
@[simp] theorem updJob_mem (s : State) (p : PartId) (f : Job → Job) : (s.updJob p f).mem = s.mem := rfl
@[simp] theorem updJob_badUnits (s : State) (p : PartId) (f : Job → Job) : (s.updJob p f).badUnits = s.badUnits := rfl
@[simp] theorem updJob_weakUnits (s : State) (p : PartId) (f : Job → Job) : (s.updJob p f).weakUnits = s.weakUnits := rfl
@[simp] theorem updJob_regs (s : State) (p : PartId) (f : Job → Job) : (s.updJob p f).regs = s.regs := rfl
@[simp] theorem updJob_latches (s : State) (p : PartId) (f : Job → Job) : (s.updJob p f).latches = s.latches := rfl
@[simp] theorem updJob_cores (s : State) (p : PartId) (f : Job → Job) : (s.updJob p f).cores = s.cores := rfl
@[simp] theorem updJob_handles (s : State) (p : PartId) (f : Job → Job) : (s.updJob p f).handles = s.handles := rfl
@[simp] theorem updJob_lastHandle (s : State) (p : PartId) (f : Job → Job) : (s.updJob p f).lastHandle = s.lastHandle := rfl
@[simp] theorem updJob_staging (s : State) (p : PartId) (f : Job → Job) : (s.updJob p f).staging = s.staging := rfl
@[simp] theorem updJob_diag (s : State) (p : PartId) (f : Job → Job) : (s.updJob p f).diag = s.diag := rfl
@[simp] theorem updJob_usb (s : State) (p : PartId) (f : Job → Job) : (s.updJob p f).usb = s.usb := rfl
@[simp] theorem updJob_mc (s : State) (p : PartId) (f : Job → Job) : (s.updJob p f).mc = s.mc := rfl
@[simp] theorem updJob_ports (s : State) (p : PartId) (f : Job → Job) : (s.updJob p f).ports = s.ports := rfl
@[simp] theorem updJob_nvm (s : State) (p : PartId) (f : Job → Job) : (s.updJob p f).nvm = s.nvm := rfl
@[simp] theorem updJob_counters (s : State) (p : PartId) (f : Job → Job) : (s.updJob p f).counters = s.counters := rfl
@[simp] theorem updJob_paired (s : State) (p : PartId) (f : Job → Job) : (s.updJob p f).paired = s.paired := rfl
@[simp] theorem updJob_reg (s : State) (p : PartId) (f : Job → Job) (r : Nat) : (s.updJob p f).reg r = s.reg r := rfl
@[simp] theorem updJob_rd (s : State) (p : PartId) (f : Job → Job) (z : Nat) : (s.updJob p f).rd z = s.rd z := rfl
@[simp] theorem updJob_counter (s : State) (p : PartId) (f : Job → Job) (y : Nat) : (s.updJob p f).counter y = s.counter y := rfl

/-! ### updIface -/

@[simp] theorem updIface_freeCtr (s : State) (p : PartId) (f : Iface → Iface) : (s.updIface p f).freeCtr = s.freeCtr := rfl
@[simp] theorem updIface_pending (s : State) (p : PartId) (f : Iface → Iface) : (s.updIface p f).pending = s.pending := rfl
@[simp] theorem updIface_mem (s : State) (p : PartId) (f : Iface → Iface) : (s.updIface p f).mem = s.mem := rfl
@[simp] theorem updIface_badUnits (s : State) (p : PartId) (f : Iface → Iface) : (s.updIface p f).badUnits = s.badUnits := rfl
@[simp] theorem updIface_weakUnits (s : State) (p : PartId) (f : Iface → Iface) : (s.updIface p f).weakUnits = s.weakUnits := rfl
@[simp] theorem updIface_regs (s : State) (p : PartId) (f : Iface → Iface) : (s.updIface p f).regs = s.regs := rfl
@[simp] theorem updIface_latches (s : State) (p : PartId) (f : Iface → Iface) : (s.updIface p f).latches = s.latches := rfl
@[simp] theorem updIface_cores (s : State) (p : PartId) (f : Iface → Iface) : (s.updIface p f).cores = s.cores := rfl
@[simp] theorem updIface_handles (s : State) (p : PartId) (f : Iface → Iface) : (s.updIface p f).handles = s.handles := rfl
@[simp] theorem updIface_lastHandle (s : State) (p : PartId) (f : Iface → Iface) : (s.updIface p f).lastHandle = s.lastHandle := rfl
@[simp] theorem updIface_staging (s : State) (p : PartId) (f : Iface → Iface) : (s.updIface p f).staging = s.staging := rfl
@[simp] theorem updIface_diag (s : State) (p : PartId) (f : Iface → Iface) : (s.updIface p f).diag = s.diag := rfl
@[simp] theorem updIface_usb (s : State) (p : PartId) (f : Iface → Iface) : (s.updIface p f).usb = s.usb := rfl
@[simp] theorem updIface_mc (s : State) (p : PartId) (f : Iface → Iface) : (s.updIface p f).mc = s.mc := rfl
@[simp] theorem updIface_ports (s : State) (p : PartId) (f : Iface → Iface) : (s.updIface p f).ports = s.ports := rfl
@[simp] theorem updIface_nvm (s : State) (p : PartId) (f : Iface → Iface) : (s.updIface p f).nvm = s.nvm := rfl
@[simp] theorem updIface_counters (s : State) (p : PartId) (f : Iface → Iface) : (s.updIface p f).counters = s.counters := rfl
@[simp] theorem updIface_paired (s : State) (p : PartId) (f : Iface → Iface) : (s.updIface p f).paired = s.paired := rfl
@[simp] theorem updIface_reg (s : State) (p : PartId) (f : Iface → Iface) (r : Nat) : (s.updIface p f).reg r = s.reg r := rfl
@[simp] theorem updIface_rd (s : State) (p : PartId) (f : Iface → Iface) (z : Nat) : (s.updIface p f).rd z = s.rd z := rfl
@[simp] theorem updIface_counter (s : State) (p : PartId) (f : Iface → Iface) (y : Nat) : (s.updIface p f).counter y = s.counter y := rfl

/-! ### updPort -/

@[simp] theorem updPort_freeCtr (s : State) (t : PortId) (f : Port → Port) : (s.updPort t f).freeCtr = s.freeCtr := rfl
@[simp] theorem updPort_pending (s : State) (t : PortId) (f : Port → Port) : (s.updPort t f).pending = s.pending := rfl
@[simp] theorem updPort_mem (s : State) (t : PortId) (f : Port → Port) : (s.updPort t f).mem = s.mem := rfl
@[simp] theorem updPort_badUnits (s : State) (t : PortId) (f : Port → Port) : (s.updPort t f).badUnits = s.badUnits := rfl
@[simp] theorem updPort_weakUnits (s : State) (t : PortId) (f : Port → Port) : (s.updPort t f).weakUnits = s.weakUnits := rfl
@[simp] theorem updPort_regs (s : State) (t : PortId) (f : Port → Port) : (s.updPort t f).regs = s.regs := rfl
@[simp] theorem updPort_latches (s : State) (t : PortId) (f : Port → Port) : (s.updPort t f).latches = s.latches := rfl
@[simp] theorem updPort_cores (s : State) (t : PortId) (f : Port → Port) : (s.updPort t f).cores = s.cores := rfl
@[simp] theorem updPort_parts (s : State) (t : PortId) (f : Port → Port) : (s.updPort t f).parts = s.parts := rfl
@[simp] theorem updPort_handles (s : State) (t : PortId) (f : Port → Port) : (s.updPort t f).handles = s.handles := rfl
@[simp] theorem updPort_lastHandle (s : State) (t : PortId) (f : Port → Port) : (s.updPort t f).lastHandle = s.lastHandle := rfl
@[simp] theorem updPort_staging (s : State) (t : PortId) (f : Port → Port) : (s.updPort t f).staging = s.staging := rfl
@[simp] theorem updPort_diag (s : State) (t : PortId) (f : Port → Port) : (s.updPort t f).diag = s.diag := rfl
@[simp] theorem updPort_usb (s : State) (t : PortId) (f : Port → Port) : (s.updPort t f).usb = s.usb := rfl
@[simp] theorem updPort_mc (s : State) (t : PortId) (f : Port → Port) : (s.updPort t f).mc = s.mc := rfl
@[simp] theorem updPort_nvm (s : State) (t : PortId) (f : Port → Port) : (s.updPort t f).nvm = s.nvm := rfl
@[simp] theorem updPort_counters (s : State) (t : PortId) (f : Port → Port) : (s.updPort t f).counters = s.counters := rfl
@[simp] theorem updPort_paired (s : State) (t : PortId) (f : Port → Port) : (s.updPort t f).paired = s.paired := rfl
@[simp] theorem updPort_reg (s : State) (t : PortId) (f : Port → Port) (r : Nat) : (s.updPort t f).reg r = s.reg r := rfl
@[simp] theorem updPort_rd (s : State) (t : PortId) (f : Port → Port) (z : Nat) : (s.updPort t f).rd z = s.rd z := rfl
@[simp] theorem updPort_job (s : State) (t : PortId) (f : Port → Port) (y : PartId) : (s.updPort t f).job y = s.job y := rfl
@[simp] theorem updPort_counter (s : State) (t : PortId) (f : Port → Port) (y : Nat) : (s.updPort t f).counter y = s.counter y := rfl

/-! ### updHandle -/

@[simp] theorem updHandle_freeCtr (s : State) (h : Nat) (f : Handle → Handle) : (s.updHandle h f).freeCtr = s.freeCtr := rfl
@[simp] theorem updHandle_pending (s : State) (h : Nat) (f : Handle → Handle) : (s.updHandle h f).pending = s.pending := rfl
@[simp] theorem updHandle_mem (s : State) (h : Nat) (f : Handle → Handle) : (s.updHandle h f).mem = s.mem := rfl
@[simp] theorem updHandle_badUnits (s : State) (h : Nat) (f : Handle → Handle) : (s.updHandle h f).badUnits = s.badUnits := rfl
@[simp] theorem updHandle_weakUnits (s : State) (h : Nat) (f : Handle → Handle) : (s.updHandle h f).weakUnits = s.weakUnits := rfl
@[simp] theorem updHandle_regs (s : State) (h : Nat) (f : Handle → Handle) : (s.updHandle h f).regs = s.regs := rfl
@[simp] theorem updHandle_latches (s : State) (h : Nat) (f : Handle → Handle) : (s.updHandle h f).latches = s.latches := rfl
@[simp] theorem updHandle_cores (s : State) (h : Nat) (f : Handle → Handle) : (s.updHandle h f).cores = s.cores := rfl
@[simp] theorem updHandle_parts (s : State) (h : Nat) (f : Handle → Handle) : (s.updHandle h f).parts = s.parts := rfl
@[simp] theorem updHandle_lastHandle (s : State) (h : Nat) (f : Handle → Handle) : (s.updHandle h f).lastHandle = s.lastHandle := rfl
@[simp] theorem updHandle_staging (s : State) (h : Nat) (f : Handle → Handle) : (s.updHandle h f).staging = s.staging := rfl
@[simp] theorem updHandle_diag (s : State) (h : Nat) (f : Handle → Handle) : (s.updHandle h f).diag = s.diag := rfl
@[simp] theorem updHandle_usb (s : State) (h : Nat) (f : Handle → Handle) : (s.updHandle h f).usb = s.usb := rfl
@[simp] theorem updHandle_mc (s : State) (h : Nat) (f : Handle → Handle) : (s.updHandle h f).mc = s.mc := rfl
@[simp] theorem updHandle_ports (s : State) (h : Nat) (f : Handle → Handle) : (s.updHandle h f).ports = s.ports := rfl
@[simp] theorem updHandle_nvm (s : State) (h : Nat) (f : Handle → Handle) : (s.updHandle h f).nvm = s.nvm := rfl
@[simp] theorem updHandle_counters (s : State) (h : Nat) (f : Handle → Handle) : (s.updHandle h f).counters = s.counters := rfl
@[simp] theorem updHandle_paired (s : State) (h : Nat) (f : Handle → Handle) : (s.updHandle h f).paired = s.paired := rfl
@[simp] theorem updHandle_reg (s : State) (h : Nat) (f : Handle → Handle) (r : Nat) : (s.updHandle h f).reg r = s.reg r := rfl
@[simp] theorem updHandle_rd (s : State) (h : Nat) (f : Handle → Handle) (z : Nat) : (s.updHandle h f).rd z = s.rd z := rfl
@[simp] theorem updHandle_job (s : State) (h : Nat) (f : Handle → Handle) (y : PartId) : (s.updHandle h f).job y = s.job y := rfl
@[simp] theorem updHandle_counter (s : State) (h : Nat) (f : Handle → Handle) (y : Nat) : (s.updHandle h f).counter y = s.counter y := rfl

/-! ### put -/

@[simp] theorem put_freeCtr (s : State) (w : List (Nat × Byte)) : (s.put w).freeCtr = s.freeCtr := rfl
@[simp] theorem put_pending (s : State) (w : List (Nat × Byte)) : (s.put w).pending = s.pending := rfl
@[simp] theorem put_regs (s : State) (w : List (Nat × Byte)) : (s.put w).regs = s.regs := rfl
@[simp] theorem put_latches (s : State) (w : List (Nat × Byte)) : (s.put w).latches = s.latches := rfl
@[simp] theorem put_cores (s : State) (w : List (Nat × Byte)) : (s.put w).cores = s.cores := rfl
@[simp] theorem put_parts (s : State) (w : List (Nat × Byte)) : (s.put w).parts = s.parts := rfl
@[simp] theorem put_handles (s : State) (w : List (Nat × Byte)) : (s.put w).handles = s.handles := rfl
@[simp] theorem put_lastHandle (s : State) (w : List (Nat × Byte)) : (s.put w).lastHandle = s.lastHandle := rfl
@[simp] theorem put_staging (s : State) (w : List (Nat × Byte)) : (s.put w).staging = s.staging := rfl
@[simp] theorem put_diag (s : State) (w : List (Nat × Byte)) : (s.put w).diag = s.diag := rfl
@[simp] theorem put_usb (s : State) (w : List (Nat × Byte)) : (s.put w).usb = s.usb := rfl
@[simp] theorem put_mc (s : State) (w : List (Nat × Byte)) : (s.put w).mc = s.mc := rfl
@[simp] theorem put_ports (s : State) (w : List (Nat × Byte)) : (s.put w).ports = s.ports := rfl
@[simp] theorem put_nvm (s : State) (w : List (Nat × Byte)) : (s.put w).nvm = s.nvm := rfl
@[simp] theorem put_counters (s : State) (w : List (Nat × Byte)) : (s.put w).counters = s.counters := rfl
@[simp] theorem put_paired (s : State) (w : List (Nat × Byte)) : (s.put w).paired = s.paired := rfl
@[simp] theorem put_reg (s : State) (w : List (Nat × Byte)) (r : Nat) : (s.put w).reg r = s.reg r := rfl
@[simp] theorem put_job (s : State) (w : List (Nat × Byte)) (y : PartId) : (s.put w).job y = s.job y := rfl
@[simp] theorem put_counter (s : State) (w : List (Nat × Byte)) (y : Nat) : (s.put w).counter y = s.counter y := rfl

/-! ### putBytes -/

@[simp] theorem putBytes_freeCtr (s : State) (a : Nat) (bs : List Byte) : (s.putBytes a bs).freeCtr = s.freeCtr := rfl
@[simp] theorem putBytes_pending (s : State) (a : Nat) (bs : List Byte) : (s.putBytes a bs).pending = s.pending := rfl
@[simp] theorem putBytes_regs (s : State) (a : Nat) (bs : List Byte) : (s.putBytes a bs).regs = s.regs := rfl
@[simp] theorem putBytes_latches (s : State) (a : Nat) (bs : List Byte) : (s.putBytes a bs).latches = s.latches := rfl
@[simp] theorem putBytes_cores (s : State) (a : Nat) (bs : List Byte) : (s.putBytes a bs).cores = s.cores := rfl
@[simp] theorem putBytes_parts (s : State) (a : Nat) (bs : List Byte) : (s.putBytes a bs).parts = s.parts := rfl
@[simp] theorem putBytes_handles (s : State) (a : Nat) (bs : List Byte) : (s.putBytes a bs).handles = s.handles := rfl
@[simp] theorem putBytes_lastHandle (s : State) (a : Nat) (bs : List Byte) : (s.putBytes a bs).lastHandle = s.lastHandle := rfl
@[simp] theorem putBytes_staging (s : State) (a : Nat) (bs : List Byte) : (s.putBytes a bs).staging = s.staging := rfl
@[simp] theorem putBytes_diag (s : State) (a : Nat) (bs : List Byte) : (s.putBytes a bs).diag = s.diag := rfl
@[simp] theorem putBytes_usb (s : State) (a : Nat) (bs : List Byte) : (s.putBytes a bs).usb = s.usb := rfl
@[simp] theorem putBytes_mc (s : State) (a : Nat) (bs : List Byte) : (s.putBytes a bs).mc = s.mc := rfl
@[simp] theorem putBytes_ports (s : State) (a : Nat) (bs : List Byte) : (s.putBytes a bs).ports = s.ports := rfl
@[simp] theorem putBytes_nvm (s : State) (a : Nat) (bs : List Byte) : (s.putBytes a bs).nvm = s.nvm := rfl
@[simp] theorem putBytes_counters (s : State) (a : Nat) (bs : List Byte) : (s.putBytes a bs).counters = s.counters := rfl
@[simp] theorem putBytes_paired (s : State) (a : Nat) (bs : List Byte) : (s.putBytes a bs).paired = s.paired := rfl
@[simp] theorem putBytes_reg (s : State) (a : Nat) (bs : List Byte) (r : Nat) : (s.putBytes a bs).reg r = s.reg r := rfl
@[simp] theorem putBytes_job (s : State) (a : Nat) (bs : List Byte) (y : PartId) : (s.putBytes a bs).job y = s.job y := rfl
@[simp] theorem putBytes_counter (s : State) (a : Nat) (bs : List Byte) (y : Nat) : (s.putBytes a bs).counter y = s.counter y := rfl

/-! ### lput -/

@[simp] theorem lput_freeCtr (s : State) (j : Job) (w : List (Nat × Byte)) : (s.lput j w).freeCtr = s.freeCtr := rfl
@[simp] theorem lput_pending (s : State) (j : Job) (w : List (Nat × Byte)) : (s.lput j w).pending = s.pending := rfl
@[simp] theorem lput_regs (s : State) (j : Job) (w : List (Nat × Byte)) : (s.lput j w).regs = s.regs := rfl
@[simp] theorem lput_latches (s : State) (j : Job) (w : List (Nat × Byte)) : (s.lput j w).latches = s.latches := rfl
@[simp] theorem lput_cores (s : State) (j : Job) (w : List (Nat × Byte)) : (s.lput j w).cores = s.cores := rfl
@[simp] theorem lput_parts (s : State) (j : Job) (w : List (Nat × Byte)) : (s.lput j w).parts = s.parts := rfl
@[simp] theorem lput_handles (s : State) (j : Job) (w : List (Nat × Byte)) : (s.lput j w).handles = s.handles := rfl
@[simp] theorem lput_lastHandle (s : State) (j : Job) (w : List (Nat × Byte)) : (s.lput j w).lastHandle = s.lastHandle := rfl
@[simp] theorem lput_staging (s : State) (j : Job) (w : List (Nat × Byte)) : (s.lput j w).staging = s.staging := rfl
@[simp] theorem lput_diag (s : State) (j : Job) (w : List (Nat × Byte)) : (s.lput j w).diag = s.diag := rfl
@[simp] theorem lput_usb (s : State) (j : Job) (w : List (Nat × Byte)) : (s.lput j w).usb = s.usb := rfl
@[simp] theorem lput_mc (s : State) (j : Job) (w : List (Nat × Byte)) : (s.lput j w).mc = s.mc := rfl
@[simp] theorem lput_ports (s : State) (j : Job) (w : List (Nat × Byte)) : (s.lput j w).ports = s.ports := rfl
@[simp] theorem lput_nvm (s : State) (j : Job) (w : List (Nat × Byte)) : (s.lput j w).nvm = s.nvm := rfl
@[simp] theorem lput_counters (s : State) (j : Job) (w : List (Nat × Byte)) : (s.lput j w).counters = s.counters := rfl
@[simp] theorem lput_paired (s : State) (j : Job) (w : List (Nat × Byte)) : (s.lput j w).paired = s.paired := rfl
@[simp] theorem lput_reg (s : State) (j : Job) (w : List (Nat × Byte)) (r : Nat) : (s.lput j w).reg r = s.reg r := rfl
@[simp] theorem lput_job (s : State) (j : Job) (w : List (Nat × Byte)) (y : PartId) : (s.lput j w).job y = s.job y := rfl
@[simp] theorem lput_counter (s : State) (j : Job) (w : List (Nat × Byte)) (y : Nat) : (s.lput j w).counter y = s.counter y := rfl

/-! ### lputBytes -/

@[simp] theorem lputBytes_freeCtr (s : State) (j : Job) (a : Nat) (bs : List Byte) : (s.lputBytes j a bs).freeCtr = s.freeCtr := rfl
@[simp] theorem lputBytes_pending (s : State) (j : Job) (a : Nat) (bs : List Byte) : (s.lputBytes j a bs).pending = s.pending := rfl
@[simp] theorem lputBytes_regs (s : State) (j : Job) (a : Nat) (bs : List Byte) : (s.lputBytes j a bs).regs = s.regs := rfl
@[simp] theorem lputBytes_latches (s : State) (j : Job) (a : Nat) (bs : List Byte) : (s.lputBytes j a bs).latches = s.latches := rfl
@[simp] theorem lputBytes_cores (s : State) (j : Job) (a : Nat) (bs : List Byte) : (s.lputBytes j a bs).cores = s.cores := rfl
@[simp] theorem lputBytes_parts (s : State) (j : Job) (a : Nat) (bs : List Byte) : (s.lputBytes j a bs).parts = s.parts := rfl
@[simp] theorem lputBytes_handles (s : State) (j : Job) (a : Nat) (bs : List Byte) : (s.lputBytes j a bs).handles = s.handles := rfl
@[simp] theorem lputBytes_lastHandle (s : State) (j : Job) (a : Nat) (bs : List Byte) : (s.lputBytes j a bs).lastHandle = s.lastHandle := rfl
@[simp] theorem lputBytes_staging (s : State) (j : Job) (a : Nat) (bs : List Byte) : (s.lputBytes j a bs).staging = s.staging := rfl
@[simp] theorem lputBytes_diag (s : State) (j : Job) (a : Nat) (bs : List Byte) : (s.lputBytes j a bs).diag = s.diag := rfl
@[simp] theorem lputBytes_usb (s : State) (j : Job) (a : Nat) (bs : List Byte) : (s.lputBytes j a bs).usb = s.usb := rfl
@[simp] theorem lputBytes_mc (s : State) (j : Job) (a : Nat) (bs : List Byte) : (s.lputBytes j a bs).mc = s.mc := rfl
@[simp] theorem lputBytes_ports (s : State) (j : Job) (a : Nat) (bs : List Byte) : (s.lputBytes j a bs).ports = s.ports := rfl
@[simp] theorem lputBytes_nvm (s : State) (j : Job) (a : Nat) (bs : List Byte) : (s.lputBytes j a bs).nvm = s.nvm := rfl
@[simp] theorem lputBytes_counters (s : State) (j : Job) (a : Nat) (bs : List Byte) : (s.lputBytes j a bs).counters = s.counters := rfl
@[simp] theorem lputBytes_paired (s : State) (j : Job) (a : Nat) (bs : List Byte) : (s.lputBytes j a bs).paired = s.paired := rfl
@[simp] theorem lputBytes_reg (s : State) (j : Job) (a : Nat) (bs : List Byte) (r : Nat) : (s.lputBytes j a bs).reg r = s.reg r := rfl
@[simp] theorem lputBytes_job (s : State) (j : Job) (a : Nat) (bs : List Byte) (y : PartId) : (s.lputBytes j a bs).job y = s.job y := rfl
@[simp] theorem lputBytes_counter (s : State) (j : Job) (a : Nat) (bs : List Byte) (y : Nat) : (s.lputBytes j a bs).counter y = s.counter y := rfl

/-! ### zeroRange -/

@[simp] theorem zeroRange_freeCtr (s : State) (a n : Nat) : (s.zeroRange a n).freeCtr = s.freeCtr := rfl
@[simp] theorem zeroRange_pending (s : State) (a n : Nat) : (s.zeroRange a n).pending = s.pending := rfl
@[simp] theorem zeroRange_regs (s : State) (a n : Nat) : (s.zeroRange a n).regs = s.regs := rfl
@[simp] theorem zeroRange_latches (s : State) (a n : Nat) : (s.zeroRange a n).latches = s.latches := rfl
@[simp] theorem zeroRange_cores (s : State) (a n : Nat) : (s.zeroRange a n).cores = s.cores := rfl
@[simp] theorem zeroRange_parts (s : State) (a n : Nat) : (s.zeroRange a n).parts = s.parts := rfl
@[simp] theorem zeroRange_handles (s : State) (a n : Nat) : (s.zeroRange a n).handles = s.handles := rfl
@[simp] theorem zeroRange_lastHandle (s : State) (a n : Nat) : (s.zeroRange a n).lastHandle = s.lastHandle := rfl
@[simp] theorem zeroRange_staging (s : State) (a n : Nat) : (s.zeroRange a n).staging = s.staging := rfl
@[simp] theorem zeroRange_diag (s : State) (a n : Nat) : (s.zeroRange a n).diag = s.diag := rfl
@[simp] theorem zeroRange_usb (s : State) (a n : Nat) : (s.zeroRange a n).usb = s.usb := rfl
@[simp] theorem zeroRange_mc (s : State) (a n : Nat) : (s.zeroRange a n).mc = s.mc := rfl
@[simp] theorem zeroRange_ports (s : State) (a n : Nat) : (s.zeroRange a n).ports = s.ports := rfl
@[simp] theorem zeroRange_nvm (s : State) (a n : Nat) : (s.zeroRange a n).nvm = s.nvm := rfl
@[simp] theorem zeroRange_counters (s : State) (a n : Nat) : (s.zeroRange a n).counters = s.counters := rfl
@[simp] theorem zeroRange_paired (s : State) (a n : Nat) : (s.zeroRange a n).paired = s.paired := rfl
@[simp] theorem zeroRange_reg (s : State) (a n : Nat) (r : Nat) : (s.zeroRange a n).reg r = s.reg r := rfl
@[simp] theorem zeroRange_job (s : State) (a n : Nat) (y : PartId) : (s.zeroRange a n).job y = s.job y := rfl
@[simp] theorem zeroRange_counter (s : State) (a n : Nat) (y : Nat) : (s.zeroRange a n).counter y = s.counter y := rfl

/-! ### updRail -/

@[simp] theorem updRail_freeCtr (s : State) (c : CoreId) (f : CoreRail → CoreRail) : (s.updRail c f).freeCtr = s.freeCtr := rfl
@[simp] theorem updRail_pending (s : State) (c : CoreId) (f : CoreRail → CoreRail) : (s.updRail c f).pending = s.pending := rfl
@[simp] theorem updRail_mem (s : State) (c : CoreId) (f : CoreRail → CoreRail) : (s.updRail c f).mem = s.mem := rfl
@[simp] theorem updRail_badUnits (s : State) (c : CoreId) (f : CoreRail → CoreRail) : (s.updRail c f).badUnits = s.badUnits := rfl
@[simp] theorem updRail_weakUnits (s : State) (c : CoreId) (f : CoreRail → CoreRail) : (s.updRail c f).weakUnits = s.weakUnits := rfl
@[simp] theorem updRail_regs (s : State) (c : CoreId) (f : CoreRail → CoreRail) : (s.updRail c f).regs = s.regs := rfl
@[simp] theorem updRail_latches (s : State) (c : CoreId) (f : CoreRail → CoreRail) : (s.updRail c f).latches = s.latches := rfl
@[simp] theorem updRail_cores (s : State) (c : CoreId) (f : CoreRail → CoreRail) : (s.updRail c f).cores = s.cores := rfl
@[simp] theorem updRail_parts (s : State) (c : CoreId) (f : CoreRail → CoreRail) : (s.updRail c f).parts = s.parts := rfl
@[simp] theorem updRail_handles (s : State) (c : CoreId) (f : CoreRail → CoreRail) : (s.updRail c f).handles = s.handles := rfl
@[simp] theorem updRail_lastHandle (s : State) (c : CoreId) (f : CoreRail → CoreRail) : (s.updRail c f).lastHandle = s.lastHandle := rfl
@[simp] theorem updRail_staging (s : State) (c : CoreId) (f : CoreRail → CoreRail) : (s.updRail c f).staging = s.staging := rfl
@[simp] theorem updRail_diag (s : State) (c : CoreId) (f : CoreRail → CoreRail) : (s.updRail c f).diag = s.diag := rfl
@[simp] theorem updRail_usb (s : State) (c : CoreId) (f : CoreRail → CoreRail) : (s.updRail c f).usb = s.usb := rfl
@[simp] theorem updRail_ports (s : State) (c : CoreId) (f : CoreRail → CoreRail) : (s.updRail c f).ports = s.ports := rfl
@[simp] theorem updRail_nvm (s : State) (c : CoreId) (f : CoreRail → CoreRail) : (s.updRail c f).nvm = s.nvm := rfl
@[simp] theorem updRail_counters (s : State) (c : CoreId) (f : CoreRail → CoreRail) : (s.updRail c f).counters = s.counters := rfl
@[simp] theorem updRail_paired (s : State) (c : CoreId) (f : CoreRail → CoreRail) : (s.updRail c f).paired = s.paired := rfl
@[simp] theorem updRail_reg (s : State) (c : CoreId) (f : CoreRail → CoreRail) (r : Nat) : (s.updRail c f).reg r = s.reg r := rfl
@[simp] theorem updRail_rd (s : State) (c : CoreId) (f : CoreRail → CoreRail) (z : Nat) : (s.updRail c f).rd z = s.rd z := rfl
@[simp] theorem updRail_job (s : State) (c : CoreId) (f : CoreRail → CoreRail) (y : PartId) : (s.updRail c f).job y = s.job y := rfl
@[simp] theorem updRail_counter (s : State) (c : CoreId) (f : CoreRail → CoreRail) (y : Nat) : (s.updRail c f).counter y = s.counter y := rfl

/-! ### nvmPut -/

@[simp] theorem nvmPut_freeCtr (s : State) (a : Nat) (bs : List Byte) : (s.nvmPut a bs).freeCtr = s.freeCtr := rfl
@[simp] theorem nvmPut_pending (s : State) (a : Nat) (bs : List Byte) : (s.nvmPut a bs).pending = s.pending := rfl
@[simp] theorem nvmPut_mem (s : State) (a : Nat) (bs : List Byte) : (s.nvmPut a bs).mem = s.mem := rfl
@[simp] theorem nvmPut_badUnits (s : State) (a : Nat) (bs : List Byte) : (s.nvmPut a bs).badUnits = s.badUnits := rfl
@[simp] theorem nvmPut_weakUnits (s : State) (a : Nat) (bs : List Byte) : (s.nvmPut a bs).weakUnits = s.weakUnits := rfl
@[simp] theorem nvmPut_regs (s : State) (a : Nat) (bs : List Byte) : (s.nvmPut a bs).regs = s.regs := rfl
@[simp] theorem nvmPut_latches (s : State) (a : Nat) (bs : List Byte) : (s.nvmPut a bs).latches = s.latches := rfl
@[simp] theorem nvmPut_cores (s : State) (a : Nat) (bs : List Byte) : (s.nvmPut a bs).cores = s.cores := rfl
@[simp] theorem nvmPut_parts (s : State) (a : Nat) (bs : List Byte) : (s.nvmPut a bs).parts = s.parts := rfl
@[simp] theorem nvmPut_handles (s : State) (a : Nat) (bs : List Byte) : (s.nvmPut a bs).handles = s.handles := rfl
@[simp] theorem nvmPut_lastHandle (s : State) (a : Nat) (bs : List Byte) : (s.nvmPut a bs).lastHandle = s.lastHandle := rfl
@[simp] theorem nvmPut_staging (s : State) (a : Nat) (bs : List Byte) : (s.nvmPut a bs).staging = s.staging := rfl
@[simp] theorem nvmPut_diag (s : State) (a : Nat) (bs : List Byte) : (s.nvmPut a bs).diag = s.diag := rfl
@[simp] theorem nvmPut_usb (s : State) (a : Nat) (bs : List Byte) : (s.nvmPut a bs).usb = s.usb := rfl
@[simp] theorem nvmPut_mc (s : State) (a : Nat) (bs : List Byte) : (s.nvmPut a bs).mc = s.mc := rfl
@[simp] theorem nvmPut_ports (s : State) (a : Nat) (bs : List Byte) : (s.nvmPut a bs).ports = s.ports := rfl
@[simp] theorem nvmPut_counters (s : State) (a : Nat) (bs : List Byte) : (s.nvmPut a bs).counters = s.counters := rfl
@[simp] theorem nvmPut_paired (s : State) (a : Nat) (bs : List Byte) : (s.nvmPut a bs).paired = s.paired := rfl
@[simp] theorem nvmPut_reg (s : State) (a : Nat) (bs : List Byte) (r : Nat) : (s.nvmPut a bs).reg r = s.reg r := rfl
@[simp] theorem nvmPut_rd (s : State) (a : Nat) (bs : List Byte) (z : Nat) : (s.nvmPut a bs).rd z = s.rd z := rfl
@[simp] theorem nvmPut_job (s : State) (a : Nat) (bs : List Byte) (y : PartId) : (s.nvmPut a bs).job y = s.job y := rfl
@[simp] theorem nvmPut_counter (s : State) (a : Nat) (bs : List Byte) (y : Nat) : (s.nvmPut a bs).counter y = s.counter y := rfl

/-! ### nvmErase -/

@[simp] theorem nvmErase_freeCtr (s : State) (a n : Nat) : (s.nvmErase a n).freeCtr = s.freeCtr := rfl
@[simp] theorem nvmErase_pending (s : State) (a n : Nat) : (s.nvmErase a n).pending = s.pending := rfl
@[simp] theorem nvmErase_mem (s : State) (a n : Nat) : (s.nvmErase a n).mem = s.mem := rfl
@[simp] theorem nvmErase_badUnits (s : State) (a n : Nat) : (s.nvmErase a n).badUnits = s.badUnits := rfl
@[simp] theorem nvmErase_weakUnits (s : State) (a n : Nat) : (s.nvmErase a n).weakUnits = s.weakUnits := rfl
@[simp] theorem nvmErase_regs (s : State) (a n : Nat) : (s.nvmErase a n).regs = s.regs := rfl
@[simp] theorem nvmErase_latches (s : State) (a n : Nat) : (s.nvmErase a n).latches = s.latches := rfl
@[simp] theorem nvmErase_cores (s : State) (a n : Nat) : (s.nvmErase a n).cores = s.cores := rfl
@[simp] theorem nvmErase_parts (s : State) (a n : Nat) : (s.nvmErase a n).parts = s.parts := rfl
@[simp] theorem nvmErase_handles (s : State) (a n : Nat) : (s.nvmErase a n).handles = s.handles := rfl
@[simp] theorem nvmErase_lastHandle (s : State) (a n : Nat) : (s.nvmErase a n).lastHandle = s.lastHandle := rfl
@[simp] theorem nvmErase_staging (s : State) (a n : Nat) : (s.nvmErase a n).staging = s.staging := rfl
@[simp] theorem nvmErase_diag (s : State) (a n : Nat) : (s.nvmErase a n).diag = s.diag := rfl
@[simp] theorem nvmErase_usb (s : State) (a n : Nat) : (s.nvmErase a n).usb = s.usb := rfl
@[simp] theorem nvmErase_mc (s : State) (a n : Nat) : (s.nvmErase a n).mc = s.mc := rfl
@[simp] theorem nvmErase_ports (s : State) (a n : Nat) : (s.nvmErase a n).ports = s.ports := rfl
@[simp] theorem nvmErase_counters (s : State) (a n : Nat) : (s.nvmErase a n).counters = s.counters := rfl
@[simp] theorem nvmErase_paired (s : State) (a n : Nat) : (s.nvmErase a n).paired = s.paired := rfl
@[simp] theorem nvmErase_reg (s : State) (a n : Nat) (r : Nat) : (s.nvmErase a n).reg r = s.reg r := rfl
@[simp] theorem nvmErase_rd (s : State) (a n : Nat) (z : Nat) : (s.nvmErase a n).rd z = s.rd z := rfl
@[simp] theorem nvmErase_job (s : State) (a n : Nat) (y : PartId) : (s.nvmErase a n).job y = s.job y := rfl
@[simp] theorem nvmErase_counter (s : State) (a n : Nat) (y : Nat) : (s.nvmErase a n).counter y = s.counter y := rfl

/-! ### advance -/

@[simp] theorem advance_freeCtr (s : State) (n v : Nat) : (s.advance n v).freeCtr = s.freeCtr := rfl
@[simp] theorem advance_pending (s : State) (n v : Nat) : (s.advance n v).pending = s.pending := rfl
@[simp] theorem advance_mem (s : State) (n v : Nat) : (s.advance n v).mem = s.mem := rfl
@[simp] theorem advance_badUnits (s : State) (n v : Nat) : (s.advance n v).badUnits = s.badUnits := rfl
@[simp] theorem advance_weakUnits (s : State) (n v : Nat) : (s.advance n v).weakUnits = s.weakUnits := rfl
@[simp] theorem advance_regs (s : State) (n v : Nat) : (s.advance n v).regs = s.regs := rfl
@[simp] theorem advance_latches (s : State) (n v : Nat) : (s.advance n v).latches = s.latches := rfl
@[simp] theorem advance_cores (s : State) (n v : Nat) : (s.advance n v).cores = s.cores := rfl
@[simp] theorem advance_parts (s : State) (n v : Nat) : (s.advance n v).parts = s.parts := rfl
@[simp] theorem advance_handles (s : State) (n v : Nat) : (s.advance n v).handles = s.handles := rfl
@[simp] theorem advance_lastHandle (s : State) (n v : Nat) : (s.advance n v).lastHandle = s.lastHandle := rfl
@[simp] theorem advance_staging (s : State) (n v : Nat) : (s.advance n v).staging = s.staging := rfl
@[simp] theorem advance_diag (s : State) (n v : Nat) : (s.advance n v).diag = s.diag := rfl
@[simp] theorem advance_usb (s : State) (n v : Nat) : (s.advance n v).usb = s.usb := rfl
@[simp] theorem advance_mc (s : State) (n v : Nat) : (s.advance n v).mc = s.mc := rfl
@[simp] theorem advance_ports (s : State) (n v : Nat) : (s.advance n v).ports = s.ports := rfl
@[simp] theorem advance_nvm (s : State) (n v : Nat) : (s.advance n v).nvm = s.nvm := rfl
@[simp] theorem advance_paired (s : State) (n v : Nat) : (s.advance n v).paired = s.paired := rfl
@[simp] theorem advance_reg (s : State) (n v : Nat) (r : Nat) : (s.advance n v).reg r = s.reg r := rfl
@[simp] theorem advance_rd (s : State) (n v : Nat) (z : Nat) : (s.advance n v).rd z = s.rd z := rfl
@[simp] theorem advance_job (s : State) (n v : Nat) (y : PartId) : (s.advance n v).job y = s.job y := rfl

/-! ### updHead -/

@[simp] theorem updHead_freeCtr (s : State) (f : NvmWork → NvmWork) : (s.updHead f).freeCtr = s.freeCtr := rfl
@[simp] theorem updHead_pending (s : State) (f : NvmWork → NvmWork) : (s.updHead f).pending = s.pending := rfl
@[simp] theorem updHead_mem (s : State) (f : NvmWork → NvmWork) : (s.updHead f).mem = s.mem := rfl
@[simp] theorem updHead_badUnits (s : State) (f : NvmWork → NvmWork) : (s.updHead f).badUnits = s.badUnits := rfl
@[simp] theorem updHead_weakUnits (s : State) (f : NvmWork → NvmWork) : (s.updHead f).weakUnits = s.weakUnits := rfl
@[simp] theorem updHead_regs (s : State) (f : NvmWork → NvmWork) : (s.updHead f).regs = s.regs := rfl
@[simp] theorem updHead_latches (s : State) (f : NvmWork → NvmWork) : (s.updHead f).latches = s.latches := rfl
@[simp] theorem updHead_cores (s : State) (f : NvmWork → NvmWork) : (s.updHead f).cores = s.cores := rfl
@[simp] theorem updHead_parts (s : State) (f : NvmWork → NvmWork) : (s.updHead f).parts = s.parts := rfl
@[simp] theorem updHead_handles (s : State) (f : NvmWork → NvmWork) : (s.updHead f).handles = s.handles := rfl
@[simp] theorem updHead_lastHandle (s : State) (f : NvmWork → NvmWork) : (s.updHead f).lastHandle = s.lastHandle := rfl
@[simp] theorem updHead_staging (s : State) (f : NvmWork → NvmWork) : (s.updHead f).staging = s.staging := rfl
@[simp] theorem updHead_diag (s : State) (f : NvmWork → NvmWork) : (s.updHead f).diag = s.diag := rfl
@[simp] theorem updHead_usb (s : State) (f : NvmWork → NvmWork) : (s.updHead f).usb = s.usb := rfl
@[simp] theorem updHead_ports (s : State) (f : NvmWork → NvmWork) : (s.updHead f).ports = s.ports := rfl
@[simp] theorem updHead_nvm (s : State) (f : NvmWork → NvmWork) : (s.updHead f).nvm = s.nvm := rfl
@[simp] theorem updHead_counters (s : State) (f : NvmWork → NvmWork) : (s.updHead f).counters = s.counters := rfl
@[simp] theorem updHead_paired (s : State) (f : NvmWork → NvmWork) : (s.updHead f).paired = s.paired := rfl
@[simp] theorem updHead_reg (s : State) (f : NvmWork → NvmWork) (r : Nat) : (s.updHead f).reg r = s.reg r := rfl
@[simp] theorem updHead_rd (s : State) (f : NvmWork → NvmWork) (z : Nat) : (s.updHead f).rd z = s.rd z := rfl
@[simp] theorem updHead_job (s : State) (f : NvmWork → NvmWork) (y : PartId) : (s.updHead f).job y = s.job y := rfl
@[simp] theorem updHead_counter (s : State) (f : NvmWork → NvmWork) (y : Nat) : (s.updHead f).counter y = s.counter y := rfl

/-! ### updQp -/

@[simp] theorem updQp_freeCtr (s : State) (t : PortId) (n : Nat) (f : Qp → Qp) : (s.updQp t n f).freeCtr = s.freeCtr := rfl
@[simp] theorem updQp_pending (s : State) (t : PortId) (n : Nat) (f : Qp → Qp) : (s.updQp t n f).pending = s.pending := rfl
@[simp] theorem updQp_mem (s : State) (t : PortId) (n : Nat) (f : Qp → Qp) : (s.updQp t n f).mem = s.mem := rfl
@[simp] theorem updQp_badUnits (s : State) (t : PortId) (n : Nat) (f : Qp → Qp) : (s.updQp t n f).badUnits = s.badUnits := rfl
@[simp] theorem updQp_weakUnits (s : State) (t : PortId) (n : Nat) (f : Qp → Qp) : (s.updQp t n f).weakUnits = s.weakUnits := rfl
@[simp] theorem updQp_regs (s : State) (t : PortId) (n : Nat) (f : Qp → Qp) : (s.updQp t n f).regs = s.regs := rfl
@[simp] theorem updQp_latches (s : State) (t : PortId) (n : Nat) (f : Qp → Qp) : (s.updQp t n f).latches = s.latches := rfl
@[simp] theorem updQp_cores (s : State) (t : PortId) (n : Nat) (f : Qp → Qp) : (s.updQp t n f).cores = s.cores := rfl
@[simp] theorem updQp_parts (s : State) (t : PortId) (n : Nat) (f : Qp → Qp) : (s.updQp t n f).parts = s.parts := rfl
@[simp] theorem updQp_handles (s : State) (t : PortId) (n : Nat) (f : Qp → Qp) : (s.updQp t n f).handles = s.handles := rfl
@[simp] theorem updQp_lastHandle (s : State) (t : PortId) (n : Nat) (f : Qp → Qp) : (s.updQp t n f).lastHandle = s.lastHandle := rfl
@[simp] theorem updQp_staging (s : State) (t : PortId) (n : Nat) (f : Qp → Qp) : (s.updQp t n f).staging = s.staging := rfl
@[simp] theorem updQp_diag (s : State) (t : PortId) (n : Nat) (f : Qp → Qp) : (s.updQp t n f).diag = s.diag := rfl
@[simp] theorem updQp_usb (s : State) (t : PortId) (n : Nat) (f : Qp → Qp) : (s.updQp t n f).usb = s.usb := rfl
@[simp] theorem updQp_mc (s : State) (t : PortId) (n : Nat) (f : Qp → Qp) : (s.updQp t n f).mc = s.mc := rfl
@[simp] theorem updQp_nvm (s : State) (t : PortId) (n : Nat) (f : Qp → Qp) : (s.updQp t n f).nvm = s.nvm := rfl
@[simp] theorem updQp_counters (s : State) (t : PortId) (n : Nat) (f : Qp → Qp) : (s.updQp t n f).counters = s.counters := rfl
@[simp] theorem updQp_paired (s : State) (t : PortId) (n : Nat) (f : Qp → Qp) : (s.updQp t n f).paired = s.paired := rfl
@[simp] theorem updQp_reg (s : State) (t : PortId) (n : Nat) (f : Qp → Qp) (r : Nat) : (s.updQp t n f).reg r = s.reg r := rfl
@[simp] theorem updQp_rd (s : State) (t : PortId) (n : Nat) (f : Qp → Qp) (z : Nat) : (s.updQp t n f).rd z = s.rd z := rfl
@[simp] theorem updQp_job (s : State) (t : PortId) (n : Nat) (f : Qp → Qp) (y : PartId) : (s.updQp t n f).job y = s.job y := rfl
@[simp] theorem updQp_counter (s : State) (t : PortId) (n : Nat) (f : Qp → Qp) (y : Nat) : (s.updQp t n f).counter y = s.counter y := rfl

/-! ### updPtp -/

@[simp] theorem updPtp_freeCtr (s : State) (t : PortId) (f : PtpRun → PtpRun) : (s.updPtp t f).freeCtr = s.freeCtr := rfl
@[simp] theorem updPtp_pending (s : State) (t : PortId) (f : PtpRun → PtpRun) : (s.updPtp t f).pending = s.pending := rfl
@[simp] theorem updPtp_mem (s : State) (t : PortId) (f : PtpRun → PtpRun) : (s.updPtp t f).mem = s.mem := rfl
@[simp] theorem updPtp_badUnits (s : State) (t : PortId) (f : PtpRun → PtpRun) : (s.updPtp t f).badUnits = s.badUnits := rfl
@[simp] theorem updPtp_weakUnits (s : State) (t : PortId) (f : PtpRun → PtpRun) : (s.updPtp t f).weakUnits = s.weakUnits := rfl
@[simp] theorem updPtp_regs (s : State) (t : PortId) (f : PtpRun → PtpRun) : (s.updPtp t f).regs = s.regs := rfl
@[simp] theorem updPtp_latches (s : State) (t : PortId) (f : PtpRun → PtpRun) : (s.updPtp t f).latches = s.latches := rfl
@[simp] theorem updPtp_cores (s : State) (t : PortId) (f : PtpRun → PtpRun) : (s.updPtp t f).cores = s.cores := rfl
@[simp] theorem updPtp_parts (s : State) (t : PortId) (f : PtpRun → PtpRun) : (s.updPtp t f).parts = s.parts := rfl
@[simp] theorem updPtp_handles (s : State) (t : PortId) (f : PtpRun → PtpRun) : (s.updPtp t f).handles = s.handles := rfl
@[simp] theorem updPtp_lastHandle (s : State) (t : PortId) (f : PtpRun → PtpRun) : (s.updPtp t f).lastHandle = s.lastHandle := rfl
@[simp] theorem updPtp_staging (s : State) (t : PortId) (f : PtpRun → PtpRun) : (s.updPtp t f).staging = s.staging := rfl
@[simp] theorem updPtp_diag (s : State) (t : PortId) (f : PtpRun → PtpRun) : (s.updPtp t f).diag = s.diag := rfl
@[simp] theorem updPtp_usb (s : State) (t : PortId) (f : PtpRun → PtpRun) : (s.updPtp t f).usb = s.usb := rfl
@[simp] theorem updPtp_mc (s : State) (t : PortId) (f : PtpRun → PtpRun) : (s.updPtp t f).mc = s.mc := rfl
@[simp] theorem updPtp_nvm (s : State) (t : PortId) (f : PtpRun → PtpRun) : (s.updPtp t f).nvm = s.nvm := rfl
@[simp] theorem updPtp_counters (s : State) (t : PortId) (f : PtpRun → PtpRun) : (s.updPtp t f).counters = s.counters := rfl
@[simp] theorem updPtp_paired (s : State) (t : PortId) (f : PtpRun → PtpRun) : (s.updPtp t f).paired = s.paired := rfl
@[simp] theorem updPtp_reg (s : State) (t : PortId) (f : PtpRun → PtpRun) (r : Nat) : (s.updPtp t f).reg r = s.reg r := rfl
@[simp] theorem updPtp_rd (s : State) (t : PortId) (f : PtpRun → PtpRun) (z : Nat) : (s.updPtp t f).rd z = s.rd z := rfl
@[simp] theorem updPtp_job (s : State) (t : PortId) (f : PtpRun → PtpRun) (y : PartId) : (s.updPtp t f).job y = s.job y := rfl
@[simp] theorem updPtp_counter (s : State) (t : PortId) (f : PtpRun → PtpRun) (y : Nat) : (s.updPtp t f).counter y = s.counter y := rfl

/-! ### The flash -/

/-- What is read of the flash depends on its contents alone. -/
theorem nvmRd_congr {s t : State} (h : s.nvm = t.nvm) (a n : Nat) : s.nvmRd a n = t.nvmRd a n := by
  simp only [State.nvmRd, State.nvmAt, h]

/-- So do the lengths of the two images (R374). -/
theorem imageLens_congr {s t : State} (h : s.nvm = t.nvm) : s.imageLens = t.imageLens := by
  simp only [State.imageLens, State.nvmHeader, State.headerCopy, nvmRd_congr h]

end Sys2Proof.Machine
end

