-- ==== Sys2Proof/Laws/Events.lean ====
section
/-! SUPPORT. What raising an event can do, said once (R418-R421, R437, R447): see EventFrame. -/

namespace Sys2Proof.Machine

theorem EventFrame.refl (s : State) : EventFrame s s :=
  ⟨rfl, rfl, rfl, rfl, rfl, rfl, rfl, rfl, rfl, rfl, rfl, rfl, rfl, rfl, fun _ => rfl, fun _ _ => rfl, fun _ _ => rfl⟩

/-- Events do not move the host context regions. -/
theorem EventFrame.hctx {s t : State} (h : EventFrame s t) (p : PartId) : t.hctx p = s.hctx p := by
  unfold State.hctx; rw [h.mc]

theorem EventFrame.inRings {s t : State} (h : EventFrame s t) (a : Nat) : t.inRings a = s.inRings a := by
  simp only [State.inRings, h.hctx]

theorem EventFrame.trans {s t u : State} (h : EventFrame s t) (k : EventFrame t u) : EventFrame s u where
  freeCtr := k.freeCtr.trans h.freeCtr
  pending := k.pending.trans h.pending
  latches := k.latches.trans h.latches
  cores := k.cores.trans h.cores
  handles := k.handles.trans h.handles
  lastHandle := k.lastHandle.trans h.lastHandle
  staging := k.staging.trans h.staging
  diag := k.diag.trans h.diag
  usb := by rw [k.usb, h.usb]
  mc := by rw [k.mc, h.mc]
  ports := k.ports.trans h.ports
  nvm := k.nvm.trans h.nvm
  counters := k.counters.trans h.counters
  paired := k.paired.trans h.paired
  parts p := by rw [k.parts p, h.parts p]
  reg o ho := (k.reg o ho).trans (h.reg o ho)
  rd a ha := (k.rd a ((h.inRings a).trans ha)).trans (h.rd a ha)

/-- The job of a partition is not touched by events. -/
theorem EventFrame.job {s t : State} (h : EventFrame s t) (p : PartId) : t.job p = s.job p := by
  unfold State.job; rw [h.parts p]

/-- A change of registers that count records. -/
theorem eventFrame_setReg (s : State) {o : Nat} (v : Word) (h : isEventReg o = true) : EventFrame s (s.setReg o v) where
  freeCtr := rfl
  pending := rfl
  latches := rfl
  cores := rfl
  handles := rfl
  lastHandle := rfl
  staging := rfl
  diag := rfl
  usb := rfl
  mc := rfl
  ports := rfl
  nvm := rfl
  counters := rfl
  paired := rfl
  parts _ := rfl
  reg x hx := reg_setReg_other s v (by rintro rfl; simp [h] at hx)
  rd _ _ := rfl

theorem isEventReg_lost (p : PartId) : isEventReg (usbJobLost p) = true := by
  simp only [isEventReg, Bool.or_eq_true, List.any_eq_true, decide_eq_true_eq]
  exact Or.inr ⟨p, List.mem_finRange p, rfl⟩

theorem isEventReg_cnt {v : Nat} (h : v < 6) : isEventReg (mcEvtCnt v) = true := by
  simp only [isEventReg, Bool.or_eq_true, List.any_eq_true, List.mem_range, decide_eq_true_eq]
  exact Or.inl (Or.inl (Or.inl (Or.inl ⟨v, h, rfl⟩)))

/-- Bytes written inside the context region of a partition. -/
theorem eventFrame_putBytes (s : State) (p : PartId) (a : Nat) (bs : List Byte)
    (h : s.hctx p ≤ a ∧ a + bs.length ≤ s.hctx p + 0x4000000) : EventFrame s (s.putBytes a bs) where
  freeCtr := rfl
  pending := rfl
  latches := rfl
  cores := rfl
  handles := rfl
  lastHandle := rfl
  staging := rfl
  diag := rfl
  usb := rfl
  mc := rfl
  ports := rfl
  nvm := rfl
  counters := rfl
  paired := rfl
  parts _ := rfl
  reg _ _ := rfl
  rd x hx := by
    apply rd_putBytes_other
    have hp := List.any_eq_false.mp hx p (List.mem_finRange p)
    simp only [decide_eq_true_eq, not_and, not_lt] at hp
    by_cases hc : s.hctx p ≤ x
    · right; have := hp hc; omega
    · left; omega

/-- A change of the device's own header fields of a partition. -/
theorem eventFrame_hdr (s : State) (p : PartId) (f : RingHdr → RingHdr) :
    EventFrame s (s.updIface p fun i => { i with hdr := f i.hdr }) where
  freeCtr := rfl
  pending := rfl
  latches := rfl
  cores := rfl
  handles := rfl
  lastHandle := rfl
  staging := rfl
  diag := rfl
  usb := rfl
  mc := rfl
  ports := rfl
  nvm := rfl
  counters := rfl
  paired := rfl
  parts q := by
    by_cases hq : q = p
    · subst hq; simp [State.updIface, State.updPart]
    · have : p.val ≠ q.val := fun e => hq (Fin.ext e.symm)
      simp [State.updIface, State.updPart, Vector.getElem_set_ne, this]
  reg _ _ := rfl
  rd _ _ := rfl

theorem hdrBytes_length (h : RingHdr) : h.bytes.length = 64 := by
  simp [RingHdr.bytes, leBytes]

theorem eventFrame_updHdr (s : State) (p : PartId) (f : RingHdr → RingHdr) : EventFrame s (s.updHdr p f) := by
  have h1 := eventFrame_hdr s p f
  unfold State.updHdr
  generalize (s.updIface p fun i => { i with hdr := f i.hdr }) = t at *
  dsimp only
  split
  · exact h1.trans (eventFrame_putBytes t p _ _ (by rw [hdrBytes_length]; omega))
  · exact h1

theorem eventFrame_countFld (s : State) {o : Nat} (hi lo k : Nat) (h : isEventReg o = true) : EventFrame s (s.countFld o hi lo k) :=
  eventFrame_setReg s _ h

theorem eventFrame_dropEvt (s : State) (p : PartId) : EventFrame s (s.dropEvt p) := by
  have h1 := eventFrame_countFld s 31 16 1 (isEventReg_lost p)
  unfold State.dropEvt
  generalize s.countFld (usbJobLost p) 31 16 1 = t at *
  dsimp only
  split
  · exact h1.trans (eventFrame_updHdr _ _ _)
  · exact h1

/-- An event record of 32 bytes in the ring of a partition, or dropped. -/
theorem eventFrame_eventRing (s : State) (p : PartId) (rec : List Word) (hr : rec.length = 8) : EventFrame s (s.eventRing p rec) := by
  unfold State.eventRing
  split
  · exact eventFrame_dropEvt s p
  · dsimp only
    split
    · refine (eventFrame_putBytes s p _ _ ⟨by omega, ?_⟩).trans (eventFrame_updHdr _ _ _)
      have : (ofWords rec).length = 32 := by
        simp [ofWords, List.length_flatMap, leBytes, hr]
      have := Nat.mod_lt s.parts[p].iface.hdr.evtTail (show 0 < 2048 by decide)
      omega
    · exact eventFrame_dropEvt s p

theorem eventFrame_mgmtQueue (s : State) (rec : List Word) : EventFrame s (s.mgmtQueue rec) := by
  unfold State.mgmtQueue
  split
  · exact ⟨rfl, rfl, rfl, rfl, rfl, rfl, rfl, rfl, rfl, rfl, rfl, rfl, rfl, rfl, fun _ => rfl, fun _ _ => rfl, fun _ _ => rfl⟩
  · exact eventFrame_countFld s 31 0 1 (by simp [isEventReg])

theorem eventFrame_logQueue (s : State) (rec : List Word) : EventFrame s (s.logQueue rec) := by
  unfold State.logQueue
  split
  · exact ⟨rfl, rfl, rfl, rfl, rfl, rfl, rfl, rfl, rfl, rfl, rfl, rfl, rfl, rfl, fun _ => rfl, fun _ _ => rfl, fun _ _ => rfl⟩
  · exact eventFrame_countFld s 31 24 1 (by simp [isEventReg])

theorem eventRecord_length (src : Src) (part : Option PartId) (code time : Nat) (ds : List Nat) :
    (eventRecord src part code time ds).length = 8 := by
  simp [eventRecord]

theorem severity_lt (code : Nat) : severity code < 5 := by
  unfold severity
  repeat' split
  all_goals decide

theorem isEventReg_alert : isEventReg mcAlert = true := by simp [isEventReg]

/-- Delivering a record of eight words. -/
theorem eventFrame_deliver (s : State) (part : Option PartId) (code : Nat) (rec : List Word) (hr : rec.length = 8) :
    EventFrame s (s.deliver part code rec) := by
  have h1 : EventFrame s ((s.count (mcEvtCnt (severity code)) 1).mgmtQueue rec) :=
    (eventFrame_countFld s 31 0 1 (isEventReg_cnt (Nat.lt_succ_of_lt (severity_lt code)))).trans (eventFrame_mgmtQueue _ _)
  unfold State.deliver
  dsimp only
  generalize (s.count (mcEvtCnt (severity code)) 1).mgmtQueue rec = t at *
  have last (u : State) (h2 : EventFrame s u) :
      EventFrame s (if 3 ≤ severity code then (u.logQueue rec).setFld mcAlert 0 0 1 else u) := by
    split
    · exact (h2.trans (eventFrame_logQueue u rec)).trans (eventFrame_setReg _ _ isEventReg_alert)
    · exact h2
  cases part with
  | none => exact last t h1
  | some p => exact last _ (h1.trans (eventFrame_eventRing t p rec hr))

/-- Raising an event changes nothing but the places where records go. -/
theorem eventFrame_raise (s : State) (src : Src) (part : Option PartId) (code : Nat) (ds : List Nat) :
    EventFrame s (s.raise src part code ds) := by
  unfold State.raise
  dsimp only
  have h1 : EventFrame s { s with mc := { s.mc with
      evtCount := mapSet s.mc.evtCount (code * 256 + src.code) ((mapGet s.mc.evtCount (code * 256 + src.code)).getD 0 + 1) } } :=
    ⟨rfl, rfl, rfl, rfl, rfl, rfl, rfl, rfl, rfl, rfl, rfl, rfl, rfl, rfl, fun _ => rfl, fun _ _ => rfl, fun _ _ => rfl⟩
  split
  · exact h1.trans (eventFrame_countFld _ 31 0 1 (isEventReg_cnt (by decide)))
  · exact h1.trans (eventFrame_deliver _ _ _ _ (eventRecord_length _ _ _ _ _))

end Sys2Proof.Machine
end

