-- ==== Sys2Proof/WellFormed.lean ====
section
/-! DEFINITION. Which command terms stand for something that can happen: every operand within the range that its rule gives
it. A command that is not well formed is never sent (log entry 1). -/

namespace Sys2Proof

/-- A physical address of HBM4E, crumb memory, working memory, gradient buffer or side memory (R169). -/
def isCell (a : Nat) : Bool :=
  decide (a < 0x10000000000) || (decide (0x100000000000 ≤ a) && decide (a < 0x100800000000)) ||
    (decide (0x200000000000 ≤ a) && decide (a < 0x200080000000) &&
      (decide (a % 0x10000000 < 0xB000000) || (decide (0xC000000 ≤ a % 0x10000000) && decide (a % 0x10000000 < 0xC200000))))

/-- Errors fall on cells, and on the 64 entries of a header store (R133, R169, R188). -/
def MemEnv.wf (e : MemEnv) : Bool :=
  e.ce.all isCell && e.ue.all isCell && e.headCe.all (fun x => decide (x.2 < 64)) && e.headUe.all (fun x => decide (x.2 < 64))

/-- A request (R238): an 8-bit bRequest, 16-bit fields; a request to the host carries no data, one to the device all of it. -/
def Setup.wf (r : Setup) : Bool :=
  decide (r.bRequest < 2 ^ 8) && decide (r.wValue < 2 ^ 16) && decide (r.wIndex < 2 ^ 16) && decide (r.wLength < 2 ^ 16) &&
    (if r.dirIn then r.data.isEmpty else decide (r.data.length = r.wLength))

/-- A frame on a bulk-OUT endpoint (R243): a header of 32 bytes; a WRITE of 16 MiB or less carries LENGTH bytes. -/
def Frame.wf (f : Frame) : Bool :=
  decide (f.header.length = 32) &&
    (if f.ftype = 1 then decide (f.data.length = f.length) || decide (16777216 < f.length) else f.data.isEmpty)

/-- Loop readings (R27, R405, R430): seven board rails, eight cores with four engines. -/
def LoopReadings.wf (r : LoopReadings) : Bool :=
  decide (r.rails.length = 7) && decide (r.coreCurrents.length = 8) && decide (r.capacity.length = 8) &&
    r.capacity.all (fun l => decide (l.length = 4)) && decide (r.achieved.length = 8) &&
    r.achieved.all (fun l => decide (l.length = 4)) && decide (r.capBinds.length = 8) &&
    decide (r.marginsOk.length = 8) && r.memory.wf

/-- A survey of one core (R408): a margin for each of the eight families. -/
def CoreSurvey.wf (v : CoreSurvey) : Bool := decide (v.margins.length = 8) && v.exhausted.all (fun f => decide (f < 8))

/-- A plan (R25, R410): a margin for each of the codes 0 to 63 of each of the eight families, and one for each voltage of the 5 mV grid from
500 mV to 850 mV. -/
def Plan.wf (p : Plan) : Bool :=
  decide (p.margins.length = 8) && p.margins.all (fun m => decide (m.length = 64)) && decide (p.keeps.length = 71)

/-- A received frame (R278, R286): its length fits WIRE_LEN, and it ends within a second of what the port did last. -/
def EthFrame.wf (f : EthFrame) : Bool := decide (f.bytes.length < 2 ^ 32) && decide (f.wait ≤ 65536000000000)

/-- A command is well formed. -/
def Instr.wf : Instr → Bool
  | .mcLoopTick r => r.wf
  | .ageingSurvey vs => vs.all CoreSurvey.wf
  | .replan _ p => p.wf
  | .replanQuiesceTimeout _ p => p.wf
  | .mgmtProof r | .kneadSweep r | .regRead r | .regWrite r | .getLastError r | .setWindow r | .doorbell r | .getIfStatus r
  | .funcReset r | .opStatus r | .opSuspend r | .opResume r | .opCancel r | .opRelease r | .opList r | .fwStage r
  | .nvmWrite r => r.wf
  | .frameWrite _ f => f.wf && decide (f.ftype ≠ 2)
  | .frameRead _ f e => f.wf && decide (f.ftype = 2) && e.wf
  | .stagingFrame f => f.wf
  | .frameReceive _ _ f => f.wf
  | .patrolScrub _ e _ | .matRun _ _ _ _ _ e | .matRetry _ _ _ _ _ e | .cvt _ e | .summ _ e | .vecAdd _ e | .vecSub _ e
  | .vecMul _ e | .vecFma _ e | .vecDiv _ e | .sqrt _ e | .rsqrt _ e | .vecMax _ e | .vecMin _ e | .vecAbs _ e
  | .vecTable _ e | .tableBwd _ e | .relu _ e | .dropout _ e | .maskApply _ e | .vecSum _ e | .sumsq _ e
  | .maxabs _ e | .reduceFinal _ e | .updAdamw _ e | .updSgdm _ e | .normFwd _ e | .normBwd _ e | .smaxFwd _ e
  | .smaxBwd _ e | .tblLoad _ e | .movCopy _ _ e | .copyRect _ _ e | .movFill _ _ e | .gbZero _ _ e | .refill _ _ e
  | .spillWrite _ _ e | .tieAdd _ _ e | .decisionSequence _ e | .reduce _ _ e | .gather _ _ e | .send _ _ e
  | .mbAdmit _ _ e | .netStoreWrite _ _ e | .storeWrite _ e => e.wf
  | _ => true

end Sys2Proof
end

