-- ==== Sys2Proof/Tests/Slice0.lean ====
section
/-! SUPPORT. Tests of this model, and for each clause of Sys2Proof/Certificates/Slice0/Obligations.lean that has hypotheses a named
theorem, `<statement>_<clause>_meets`, which shows a state and operands that meet all of them. Expected results come from the rules
and worked examples that the comments cite. -/

open Sys2Proof Sys2Proof.Machine

namespace Sys2Proof.Tests

set_option maxRecDepth 20000
set_option linter.unusedVariables false
set_option Elab.async false

/-! ### Small states -/

/-- The device with its start complete: hub rail on, all stacks and ports usable, every core in service in partition 0, the link up. -/
def up : State :=
  { State.reset with
    regs := [(usbLink, 0)]
    cores := Vector.replicate 8 { inService := true, part := some 0 }
    parts := (Vector.replicate 4 {}).set 0 { phys := 0xFF }
    mc := { on := true, complete := true, aux := true, hubRailOn := true, portsOn := true
            stacksUp := 0xFF, portsUp := 0xFF, hubsUp := 0xF, usbMax := 4 } }

/-- A job of one logical core, served by core 0. -/
def job0 : Job := { serves := [some ⟨0, false⟩], lcores := 1, handle := 1 }

/-- That device with a job in partition 0. -/
def withJob (j : Job) : State := up.updPart 0 fun p => { p with job := some j }

/-- A cluster record of two members without connections. -/
def cl0 : ClRec :=
  { key := 5, members := [], minMembers := 2, starter := 0, successor := 1, commitTimeoutMs := 0, startTimeoutS := 0, peerLossMs := 0
    kaInterval := 0, mirror := false, shrink := true, rejoin := true, conns := [⟨0, 0, 1, 0⟩], shards := 1, vcs := [], digest := [] }

/-- A member that leads, with entries 0 and 1 in the roster. -/
def lead0 : Cluster := { cl := cl0, self := 0, state := .member, starter := 0, successor := 1, roster := 3 }

/-- A member that follows. -/
def follow1 : Cluster := { lead0 with self := 1 }

/-- A device whose job has this cluster and one message in its inbox, from entry 1 on a virtual channel. -/
def mail (k : Cluster) (vc : Nat) (m : List Byte) : State :=
  withJob { job0 with kind := .train, cluster := some { k with inbox := [⟨1, vc, m, none⟩] } }

/-- That device while its start waits for the power-good inputs. -/
def powering : State := { up with mc := { up.mc with complete := false, stage := 6, pwrReq := true, stacksUp := 0, portsUp := 0, hubsUp := 0, usbMax := 0 } }

/-- A proof that finds nothing wrong. -/
def noFails : ProofResult := { fails := [], usbMax := 4, crumbFail := [], repairs := [], lanes := [], remaps := [], proofMs := 0 }

/-- A vendor request to the device for four bytes. -/
def asks : Setup := { vendor := true, bRequest := 0x30, recip := .device, dirIn := true, wValue := 0, wIndex := 0, wLength := 4, data := [] }

/-- A descriptor of 16 words, its non-zero words listed by place. -/
def words (l : List (Nat × Nat)) : List Word := (List.range 16).map fun i => BitVec.ofNat 32 ((mapGet l i).getD 0)

/-- A descriptor in a queue, issued by stream 0 of logical core 0. -/
def iss (q : QueueId) (w : List (Nat × Nat)) : Issued :=
  { seq := 1, ctx := 0, part := 0, lcore := 0, list := 0, index := 0, words := words w, queue := q }

/-- The device with a job in partition 0 and descriptors issued on core 0. -/
def busyWith (l : List Issued) (j : Job) : State :=
  (withJob j).updCore 0 fun k => { k with issued := l, first := { lcore := some 0 } }

/-- The same with the job of one logical core. -/
def busy (l : List Issued) : State := busyWith l job0

/-- A list of one descriptor in stack 0, waiting for counter 0 to reach a target. -/
def waiting (t : Nat) : ListRec := { addr := 0x1000, count := 1, lcore := 0, list := 0, image := words [(0, 1), (2, t)] }

/-- Core 0 with stream 0 at that descriptor. -/
def atWait (t : Nat) : State :=
  { (withJob { job0 with lists := [waiting t] }).updCore 0 fun k => { k with first := { lcore := some 0, streams := (Vector.replicate 4 {}).set 0 { state := .issuing } } } with
    mem := [⟨0x1000, 1⟩] ++ (if t = 0 then [] else [⟨0x1008, BitVec.ofNat 8 t⟩]) }

/-- A job whose streams are all parked. -/
def parked (j : Job) : State :=
  (withJob j).updCore 0 fun k => { k with first := { lcore := some 0, streams := Vector.replicate 4 { state := .parked } } }

/-- No errors and no waits. -/
def quietEnv : MemEnv := { ce := [], ue := [], headCe := [], headUe := [], stalls := 0, bankWaits := [] }

/-- Core 0 ganged, with a MAT descriptor at the head of the gang's queue. -/
def ganged : State := (busy [iss (.mat ⟨0, 0⟩) [(0, 0x10000000)]]).updCore 0 fun k => { k with ganged := true }

/-- A table load that has read its image. -/
def applying : State := busy [{ iss .row [(0, 0x30000000), (4, 0x10000000)] with phase := .running }]

/-- A pair whose second part is known. -/
theorem pair_of_snd {α β : Type} (p : α × β) (b : β) (h : p.2 = b) : p = (p.1, b) := by rw [← h]

/-- The table slot of core 0 can be written. -/
theorem slot_writable : (applying.access job0 [] (span (tablePlace 0 0) 0x2000)).2 = none := by decide +kernel

/-- A gradient tile of one element at an offset of logical core 0's buffer. -/
def tileAt (tile use off : Nat) : TileRec :=
  { tensor := 0, use := use, resident := false, core := 0, tile := tile, origin := 0, cols := 1, rows := 1, off := off, spill := 0x10000 }

/-- A job with tile 7, the use-0 tile of tensor 0, and tile 8, its next use. -/
def gbJob : Job := { job0 with tiles := [tileAt 7 0 0, tileAt 8 1 8] }

/-- Core 0 with descriptors, its two slots in a state. -/
def gbWith (st : SlotState) (l : List Issued) : State :=
  (busyWith l gbJob).updLCtx ⟨0, false⟩ fun h => { h with slots :=
    [{ off := 0, len := 8, state := st, tile := 7 }, { off := 8, len := 8, state := st, tile := 8 }] }

/-- A MAT descriptor that owes an addition to the first element of the buffer. -/
def owing : Issued :=
  { iss (.mat ⟨0, 0⟩) [(0, 0x10000000), (4, 0x800000), (9, 0x08000000), (10, 0x2000)] with adds := [{ tensor := 0, elems := [(gbBase 0, .fin false 1 0)] }] }

/-- A gradient operation on tile 7 that waits, and one that runs. -/
def gbOp (op : Nat) : Issued := iss .mov [(0, 0x40000000), (4, op * 0x10000000), (14, 8), (15, 7)]
def gbRuns (op : Nat) : Issued := { gbOp op with phase := .running }

/-- A training job in its step, its streams parked. -/
def due (j : StepState) : State := parked { job0 with kind := .train, step := { j with started := true }, cmt := { phase := .running } }

/-- A job of unit 0 and 1 with a unit map: publications of four bytes in region 1. -/
def unitJob (k : Cluster) : Job :=
  { job0 with
    kind := .train
    cluster := some k
    upd := some { regions := [⟨0x100000, 0x200000, 0x1000, 0, 0⟩, ⟨0x300000, 0x400000, 0x1000, 0, 0⟩] }
    lists := [{ addr := 0x1000, count := 1, lcore := 0, list := 4, image := words [(0, 0x50000000), (4, 0x08000100), (9, 1), (10, 1), (11, 1)] }] }

/-- A NET descriptor that waits, and one that runs. -/
def net (op : Nat) (l : List (Nat × Nat)) : Issued := iss .net ([(0, 0x50000000), (4, op * 0x1000000)] ++ l)
def netOn (w4 : Nat) (l : List (Nat × Nat)) : Issued := { iss .net ([(0, 0x50000000), (4, w4)] ++ l) with phase := .running }

/-- The device with NET descriptors on core 0 and a message of entry 1 in the inbox of its job's cluster. -/
def mailBusy (l : List Issued) (k : Cluster) (vc : Nat) (m : List Byte) : State :=
  busyWith l (unitJob { k with inbox := [⟨1, vc, m, none⟩] })

/-- A reduction of one block of bucket 0 on virtual channel 5. -/
def red0 : RedRun :=
  { core := 0, seq := 1, lcore := 0, bucket := 0, len := 1, seg := 1, vc := 5, wide := false, dst := 0x1000, segs := [{ acc := List.replicate 97 0 }] }

/-- What holds of the one slot that a target reaches. -/
theorem of_one_slot {l : List (Option Nat)} {P : Nat → Prop} (h : l = [some 0]) (hp : P 0) : ∀ o ∈ l, ∃ i, o = some i ∧ P i := by
  subst h; simpa using hp

/-- A job in partition 0 whose cluster has one message, from entry 1, on virtual channel 0. -/
def ctl (k : Cluster) (type : Nat) (body : List Byte) (c : Commit := {}) : State :=
  withJob { job0 with kind := .train, cmt := c, cluster := some { k with inbox := [⟨1, 0, ctlMsg type 1 0 0 body, none⟩] } }

/-- The body of a message for commit `n` of an attempt, with an event and a party. -/
def about (n attempt event party : Nat) : List Byte :=
  leBytes 4 n ++ leBytes 1 attempt ++ leBytes 1 0 ++ leBytes 2 event ++ leBytes 1 party ++ leBytes 15 0

/-- The record of a cluster of two members with one connection between them, four credits on each virtual channel. -/
def cl2 : ClRec :=
  { cl0 with members := [⟨0, [(0, 2, 1, [10, 0, 0, 1])]⟩, ⟨0, [(0, 3, 0, [10, 0, 0, 2])]⟩], vcs := List.replicate 16 ⟨0, 0, 4⟩, digest := List.replicate 32 0 }

/-- The leading member of that cluster, its connection as given. -/
def linked2 (r : ConnRun) : Cluster := { lead0 with cl := cl2, conns := [r] }

/-- A device with that member and a datagram from the other on port 2. -/
def datagram (r : ConnRun) (bytes : List Byte) : State :=
  (withJob { job0 with kind := .train, cluster := some (linked2 r) }).updPort 2 fun p => { p with otIn := [⟨1, 0, 64, [10, 0, 0, 2], false, false, bytes⟩] }

/-- A member with that connection. -/
def timed (r : ConnRun) : State := withJob { job0 with kind := .train, cluster := some (linked2 r) }

/-- A queue pair 0 on port 0 that is ready to send, of partition 0. -/
def withQp (s : State) : State := s.updPort 0 fun p => { p with qps := [(0, { ctx := leBytes 4 0x40000000 ++ List.replicate 60 0 })] }

/-- A batch of one sample of one token at 0x1000. -/
def batch (l : List Issued) : State := { (busy l).updPart 0 fun p => { p with ranges := [(0, 1)] } with mem := [⟨0x1000, 1⟩, ⟨0x1004, 1⟩, ⟨0x1010, 1⟩] }

/-- A vendor request of a code to an interface, and to the device. -/
def toIface (b i : Nat) (dirIn : Bool) (data : List Byte) (len : Nat) : Setup :=
  { vendor := true, bRequest := b, recip := .iface, dirIn := dirIn, wValue := 0, wIndex := i, wLength := len, data := data }
def toDev (b : Nat) (dirIn : Bool) (value len : Nat) (data : List Byte) : Setup :=
  { vendor := true, bRequest := b, recip := .device, dirIn := dirIn, wValue := value, wIndex := 0, wLength := len, data := data }

/-- The device with one open operation of MGMT. -/
def withOp (x : Handle) : State := { up with handles := [x] }
def op1 : Handle := { num := 1, kind := 0x11, owner := 0 }

/-- An NVM_WRITE whose next record is of a target, at the head of the writes. -/
def recordDue (target : Nat) (data : List Byte) : State :=
  { withOp { op1 with kind := 0x13, work := [0], blob := leBytes 4 target ++ leBytes 4 0 ++ leBytes 4 data.length ++ leBytes 4 0 ++ data } with
    mc := { up.mc with nvmQueue := [{ src := .op 1 }] } }

/-- A flash write that is being programmed. -/
def programming (w : NvmWork) : State := { up with mc := { up.mc with nvmBusy := true, nvmQueue := [w] } }

/-- Partition 0 with a window at 4 GiB, in its own memory. -/
def windowed (i : Iface) : State := up.updPart 0 fun p => { p with ranges := [(4, 1)], iface := { i with base := 0x100000000 } }

/-- A frame of one byte at the window's start: type, generation, sequence number, and a reserved byte of the header (R243). -/
def frameOf (ftype gen seq reserved : Nat) (data : List Byte) : Frame :=
  { header := leBytes 4 (ftype * 0x1000000 + gen) ++ leBytes 4 seq ++ leBytes 4 0 ++ leBytes 4 1 ++ leBytes 4 0 ++ leBytes 12 reserved, data := data }

/-- A WRITE of the byte 7. -/
def frame1 : Frame := frameOf 1 0 1 0 [7]

/-- The device with one entry in the ring of partition 0, waiting. -/
def ring (b : List Byte) : State :=
  (windowed {}).putBytes (up.hctx 0 + 0x10000) b |>.updIface 0 fun i => { i with hdr := { i.hdr with cmdTail := 1 } }

/-- A taken command. -/
def took (op level : Nat) : TakenCmd := { index := 0, op := op, level := level, hostTag := 0 }

/-- The image of a RUN job of one logical core whose four lists are one END_RUN each, at 4 GiB. -/
def runImage : State :=
  ((((windowed {}).putBytes 0x100000000 (leBytes 8 1 ++ leBytes 8 0x100000100)).putBytes 0x100000100
    (leBytes 4 0x20010000 ++ leBytes 6 0x100000200 ++ leBytes 2 4)).putBytes 0x100000200
    ((List.range 4).flatMap fun k => leBytes 8 0x100000300 ++ leBytes 4 1 ++ leBytes 4 k)).putBytes 0x100000300
    (leBytes 4 0x60000000 ++ leBytes 12 0 ++ leBytes 4 0x21000000)

/-- A ring entry that names four bytes at 4 GiB and queue pair 0 of port 0. -/
def storeEntry : List Byte := List.replicate 16 0 ++ leBytes 8 0x100000000 ++ List.replicate 12 0 ++ leBytes 4 4 ++ List.replicate 24 0

/-- A ring entry that names handle 1. -/
def imageEntry : List Byte := List.replicate 16 0 ++ leBytes 2 1 ++ List.replicate 46 0

/-- Partition 0 with a training job under handle 1, in a state. -/
def training (st : OpState) : State :=
  { withQp ((windowed {}).updPart 0 fun p => { p with job := some { job0 with kind := .train } }) with
    handles := [{ num := 1, kind := 1, owner := 1, part := some 0, state := st }] }

/-- Port 0 with subport 0 enabled and taking untagged frames, its link up or down. -/
def port0 (link : Nat) : State := (((up.setReg (portCtl 0) 0x10000).setReg (portTag 0 0) 0x40000000).setReg (portStat 0) (BitVec.ofNat 32 link))

/-- A broadcast frame of 64 bytes, or of more, of an EtherType that no protocol takes. -/
def ethBody (n : Nat) : List Byte := List.replicate 6 0xFF ++ List.replicate 6 0 ++ [0x12, 0x34] ++ List.replicate (n - 18) 0
def eth0 : EthFrame := { bytes := ethBody 64 ++ checkBytes (ethBody 64), pcsError := false, fecCorr := 0, fecUncorr := 0, wait := 0 }

/-- A subport takes the broadcast address. -/
theorem broadcast_ok (s : State) (t q : Nat) : s.dstOk t q (List.replicate 6 0xFF) = true := by simp [State.dstOk]

/-- A packet for queue pair 0 of subport 0 in the receive buffer of port 0, its base transport header of an opcode and a PSN. -/
def roceWaits (op psn : Nat) (body : List Byte) (s : State) : State :=
  s.updPort 0 fun p => { p with roceIn := [⟨0, 0, 64, false, [BitVec.ofNat 8 op, 0, 0, 0, 0, 0, 0, 0, 0] ++ beBytes 3 psn ++ body⟩] }

/-- Array 0 of core 0 with a fold of a MAT at the head of its queue in the shadows, and the token past these cells. -/
def shadowed (l : List Nat) : State :=
  (busy [iss (.mat ⟨0, 0⟩) [(0, 0x10000000)]]).updCore 0 fun k => { k with arrays := k.arrays.set 0 { halves := Vector.replicate 2 {
    grid := { loads := some (1, 0), swapped := l } } } }

/-- A leader whose member 1 has sent no READY twice. -/
def mailLate : State :=
  withJob { job0 with kind := .train, cluster := some lead0, cmt := { timer := true, readies := [⟨0, 0, 0, 0⟩], namedLate := [1, 1] } }

/-- Port 0 half a loop period before a whole second of its time, with a record of its clock. -/
def ppsState (v : List Byte) : State :=
  { up.updPort 0 fun p => { p with clock := 65535999999999, tick := 65535999999999 } with mc := { up.mc with cfg := [(0x25, v)] } }

/-- A cut of the bytes that a function of the place gives. -/
theorem slice_range (f : Nat → Byte) {n : Nat} (o k : Nat) (h : o + k ≤ n) :
    slice ((List.range n).map f) o k = (List.range k).map fun i => f (o + i) := by
  have e : (((List.range n).map f).drop o).take k = (List.range k).map fun i => f (o + i) := by
    apply List.ext_getElem
    · simp; omega
    · intro i h1 h2; simp
  simp [slice, e]

/-- A request of one record, read from bytes that a function of the place gives. -/
theorem one_record (f : Nat → Byte) {n k : Nat} (hn : 16 + k ≤ n) (hk : leNat ((List.range 4).map fun i => f (8 + i)) = k)
    (hz : leNat ((List.range 4).map fun i => f (12 + i)) = 0) :
    stagedRecs 1 ((List.range n).map f) = some [⟨leNat ((List.range 4).map fun i => f (0 + i)), leNat ((List.range 4).map fun i => f (4 + i)),
      (List.range k).map fun i => f (16 + i)⟩] := by
  have e : (((List.range n).map f).drop 16).take k = (List.range k).map fun i => f (16 + i) := by
    apply List.ext_getElem
    · simp; omega
    · intro i h1 h2; simp
  simp only [stagedRecs, rdLE, slice_range f 8 4 (by omega : 8 + 4 ≤ n), slice_range f 12 4 (by omega : 12 + 4 ≤ n),
    slice_range f 0 4 (by omega : 0 + 4 ≤ n), slice_range f 4 4 (by omega : 4 + 4 ≤ n), hk, hz, e]
  simp; omega

/-- The device with a staged request of one record of one byte: its target, the low byte of its offset, the byte. -/
def stagedWith (t o d : Byte) : State := { up with staging := [(0, 1), (16, t), (20, o), (24, 1), (32, d)] }

/-- That request, in any state whose staging buffer holds it. -/
theorem staged_one (s : State) (t o d : Byte) (h : s.staging = [(0, 1), (16, t), (20, o), (24, 1), (32, d)]) :
    s.stagedRequest = some [⟨leNat [t, 0, 0, 0], leNat [o, 0, 0, 0], [d]⟩] := by
  have e : ∀ a n, s.stagedBytes a n = (stagedWith t o d).stagedBytes a n := fun a n => by simp only [State.stagedBytes, h, stagedWith]
  unfold State.stagedRequest
  simp only [e]
  rw [if_neg (by simp [rdLE, slice, State.stagedBytes, stagedWith, leNat, mapGet, stagingSize, List.range, List.range.loop]),
    show rdLE ((stagedWith t o d).stagedBytes 0 16) 0 4 = 1 by simp [rdLE, slice, State.stagedBytes, stagedWith, leNat, mapGet, List.range, List.range.loop]]
  unfold State.stagedBytes
  rw [one_record _ (k := 1) (by decide)
    (by simp [stagedWith, leNat, mapGet, List.range, List.range.loop]) (by simp [stagedWith, leNat, mapGet, List.range, List.range.loop])]
  simp [stagedWith, leNat, mapGet, List.range, List.range.loop]

/-- A table whose entries follow a function of the place, from a place on. -/
theorem mapGet_row {α : Type} (f : Nat → α) (k n i : Nat) (h : i < n) :
    mapGet ((List.range n).map fun x => (k + x, f x)) (k + i) = some (f i) := by
  induction n generalizing k f i with
  | zero => omega
  | succ n ih =>
    rw [List.range_succ_eq_map, List.map_cons, List.map_map]
    cases i with
    | zero => simp [mapGet]
    | succ i =>
      have := ih (fun x => f (x + 1)) (k + 1) i (by omega)
      simp only [mapGet, if_neg (by omega : ¬k + 0 = k + (i + 1))]
      rw [show k + (i + 1) = k + 1 + i by omega]
      simpa [Function.comp_def, Nat.add_assoc, Nat.add_comm 1] using this

/-- A reset passes stage 2, and leaves the pairing. -/
theorem puf_starts (s : State) : ∃ y, s.startPuf true ⟨true, true, true, none⟩ = .ok y ∧ y.paired = s.paired := ⟨_, rfl, rfl⟩

/-- A reset from power-off leaves the flash of a device that was never paired unpaired. -/
theorem reset_unpaired : ((State.reset.leaveReset true).startReports State.reset.mc.brownout true).paired = false := by decide +kernel

/-- The device paired: its flash holds the record of its counter root key, and nothing else. -/
def pairedState : State :=
  { State.reset with
    paired := true
    nvm := (List.range (Config.pairingRecord (Config.counterRootKey Config.pufRoot)).length).map fun i =>
      (nvmCounters + i, (Config.pairingRecord (Config.counterRootKey Config.pufRoot)).getD i 0) }

/-- It passes stage 3. -/
theorem paired_passes : ∃ z, pairedState.startCounters ⟨true, true, true, none⟩ = .ok z := by
  have e : pairedState.nvmRd nvmCounters (Config.pairingRecord (Config.counterRootKey Config.pufRoot)).length =
      Config.pairingRecord (Config.counterRootKey Config.pufRoot) := by
    apply List.ext_getElem
    · simp [State.nvmRd]
    · intro i h1 h2
      simp [State.nvmRd, State.nvmAt, pairedState, mapGet_row _ _ _ _ h2, List.getElem?_eq_getElem h2]
  have e2 : ∀ a n, (pairedState.toStage 3).nvmRd a n = pairedState.nvmRd a n := fun _ _ => rfl
  have e3 : (pairedState.toStage 3).paired = true := rfl
  exact ⟨_, by simp [State.startCounters, State.tested, Except.bind, e, e2, e3]; rfl⟩

/-- A leader of one, and the JOIN of entry 1 under a serial number that it may accept. -/
def alone : Cluster := { lead0 with cl := cl2, roster := 1 }
def joinMsg (n : Nat) : List Byte := ctlMsg 0x01 1 0 0 (leBytes 8 n ++ leBytes 4 0 ++ List.replicate 32 0)

/-- That JOIN is accepted from a device of another serial number. -/
theorem join_accepted (s : State) (n : Nat) (h : n ≠ Config.serial.toNat) (hc : s.mc.conduct = 0) (hm : rdLE (joinMsg n) 16 8 = n)
    (hs : slice (joinMsg n) 28 32 = cl2.digest) (ht : rdLE (joinMsg n) 24 1 = 0) : s.joinRefusal alone 1 (joinMsg n) = 0 := by
  simp only [State.joinRefusal, hm, hs, ht, hc, h]
  simp [alone, lead0, cl2, cl0, inMask]

theorem stepRunsFrontCommand_1_meets :
    ∃ (s : State), s.pending = [] :=
  ⟨State.reset, by decide⟩

theorem startsBeginAndComplete_0_meets :
    ∃ (s : State), s.mc.aux = false :=
  ⟨State.reset, by decide⟩

theorem startsBeginAndComplete_1_meets :
    ∃ (s : State), s.mc.aux = true :=
  ⟨up, by decide⟩

theorem startsBeginAndComplete_2_meets :
    ∃ (s : State), s.mc.rstLow = true :=
  ⟨{ up with mc := { up.mc with rstLow := true } }, by decide⟩

theorem startsBeginAndComplete_3_meets :
    ∃ (s : State), s.mc.on = true :=
  ⟨up, by decide⟩

theorem startsBeginAndComplete_4_meets :
    ∃ (s : State), s.mc.aux = true :=
  ⟨up, by decide⟩

theorem startsBeginAndComplete_5_meets :
    ∃ (env : StartEnv), ∃ (x : State), ∃ (s : State), x = (s.leaveReset false).startReports s.mc.brownout false ∧ env.selfFail = none ∧ env.pufOk = false :=
  ⟨⟨false, true, false, none⟩, _, State.reset, rfl, by decide, by decide⟩

theorem startsBeginAndComplete_6_meets :
    ∃ (cold : _), ∃ (env : StartEnv), ∃ (b : _), ∃ (x : State), ∃ (s : State), x = (s.leaveReset cold).startReports s.mc.brownout cold ∧ env.selfFail = some (0, b) :=
  ⟨true, ⟨true, true, true, some (0, true)⟩, true, _, State.reset, rfl, by decide⟩

theorem startsBeginAndComplete_7_meets :
    ∃ (cold : Bool) (env : StartEnv) (x y s : State), x = (s.leaveReset cold).startReports s.mc.brownout cold ∧ x.startPuf cold env = .ok y ∧ env.selfFail = none ∧ y.paired = false :=
  let ⟨_, h, k⟩ := puf_starts ((State.reset.leaveReset true).startReports State.reset.mc.brownout true)
  ⟨true, ⟨true, true, true, none⟩, _, _, State.reset, rfl, h, rfl, k.trans reset_unpaired⟩

theorem startsBeginAndComplete_8_meets :
    ∃ (env : StartEnv), env.selfFail = none :=
  ⟨⟨true, true, true, none⟩, by decide⟩

theorem startsBeginAndComplete_9_meets :
    ∃ (k : _), ∃ (b : _), ∃ (w : State), k = (if w.mc.storageKey = true then recordOwner (w.nvmRd nvmOwner 0xA68) (w.counter 2) else none) ∧ b = w.nvmRd nvmCfg w.imageLens.2 :=
  ⟨_, _, State.reset, rfl, rfl⟩

theorem startsBeginAndComplete_10_meets :
    ∃ (cold : _), ∃ (x : State), ∃ (s : State), x = (s.leaveReset cold).startReports s.mc.brownout cold :=
  ⟨true, _, State.reset, rfl⟩

theorem startsBeginAndComplete_11_meets :
    ∃ (cold : Bool) (env : StartEnv) (x y : State), x.startPuf cold env = .ok y :=
  let ⟨y, h, _⟩ := puf_starts State.reset
  ⟨true, ⟨true, true, true, none⟩, State.reset, y, h⟩

theorem startsBeginAndComplete_12_meets :
    ∃ (env : StartEnv) (y z : State), y.startCounters env = .ok z := ⟨_, _, paired_passes⟩

theorem startsBeginAndComplete_13_meets :
    ∃ (a : Nat) (s : State), s.inRings a = false := ⟨0, State.reset, by decide⟩

theorem startsBeginAndComplete_14_meets :
    ∃ (proof : _), ∃ (u : State), ∃ (s : State), s.awaitsPower = true ∧ u = (((s.toStage 8).setFld pwrPg 5 0 0x3F).blocksUp.proof proof).placeHctx ∧ u.minimum = true ∧ proof.usb2 = true :=
  ⟨noFails, _, powering, by decide, rfl, by decide, by decide⟩

theorem startsBeginAndComplete_15_meets :
    ∃ (proof : _), ∃ (u : State), ∃ (s : State), s.awaitsPower = true ∧ u = (((s.toStage 8).setFld pwrPg 5 0 0x3F).blocksUp.proof proof).placeHctx ∧ (u.minimum = false ∨ proof.usb2 = false) :=
  ⟨{ noFails with usbMax := 0, usb2 := false }, _, powering, by decide, rfl, by decide⟩

theorem startsBeginAndComplete_16_meets :
    ∃ (s : State), s.awaitsPower = true :=
  ⟨powering, by decide⟩

theorem cascadeActs_0_meets :
    ∃ (s : State), s.mc.on = true :=
  ⟨up, by decide⟩

theorem cascadeActs_1_meets :
    ∃ (s : State), s.mc.complete = true ∧ (s.syncRec 1).isSome = true ∧ (s.mc.cascade = .byCount ∨ s.mc.cascade = .notApplied) ∧ s.mc.pulsed = false ∧ s.standingBegun = true :=
  ⟨{ up with mc := { up.mc with cfg := [(0x30, [1, 0, 0, 0, 0, 0, 0, 0])], cascade := .byCount } }, by decide, by decide, by decide, by decide, by decide⟩

theorem cascadeActs_2_meets :
    ∃ (s : State), s.mc.cascade = .held :=
  ⟨{ up with mc := { up.mc with cascade := .held } }, by decide⟩

theorem cascadeActs_3_meets :
    ∃ (p : PartId), ∃ (s : State), ∃ (n : _), ∃ (v : _), mapGet s.mc.restartAt p.val = some n ∧ s.standingRec p = some v ∧ s.job p = none :=
  ⟨3, { up with mc := { up.mc with restartAt := [(3, 9)], cfg := [(0x40, leBytes 4 3)] } }, _, _, rfl, rfl, by decide⟩

theorem securityInputsAct_0_meets :
    ∃ (s : State), s.mc.aux = true :=
  ⟨up, by decide⟩

theorem securityInputsAct_1_meets :
    ∃ (s : State), s.mc.aux = true ∧ s.mc.sealIntact = true ∧ (∀ t, s.mc.sealAt = some t → t + presenceNs ≤ s.mc.time) :=
  ⟨up, by decide, by decide, by decide⟩

theorem securityInputsAct_2_meets :
    ∃ (t : _), ∃ (s : State), s.mc.sealAt = some t ∧ s.mc.time < t + presenceNs :=
  ⟨0, { up with mc := { up.mc with sealAt := some 0 } }, by decide, by decide⟩

theorem securityInputsAct_3_meets :
    ∃ (s : State), s.mc.sealIntact = false :=
  ⟨{ up with mc := { up.mc with sealIntact := false } }, by decide⟩

theorem securityInputsAct_5_meets :
    ∃ (s : State), s.mc.aux = true ∧ s.mc.sealIntact = true ∧ s.counters.length = 8 :=
  ⟨up, by decide, by decide, by decide⟩

theorem securityInputsAct_6_meets :
    ∃ (s : State), s.mc.aux = false :=
  ⟨State.reset, by decide⟩

theorem securityInputsAct_7_meets :
    ∃ (s : State), s.mc.sealIntact = false :=
  ⟨{ up with mc := { up.mc with sealIntact := false } }, by decide⟩

theorem suppliesAndHeatAct_0_meets :
    ∃ (s : State), s.mc.on = true :=
  ⟨up, by decide⟩

theorem suppliesAndHeatAct_1_meets :
    ∃ (s : State), s.mc.on = true :=
  ⟨up, by decide⟩

theorem suppliesAndHeatAct_3_meets :
    ∃ (s : State), s.mc.on = true :=
  ⟨up, by decide⟩

theorem suppliesAndHeatAct_4_meets :
    ∃ (s : State), s.mc.on = true :=
  ⟨up, by decide⟩

theorem suppliesAndHeatAct_6_meets :
    ∃ (s : State), s.mc.on = true :=
  ⟨up, by decide⟩

theorem suppliesAndHeatAct_8_meets :
    ∃ (s : State), s.mc.on = true ∧ s.mc.pwrReq = true :=
  ⟨{ up with mc := { up.mc with pwrReq := true } }, by decide, by decide⟩

theorem suppliesAndHeatAct_9_meets :
    ∃ (s : State), s.mc.on = true ∧ s.mc.hubRailOn = true ∧ s.mc.therm ≠ .halted ∧ s.mc.therm ≠ .tripped :=
  ⟨up, by decide, by decide, by decide, by decide⟩

theorem suppliesAndHeatAct_10_meets :
    ∃ (s : State), s.mc.therm = .halted :=
  ⟨{ up with mc := { up.mc with therm := .halted } }, by decide⟩

theorem suppliesAndHeatAct_11_meets :
    ∃ (s : State), s.mc.on = true ∧ s.mc.hubRailOn = true ∧ s.mc.therm ≠ .tripped :=
  ⟨up, by decide, by decide, by decide⟩

theorem suppliesAndHeatAct_12_meets :
    ∃ (s : State), s.mc.on = true ∧ s.mc.therm = .halted :=
  ⟨{ up with mc := { up.mc with therm := .halted } }, by decide, by decide⟩

theorem regulationAndAgeingAct_0_meets :
    ∃ (s : State), s.mc.on = true :=
  ⟨up, by decide⟩

theorem regulationAndAgeingAct_1_meets :
    ∃ (s : State), s.mc.on = true :=
  ⟨up, by decide⟩

theorem regulationAndAgeingAct_2_meets :
    ∃ (c : CoreId), ∃ (s : State), s.mayReplan c = true ∧ s.cores[c].issued = [] ∧ s.atBoundary c = true :=
  ⟨7, up.updRail 7 fun r => { r with wantReplan := true }, by decide, by decide, by decide⟩

theorem regulationAndAgeingAct_3_meets :
    ∃ (c : CoreId), ∃ (s : State), s.mayReplan c = true :=
  ⟨0, up.updRail 0 fun r => { r with wantReplan := true }, by decide⟩

theorem regulationAndAgeingAct_4_meets :
    ∃ (c : CoreId), ∃ (plan : Plan), ∃ (s : State), s.mc.rails[c].quiesce = some plan ∧ s.cores[c].issued = [] ∧ (∀ d : CoreId, d ≠ c → s.mc.rails[d].quiesce = none) :=
  ⟨7, default, up.updRail 7 fun r => { r with quiesce := some default }, by decide, by decide, by decide⟩

theorem regulationAndAgeingAct_5_meets :
    ∃ (s : State), (∀ c : CoreId, s.mc.rails[c].quiesce = none ∨ s.cores[c].issued ≠ []) :=
  ⟨up, by decide⟩

theorem regulationAndAgeingAct_7_meets :
    ∃ (plan : Plan), ∃ (f : _), ∃ (k : _), f < 8 ∧ k < 64 ∧ (plan.margins.getD f [])[k]?.any (fun m => decide (15 ≤ m)) = true ∧ (∀ i, i < k → (plan.margins.getD f [])[i]?.all (fun m => decide (m < 15)) = true) :=
  ⟨⟨[[15]], []⟩, 0, 0, by decide, by decide, by decide, by intro i h; omega⟩

theorem regulationAndAgeingAct_8_meets :
    ∃ (plan : Plan), ∃ (k : _), k ≤ 70 ∧ plan.keeps[k]?.any (fun m => decide (15 ≤ m)) = true ∧ (∀ i, i < k → plan.keeps[i]?.all (fun m => decide (m < 15)) = true) :=
  ⟨⟨[], [15]⟩, 0, by decide, by decide, by intro i h; omega⟩

theorem regulationAndAgeingAct_9_meets :
    ∃ (c : CoreId), ∃ (s : State), s.coreUp c = true :=
  ⟨7, up, by decide⟩

theorem regulationAndAgeingAct_10_meets :
    ∃ (s : State), s.mc.on = true :=
  ⟨up, by decide⟩

theorem regulationAndAgeingAct_11_meets :
    ∃ (s : State), s.mc.on = true :=
  ⟨up, by decide⟩

theorem regulationAndAgeingAct_12_meets :
    ∃ (s : State), ∃ (w : _), ∃ (r : _), ∃ (rest : _), s.mc.on = true ∧ s.nvmInhibited = false ∧ s.mc.nvmBusy = false ∧ s.nvmHead = some w ∧ w.src = .log ∧ s.mc.logWait = r :: rest :=
  ⟨{ up with mc := { up.mc with nvmQueue := [{ src := .log }], logWait := [[1, 2]] } }, _, _, _, by decide, by decide, by decide, rfl, by decide, rfl⟩

theorem regulationAndAgeingAct_13_meets :
    ∃ (s : State), ∃ (w : _), s.mc.on = true ∧ s.nvmInhibited = false ∧ s.mc.nvmBusy = false ∧ s.nvmHead = some w ∧ w.src = .fixed :=
  ⟨{ up with mc := { up.mc with nvmQueue := [{ src := .fixed }] } }, _, by decide, by decide, by decide, rfl, by decide⟩

theorem exhaustedMarginFences_0_meets :
    ∃ (v : CoreSurvey), ∃ (f : _), ∃ (rest : _), ∃ (s : State), s.mc.on = true ∧ s.coreUp v.core = true ∧ v.exhausted = f :: rest :=
  ⟨{ core := 7, margins := [], exhausted := [3] }, _, _, up, by decide, by decide, rfl⟩

theorem fencedCoreLosesItselfOnly_0_meets :
    ∃ (c : CoreId), ∃ (s : State), s.cores[c].inService = true :=
  ⟨7, up, by decide⟩

theorem blocksFailAndAreProved_0_meets :
    ∃ (s : State), s.mc.hubRailOn = true :=
  ⟨up, by decide⟩

theorem blocksFailAndAreProved_1_meets :
    ∃ (kind : _), ∃ (index : _), ∃ (s : State), s.mc.hubRailOn = true ∧ index < blockCount kind ∧ (kind = .hub → index ≠ 0) :=
  ⟨.mesh, 5, up, by decide, by decide, by decide⟩

theorem blocksFailAndAreProved_2_meets :
    ∃ (k : StackId), ∃ (s : State), s.mc.stacksUp.getLsbD k.val = true :=
  ⟨7, up, by decide⟩

theorem blocksFailAndAreProved_3_meets :
    ∃ (k : StackId), ∃ (a : _), stackBase k.val ≤ a ∧ a < stackBase k.val + 0x2000000000 :=
  ⟨7, stackBase 7 + 0x1FFFFFFFFF, by decide, by decide⟩

theorem blocksFailAndAreProved_4_meets :
    ∃ (r : _), ∃ (s : State), ∃ (blocks : _), s.linked = true ∧ r.vendor = true ∧ r.bRequest = 0x30 ∧ (formOpStart 0x10).ok s.mc.recovery r = true ∧ s.busy (reqIface r) = false ∧ r.wValue = 0x10 ∧ s.handlesFull 0 = false ∧ s.proofSelect r.wIndex = .ok blocks :=
  ⟨{ asks with wValue := 0x10, wIndex := 0x1007 }, up, _, by decide, by decide, by decide, by decide, by decide, by decide, by decide, rfl⟩

theorem blocksFailAndAreProved_5_meets :
    ∃ (h : _), ∃ (x : _), ∃ (n : _), ∃ (rest : _), ∃ (s : State), s.handleOf h = some x ∧ x.kind = 0x10 ∧ x.state = .running ∧ s.mc.hubRailOn = true ∧ x.work = n :: rest :=
  ⟨1, _, _, _, { up with handles := [{ num := 1, kind := 0x10, owner := 0, work := [0x17] }] }, rfl, by decide, by decide, by decide, rfl⟩

theorem memoryUpkeepActs_0_meets :
    ∃ (c : CoreId), ∃ (s : State), s.coreUp c = true ∧ bitAt (s.reg (coreMemRet c.val)) 8 = true ∧ s.cores[c].ret = .active ∧ s.coreIdle c = true :=
  ⟨0, up.setReg (coreMemRet 0) 0x100, by decide, by decide, by decide, by decide⟩

theorem memoryUpkeepActs_2_meets :
    ∃ (c : CoreId), ∃ (s : State), (s.cores[c].ret = .retained ∨ s.cores[c].ret = .entering) :=
  ⟨7, up.updCore 7 fun k => { k with ret := .retained }, by decide⟩

theorem memoryUpkeepActs_3_meets :
    ∃ (c : CoreId), ∃ (s : State), s.cores[c].ret = .waking :=
  ⟨7, up.updCore 7 fun k => { k with ret := .waking }, by decide⟩

theorem memoryUpkeepActs_4_meets :
    ∃ (c : CoreId), ∃ (s : State), s.cores[c].ret = .active :=
  ⟨0, up, by decide⟩

theorem memoryUpkeepActs_6_meets :
    ∃ (c : CoreId), ∃ (m : _), ∃ (s : State), s.coreUp c = true ∧ (s.kneadOf c m).phase = .gap ∧ s.cores[c].ret ≠ .retained ∧ s.kneadGap c m ≠ 0 :=
  ⟨0, .wm, up.setReg (coreMemKneadCtl 0) 1, by decide, by decide, by decide, by decide⟩

theorem memoryUpkeepActs_7_meets :
    ∃ (c : CoreId), ∃ (m : _), ∃ (r : _), ∃ (s : State), s.coreUp c = true ∧ (s.kneadOf c m).phase = .copy r :=
  ⟨0, .wm, 2047, up.updKnead 0 .wm fun k => { k with phase := .copy 2047 }, by decide, by decide⟩

theorem memoryUpkeepActs_8_meets :
    ∃ (c : CoreId), ∃ (m : _), ∃ (r : _), ∃ (s : State), s.coreUp c = true ∧ (s.kneadOf c m).phase = .test r :=
  ⟨7, .crumb, 65535, up.updKnead 7 .crumb fun k => { k with phase := .test 65535 }, by decide, by decide⟩

theorem memoryUpkeepActs_9_meets :
    ∃ (c : CoreId), ∃ (m : _), ∃ (r : _), ∃ (s : State), s.coreUp c = true ∧ (s.kneadOf c m).phase = .test r ∧ 0 < s.cores[c].spares.getD (spareSlot m r) 0 :=
  ⟨7, .side, 31, up.updKnead 7 .side fun k => { k with phase := .test 31 }, by decide, by decide, by decide⟩

theorem memoryUpkeepActs_10_meets :
    ∃ (c : CoreId), ∃ (m : _), ∃ (r : _), ∃ (s : State), s.coreUp c = true ∧ (s.kneadOf c m).phase = .test r ∧ s.cores[c].spares.getD (spareSlot m r) 0 = 0 :=
  ⟨7, .side, 31, (up.updKnead 7 .side fun k => { k with phase := .test 31 }).updCore 7 fun k => { k with spares := [1, 1, 1, 0] }, by decide, by decide, by decide⟩

theorem memoryUpkeepActs_11_meets :
    ∃ (c : CoreId), ∃ (m : _), ∃ (r : _), ∃ (s : State), s.coreUp c = true ∧ (s.kneadOf c m).phase = .restore r :=
  ⟨0, .wm, 0, up.updKnead 0 .wm fun k => { k with phase := .restore 0 }, by decide, by decide⟩

theorem memoryUpkeepActs_12_meets :
    ∃ (c : CoreId), ∃ (m : _), ∃ (r : _), ∃ (s : State), s.coreUp c = true ∧ (s.kneadOf c m).phase = .remap r :=
  ⟨0, .crumb, 1, up.updKnead 0 .crumb fun k => { k with phase := .remap 1 }, by decide, by decide⟩

theorem memoryUpkeepActs_13_meets :
    ∃ (c : CoreId) (m : KneadMem) (r : Nat) (s : State), ((s.kneadDone c m r).kneadOf c m).phase = .gap :=
  ⟨7, .side, 31, up, by decide +kernel⟩

theorem memoryUpkeepActs_14_meets :
    ∃ (c : CoreId), ∃ (m : _), ∃ (region : _), ∃ (s : State), s.coreUp c = true ∧ bitAt (s.reg (coreMemKneadStat c.val)) 2 = true ∧ region < kneadRegions m :=
  ⟨0, .side, 31, up.setReg (coreMemKneadStat 0) 4, by decide, by decide, by decide⟩

theorem memoryUpkeepActs_15_meets :
    ∃ (r : _), ∃ (s : State), s.linked = true ∧ r.vendor = true ∧ r.bRequest = 0x30 ∧ (formOpStart 0x11).ok s.mc.recovery r = true ∧ s.busy (reqIface r) = false ∧ r.wValue = 0x11 ∧ s.handlesFull 0 = false ∧ r.wIndex < 256 :=
  ⟨{ asks with wValue := 0x11, wIndex := 255 }, up, by decide, by decide, by decide, by decide, by decide, by decide, by decide, by decide⟩

theorem memoryUpkeepActs_16_meets :
    ∃ (k : StackId), ∃ (s : State), s.mc.stacksUp.getLsbD k.val = true ∧ s.mc.hubRailOn = true :=
  ⟨7, up, by decide, by decide⟩

theorem waitsHoldDescriptors_2_meets :
    ∃ (v : Word), ∃ (t : Word), ∃ (k : Word), waitMet v t = true ∧ (v - t).toNat + k.toNat < 2 ^ 31 :=
  ⟨2, 0xFFFFFFFF, 0x7FFFFFFC, by decide, by decide⟩

theorem streamsIssueInOrder_0_meets :
    ∃ (c : CoreId), ∃ (x : _), ∃ (p : _), ∃ (l : _), ∃ (j : _), ∃ (r : _), ∃ (d : _), ∃ (v : State), ∃ (u : State), ∃ (w : _), ∃ (n : _), ∃ (tgt : _), ∃ (s : State), s.AtDescriptor c x p l j r ∧ s.access j (span (r.addr + 64 * (s.stream c x).index) 64) [] = (v, none) ∧ (v.meetReads ((span (r.addr + 64 * (s.stream c x).index) 64).map (j.phys false))).fetchDesc j r (s.stream c x).index = (d, u) ∧ unmet (s.cores[c].half (ctxGuest x)) d = some (w, n, tgt) :=
  ⟨0, 0, 0, 0, _, _, _, _, _, _, _, _, atWait 1, ⟨by decide, by decide, rfl, by decide, by decide, by decide, by decide, by decide, rfl, by decide⟩, rfl, rfl, rfl⟩

theorem streamsIssueInOrder_1_meets :
    ∃ (c : CoreId), ∃ (x : _), ∃ (p : _), ∃ (l : _), ∃ (j : _), ∃ (r : _), ∃ (d : _), ∃ (v : State), ∃ (u : State), ∃ (s : State), s.AtDescriptor c x p l j r ∧ s.access j (span (r.addr + 64 * (s.stream c x).index) 64) [] = (v, none) ∧ (v.meetReads ((span (r.addr + 64 * (s.stream c x).index) 64).map (j.phys false))).fetchDesc j r (s.stream c x).index = (d, u) ∧ unmet (s.cores[c].half (ctxGuest x)) d = none :=
  ⟨0, 0, 0, 0, _, _, _, _, _, atWait 0, ⟨by decide, by decide, rfl, by decide, by decide, by decide, by decide, by decide, rfl, by decide⟩, rfl, rfl, by decide⟩

theorem streamsIssueInOrder_2_meets :
    ∃ (p : _), ∃ (j : _), ∃ (l : _), ∃ (r : _), ∃ (i : _), ∃ (d : _), ∃ (s : State), j.relocation r i = none ∧ hClass d = 6 ∧ paramBytes d = 0 ∧ headerError j.lcores d = none ∧ s.descCheck p j l r.list i d [] = none ∧ (i + 1 = r.count → endsAs (j.endingOf r) d = true) :=
  ⟨0, job0, 0, waiting 0, 0, words [(0, 0x60000000), (4, 0x21000000)], up, by decide, by decide, by decide, by decide, by decide, by decide⟩

theorem streamsIssueInOrder_3_meets :
    ∃ (c : CoreId), ∃ (j : Job), ∃ (r : ListRec), ∃ (i : Nat), ∃ (d : List Word), ∃ (s : State), j.relocation r i = none ∧ hClass d ≠ 6 ∧ (hClass d = 5 → nOp d ≠ 8) ∧ nOp d ≠ 9 ∧ 1 ≤ hClass d ∧ hClass d ≤ 6 ∧ queueDepth (s.queueOf c (relocate id d)) ≤ s.queued c (s.queueOf c (relocate id d)) :=
  ⟨0, job0, waiting 0, 0, words [(0, 0x20000000)], busy (List.replicate 16 (iss .vec [])), by decide, by decide, by decide, by decide, by decide, by decide, by decide⟩

theorem streamsIssueInOrder_4_meets :
    ∃ (p : _), ∃ (j : _), ∃ (s : State), s.job p = some j ∧ s.allParked j = true ∧ j.stop = .none ∧ j.kind = .run :=
  ⟨0, _, parked job0, rfl, by decide, by decide, by decide⟩

theorem streamsIssueInOrder_5_meets :
    ∃ (p : _), ∃ (j : _), ∃ (s : State), s.job p = some j ∧ s.allParked j = true ∧ j.stop = .none ∧ j.kind = .loop ∧ ((s.handleOf j.handle).any fun x => x.suspendPending) = false :=
  ⟨0, _, parked { job0 with kind := .loop }, rfl, by decide, by decide, by decide, by decide⟩

theorem streamsIssueInOrder_6_meets :
    ∃ (p : _), ∃ (j : _), ∃ (s : State), s.job p = some j ∧ j.cmt.restart = true ∧ s.mayRestart p = true :=
  ⟨0, _, parked { job0 with cmt := { restart := true } }, rfl, by decide, by decide⟩

theorem streamsIssueInOrder_7_meets :
    ∃ (p : PartId), ∃ (c : CoreId), ∃ (l : _), ∃ (s : State), s.cores[c].part = some p ∧ s.cores[c].first.lcore = some l :=
  ⟨0, 0, _, busy [], by decide, rfl⟩

theorem streamsIssueInOrder_8_meets :
    ∃ (p : _), ∃ (k : _), ∃ (s : State), (s.startStreams p).cluster p = some k :=
  ⟨0, _, parked { job0 with cluster := some lead0 }, rfl⟩

theorem signalsReachCounters_0_meets :
    ∃ n m : Nat, m ≠ n := ⟨255, 0, by decide⟩

theorem signalsReachCounters_1_meets :
    ∃ n m : Nat, m ≠ n := ⟨0, 255, by decide⟩

theorem signalsReachCounters_2_meets :
    ∃ (p : PartId), ∃ (k : Nat), ∃ (l : Nat), ∃ (n : Nat), ∃ (inc : Nat), ∃ (s : State), s.parts[p].flying[k]? = some (l, n, inc) :=
  ⟨3, 0, _, _, _, up.updPart 3 fun p => { p with flying := [(7, 255, 15)] }, rfl⟩

theorem signalsReachCounters_3_meets :
    ∃ (p : PartId), ∃ (j : _), ∃ (l : _), ∃ (v : _), ∃ (s : State), s.job p = some j ∧ j.serve l = some v :=
  ⟨0, _, 0, _, busy [], rfl, rfl⟩

theorem signalsReachCounters_4_meets :
    ∃ (c : CoreId), ∃ (k : Nat), ∃ (e : Issued), ∃ (s : State), s.cores[c].issued[k]? = some e ∧ e.phase = .finished :=
  ⟨0, 0, _, busy [{ iss .vec [] with phase := .finished }], rfl, by decide⟩

theorem signalsReachCounters_5_meets :
    ∃ (c : CoreId), ∃ (k : Nat), ∃ (e : Issued), ∃ (s : State), s.cores[c].issued[k]? = some e ∧ e.phase ≠ .finished :=
  ⟨0, 0, _, busy [iss .vec []], rfl, by decide⟩

theorem signalsReachCounters_6_meets :
    ∃ (e : Issued), e.mute = true :=
  ⟨{ iss .vec [] with mute := true }, by decide⟩

theorem signalsReachCounters_7_meets :
    ∃ (e : Issued), ∃ (j : _), ∃ (s : State), s.job e.part = some j ∧ j.stop ≠ .none :=
  ⟨iss .vec [], _, withJob { job0 with stop := .abort }, rfl, by decide⟩

theorem signalsReachCounters_8_meets :
    ∃ (e : Issued), ∃ (j : _), ∃ (s : State), s.job e.part = some j ∧ j.stop = .none ∧ e.mute = false ∧ hNotify e.words = false ∧ dbit e.words 0 3 = false :=
  ⟨iss .vec [(0, 0x20000004), (1, 0xF00)], _, withJob job0, rfl, by decide, by decide, by decide, by decide⟩

theorem signalsReachCounters_9_meets :
    ∃ (e : Issued), ∃ (j : _), ∃ (s : State), s.job e.part = some j ∧ j.stop = .none ∧ e.mute = false ∧ hNotify e.words = false ∧ dbit e.words 0 2 = false ∧ dbit e.words 0 3 = true ∧ hRemote e.words = true :=
  ⟨iss .vec [(0, 0x20800008)], _, withJob job0, rfl, by decide, by decide, by decide, by decide, by decide, by decide⟩

theorem signalsReachCounters_10_meets :
    ∃ (c : CoreId), ∃ (x : _), ∃ (s : State), (s.stream c x).longRaised = true :=
  ⟨0, 0, up.updStream 0 0 fun t => { t with longRaised := true }, by decide⟩

theorem signalsReachCounters_11_meets :
    ∃ (c : CoreId), ∃ (x : _), ∃ (p : _), ∃ (l : _), ∃ (s : State), s.cores[c].part = some p ∧ (s.cores[c].half (ctxGuest x)).lcore = some l ∧ (s.stream c x).state = .waitCounter ∧ (s.stream c x).longRaised = false :=
  ⟨0, 0, _, _, (busy []).updStream 0 0 fun t => { t with state := .waitCounter }, rfl, rfl, by decide, by decide⟩

theorem synOperationsAct_0_meets :
    ∃ (c : CoreId), ∃ (x : _), ∃ (e : Issued), ∃ (s : State), s.synEntry c x (synIs 0x00) = some e :=
  ⟨0, 0, _, busy [iss .syn [(0, 0x60000000)]], rfl⟩

theorem synOperationsAct_1_meets :
    ∃ (c : CoreId), ∃ (x : _), ∃ (e : Issued), ∃ (s : State), s.synEntry c x (synIs 0x01) = some e :=
  ⟨0, 0, _, busy [iss .syn [(0, 0x60000000), (4, 0x01000000)]], rfl⟩

theorem synOperationsAct_2_meets :
    ∃ (c : CoreId), ∃ (x : _), ∃ (e : Issued), ∃ (s : State), s.synEntry c x (synIs 0x02) = some e :=
  ⟨0, 0, _, busy [iss .syn [(0, 0x60000000), (4, 0x02000000)]], rfl⟩

theorem synOperationsAct_3_meets :
    ∃ e j v, ∃ s : State, s.muted e = false ∧ s.job e.part = some j ∧ j.serve e.lcore = some v :=
  ⟨iss .syn [], _, _, busy [iss .syn []], by decide, rfl, rfl⟩

theorem synOperationsAct_4_meets :
    ∃ (c : CoreId), ∃ (x : _), ∃ (e : Issued), ∃ (s : State), s.synEntry c x (synIs 0x10) = some e ∧ s.streamClear c e = true :=
  ⟨0, 0, _, busy [iss .syn [(0, 0x60000000), (4, 0x10000000)]], rfl, by decide⟩

theorem synOperationsAct_5_meets :
    ∃ (c : CoreId), ∃ (x : _), ∃ (e : Issued), ∃ (s : State), s.synEntry c x (synIs 0x11) = some e ∧ s.coreClear c e = true :=
  ⟨0, 0, _, busy [iss .syn [(0, 0x60000000), (4, 0x11000000)]], rfl, by decide⟩

theorem synOperationsAct_6_meets :
    ∃ (c : CoreId), ∃ (x : _), ∃ (e : Issued), ∃ (s : State), s.synEntry c x (synIs 0x10) = some e ∧ s.streamClear c e = false :=
  ⟨0, 0, _, busy [{ iss .vec [] with seq := 0 }, iss .syn [(0, 0x60000000), (4, 0x10000000)]], rfl, by decide⟩

theorem synOperationsAct_7_meets :
    ∃ (c : CoreId), ∃ (x : _), ∃ (e : Issued), ∃ (s : State), s.synEntry c x (synIs 0x11) = some e ∧ s.coreClear c e = false :=
  ⟨0, 0, _, busy [{ iss .vec [] with seq := 0, ctx := 3 }, iss .syn [(0, 0x60000000), (4, 0x11000000)]], rfl, by decide⟩

theorem synOperationsAct_8_meets :
    ∃ (c : CoreId), ∃ (x : _), ∃ (e : Issued), ∃ (s : State), s.synEntry c x (synIs 0x20) = some e ∧ s.streamClear c e = true :=
  ⟨0, 0, _, busy [iss .syn [(0, 0x60000000), (4, 0x20000000)]], rfl, by decide⟩

theorem synOperationsAct_9_meets :
    ∃ (c : CoreId), ∃ (x : _), ∃ (e : Issued), ∃ (s : State), s.synEntry c x (synIs 0x21) = some e ∧ s.streamClear c e = true :=
  ⟨0, 0, _, busy [iss .syn [(0, 0x60000000), (4, 0x21000000)]], rfl, by decide⟩

theorem synOperationsAct_10_meets :
    ∃ (c : CoreId), ∃ (x : _), ∃ (e : Issued), ∃ (s : State), (s.synEntry c x fun d => decide (hClass d = 5 ∧ nOp d = 8)) = some e :=
  ⟨0, 0, _, busy [iss .syn [(0, 0x50000000), (4, 0x08000000)]], rfl⟩

theorem synOperationsAct_11_meets :
    ∃ (c : CoreId), ∃ (x : _), ∃ (e : Issued), ∃ (s : State), (s.synEntry c x fun d => decide (hClass d = 5 ∧ nOp d = 9)) = some e ∧ ((s.cluster e.part).any fun k => (k.slotOf (nId e.words)).isSome) = true :=
  ⟨0, 0, _, busyWith [iss .syn [(0, 0x50000000), (4, 0x09000000)]] { job0 with cluster := some { lead0 with units := [(0, 0)] } }, rfl, by decide⟩

theorem synOperationsAct_12_meets :
    ∃ (c : CoreId), ∃ (x : _), ∃ (e : Issued), ∃ (s : State), (s.synEntry c x fun d => decide (hClass d = 5 ∧ nOp d = 9)) = some e ∧ ((s.cluster e.part).any fun k => (k.slotOf (nId e.words)).isSome) = false :=
  ⟨0, 0, _, busy [iss .syn [(0, 0x50000000), (4, 0x09000000)]], rfl, by decide⟩

theorem matInstructionsRun_0_meets :
    ∃ (c : CoreId), ∃ (u : _), ∃ (e : Issued), ∃ (s : State), s.headOf c (s.matQueue c u) = some e ∧ e.phase = .queued ∧ e.isRetry = false ∧ s.cores[c].ganged = false :=
  ⟨0, ⟨3, 0⟩, _, busy [iss (.mat ⟨3, 0⟩) [(0, 0x10000000)]], rfl, by decide, by decide, by decide⟩

theorem matInstructionsRun_1_meets :
    ∃ (c : CoreId), ∃ (u : _), ∃ (e : Issued), ∃ (s : State), s.headOf c (s.matQueue c u) = some e ∧ e.phase = .queued ∧ e.isRetry = false ∧ s.cores[c].ganged = true ∧ s.cores[c].gangOut = none :=
  ⟨0, ⟨0, 0⟩, _, ganged, rfl, by decide, by decide, by decide, by decide⟩

theorem matInstructionsRun_2_meets :
    ∃ (c : CoreId), ∃ (u : _), ∃ (a : _), ∃ (e : Issued), ∃ (s : State), s.headOf c (s.matQueue c u) = some e ∧ e.phase = .queued ∧ e.isRetry = false ∧ s.cores[c].ganged = true ∧ s.cores[c].gangOut = some a :=
  ⟨0, ⟨0, 0⟩, 3, _, ganged.updCore 0 fun k => { k with arrays := k.arrays.set 3 { halves := Vector.replicate 2 { service := .out } } }, rfl, by decide, by decide, by decide, by decide⟩

theorem matInstructionsRun_3_meets :
    ∃ (c : CoreId), ∃ (k : Nat), ∃ (e : Issued), ∃ (u : MatUnit), ∃ (s : State), s.cores[c].issued[k]? = some e ∧ e.queue = .mat u ∧ e.isRetry = true ∧ e.phase = .queued ∧ (s.headOf c e.queue).map Issued.seq = some e.seq :=
  ⟨0, 0, _, ⟨3, 0⟩, busy [{ iss (.mat ⟨3, 0⟩) [(0, 0x10000000)] with prog := [1] }], rfl, by decide, by decide, by decide, by decide⟩

theorem matInstructionsRun_4_meets :
    ∃ (c : CoreId), ∃ (u : _), ∃ (row : Fin 256), ∃ (col : Fin 256), ∃ (e : Issued), ∃ (n : _), ∃ (s : State), s.loading c u = some (e, n) ∧ (s.cores[c].unit u).grid.loads = some (e.seq, n) ∧ col.val < unitWidth u ∧ (s.cores[c].unit u).grid.reaches row.val col.val = true ∧ (¬ (row.val = 255 ∧ col.val + 1 = unitWidth u)) :=
  ⟨0, ⟨0, 0⟩, 0, 0, _, _, shadowed [], rfl, by decide, by decide, by decide, by decide⟩

theorem matInstructionsRun_6_meets :
    ∃ (ws : List (Nat × List (XNum × Nat))) (cells : Nat → Bool) (cell : Nat) (w : List (XNum × Nat)), (cell, w) ∈ ws ∧ cells cell = true :=
  ⟨[(0, [])], fun _ => true, 0, [], .head _, rfl⟩

theorem matInstructionsRun_7_meets :
    ∃ (c : CoreId), ∃ (u : _), ∃ (e : Issued), ∃ (n : _), ∃ (row : Fin 256), ∃ (col : Fin 256), ∃ (s : State), s.loading c u = some (e, n) ∧ (s.cores[c].unit u).grid.loads = some (e.seq, n) ∧ (s.cores[c].unit u).grid.reaches row.val col.val = true ∧ row.val = 255 ∧ col.val + 1 = unitWidth u ∧ s.nextLoad c u e n = none :=
  ⟨0, ⟨0, 0⟩, _, _, 255, 255, shadowed [254 * 256 + 255, 255 * 256 + 254], rfl, by decide, by decide, by decide, by decide, by decide⟩

theorem matInstructionsRun_8_meets :
    ∃ (c : CoreId), ∃ (u : _), ∃ (e : Issued), ∃ (n : _), ∃ (x : _), ∃ (k : _), ∃ (row : Fin 256), ∃ (col : Fin 256), ∃ (s : State), s.loading c u = some (e, n) ∧ (s.cores[c].unit u).grid.loads = some (e.seq, n) ∧ (s.cores[c].unit u).grid.reaches row.val col.val = true ∧ row.val = 255 ∧ col.val + 1 = unitWidth u ∧ s.nextLoad c u e n = some (x, k) :=
  ⟨0, ⟨0, 0⟩, _, _, _, _, 255, 255, (shadowed [254 * 256 + 255, 255 * 256 + 254]).updCore 0 fun k => { k with issued := k.issued ++ [{ iss (.mat ⟨0, 0⟩) [(0, 0x10000000)] with seq := 2 }] }, rfl, by decide, by decide, by decide, by decide, rfl⟩

theorem matInstructionsRun_9_meets :
    ∃ (c : CoreId), ∃ (u : _), ∃ (e : Issued), ∃ (n : _), ∃ (row : Fin 256), ∃ (col : Fin 256), ∃ (s : State), s.loading c u = some (e, n) ∧ (s.cores[c].unit u).grid.loads = some (e.seq, n) ∧ (s.cores[c].unit u).grid.reaches row.val col.val = false :=
  ⟨0, ⟨0, 0⟩, _, _, 255, 255, shadowed [], rfl, by decide, by decide⟩

theorem matInstructionsRun_10_meets :
    ∃ (c : CoreId), ∃ (u : _), ∃ (s : State), s.cores[c].inService = true ∧ (s.cores[c].records u).all (fun h => decide (h.service = .suspect) && !h.diag) = true :=
  ⟨0, ⟨0, 0⟩, up.updCore 0 fun k => { k with arrays := k.arrays.set 0 { halves := Vector.replicate 2 { service := .suspect } } }, by decide, by decide⟩

theorem matInstructionsRun_11_meets :
    ∃ (c : CoreId), ∃ (u : _), ∃ (s : State), s.cores[c].inService = true ∧ (s.cores[c].records u).all (fun h => h.diag) = true :=
  ⟨0, ⟨0, 0⟩, up.updCore 0 fun k => { k with arrays := k.arrays.set 0 { halves := Vector.replicate 2 { diag := true } } }, by decide, by decide⟩

theorem matInstructionsRun_12_meets :
    ∃ (c : CoreId), ∃ (u : _), ∃ (s : State), s.cores[c].inService = true ∧ (s.cores[c].records u).all (fun h => h.diag) = true :=
  ⟨7, ⟨3, 0⟩, up.updCore 7 fun k => { k with arrays := k.arrays.set 3 { halves := Vector.replicate 2 { diag := true } } }, by decide, by decide⟩

theorem matRunFinishes_0_meets :
    ∃ (c : CoreId), ∃ (u : _), ∃ (e : Issued), ∃ (flaws : _), ∃ (feed : _), ∃ (drain : _), ∃ (j : _), ∃ (v : State), ∃ (s : State), s.job e.part = some j ∧ (matD e.words).acc = false ∧ (s.countStalls c u (matD e.words) (s.width c u) feed drain).access j (matD e.words).readAddrs ((matD e.words).rO.addrs (matD e.words).fO true) = (v, none) ∧ (matD e.words).breaches (v.lrd j) = [] ∧ ((matD e.words).strict = true → (matD e.words).trunc (v.lrd j) = 0) ∧ (matD e.words).verdict (v.lrd j) flaws (s.width c u) = none :=
  ⟨0, ⟨0, 0⟩, iss (.mat ⟨0, 0⟩) [(0, 0x10000000), (4, 0x00099900), (9, 0x100)], [], 0, 0, _, _, busy [], rfl, by decide, rfl, by decide, by decide, by decide⟩

theorem matRunFinishes_1_meets :
    ∃ (c : CoreId), ∃ (u : _), ∃ (e : Issued), ∃ (flaws : _), ∃ (feed : _), ∃ (drain : _), ∃ (j : _), ∃ (v : State), ∃ (s : State), s.job e.part = some j ∧ (matD e.words).acc = true ∧ e.mute = false ∧ (s.countStalls c u (matD e.words) (s.width c u) feed drain).access j (matD e.words).readAddrs (matD e.words).accAddrs = (v, none) ∧ (matD e.words).breaches (v.lrd j) = [] ∧ ((matD e.words).strict = true → (matD e.words).trunc (v.lrd j) = 0) ∧ (matD e.words).verdict (v.lrd j) flaws (s.width c u) = none :=
  ⟨0, ⟨0, 0⟩, iss (.mat ⟨0, 0⟩) [(0, 0x10000000), (4, 0x00899900), (9, 0x100)], [], 0, 0, _, _, busy [], rfl, by decide, by decide, rfl, by decide, by decide, by decide⟩

theorem mismatchIsCounted_0_meets :
    ∃ (c : CoreId), ∃ (u : _), ∃ (s : State), (¬ (2 ≤ (s.within24 (s.cores[c].unit u).mismatches ++ [s.mc.time]).length ∧ (s.cores[c].unit u).service = .inService)) :=
  ⟨0, ⟨0, 0⟩, up, by decide⟩

theorem mismatchIsCounted_1_meets :
    ∃ (c : CoreId), ∃ (u : _), ∃ (v : _), ∃ (s : State), 2 ≤ (s.within24 (s.cores[c].unit u).mismatches ++ [s.mc.time]).length ∧ (s.cores[c].unit u).service = .inService ∧ (s.within24 s.cores[c].marks).length < 2 ∧ s.cores[c].serviceable v = true ∧ (v.array ≠ u.array ∨ (u.half ≠ 0 ∧ v.half ≠ 0 ∧ v.half ≠ u.half)) :=
  ⟨0, ⟨0, 0⟩, ⟨1, 0⟩, up.updCore 0 fun k => { k with arrays := k.arrays.set 0 { halves := Vector.replicate 2 { mismatches := [0] } } }, by decide, by decide, by decide, by decide, by decide⟩

theorem mismatchIsCounted_2_meets :
    ∃ (c : CoreId), ∃ (u : _), ∃ (s : State), 2 ≤ (s.within24 (s.cores[c].unit u).mismatches ++ [s.mc.time]).length ∧ (s.cores[c].unit u).service = .inService ∧ 2 ≤ (s.within24 s.cores[c].marks).length ∧ s.cores[c].inService = true :=
  ⟨0, ⟨0, 0⟩, up.updCore 0 fun k => { k with marks := [0, 0], arrays := k.arrays.set 0 { halves := Vector.replicate 2 { mismatches := [0] } } }, by decide, by decide, by decide, by decide⟩

theorem vecAndRowDescriptorsRun_0_meets :
    ∃ x ∈ vecCommands, ∃ (c : CoreId), ∃ (env : _), ∃ (e : Issued), ∃ (j : _), ∃ (v : _), ∃ (s : State), s.headOf c .vec = some e ∧ (vecD e.words).op = x.1 ∧ e.phase = .queued ∧ s.job e.part = some j ∧ j.serve e.lcore = some v ∧ (s.vecStart c e j env none).untied j e.lcore (vecD e.words) = none :=
  ⟨_, .head _, 0, quietEnv, _, _, _, busy [iss .vec [(0, 0x20000000), (4, 0x01000000)]], rfl, by decide, by decide, rfl, rfl, by decide⟩

theorem vecAndRowDescriptorsRun_1_meets :
    ∃ x ∈ tableCommands, ∃ (c : CoreId), ∃ (env : _), ∃ (e : Issued), ∃ (j : _), ∃ (v : _), ∃ (t : _), ∃ (u : State), ∃ (s : State), s.headOf c .vec = some e ∧ (vecD e.words).op = x.1 ∧ e.phase = .queued ∧ s.job e.part = some j ∧ j.serve e.lcore = some v ∧ s.loadBefore c e (vecP e.param).tbl = false ∧ s.tableAt j e.lcore (vecP e.param).tbl = some t ∧ u = (s.vecStart c e j env (some t)).meetHead c v.guest (vecP e.param).tbl ∧ u.headFails c v.guest (vecP e.param).tbl = false :=
  ⟨_, .head _, 0, quietEnv, _, _, _, _, _, (busy [iss .vec [(0, 0x20000000), (4, 0x20000000)]]).updLCtx ⟨0, false⟩ fun h => { h with tables := [(0, [])] }, rfl, by decide, by decide, rfl, rfl, by decide, rfl, rfl, by decide⟩

theorem vecAndRowDescriptorsRun_2_meets :
    ∃ x ∈ tableCommands, ∃ (c : CoreId), ∃ (e : Issued), ∃ (j : _), ∃ (v : _), ∃ (s : State), s.headOf c .vec = some e ∧ (vecD e.words).op = x.1 ∧ e.phase = .queued ∧ s.job e.part = some j ∧ j.serve e.lcore = some v ∧ s.loadBefore c e (vecP e.param).tbl = false ∧ s.tableAt j e.lcore (vecP e.param).tbl = none :=
  ⟨_, .head _, 0, _, _, _, busy [iss .vec [(0, 0x20000000), (4, 0x20000000)]], rfl, by decide, by decide, rfl, rfl, by decide, by decide⟩

theorem vecAndRowDescriptorsRun_3_meets :
    ∃ x ∈ tableCommands, ∃ (c : CoreId), ∃ (e : Issued), ∃ (j : _), ∃ (v : _), ∃ (s : State), s.headOf c .vec = some e ∧ (vecD e.words).op = x.1 ∧ e.phase = .queued ∧ s.job e.part = some j ∧ j.serve e.lcore = some v ∧ s.loadBefore c e (vecP e.param).tbl = true :=
  ⟨_, .head _, 0, _, _, _, busy [{ iss .row [(0, 0x30000000), (4, 0x10000000)] with seq := 0 }, iss .vec [(0, 0x20000000), (4, 0x20000000)]], rfl, by decide, by decide, rfl, rfl, by decide⟩

theorem vecAndRowDescriptorsRun_4_meets :
    ∃ (c : CoreId), ∃ (e : Issued), ∃ (j : _), ∃ (v : _), ∃ (s : State), s.rowHead c 0x01 = some (e, j, v) :=
  ⟨0, _, _, _, busy [iss .row [(0, 0x30000000), (4, 0x01000000)]], rfl⟩

theorem vecAndRowDescriptorsRun_5_meets :
    ∃ (c : CoreId), ∃ (e : Issued), ∃ (j : _), ∃ (v : _), ∃ (s : State), s.rowHead c 0x02 = some (e, j, v) :=
  ⟨0, _, _, _, busy [iss .row [(0, 0x30000000), (4, 0x02000000)]], rfl⟩

theorem vecAndRowDescriptorsRun_6_meets :
    ∃ x ∈ ([(0x03, .smaxFwd), (0x04, .smaxBwd)] : List (Nat × (CoreId → MemEnv → Instr))), ∃ (c : CoreId), ∃ (env : _), ∃ (e : Issued), ∃ (j : _), ∃ (v : _), ∃ (t : _), ∃ (u : State), ∃ (s : State), s.rowHead c x.1 = some (e, j, v) ∧ s.tableAt j e.lcore (rowD e.words).tbl = some t ∧ t.hdr.func = 5 ∧ u = (s.rowStart c e j env (some t)).meetHead c v.guest (rowD e.words).tbl ∧ u.headFails c v.guest (rowD e.words).tbl = false :=
  ⟨_, .head _, 0, quietEnv, _, _, _, _, _, (busy [iss .row [(0, 0x30000000), (4, 0x03000000)]]).updLCtx ⟨0, false⟩ fun h => { h with tables := [(0, leBytes 4 5)] }, rfl, rfl, by decide, rfl, by decide⟩

theorem vecAndRowDescriptorsRun_7_meets :
    ∃ x ∈ ([(0x03, .smaxFwd), (0x04, .smaxBwd)] : List (Nat × (CoreId → MemEnv → Instr))), ∃ (c : CoreId), ∃ (e : Issued), ∃ (j : _), ∃ (v : _), ∃ (s : State), s.rowHead c x.1 = some (e, j, v) ∧ s.tableAt j e.lcore (rowD e.words).tbl = none :=
  ⟨_, .head _, 0, _, _, _, busy [iss .row [(0, 0x30000000), (4, 0x03000000)]], rfl, by decide⟩

theorem vecAndRowRunsFinish_0_meets :
    ∃ (e : Issued), ∃ (j : _), ∃ (g : _), ∃ (tab : _), ∃ (s : State), s.job e.part = some j ∧ (∀ n, n < (vecD e.words).vectors → s.vecStop j e.lcore g (vecD e.words) (vecP e.param) (j.vecEnv (vecD e.words).dA) tab n = none) :=
  ⟨iss .vec [(0, 0x20000000), (4, 0x10999000)], _, false, none, busy [], rfl, by decide⟩

theorem vecAndRowRunsFinish_1_meets :
    ∃ (c : CoreId), ∃ (e : Issued), ∃ (j : _), ∃ (tab : _), ∃ (s : State), s.job e.part = some j ∧ s.tagStop c j e.lcore (rowD e.words) = none ∧ (∀ n, n < (rowD e.words).rows → s.rowStop j e.lcore (rowD e.words) (rowP e.param) tab n = none) :=
  ⟨0, iss .row [(0, 0x30000000), (4, 0x01999000)], _, none, busy [], rfl, by decide, by decide⟩

theorem tableLoadsFillSlots_0_meets :
    ∃ (c : CoreId), ∃ (env : _), ∃ (e : Issued), ∃ (j : _), ∃ (v : _), ∃ (img : _), ∃ (u : State), ∃ (s : State), s.rowHead c 0x10 = some (e, j, v) ∧ (s.rowStart c e j env none).access j (if (rowD e.words).fw then [] else span (rowD e.words).xA imageBytes) [] = (u, none) ∧ tableImage (rowD e.words).fw ((rowD e.words).xA % 65536) (if (rowD e.words).fw then [] else u.lrdBytes j (rowD e.words).xA imageBytes) = .ok img :=
  ⟨0, quietEnv, _, _, _, _, _, busy [iss .row [(0, 0x30000000), (4, 0x10000080), (7, 1)]], rfl, rfl, rfl⟩

theorem tableLoadsFillSlots_1_meets :
    ∃ (c : CoreId), ∃ (env : _), ∃ (e : Issued), ∃ (j : _), ∃ (v : _), ∃ (f : _), ∃ (u : State), ∃ (s : State), s.rowHead c 0x10 = some (e, j, v) ∧ (s.rowStart c e j env none).access j (if (rowD e.words).fw then [] else span (rowD e.words).xA imageBytes) [] = (u, none) ∧ tableImage (rowD e.words).fw ((rowD e.words).xA % 65536) (if (rowD e.words).fw then [] else u.lrdBytes j (rowD e.words).xA imageBytes) = .error f :=
  ⟨0, quietEnv, _, _, _, _, _, busy [iss .row [(0, 0x30000000), (4, 0x10000080), (7, 0xFFFF)]], rfl, rfl, rfl⟩

theorem tableLoadsFillSlots_2_meets :
    ∃ (c : CoreId), ∃ (e : Issued), ∃ (j : _), ∃ (v : _), ∃ (u : State), ∃ (s : State), s.headOf c .row = some e ∧ (rowD e.words).op = 0x10 ∧ e.phase = .running ∧ s.usedBefore c e (rowD e.words).tbl = false ∧ s.job e.part = some j ∧ j.serve e.lcore = some v ∧ s.access j [] (span (tablePlace e.lcore (rowD e.words).tbl) 0x2000) = (u, none) :=
  ⟨0, { iss .row [(0, 0x30000000), (4, 0x10000000)] with phase := .running }, job0, ⟨0, false⟩, _, applying, by decide, by decide, by decide, by decide, by decide, by decide, pair_of_snd _ _ slot_writable⟩

theorem tableLoadsFillSlots_3_meets :
    ∃ (c : CoreId), ∃ (e : Issued), ∃ (s : State), s.headOf c .row = some e ∧ s.usedBefore c e (rowD e.words).tbl = true :=
  ⟨0, _, busy [{ iss .vec [(0, 0x20000000), (4, 0x20000000)] with seq := 0 }, { iss .row [(0, 0x30000000), (4, 0x10000000)] with phase := .running }], rfl, by decide⟩

theorem movesRunAndFinish_0_meets :
    ∃ x ∈ ([(0x0, .movCopy), (0x1, .copyRect), (0x2, .movFill)] : List (Nat × (CoreId → Fin 8 → MemEnv → Instr))), ∃ (c : CoreId), ∃ (slot : _), ∃ (e : Issued), ∃ (j : _), ∃ (s : State), s.startMov c slot x.1 = some (e, j) :=
  ⟨_, .head _, 0, 0, _, _, busy [iss .mov [(0, 0x40000000)]], rfl⟩

theorem movesRunAndFinish_1_meets :
    ∃ (e : Issued), ∃ (j : _), ∃ (s : State), (∀ n, n < (movD e.words).rows → ∀ x ∈ (movD e.words).cells n, s.cellStop j x = none) :=
  ⟨iss .mov [(0, 0x40000000), (5, 0x1000), (7, 0x2000), (11, 2)], job0, up, by decide⟩

theorem gbAdditionsAreMade_0_meets :
    ∃ (c : CoreId), ∃ (k : Nat), ∃ (e : Issued), ∃ (j : Job), ∃ (v : Serve), ∃ (q : State), ∃ (u : State), ∃ (s : State), s.cores[c].issued[k]? = some e ∧ s.job e.part = some j ∧ e.addsToGb = true ∧ e.mute = false ∧ e.adds ≠ [] ∧ s.addBlocked c e = false ∧ j.serve e.lcore = some v ∧ (∀ o ∈ (s.lctx v).targetSlots e.lcore e.gbRuns, ∃ i, o = some i ∧ State.addFate j (s.lctx v) e i = .made) ∧ q = s.meetReads (((e.adds.flatMap PendingAdd.elems).flatMap fun x => span x.1 8).map (j.phys false)) ∧ q.access j ((e.adds.flatMap PendingAdd.elems).flatMap fun x => span x.1 8) ((e.adds.flatMap PendingAdd.elems).flatMap fun x => span x.1 8) = (u, none) :=
  ⟨0, 0, _, _, _, _, _, gbWith .live [owing], rfl, rfl, by decide, by decide, by decide, by decide, rfl, of_one_slot (by decide) (by decide), rfl, rfl⟩

theorem gbAdditionsAreMade_1_meets :
    ∃ (c : CoreId), ∃ (k : Nat), ∃ (e : Issued), ∃ (j : Job), ∃ (v : Serve), ∃ (s : State), s.cores[c].issued[k]? = some e ∧ s.job e.part = some j ∧ e.addsToGb = true ∧ e.mute = false ∧ e.adds ≠ [] ∧ s.addBlocked c e = false ∧ j.serve e.lcore = some v ∧ (∀ o ∈ (s.lctx v).targetSlots e.lcore e.gbRuns, ∃ i, o = some i ∧ State.addFate j (s.lctx v) e i ≠ .absent) ∧ (∃ i, some i ∈ (s.lctx v).targetSlots e.lcore e.gbRuns ∧ State.addFate j (s.lctx v) e i = .waits) :=
  ⟨0, 0, _, _, _, gbWith .filling [owing], rfl, rfl, by decide, by decide, by decide, by decide, rfl, of_one_slot (by decide) (by decide), ⟨0, by decide, by decide⟩⟩

theorem gbAdditionsAreMade_2_meets :
    ∃ (c : CoreId), ∃ (k : Nat), ∃ (e : Issued), ∃ (j : Job), ∃ (v : Serve), ∃ (s : State), s.cores[c].issued[k]? = some e ∧ s.job e.part = some j ∧ e.addsToGb = true ∧ e.mute = false ∧ e.adds ≠ [] ∧ s.addBlocked c e = false ∧ j.serve e.lcore = some v ∧ (none ∈ (s.lctx v).targetSlots e.lcore e.gbRuns ∨ ∃ i, some i ∈ (s.lctx v).targetSlots e.lcore e.gbRuns ∧ State.addFate j (s.lctx v) e i = .absent) :=
  ⟨0, 0, _, _, _, busy [owing], rfl, rfl, by decide, by decide, by decide, by decide, rfl, .inl (by decide)⟩

theorem gbTileOperationsAct_0_meets :
    ∃ (c : CoreId), ∃ (slot : _), ∃ (env : _), ∃ (e : Issued), ∃ (j : _), ∃ (t : _), ∃ (v : _), ∃ (k : _), ∃ (g : _), ∃ (q : State), ∃ (u : State), ∃ (s : State), s.startMov c slot 0x8 = some (e, j) ∧ q = s.takeFor env e.part [] ∧ q.gradTarget j e (movD e.words).tile = some (t, v, k, g) ∧ t.resident = false ∧ g.state = .empty ∧ q.access j [] (span (t.addr e.lcore) t.bytes) = (u, none) :=
  ⟨0, 0, quietEnv, _, _, _, _, _, _, _, _, gbWith .empty [gbOp 0x8], rfl, rfl, rfl, by decide, by decide, rfl⟩

theorem gbTileOperationsAct_1_meets :
    ∃ (c : CoreId), ∃ (slot : _), ∃ (env : _), ∃ (e : Issued), ∃ (j : _), ∃ (t : _), ∃ (v : _), ∃ (k : _), ∃ (g : _), ∃ (q : State), ∃ (u : State), ∃ (w : State), ∃ (s : State), s.startMov c slot 0x9 = some (e, j) ∧ q = s.takeFor env e.part (j.spillAddrs e.lcore (movD e.words).tile) ∧ q.gradTarget j e (movD e.words).tile = some (t, v, k, g) ∧ t.resident = false ∧ g.state = .empty ∧ q.access j (span t.spill 64) [] = (u, none) ∧ refillTag e.stamp t (movD e.words).micro (u.lrdBytes j t.spill 64) = none ∧ (u.touchAll ((span t.spill (64 + t.bytes)).map (j.phys false))).movRows j [copyCells (span (t.spill + 64) t.bytes) (span (t.addr e.lcore) t.bytes)] = (w, none) :=
  ⟨0, 0, quietEnv, _, _, _, _, _, _, _, _, _, { gbWith .empty [gbOp 0x9] with mem := [⟨0x10004, 7⟩, ⟨0x10010, 1⟩] }, rfl, rfl, rfl, by decide, by decide, rfl, by decide, rfl⟩

theorem gbTileOperationsAct_2_meets :
    ∃ (v : _), ∃ (k : _), ∃ (s : State), k < (s.lctx v).slots.length :=
  ⟨⟨0, false⟩, 1, gbWith .live [], by decide⟩

theorem gbTileOperationsAct_3_meets :
    ∃ (c : CoreId), ∃ (i : Nat), ∃ (e : Issued), ∃ (j : Job), ∃ (t : TileRec), ∃ (v : Serve), ∃ (k : Nat), ∃ (g : GbSlot), ∃ (s : State), s.cores[c].issued[i]? = some e ∧ hClass e.words = 4 ∧ ((movD e.words).op = 0x8 ∨ (movD e.words).op = 0x9) ∧ e.phase = .running ∧ s.job e.part = some j ∧ s.gradTarget j e (movD e.words).tile = some (t, v, k, g) ∧ g.state = .filling :=
  ⟨0, 0, _, _, _, _, _, _, gbWith .filling [gbRuns 0x8], rfl, by decide, by decide, by decide, rfl, rfl, by decide⟩

theorem gbTileOperationsAct_4_meets :
    ∃ (c : CoreId), ∃ (slot : _), ∃ (e : Issued), ∃ (j : _), ∃ (t : _), ∃ (v : _), ∃ (k : _), ∃ (g : _), ∃ (s : State), s.startMov c slot 0xA = some (e, j) ∧ s.gradTarget j e (movD e.words).tile = some (t, v, k, g) ∧ (e.mute = true ∨ (g.state = .spilling ∧ g.spiller = e.seq)) :=
  ⟨0, 0, _, _, _, _, _, _, gbWith .spilling [{ gbOp 0xA with seq := 0 }], rfl, rfl, by decide⟩

theorem gbTileOperationsAct_5_meets :
    ∃ (j : Job), ∃ (e : Issued), ∃ (t : _), ∃ (v : _), ∃ (k : _), ∃ (g : _), ∃ (s : State), hClass e.words = 4 ∧ (movD e.words).op = 0xA ∧ s.gradTarget j e (movD e.words).tile = some (t, v, k, g) ∧ t.resident = false ∧ g.state = .live ∧ g.tile = (movD e.words).tile :=
  ⟨gbJob, gbOp 0xA, _, _, _, _, gbWith .live [gbOp 0xA], by decide, by decide, rfl, by decide, by decide, by decide⟩

theorem gbTileOperationsAct_6_meets :
    ∃ (c : CoreId), ∃ (i : Nat), ∃ (env : MemEnv), ∃ (e : Issued), ∃ (j : Job), ∃ (t : TileRec), ∃ (v : Serve), ∃ (k : Nat), ∃ (g : GbSlot), ∃ (s : State), s.cores[c].issued[i]? = some e ∧ hClass e.words = 4 ∧ (movD e.words).op = 0xA ∧ e.phase = .running ∧ s.job e.part = some j ∧ s.gradTarget j e (movD e.words).tile = some (t, v, k, g) ∧ s.spillWaits c e t = false ∧ (∀ y ∈ fillCells ((span t.spill 64).zip (imageHeader t (e.prog.getD 0 0) (e.prog.getD 1 0) (movD e.words).micro (e.prog.getD 3 0) (e.prog.getD 2 0))) ++ copyCells (span (t.addr e.lcore) t.bytes) (span (t.spill + 64) t.bytes), (s.takeFor env e.part (j.tileAddrs e.lcore (movD e.words).tile)).cellStop j y = none) :=
  ⟨0, 0, quietEnv, _, _, _, _, _, _, gbWith .spilling [gbRuns 0xA], rfl, by decide, by decide, by decide, rfl, rfl, by decide, by decide⟩

theorem gbTileOperationsAct_7_meets :
    ∃ (c : CoreId), ∃ (slot : _), ∃ (env : _), ∃ (e : Issued), ∃ (j : _), ∃ (t : _), ∃ (v : _), ∃ (k : _), ∃ (g : _), ∃ (b : _), ∃ (v' : _), ∃ (k' : _), ∃ (g' : _), ∃ (q : State), ∃ (u : State), ∃ (s : State), s.startMov c slot 0xB = some (e, j) ∧ e.mute = false ∧ q = s.takeFor env e.part (j.tileAddrs e.lcore (movD e.words).tile ++ j.tileAddrs e.lcore (dfld e.words 0x38 15 0)) ∧ q.gradTarget j e (movD e.words).tile = some (t, v, k, g) ∧ q.gradTarget j e (dfld e.words 0x38 15 0) = some (b, v', k', g') ∧ g.state = .live ∧ g.tile = (movD e.words).tile ∧ g'.state = .live ∧ g'.tile = dfld e.words 0x38 15 0 ∧ b.use = g.ties + 1 ∧ u = q.touchAll ((span (t.addr e.lcore) t.bytes ++ span (b.addr e.lcore) t.bytes).map (j.phys false)) ∧ (u.tieUntil j (t.addr e.lcore) (b.addr e.lcore) (t.rows * t.cols)) = (t.rows * t.cols, none) :=
  ⟨0, 0, quietEnv, _, _, _, _, _, _, _, _, _, _, _, _, gbWith .live [gbOp 0xB], rfl, by decide, rfl, rfl, rfl, by decide, by decide, by decide, by decide, by decide, rfl, by decide⟩

theorem gbTileOperationsAct_8_meets :
    ∃ (c : CoreId), ∃ (slot : _), ∃ (e : Issued), ∃ (j : _), ∃ (s : State), s.startMov c slot 0xB = some (e, j) ∧ e.mute = true :=
  ⟨0, 0, _, _, gbWith .live [{ gbOp 0xB with mute := true }], rfl, by decide⟩

theorem decisionsAreTaken_0_meets :
    ∃ (p : _), ∃ (env : _), ∃ (j : _), ∃ (u : State), ∃ (s : State), s.job p = some j ∧ s.decisionDue p j = true ∧ u = (s.takeReads env (j.normAddrs.map (j.phys false) ++ span j.jstateLive 0x40)).touchAll (j.normAddrs.map (j.phys false)) ∧ u.lbad j j.normAddrs = none ∧ u.firstBad (span j.jstateLive 0x40) = none ∧ (j.step.overflow || j.step.redNonfin) = true :=
  ⟨0, quietEnv, _, _, due { overflow := true }, rfl, by decide, rfl, by decide, by decide, by decide⟩

theorem decisionsAreTaken_1_meets :
    ∃ (p : _), ∃ (env : _), ∃ (j : _), ∃ (u : State), ∃ (s : State), s.job p = some j ∧ s.decisionDue p j = true ∧ u = (s.takeReads env (j.normAddrs.map (j.phys false) ++ span j.jstateLive 0x40)).touchAll (j.normAddrs.map (j.phys false)) ∧ u.lbad j j.normAddrs = none ∧ u.firstBad (span j.jstateLive 0x40) = none ∧ (j.step.overflow || j.step.redNonfin) = false :=
  ⟨0, quietEnv, _, _, due {}, rfl, by decide, rfl, by decide, by decide, by decide⟩

theorem decisionsAreTaken_2_meets :
    ∃ (p : _), ∃ (j : _), ∃ (s : State), s.job p = some j :=
  ⟨0, _, due {}, rfl⟩

theorem decisionsAreTaken_4_meets :
    ∃ (j : Job), j.step.decision = .skip :=
  ⟨{ step := { decision := .skip } }, by decide⟩

theorem decisionsAreTaken_5_meets :
    ∃ (j : Job), j.step.decision = .proceed :=
  ⟨{ step := { decision := .proceed } }, by decide⟩

theorem decisionsAreTaken_6_meets :
    ∃ (p : _), ∃ (j : _), ∃ (l : _), ∃ (c : CoreId), ∃ (r : _), ∃ (k : _), ∃ (s : State), s.job p = some j ∧ s.orphans j = (l, c) :: r ∧ s.issuedOf p = [] ∧ j.paused = false ∧ j.awaitsAbort = false ∧ (List.range j.lcores).any j.ganged = false ∧ ((State.remapAll p ((l, c) :: r) s).checkUnits p).job p = some k ∧ k.kind = .train :=
  ⟨0, _, _, _, _, _, (withJob { job0 with kind := .train }).updCore 0 fun k => { k with inService := false }, rfl, rfl, by decide, by decide, by decide, by decide, rfl, by decide⟩

theorem decisionsAreTaken_7_meets :
    ∃ p j l, ∃ (c : CoreId), ∃ r k, ∃ (s : State), s.job p = some j ∧ s.orphans j = (l, c) :: r ∧ s.issuedOf p = [] ∧ j.paused = false ∧ j.awaitsAbort = false ∧ (List.range j.lcores).any j.ganged = false ∧ ((State.remapAll p ((l, c) :: r) s).checkUnits p).job p = some k ∧ k.kind ≠ .train ∧ k.paused = false ∧ k.stop = .abort :=
  ⟨0, _, _, _, _, _, (withJob { job0 with stop := .abort }).updCore 0 fun k => { k with inService := false }, rfl, rfl, by decide, by decide, by decide, by decide, rfl, by decide, by decide, by decide⟩

theorem decisionsAreTaken_8_meets :
    ∃ (p : _), ∃ (j : _), ∃ (l : _), ∃ (c : CoreId), ∃ (r : _), ∃ (s : State), s.job p = some j ∧ s.orphans j = (l, c) :: r ∧ s.issuedOf p = [] ∧ j.paused = false ∧ j.awaitsAbort = false ∧ (List.range j.lcores).any j.ganged = true :=
  ⟨0, _, _, _, _, (withJob { job0 with arrMode := [1] }).updCore 0 fun k => { k with inService := false }, rfl, rfl, by decide, by decide, by decide, by decide⟩

theorem decisionsAreTaken_9_meets :
    ∃ (p : _), ∃ (j : _), ∃ (s : State), s.job p = some j ∧ (j.awaitsAbort = true ∨ s.issuedOf p ≠ [] ∨ j.paused = true) :=
  ⟨0, _, withJob { job0 with paused := true }, rfl, by decide⟩

theorem decisionsAreTaken_10_meets :
    ∃ (p : _), ∃ (j : _), ∃ (d : _), ∃ (s : State), s.job p = some j ∧ s.spareFor p j.serves = some d :=
  ⟨0, _, _, withJob job0, rfl, rfl⟩

theorem decisionsAreTaken_11_meets :
    ∃ (p : _), ∃ (j : Job), ∃ (l : Nat), ∃ (old : CoreId), ∃ (d : _), ∃ (s : State), s.job p = some j ∧ s.spareFor p j.serves = none ∧ (j.guests[l]?).join.isSome = true ∧ s.hostFor p j.serves (some (old.val / 2)) = some d :=
  ⟨0, _, 7, 7, _, (withJob { job0 with lcores := 8, serves := (List.finRange 8).map fun c => some ⟨c, false⟩, guests := List.replicate 8 (some 0) }).updCore 7 fun k => { k with inService := false }, rfl, by decide, by decide, rfl⟩

theorem decisionsAreTaken_12_meets :
    ∃ (p : PartId) (m : List (Option Serve)) (d : CoreId) (s : State), s.spareFor p m = some d ∧ ∃ x : CoreId, x < d ∧ s.cores[x].part = some p ∧ s.cores[x].inService = true :=
  ⟨0, [some ⟨0, false⟩], _, up, rfl, 0, by decide, by decide, by decide⟩

theorem cleanStepsRaiseTheScale_0_meets :
    ∃ (j : Job), j.num.clean + 1 < 2000 :=
  ⟨{ num := { clean := 1998 } }, by decide⟩

theorem cleanStepsRaiseTheScale_1_meets :
    ∃ (j : Job), 2000 ≤ j.num.clean + 1 :=
  ⟨{ num := { clean := 1999 } }, by decide⟩

theorem cleanStepsRaiseTheScale_2_meets :
    ∃ (j : Job), ∃ (m : _), j.step.shadow = some m :=
  ⟨{ step := { shadow := some {} } }, _, rfl⟩

theorem cleanStepsRaiseTheScale_3_meets :
    ∃ (j : Job), j.num.sg < (j.step.shadow.getD j.num).sg :=
  ⟨{ job0 with step := { job0.step with shadow := some { job0.num with sg := job0.num.sg + 1 } } }, by decide⟩

theorem cleanStepsRaiseTheScale_4_meets :
    ∃ (j : Job), (j.step.shadow.getD j.num).sg ≤ j.num.sg ∧ j.step.silent = [] :=
  ⟨job0, by decide, by decide⟩

theorem subnormalsAreExact_0_meets :
    ∃ f ∈ floatFormats, ∃ (raw : _), ∃ (neg : _), ∃ (m : _), ∃ (e : Int), raw < 2 ^ (1 + f.eb + f.mb) ∧ f.decode raw = .fin neg m e :=
  ⟨fE2M1, by decide, 1, _, _, _, by decide, rfl⟩

theorem roundingsAreRight_0_meets :
    ∃ (m : Nat), ∃ (e : Int), ∃ (q : Int), e < q :=
  ⟨5, -1, 0, by decide⟩

theorem roundingsAreRight_1_meets :
    ∃ (r : Nat), ∃ (m : Nat), ∃ (e : Int), ∃ (q : Int), e < q ∧ r < 2 ^ 32 :=
  ⟨0xFFFFFFFF, 5, -1, 0, by decide, by decide⟩

theorem messagesAreTakenOnce_0_meets :
    ∃ (p : _), ∃ (e : Nat), ∃ (vc : _), ∃ (k : _), ∃ (m : _), ∃ (u : State), ∃ (s : State), s.popMsg p e vc k = some (m, u) :=
  ⟨0, 1, 5, 1, _, _, mail lead0 5 (netMsg 1 0 0 0 0 0 0 []), rfl⟩

theorem messagesAreTakenOnce_1_meets :
    ∃ x ∈ ([(1, .reduceUp), (2, .reduceDown), (3, .gatherReq), (4, .gatherReply), (5, .pipe), (6, .pipePost), (7, .pipeDone), (8, .unitXfer)] : List (Nat × (PartId → EntryId → VcId → Instr))), ∃ (p : _), ∃ (e : EntryId), ∃ (vc : VcId), ∃ (s : State), s.popMsg p e.val vc.val x.1 = none :=
  ⟨_, .head _, 0, 63, 15, up, by decide⟩

theorem messagesAreTakenOnce_2_meets :
    ∃ x ∈ ([(0x01, .join), (0x02, .joinReply), (0x03, .roster), (0x04, .leave), (0x05, .redirect), (0x06, .leadQuery), (0x07, .leadReply), (0x08, .starterQuery), (0x09, .lost), (0x20, .startStep), (0x21, .ready), (0x22, .abortReq), (0x23, .commit), (0x24, .abort), (0x25, .ckptReq), (0x26, .ckptRead), (0x27, .rebalanced), (0x28, .hostOp)] : List (Nat × (PartId → EntryId → Instr))), ∃ (p : _), ∃ (e : EntryId), ∃ (s : State), s.popMsg p e.val 0 x.1 = none :=
  ⟨_, .head _, 3, 1, up, by decide⟩

theorem reductionsAct_0_meets :
    ∃ (c : CoreId) (slot : Fin 16), ∃ env e j u, ∃ s : State, s.startNet c slot.val 0x01 = some (e, j) ∧ j.cluster = none ∧
    (s.takeFor env e.part (netReads e.words)).access j (if nA0 e.words = 0 then [] else span (nA0 e.words) (nLen e.words * gwBytes (nWide e.words))) (span (nA1 e.words) (nLen e.words * gwBytes (nWide e.words))) = (u, none) :=
  ⟨0, 0, quietEnv, _, _, _, busy [net 1 [(7, 0x1000), (9, 1)]], rfl, by decide, pair_of_snd _ _ (by decide +kernel)⟩

theorem reductionsAct_1_meets :
    ∃ (c : CoreId) (slot : Fin 16), ∃ env e j k u, ∃ (s : State), s.startNet c slot.val 0x01 = some (e, j) ∧ j.cluster = some k ∧
    (s.takeFor env e.part (netReads e.words)).access j (if nA0 e.words = 0 then [] else span (nA0 e.words) (nLen e.words * gwBytes (nWide e.words))) (span (nA1 e.words) (nLen e.words * gwBytes (nWide e.words))) = (u, none) :=
  ⟨0, 0, quietEnv, _, _, _, _, busyWith [net 1 [(7, 0x1000), (9, 1)]] (unitJob lead0), rfl, rfl, pair_of_snd _ _ (by decide +kernel)⟩

theorem reductionsAct_2_meets :
    ∃ (p : PartId), ∃ (e : EntryId), ∃ (vc : VcId), ∃ (m : _), ∃ (u : State), ∃ (s : State), s.popMsg p e.val vc.val 1 = some (m, u) :=
  ⟨0, 1, 5, _, _, mail lead0 5 (netMsg 1 0 0 0 0 0 0 []), rfl⟩

theorem reductionsAct_3_meets :
    ∃ (p : PartId), ∃ (e : EntryId), ∃ (vc : VcId), ∃ (m : _), ∃ (k : _), ∃ (r : _), ∃ (u : State), ∃ (s : State), s.popMsg p e.val vc.val 2 = some (m, u) ∧ u.cluster p = some k ∧ k.red (rdLE m 8 4) = some r ∧ rdLE m 2 1 ≠ 4 ∧ r.differs m = none :=
  ⟨0, 1, 5, _, _, _, _, mail { lead0 with reds := [red0] } 5 (netMsg 2 0 0 0 0 1 1 (List.replicate 97 0)), rfl, rfl, rfl, by decide, by decide⟩

theorem reductionsAct_4_meets :
    ∃ (p : PartId), ∃ (e : EntryId), ∃ (vc : VcId), ∃ (m : _), ∃ (k : _), ∃ (r : _), ∃ (u : State), ∃ (s : State), s.popMsg p e.val vc.val 2 = some (m, u) ∧ u.cluster p = some k ∧ k.red (rdLE m 8 4) = some r ∧ rdLE m 2 1 = 4 :=
  ⟨0, 1, 5, _, _, _, _, mail { lead0 with reds := [red0] } 5 (netMsg 2 4 0 0 0 1 1 []), rfl, rfl, rfl, by decide⟩

theorem reductionsAct_5_meets :
    ∃ (p : PartId), ∃ (e : EntryId), ∃ (vc : VcId), ∃ (m : _), ∃ (k : _), ∃ (r : _), ∃ (off : _), ∃ (u : State), ∃ (s : State), s.popMsg p e.val vc.val 2 = some (m, u) ∧ u.cluster p = some k ∧ k.red (rdLE m 8 4) = some r ∧ rdLE m 2 1 ≠ 4 ∧ r.differs m = some off :=
  ⟨0, 1, 5, _, _, _, _, _, mail { lead0 with reds := [red0] } 5 (netMsg 2 0 0 0 0 2 1 (List.replicate 97 0)), rfl, rfl, rfl, by decide, rfl⟩

theorem partialsJoinInOrder_0_meets :
    ∃ (rounds : List Nat), ∃ (g : RedSeg), ∃ (k : _), rounds[g.round]? = some k ∧ (g.held.find? fun h => decide (h.1 = k)) = none :=
  ⟨[3, 5], { acc := [], round := 1 }, _, rfl, by decide⟩

theorem partialsJoinInOrder_1_meets :
    ∃ (rounds : List Nat), ∃ (g : RedSeg), ∃ (k : _), ∃ (b : _), rounds[g.round]? = some k ∧ (g.held.find? fun h => decide (h.1 = k)) = some (k, b) :=
  ⟨[3, 5], { acc := [], round := 1, held := [(5, [1])] }, _, _, rfl, rfl⟩

theorem gathersAct_0_meets :
    ∃ (c : CoreId), ∃ (slot : Fin 16), ∃ (e : Issued), ∃ (j : _), ∃ (k : _), ∃ (m : _), ∃ (s : State), s.startNet c slot.val 0x02 = some (e, j) ∧ j.cluster = some k ∧ j.unitMap = some m ∧ ownerOf k.roster (nId e.words) ≠ k.self :=
  ⟨0, 0, _, _, _, _, busyWith [iss .net [(0, 0x50000000), (4, 0x02000001)]] (unitJob lead0), rfl, rfl, rfl, by decide⟩

theorem gathersAct_1_meets :
    ∃ (c : CoreId), ∃ (slot : Fin 16), ∃ (env : _), ∃ (e : Issued), ∃ (j : _), ∃ (k : _), ∃ (m : _), ∃ (u : State), ∃ (s : State), s.startNet c slot.val 0x02 = some (e, j) ∧ j.cluster = some k ∧ j.unitMap = some m ∧ ownerOf k.roster (nId e.words) = k.self ∧ nPa e.words + nLen e.words ≤ m.pubBytes ∧ ((s.takeFor env e.part (netReads e.words)).meetReads ((pubAddrs m ((k.slotOf (nId e.words)).getD 0) (nPa e.words) (nLen e.words)).map (j.phys false))).access j (pubAddrs m ((k.slotOf (nId e.words)).getD 0) (nPa e.words) (nLen e.words)) (span (nA1 e.words) (nLen e.words)) = (u, none) :=
  ⟨0, 0, quietEnv, _, _, _, _, _, busyWith [net 2 [(7, 0x1000), (9, 4)]] (unitJob { lead0 with units := [(0, 0)] }), rfl, rfl, rfl, by decide, by decide, rfl⟩

theorem gathersAct_2_meets :
    ∃ (p : PartId), ∃ (e : EntryId), ∃ (vc : VcId), ∃ (m : _), ∃ (u : State), ∃ (s : State), s.popMsg p e.val vc.val 3 = some (m, u) :=
  ⟨0, 1, 5, _, _, mail lead0 5 (netMsg 3 0 0 0 0 0 0 []), rfl⟩

theorem gathersAct_3_meets :
    ∃ (p : _), ∃ (j : _), ∃ (k : _), ∃ (m : InMsg), ∃ (st : _), ∃ (as : _), ∃ (s : State), s.job p = some j ∧ s.cluster p = some k ∧ gatherAnswer j k (rdLE m.bytes 8 4) (rdLE m.bytes 12 4) (rdLE m.bytes 16 4) (rdLE m.bytes 4 4) = some (st, as) ∧ s.lbad j as = none :=
  ⟨0, _, _, ⟨1, 5, netMsg 3 0 0 0 0 4 0 [], none⟩, _, _, busyWith [] (unitJob { lead0 with units := [(0, 0)] }), rfl, rfl, rfl, by decide⟩

theorem gathersAct_4_meets :
    ∃ (p : _), ∃ (j : _), ∃ (k : _), ∃ (m : InMsg), ∃ (s : State), s.job p = some j ∧ s.cluster p = some k ∧ gatherAnswer j k (rdLE m.bytes 8 4) (rdLE m.bytes 12 4) (rdLE m.bytes 16 4) (rdLE m.bytes 4 4) = none :=
  ⟨0, _, _, ⟨1, 5, netMsg 3 0 1 0 0 4 0 [], none⟩, busyWith [] { unitJob { lead0 with units := [(0, 0)] } with cmt := { phase := .readySent } }, rfl, rfl, by decide⟩

theorem gathersAct_5_meets :
    ∃ (p : _), ∃ (j : _), ∃ (k : _), ∃ (m : InMsg), ∃ (st : _), ∃ (as : _), ∃ (a : _), ∃ (s : State), s.job p = some j ∧ s.cluster p = some k ∧ gatherAnswer j k (rdLE m.bytes 8 4) (rdLE m.bytes 12 4) (rdLE m.bytes 16 4) (rdLE m.bytes 4 4) = some (st, as) ∧ s.lbad j as = some a :=
  ⟨0, _, _, ⟨1, 5, netMsg 3 0 0 0 0 4 0 [], none⟩, _, _, _, { busyWith [] (unitJob { lead0 with units := [(0, 0)] }) with badUnits := [0x300000, 0x400000] }, rfl, rfl, rfl, rfl⟩

theorem gathersAct_6_meets :
    ∃ (p : PartId), ∃ (e : EntryId), ∃ (vc : VcId), ∃ (m : _), ∃ (j : _), ∃ (c : CoreId), ∃ (x : _), ∃ (u : State), ∃ (s : State), s.popMsg p e.val vc.val 4 = some (m, u) ∧ u.job p = some j ∧ u.gatherOf p vc.val m = some (c, x) ∧ gatherDiffers x.words m = none ∧ rdLE m 2 1 = 0 ∧ rdLE m 4 4 = j.step.commit ∧ (∀ a ∈ span (nA1 x.words) (nLen x.words), u.unusable (j.phys true a) = none) :=
  ⟨0, 1, 5, _, _, _, _, _, mailBusy [netOn 0x02500001 [(7, 0x1000), (9, 4)]] lead0 5 (netMsg 4 0 0 1 0 4 0 [1, 2, 3, 4]), rfl, rfl, rfl, by decide, by decide, by decide, by decide⟩

theorem gathersAct_7_meets :
    ∃ (p : PartId), ∃ (e : EntryId), ∃ (vc : VcId), ∃ (m : _), ∃ (j : _), ∃ (c : CoreId), ∃ (x : _), ∃ (u : State), ∃ (s : State), s.popMsg p e.val vc.val 4 = some (m, u) ∧ u.job p = some j ∧ u.gatherOf p vc.val m = some (c, x) ∧ gatherDiffers x.words m = none ∧ (rdLE m 2 1 = 1 ∨ (rdLE m 2 1 = 0 ∧ rdLE m 4 4 ≠ j.step.commit)) :=
  ⟨0, 1, 5, _, _, _, _, _, mailBusy [netOn 0x02500001 [(7, 0x1000), (9, 4)]] lead0 5 (netMsg 4 1 0 1 0 4 0 []), rfl, rfl, rfl, by decide, by decide⟩

theorem gathersAct_8_meets :
    ∃ (p : PartId), ∃ (e : EntryId), ∃ (vc : VcId), ∃ (m : _), ∃ (j : _), ∃ (c : CoreId), ∃ (x : _), ∃ (off : _), ∃ (u : State), ∃ (s : State), s.popMsg p e.val vc.val 4 = some (m, u) ∧ u.job p = some j ∧ u.gatherOf p vc.val m = some (c, x) ∧ gatherDiffers x.words m = some off :=
  ⟨0, 1, 5, _, _, _, _, _, _, mailBusy [netOn 0x02500001 [(7, 0x1000), (9, 4)]] lead0 5 (netMsg 4 0 0 1 0 5 0 [1, 2, 3, 4, 5]), rfl, rfl, rfl, rfl⟩

theorem pipelinesAct_0_meets :
    ∃ (c : CoreId), ∃ (slot : Fin 16), ∃ (e : Issued), ∃ (j : _), ∃ (k : _), ∃ (s : State), s.startNet c slot.val 0x03 = some (e, j) ∧ j.cluster = some k :=
  ⟨0, 0, _, _, _, busyWith [net 3 [(5, 0x1000), (9, 4)]] (unitJob lead0), rfl, rfl⟩

theorem pipelinesAct_1_meets :
    ∃ (c : CoreId), ∃ (slot : Fin 16), ∃ (e : Issued), ∃ (j : _), ∃ (s : State), s.startNet c slot.val 0x04 = some (e, j) :=
  ⟨0, 0, _, _, busyWith [net 4 [(7, 0x1000), (9, 4)]] (unitJob lead0), rfl⟩

theorem pipelinesAct_2_meets :
    ∃ (c : CoreId), ∃ (p : _), ∃ (j : _), ∃ (l : _), ∃ (r : _), ∃ (i : _), ∃ (d : _), ∃ (s : State), j.relocation r i = none ∧ hClass d = 5 ∧ nOp d = 4 ∧ paramBytes d = 0 ∧ s.queued c .net < queueDepth .net ∧ j.recvReady d = true ∧ headerError j.lcores d = none ∧ j.peerErr l d = none ∧ s.descCheck p j l r.list i d [] = none ∧ i + 1 ≠ r.count :=
  ⟨0, 0, unitJob { lead0 with cl := { cl0 with vcs := List.replicate 16 ⟨3, 0, 4⟩ } }, 0, { waiting 0 with count := 2 }, 0, words [(0, 0x50000000), (4, 0x04500000), (7, 0x1000), (8, 0x01000000), (9, 4)], up.updPart 0 fun p => { p with ranges := [(0, 1)] }, by decide, by decide, by decide, by decide, by decide, by decide, by decide, by decide, by decide, by decide⟩

theorem pipelinesAct_3_meets :
    ∃ (p : PartId), ∃ (e : EntryId), ∃ (vc : VcId), ∃ (m : _), ∃ (u : State), ∃ (s : State), s.popMsg p e.val vc.val 6 = some (m, u) :=
  ⟨0, 1, 5, _, _, mail lead0 5 (netMsg 6 0 0 0 0 0 0 []), rfl⟩

theorem pipelinesAct_4_meets :
    ∃ (p : PartId), ∃ (e : EntryId), ∃ (vc : VcId), ∃ (m : _), ∃ (j : _), ∃ (c : CoreId), ∃ (x : _), ∃ (u : State), ∃ (v : State), ∃ (s : State), s.popMsg p e.val vc.val 5 = some (m, u) ∧ u.job p = some j ∧ u.recvQueued p e.val vc.val (rdLE m 8 4) = false ∧ (u.netRunning p fun d => decide (nOp d = 0x04 ∧ nPeer d = e.val ∧ nVc d = vc.val ∧ nPa d = rdLE m 8 4)) = some (c, x) ∧ rdLE m 2 1 ≠ 4 ∧ rdLE m 12 4 = nLen x.words ∧ rdLE m 16 4 = 0 ∧ rdLE m 0x14 6 = nA1 x.words ∧ u.access j [] (span (nA1 x.words) (nLen x.words)) = (v, none) :=
  ⟨0, 1, 5, _, _, _, _, _, _, mailBusy [netOn 0x04500000 [(7, 0x1000), (8, 0x01000000), (9, 4), (10, 9)]] lead0 5 (netMsg 5 0 0 9 4 0 0x1000 [1, 2, 3, 4]), rfl, rfl, by decide, rfl, by decide, by decide, by decide, by decide, rfl⟩

theorem pipelinesAct_5_meets :
    ∃ (p : PartId), ∃ (e : EntryId), ∃ (vc : VcId), ∃ (m : _), ∃ (u : State), ∃ (s : State), s.popMsg p e.val vc.val 5 = some (m, u) ∧ u.recvQueued p e.val vc.val (rdLE m 8 4) = true :=
  ⟨0, 1, 5, _, _, mailBusy [{ netOn 0x04500000 [(7, 0x1000), (8, 0x01000000), (9, 4), (10, 9)] with phase := .queued }] lead0 5 (netMsg 5 0 0 9 4 0 0x1000 [1, 2, 3, 4]), rfl, by decide⟩

theorem pipelinesAct_6_meets :
    ∃ (p : PartId), ∃ (e : EntryId), ∃ (vc : VcId), ∃ (m : _), ∃ (c : CoreId), ∃ (x : _), ∃ (u : State), ∃ (s : State), s.popMsg p e.val vc.val 7 = some (m, u) ∧ (u.netRunning p fun d => decide (nOp d = 0x03 ∧ nPeer d = e.val ∧ nVc d = vc.val ∧ nPa d = rdLE m 8 4)) = some (c, x) ∧ rdLE m 2 1 ≠ 4 :=
  ⟨0, 1, 5, _, _, _, _, mailBusy [netOn 0x03500000 [(8, 0x01000000), (9, 4), (10, 9)]] lead0 5 (netMsg 7 0 0 9 0 0 0 []), rfl, rfl, by decide⟩

theorem pipelinesAct_7_meets :
    ∃ (p : PartId), ∃ (e : EntryId), ∃ (vc : VcId), ∃ (m : _), ∃ (c : CoreId), ∃ (x : _), ∃ (u : State), ∃ (s : State), s.popMsg p e.val vc.val 7 = some (m, u) ∧ (u.netRunning p fun d => decide (nOp d = 0x03 ∧ nPeer d = e.val ∧ nVc d = vc.val ∧ nPa d = rdLE m 8 4)) = some (c, x) ∧ rdLE m 2 1 = 4 :=
  ⟨0, 1, 5, _, _, _, _, mailBusy [netOn 0x03500000 [(8, 0x01000000), (9, 4), (10, 9)]] lead0 5 (netMsg 7 4 0 9 0 0 0 []), rfl, rfl, by decide⟩

theorem admissionAndStorageAct_0_meets :
    ∃ (c : CoreId), ∃ (slot : Fin 16), ∃ (env : _), ∃ (e : Issued), ∃ (j : _), ∃ (samples : _), ∃ (ts : _), ∃ (u : State), ∃ (v : State), ∃ (w : State), ∃ (s : State), s.startNet c slot.val 0x05 = some (e, j) ∧ (s.takeFor env e.part (netReads e.words)).access j (span (nA0 e.words) 16) [] = (u, none) ∧ samples = leNat (u.lrdBytes j (nA0 e.words + 4) 4) ∧ 1 ≤ samples ∧ samples ≤ 4096 ∧ u.moveNames e.part j e.lcore e.index ([(0x14, 31, span (nA0 e.words + 16) (4 * samples))], []) = none ∧ u.access j (span (nA0 e.words + 16) (4 * samples)) [] = (v, none) ∧ w = v.meetReads ((span (nA0 e.words + 16) (4 * samples)).map (j.phys false)) ∧ ts = (List.range samples).map (fun i => leNat (w.lrdBytes j (nA0 e.words + 16 + 4 * i) 4)) ∧ ts.sum = leNat (u.lrdBytes j (nA0 e.words) 4) :=
  ⟨0, 0, quietEnv, _, _, _, _, _, _, _, batch [net 5 [(5, 0x1000), (7, 0x2000), (9, 2), (10, 1), (12, 0x3000)]], rfl, rfl, rfl, by decide, by decide, by decide, rfl, rfl, rfl, by decide⟩

theorem admissionAndStorageAct_1_meets :
    ∃ (e : Issued) (j : Job) (head : Nat) (ad : Admission) (src : List Nat) (rec_ : List Byte), ∃ v, ∃ s : State,
    src = ad.takes.flatMap (fun t => span (nA0 e.words + (head + 63) / 64 * 64 + t.1 * nLen e.words) (t.2 * nLen e.words)) ∧
    s.moveNames e.part j e.lcore e.index (admitNames e.words head src rec_.length) = none ∧
    s.access j (namedBytes (admitNames e.words head src rec_.length).1) (namedBytes (admitNames e.words head src rec_.length).2) = (v, none) :=
  ⟨net 5 [(5, 0x1000), (7, 0x2000), (9, 2), (10, 1), (12, 0x3000)], job0, 20, { takes := [], defers := [], total := 0 }, _, leBytes 16 0, _, batch [], rfl, by decide, rfl⟩

theorem admissionAndStorageAct_2_meets :
    ∃ (c : CoreId), ∃ (slot : Fin 16), ∃ (e : Issued), ∃ (j : _), ∃ (u : State), ∃ (s : State), s.startNet c slot.val 0x06 = some (e, j) ∧ s.qpRefuses e.part (nQp e.words) = none ∧ s.access j [] (span (nA0 e.words) (nLen e.words)) = (u, none) :=
  ⟨0, 0, _, _, _, withQp (busy [net 6 [(5, 0x1000), (9, 4)]]), rfl, by decide, rfl⟩

theorem admissionAndStorageAct_3_meets :
    ∃ (c : CoreId), ∃ (slot : Fin 16), ∃ (env : _), ∃ (e : Issued), ∃ (j : _), ∃ (u : State), ∃ (s : State), s.startNet c slot.val 0x07 = some (e, j) ∧ s.qpRefuses e.part (nQp e.words) = none ∧ (s.takeFor env e.part (span (nA0 e.words) (nLen e.words))).access j (span (nA0 e.words) (nLen e.words)) [] = (u, none) :=
  ⟨0, 0, quietEnv, _, _, _, withQp (busy [net 7 [(5, 0x1000), (9, 4)]]), rfl, by decide, rfl⟩

theorem admissionAndStorageAct_4_meets :
    ∃ (c : CoreId), ∃ (slot : Fin 16), ∃ (e : Issued), ∃ (j : _), ∃ (err : _), ∃ (s : State), s.startNet c slot.val 0x06 = some (e, j) ∧ s.qpRefuses e.part (nQp e.words) = some err :=
  ⟨0, 0, _, _, _, busy [net 6 [(5, 0x1000), (9, 4)]], rfl, rfl⟩

theorem admissionAndStorageAct_5_meets :
    ∃ (c : CoreId), ∃ (slot : Fin 16), ∃ (e : Issued), ∃ (j : _), ∃ (err : _), ∃ (s : State), s.startNet c slot.val 0x07 = some (e, j) ∧ s.qpRefuses e.part (nQp e.words) = some err :=
  ⟨0, 0, _, _, _, busy [net 7 []], rfl, rfl⟩

theorem unitsAreFollowed_0_meets :
    ∃ (c : CoreId), ∃ (x : CtxId), ∃ (e : Issued), ∃ (s : State), (s.synEntry c x fun d => decide (hClass d = 5 ∧ nOp d = 8)) = some e :=
  ⟨0, 0, _, busy [iss .syn [(0, 0x50000000), (4, 0x08000000)]], rfl⟩

theorem unitsAreFollowed_1_meets :
    ∃ (c : CoreId), ∃ (x : CtxId), ∃ (e : Issued), ∃ (s : State), (s.synEntry c x fun d => decide (hClass d = 5 ∧ nOp d = 9)) = some e ∧ (s.cluster e.part).any (fun k => (k.slotOf (nId e.words)).isSome) = true :=
  ⟨0, 0, _, busyWith [iss .syn [(0, 0x50000000), (4, 0x09000000)]] { job0 with cluster := some { lead0 with units := [(0, 0)] } }, rfl, by decide⟩

theorem unitsAreFollowed_2_meets :
    ∃ (c : CoreId), ∃ (x : CtxId), ∃ (e : Issued), ∃ (s : State), (s.synEntry c x fun d => decide (hClass d = 5 ∧ nOp d = 9)) = some e ∧ (s.cluster e.part).any (fun k => (k.slotOf (nId e.words)).isSome) = false :=
  ⟨0, 0, _, busy [iss .syn [(0, 0x50000000), (4, 0x09000000)]], rfl, by decide⟩

theorem unitsAreFollowed_3_meets :
    ∃ (p : PartId), ∃ (e : EntryId), ∃ (vc : VcId), ∃ (m : _), ∃ (j : _), ∃ (u : State), ∃ (s : State), s.popMsg p e.val vc.val 8 = some (m, u) ∧ u.job p = some j ∧ rdLE m 4 4 = j.step.commit :=
  ⟨0, 1, 5, _, _, _, mail lead0 5 (netMsg 8 0 0 0 0 0 0 []), rfl, rfl, by decide⟩

theorem unitsAreFollowed_4_meets :
    ∃ (p : PartId), ∃ (e : EntryId), ∃ (vc : VcId), ∃ (m : _), ∃ (j : _), ∃ (u : State), ∃ (s : State), s.popMsg p e.val vc.val 8 = some (m, u) ∧ u.job p = some j ∧ rdLE m 4 4 ≠ j.step.commit :=
  ⟨0, 1, 5, _, _, _, mail lead0 5 (netMsg 8 0 1 0 0 0 0 []), rfl, rfl, by decide⟩

theorem starterWeighsTheStep_0_meets :
    ∃ (p : PartId), ∃ (e : EntryId), ∃ (m : _), ∃ (j : _), ∃ (k : _), ∃ (u : State), ∃ (s : State), s.popMsg p e.val 0 0x21 = some (m, u) ∧ s.job p = some j ∧ s.cluster p = some k ∧ k.leads = true ∧ j.cmt.decided = false ∧ rdLE m 16 4 = j.step.commit + 1 ∧ rdLE m 20 1 = j.step.attempt ∧ inMask k.roster e.val = true ∧ (∀ r ∈ j.cmt.readies, r.entry ≠ e.val) :=
  ⟨0, 1, _, _, _, _, ctl lead0 0x21 (about 1 0 0 0), rfl, rfl, rfl, by decide, by decide, by decide, by decide, by decide, by decide⟩

theorem starterWeighsTheStep_1_meets :
    ∃ (p : PartId), ∃ (e : EntryId), ∃ (m : _), ∃ (j : _), ∃ (k : _), ∃ (u : State), ∃ (s : State), s.popMsg p e.val 0 0x21 = some (m, u) ∧ s.job p = some j ∧ s.cluster p = some k ∧ j.ahead (rdLE m 16 4) = false ∧ (k.leads = false ∨ j.cmt.decided = true ∨ rdLE m 16 4 ≠ j.step.commit + 1 ∨ rdLE m 20 1 ≠ j.step.attempt ∨ inMask k.roster e.val = false ∨ ∃ r ∈ j.cmt.readies, r.entry = e.val) :=
  ⟨0, 1, _, _, _, _, ctl follow1 0x21 (about 1 0 0 0), rfl, rfl, rfl, by decide, by decide⟩

theorem starterWeighsTheStep_2_meets :
    ∃ (p : PartId), ∃ (e : EntryId), ∃ (m : _), ∃ (j : _), ∃ (k : _), ∃ (u : State), ∃ (s : State), s.popMsg p e.val 0 0x22 = some (m, u) ∧ s.job p = some j ∧ s.cluster p = some k ∧ k.leads = true ∧ j.cmt.decided = false ∧ rdLE m 16 4 = j.step.commit + 1 ∧ rdLE m 20 1 = j.step.attempt ∧ rdLE m 22 2 ≠ 0x7105 ∧ rdLE m 22 2 ≠ 0x7107 :=
  ⟨0, 1, _, _, _, _, ctl lead0 0x22 (about 1 0 0x5011 0), rfl, rfl, rfl, by decide, by decide, by decide, by decide, by decide, by decide⟩

theorem starterWeighsTheStep_3_meets :
    ∃ (p : PartId), ∃ (e : EntryId), ∃ (m : _), ∃ (j : _), ∃ (k : _), ∃ (u : State), ∃ (s : State), s.popMsg p e.val 0 0x22 = some (m, u) ∧ s.job p = some j ∧ s.cluster p = some k ∧ k.leads = true ∧ j.cmt.decided = false ∧ rdLE m 16 4 = j.step.commit + 1 ∧ rdLE m 20 1 = j.step.attempt ∧ rdLE m 22 2 = 0x7105 ∧ rdLE m 24 1 ≠ k.self :=
  ⟨0, 1, _, _, _, _, ctl lead0 0x22 (about 1 0 0x7105 1), rfl, rfl, rfl, by decide, by decide, by decide, by decide, by decide, by decide⟩

theorem starterWeighsTheStep_4_meets :
    ∃ (p : PartId), ∃ (e : EntryId), ∃ (m : _), ∃ (j : _), ∃ (k : _), ∃ (u : State), ∃ (s : State), s.popMsg p e.val 0 0x22 = some (m, u) ∧ s.job p = some j ∧ s.cluster p = some k ∧ k.leads = true ∧ j.cmt.decided = false ∧ rdLE m 22 2 = 0x7107 :=
  ⟨0, 1, _, _, _, _, ctl lead0 0x22 (about 1 0 0x7107 0), rfl, rfl, rfl, by decide, by decide, by decide⟩

theorem starterWeighsTheStep_5_meets :
    ∃ (p : PartId), ∃ (j : _), ∃ (k : _), ∃ (x : _), ∃ (s : State), s.job p = some j ∧ s.cluster p = some k ∧ k.leads = true ∧ j.cmt.timer = true ∧ j.cmt.decided = false ∧ ((rosterList k.roster).find? fun e => !j.cmt.readies.any fun r => decide (r.entry = e)) = some x ∧ (j.cmt.namedLate.take 2 ≠ [x, x] ∨ x = k.self) :=
  ⟨0, _, _, _, ctl lead0 0x28 [] { timer := true, readies := [⟨0, 0, 0, 0⟩] }, rfl, rfl, by decide, by decide, by decide, rfl, by decide⟩

theorem starterWeighsTheStep_6_meets :
    ∃ (p : PartId), ∃ (j : _), ∃ (k : _), ∃ (x : _), ∃ (s : State), s.job p = some j ∧ s.cluster p = some k ∧ k.leads = true ∧ j.cmt.timer = true ∧ j.cmt.decided = false ∧ ((rosterList k.roster).find? fun e => !j.cmt.readies.any fun r => decide (r.entry = e)) = some x ∧ j.cmt.namedLate.take 2 = [x, x] ∧ x ≠ k.self :=
  ⟨0, _, _, _, mailLate, rfl, rfl, by decide, by decide, by decide, rfl, by decide, by decide⟩

theorem starterWeighsTheStep_7_meets :
    ∃ (p : PartId), ∃ (e : EntryId), ∃ (m : _), ∃ (j : _), ∃ (u : State), ∃ (s : State), s.popMsg p e.val 0 0x25 = some (m, u) ∧ u.job p = some j :=
  ⟨0, 1, _, _, _, ctl lead0 0x25 [], rfl, rfl⟩

theorem starterWeighsTheStep_8_meets :
    ∃ (p : PartId), ∃ (e : EntryId), ∃ (m : _), ∃ (j : _), ∃ (k : _), ∃ (u : State), ∃ (s : State), s.popMsg p e.val 0 0x26 = some (m, u) ∧ u.job p = some j ∧ u.cluster p = some k ∧ (∃ x ∈ rosterList k.roster, x ∉ j.cmt.ckptReads ∧ x ≠ e.val) :=
  ⟨0, 1, _, _, _, _, ctl lead0 0x26 [], rfl, rfl, rfl, by decide⟩

theorem starterWeighsTheStep_9_meets :
    ∃ (p : PartId), ∃ (e : EntryId), ∃ (m : _), ∃ (j : _), ∃ (k : _), ∃ (u : State), ∃ (s : State), s.popMsg p e.val 0 0x26 = some (m, u) ∧ u.job p = some j ∧ u.cluster p = some k ∧ (∀ x ∈ rosterList k.roster, x ∈ j.cmt.ckptReads ∨ x = e.val) :=
  ⟨0, 1, _, _, _, _, ctl lead0 0x26 [] { ckptReads := [0] }, rfl, rfl, rfl, by decide⟩

theorem starterWeighsTheStep_10_meets :
    ∃ (p : PartId), ∃ (e : EntryId), ∃ (m : _), ∃ (j : _), ∃ (k : _), ∃ (u : State), ∃ (s : State), s.popMsg p e.val 0 0x27 = some (m, u) ∧ s.job p = some j ∧ s.cluster p = some k ∧ j.cmt.decided = false ∧ k.leads = true ∧ rdLE m 16 4 = k.epoch ∧ (j.step.started = true ∨ rdLE m 8 4 = j.step.commit) :=
  ⟨0, 1, _, _, _, _, ctl lead0 0x27 (leBytes 4 0), rfl, rfl, rfl, by decide, by decide, by decide, by decide⟩

theorem starterWeighsTheStep_11_meets :
    ∃ (p : PartId), ∃ (e : EntryId), ∃ (m : _), ∃ (j : _), ∃ (k : _), ∃ (u : State), ∃ (s : State), s.popMsg p e.val 0 0x27 = some (m, u) ∧ s.job p = some j ∧ s.cluster p = some k ∧ j.cmt.decided = false ∧ k.leads = true ∧ rdLE m 16 4 = k.epoch ∧ j.step.started = false ∧ rdLE m 8 4 ≠ j.step.commit :=
  ⟨0, 1, _, _, _, _, mail lead0 0 (ctlMsg 0x27 1 0 9 (leBytes 8 0)), rfl, rfl, rfl, by decide, by decide, by decide, by decide, by decide⟩

theorem starterWeighsTheStep_12_meets :
    ∃ (p : PartId), ∃ (e : EntryId), ∃ (m : _), ∃ (u : State), ∃ (s : State), s.popMsg p e.val 0 0x28 = some (m, u) :=
  ⟨0, 1, _, _, ctl lead0 0x28 [], rfl⟩

theorem membersFollowTheStarter_0_meets :
    ∃ (p : PartId), ∃ (e : EntryId), ∃ (m : _), ∃ (j : _), ∃ (k : _), ∃ (u : State), ∃ (s : State), s.popMsg p e.val 0 0x20 = some (m, u) ∧ u.job p = some j ∧ u.cluster p = some k ∧ rdLE m 16 4 = j.step.commit + 1 ∧ j.stop ≠ .cancel ∧ j.stop ≠ .failed ∧ k.roster ≠ 0 :=
  ⟨0, 1, _, _, _, _, ctl lead0 0x20 (about 1 0 0 0), rfl, rfl, rfl, by decide, by decide, by decide, by decide⟩

theorem membersFollowTheStarter_1_meets :
    ∃ (p : PartId), ∃ (e : EntryId), ∃ (m : _), ∃ (j : _), ∃ (k : _), ∃ (u : State), ∃ (s : State), s.popMsg p e.val 0 0x23 = some (m, u) ∧ u.job p = some j ∧ u.cluster p = some k ∧ k.state ≠ .admitting ∧ rdLE m 16 4 = j.step.commit + 1 ∧ (rdLE m 20 1 = j.step.attempt ∨ rdLE m 20 1 = 0xFF) :=
  ⟨0, 1, _, _, _, _, ctl follow1 0x23 (about 1 0xFF 0 0), rfl, rfl, rfl, by decide, by decide, by decide⟩

theorem membersFollowTheStarter_2_meets :
    ∃ (p : PartId), ∃ (e : EntryId), ∃ (m : _), ∃ (j : _), ∃ (k : _), ∃ (u : State), ∃ (s : State), s.popMsg p e.val 0 0x23 = some (m, u) ∧ u.job p = some j ∧ u.cluster p = some k ∧ k.state ≠ .admitting ∧ (rdLE m 16 4 ≠ j.step.commit + 1 ∨ (rdLE m 20 1 ≠ j.step.attempt ∧ rdLE m 20 1 ≠ 0xFF)) :=
  ⟨0, 1, _, _, _, _, ctl follow1 0x23 (about 7 0 0 0), rfl, rfl, rfl, by decide, by decide⟩

theorem membersFollowTheStarter_3_meets :
    ∃ (p : PartId), ∃ (e : EntryId), ∃ (m : _), ∃ (j : _), ∃ (k : _), ∃ (u : State), ∃ (s : State), s.popMsg p e.val 0 0x24 = some (m, u) ∧ u.job p = some j ∧ u.cluster p = some k ∧ k.state ≠ .admitting ∧ rdLE m 16 4 = j.step.commit + 1 ∧ rdLE m 20 1 = j.step.attempt + 1 :=
  ⟨0, 1, _, _, _, _, ctl follow1 0x24 (about 1 1 0 0), rfl, rfl, rfl, by decide, by decide, by decide⟩

theorem membersFollowTheStarter_4_meets :
    ∃ (p : PartId), ∃ (e : EntryId), ∃ (m : _), ∃ (j : _), ∃ (k : _), ∃ (u : State), ∃ (s : State), s.popMsg p e.val 0 0x24 = some (m, u) ∧ u.job p = some j ∧ u.cluster p = some k ∧ k.state ≠ .admitting ∧ (rdLE m 16 4 ≠ j.step.commit + 1 ∨ rdLE m 20 1 ≠ j.step.attempt + 1) :=
  ⟨0, 1, _, _, _, _, ctl follow1 0x24 (about 7 0 0 0), rfl, rfl, rfl, by decide, by decide⟩

theorem membersFollowTheStarter_5_meets :
    ∃ (p : PartId), ∃ (e : EntryId), ∃ (m : _), ∃ (j : _), ∃ (k : _), ∃ (r : _), ∃ (u : State), ∃ (s : State), s.popMsg p e.val 0 0x23 = some (m, u) ∧ u.job p = some j ∧ u.cluster p = some k ∧ k.state = .admitting ∧ k.dueRoster (rdLE m 16 4) = some r ∧ inMask r.mask k.self = true :=
  ⟨0, 1, _, _, _, _, _, ctl { follow1 with state := .admitting, heldRosters := [⟨1, 1, 0, 1, 3⟩] } 0x23 (about 1 0 0 0), rfl, rfl, rfl, by decide, rfl, by decide⟩

theorem joiningActs_0_meets :
    ∃ (p : PartId), ∃ (e : EntryId), ∃ (m : _), ∃ (k : _), ∃ (u : State), ∃ (s : State), s.popMsg p e.val 0 0x01 = some (m, u) ∧ u.cluster p = some k ∧ k.leads = false :=
  ⟨0, 1, _, _, _, ctl follow1 0x01 [], rfl, rfl, by decide⟩

theorem joiningActs_1_meets :
    ∃ (p : PartId), ∃ (e : EntryId), ∃ (m : _), ∃ (k : _), ∃ (u : State), ∃ (s : State), s.popMsg p e.val 0 0x01 = some (m, u) ∧ u.cluster p = some k ∧ k.leads = true ∧ u.joinRefusal k e.val m ≠ 0 :=
  ⟨0, 1, _, _, _, ctl { lead0 with cl := cl2 } 0x01 (leBytes 12 0 ++ List.replicate 32 1), rfl, rfl, by decide, by decide⟩

theorem joiningActs_2_meets :
    ∃ (p : PartId) (e : EntryId), ∃ m k, ∃ (u s : State), s.popMsg p e.val 0 0x01 = some (m, u) ∧ u.cluster p = some k ∧ k.leads = true ∧ u.joinRefusal k e.val m = 0 := by
  by_cases h : Config.serial.toNat = 1
  · exact ⟨0, 1, joinMsg 2, _, _, mail alone 0 (joinMsg 2), rfl, rfl, by decide, join_accepted _ 2 (by omega) (by decide) (by decide) (by decide) (by decide)⟩
  · exact ⟨0, 1, joinMsg 1, _, _, mail alone 0 (joinMsg 1), rfl, rfl, by decide, join_accepted _ 1 (by omega) (by decide) (by decide) (by decide) (by decide)⟩

theorem joiningActs_3_meets :
    ∃ (p : PartId), ∃ (e : EntryId), ∃ (m : _), ∃ (k : _), ∃ (u : State), ∃ (s : State), s.popMsg p e.val 0 0x02 = some (m, u) ∧ u.cluster p = some k ∧ rdLE m 16 1 = 0 :=
  ⟨0, 1, _, _, _, ctl follow1 0x02 [0], rfl, rfl, by decide⟩

theorem joiningActs_4_meets :
    ∃ (p : PartId), ∃ (e : EntryId), ∃ (m : _), ∃ (u : State), ∃ (s : State), s.popMsg p e.val 0 0x02 = some (m, u) ∧ rdLE m 16 1 ≠ 0 :=
  ⟨0, 1, _, _, ctl follow1 0x02 [1], rfl, by decide⟩

theorem joiningActs_5_meets :
    ∃ (p : PartId), ∃ (e : EntryId), ∃ (m : _), ∃ (k : _), ∃ (u : State), ∃ (s : State), s.popMsg p e.val 0 0x05 = some (m, u) ∧ u.cluster p = some k ∧ rdLE m 16 1 ≠ k.self ∧ k.state ≠ .member ∧ (k.state ≠ .paused ∨ k.lostStarter = true) :=
  ⟨0, 1, _, _, _, ctl { lead0 with state := .joining } 0x05 [1], rfl, rfl, by decide, by decide, by decide⟩

theorem joiningActs_6_meets :
    ∃ (p : PartId), ∃ (e : EntryId), ∃ (m : _), ∃ (k : _), ∃ (u : State), ∃ (s : State), s.popMsg p e.val 0 0x05 = some (m, u) ∧ u.cluster p = some k ∧ k.state = .paused ∧ k.lostStarter = false :=
  ⟨0, 1, _, _, _, ctl { follow1 with state := .paused } 0x05 [0], rfl, rfl, by decide, by decide⟩

theorem joiningActs_7_meets :
    ∃ (p : PartId), ∃ (e : EntryId), ∃ (m : _), ∃ (k : _), ∃ (u : State), ∃ (s : State), s.popMsg p e.val 0 0x03 = some (m, u) ∧ u.cluster p = some k ∧ k.roster = 0 ∧ u.loadWaits p = true :=
  ⟨0, 1, _, _, _, { ctl { follow1 with roster := 0 } 0x03 [] with handles := [{ num := 1, kind := 3, owner := 1, part := some 0 }] }, rfl, rfl, by decide, by decide⟩

theorem joiningActs_8_meets :
    ∃ (p : PartId), ∃ (e : EntryId), ∃ (m : _), ∃ (k : _), ∃ (u : State), ∃ (s : State), s.popMsg p e.val 0 0x03 = some (m, u) ∧ u.cluster p = some k ∧ k.roster = 0 ∧ u.loadWaits p = false ∧ ((u.updCluster p fun c => { c with heldRosters := c.heldRosters ++ [rosterOf m] }).startsElsewhere p (rosterOf m) = true) :=
  ⟨0, 1, _, _, _, ctl { follow1 with roster := 0 } 0x03 (RosterMsg.mk 0 5 0 1 3).body, rfl, rfl, by decide, by decide, by decide⟩

theorem joiningActs_9_meets :
    ∃ (p : PartId), ∃ (e : EntryId), ∃ (m : _), ∃ (k : _), ∃ (u : State), ∃ (s : State), s.popMsg p e.val 0 0x03 = some (m, u) ∧ u.cluster p = some k ∧ k.roster ≠ 0 :=
  ⟨0, 1, _, _, _, ctl follow1 0x03 [], rfl, rfl, by decide⟩

theorem lossAndTakeoverAct_0_meets :
    ∃ (p : PartId), ∃ (e : EntryId), ∃ (m : _), ∃ (k : _), ∃ (u : State), ∃ (s : State), s.popMsg p e.val 0 0x04 = some (m, u) ∧ u.cluster p = some k ∧ k.leads = true :=
  ⟨0, 1, _, _, _, ctl lead0 0x04 [], rfl, rfl, by decide⟩

theorem lossAndTakeoverAct_1_meets :
    ∃ (p : PartId), ∃ (e : EntryId), ∃ (m : _), ∃ (k : _), ∃ (u : State), ∃ (s : State), s.popMsg p e.val 0 0x09 = some (m, u) ∧ u.cluster p = some k ∧ k.leads = true ∧ inMask k.roster e.val = true ∧ inMask k.roster (rdLE m 20 1) = true ∧ e.val ≠ k.self ∧ rdLE m 20 1 ≠ k.self :=
  ⟨0, 1, _, _, _, ctl { lead0 with roster := 7 } 0x09 (about 0 2 0 0), rfl, rfl, by decide, by decide, by decide, by decide, by decide⟩

theorem lossAndTakeoverAct_2_meets :
    ∃ (p : PartId), ∃ (e : EntryId), ∃ (m : _), ∃ (k : _), ∃ (u : State), ∃ (s : State), s.popMsg p e.val 0 0x06 = some (m, u) ∧ u.cluster p = some k :=
  ⟨0, 1, _, _, _, ctl lead0 0x06 [], rfl, rfl⟩

theorem lossAndTakeoverAct_3_meets :
    ∃ (p : PartId), ∃ (e : EntryId), ∃ (m : _), ∃ (k : _), ∃ (u : State), ∃ (v : State), ∃ (s : State), s.popMsg p e.val 0 0x07 = some (m, u) ∧ u.cluster p = some k ∧ k.queried = true ∧ rdLE m 16 1 = 0 ∧ (v = (u.updCluster p fun c => { c with agrees := mapSet c.agrees e.val (rdLE m 8 4) })) :=
  ⟨0, 1, _, _, _, _, ctl { follow1 with queried := true } 0x07 [0], rfl, rfl, by decide, by decide, rfl⟩

theorem lossAndTakeoverAct_4_meets :
    ∃ (p : PartId), ∃ (e : EntryId), ∃ (m : _), ∃ (k : _), ∃ (u : State), ∃ (s : State), s.popMsg p e.val 0 0x08 = some (m, u) ∧ u.cluster p = some k ∧ k.starter ≠ e.val ∧ (¬ (k.state = .paused ∧ k.leads = false)) :=
  ⟨0, 1, _, _, _, ctl lead0 0x08 [], rfl, rfl, by decide, by decide⟩

theorem lossAndTakeoverAct_5_meets :
    ∃ (p : PartId), ∃ (j : _), ∃ (k : _), ∃ (cmax : _), ∃ (m : _), ∃ (epoch : _), ∃ (v : State), ∃ (w : State), ∃ (s : State), s.job p = some j ∧ s.cluster p = some k ∧ cmax = (k.agrees.map Prod.snd).foldl Nat.max j.step.commit ∧ m = delEntry k.roster k.starter ∧ epoch = (k.epoch + 1) % 2 ^ 32 ∧ k.cl.shrink = true ∧ k.cl.minMembers ≤ (rosterList m).length ∧ (if j.step.commit = cmax then j.step.attempt + 1 else 1) < 254 ∧ (v = (((s.raise .mc (some p) 0x7005 [k.starter, k.self, epoch]).updCluster p fun c => { c with starter := c.self, takeovers := c.takeovers + 1, queried := false, agrees := [], silent := false }).sendAll p ((rosterList m).filter fun e => if e = k.self then decide (j.step.commit + 1 = cmax) else decide (mapGet k.agrees e ≠ some cmax)) k.epoch 0x23 (leBytes 4 cmax ++ leBytes 1 0xFF ++ leBytes 1 0 ++ leBytes 2 0))) ∧ w = (v.raise .mc (some p) 0x7004 [k.starter, 0x7005, epoch]).sendAll p (rosterList m) k.epoch 0x03 (RosterMsg.mk epoch cmax k.self (successorIn m k.self k.starter) m).body :=
  ⟨0, _, _, _, _, _, _, _, ctl { follow1 with roster := 7 } 0x04 [], rfl, rfl, rfl, rfl, rfl, by decide, by decide, by decide, rfl, rfl⟩

theorem lossAndTakeoverAct_6_meets :
    ∃ (p : PartId), ∃ (j : _), ∃ (k : _), ∃ (s : State), s.job p = some j ∧ s.cluster p = some k :=
  ⟨0, _, _, ctl follow1 0x04 [], rfl, rfl⟩

theorem lossAndTakeoverAct_7_meets :
    ∃ (p : PartId), ∃ (k : _), ∃ (s : State), s.cluster p = some k ∧ k.state = .joining :=
  ⟨0, _, ctl { follow1 with state := .joining } 0x04 [], rfl, by decide⟩

theorem lossAndTakeoverAct_8_meets :
    ∃ (p : PartId), ∃ (k : _), ∃ (s : State), s.cluster p = some k ∧ k.begun = false ∧ k.leads = true ∧ k.cl.minMembers ≤ k.admitted.length + 1 :=
  ⟨0, _, ctl { lead0 with admitted := [1] } 0x04 [], rfl, by decide, by decide, by decide⟩

theorem lossAndTakeoverAct_9_meets :
    ∃ (p : PartId), ∃ (k : _), ∃ (s : State), s.cluster p = some k ∧ k.begun = false ∧ k.leads = true ∧ k.admitted.length + 1 < k.cl.minMembers ∧ k.belowRaised = false :=
  ⟨0, _, ctl lead0 0x04 [], rfl, by decide, by decide, by decide, by decide⟩

theorem lossAndTakeoverAct_10_meets :
    ∃ (p : PartId), ∃ (k : _), ∃ (s : State), s.cluster p = some k ∧ k.leads = false ∧ inMask k.roster k.self = true ∧ (k.state = .member ∨ k.state = .paused) ∧ k.lostStarter = false ∧ k.successor = k.self :=
  ⟨0, _, ctl follow1 0x04 [], rfl, by decide, by decide, by decide, by decide, by decide⟩

theorem lossAndTakeoverAct_11_meets :
    ∃ (p : PartId), ∃ (k : _), ∃ (s : State), s.cluster p = some k ∧ k.leads = false ∧ inMask k.roster k.self = true ∧ (k.state = .member ∨ k.state = .paused) ∧ k.lostStarter = false ∧ k.successor ≠ k.self ∧ k.queryPending = true :=
  ⟨0, _, ctl { follow1 with successor := 2, queryPending := true } 0x04 [], rfl, by decide, by decide, by decide, by decide, by decide, by decide⟩

theorem lossAndTakeoverAct_12_meets :
    ∃ (p : PartId), ∃ (k : _), ∃ (s : State), s.cluster p = some k ∧ k.queried = true :=
  ⟨0, _, ctl { follow1 with queried := true } 0x04 [], rfl, by decide⟩

theorem lossAndTakeoverAct_13_meets :
    ∃ (p : PartId), ∃ (k : _), ∃ (s : State), s.cluster p = some k ∧ k.leads = false ∧ inMask k.roster k.self = true ∧ (k.state = .member ∨ k.state = .paused) ∧ k.lostStarter = false ∧ k.queried = false :=
  ⟨0, _, ctl follow1 0x04 [], rfl, by decide, by decide, by decide, by decide, by decide⟩

theorem lossAndTakeoverAct_14_meets :
    ∃ (p : PartId), ∃ (k : _), ∃ (s : State), s.cluster p = some k ∧ k.state = .paused ∧ k.lostStarter = true :=
  ⟨0, _, ctl { follow1 with state := .paused, lostStarter := true } 0x04 [], rfl, by decide, by decide⟩

theorem lossAndTakeoverAct_15_meets :
    ∃ (p : PartId), ∃ (k : _), ∃ (s : State), s.cluster p = some k ∧ k.lostStarter = false :=
  ⟨0, _, ctl follow1 0x04 [], rfl, by decide⟩

theorem transportFramesAct_0_meets :
    ∃ (o : PortId), ∃ (h : _), ∃ (f : _), ∃ (u : State), ∃ (s : State), s.takeOt o 4 = (u, some (h, f)) :=
  ⟨2, _, _, _, datagram {} (otHeader 4 0 0 0 5 0 0 0 0 8 ++ leBytes 8 0), rfl⟩

theorem transportFramesAct_1_meets :
    ∃ (o : PortId), ∃ (h : _), ∃ (f : _), ∃ (u : State), ∃ (s : State), s.takeOt o 5 = (u, some (h, f)) :=
  ⟨2, _, _, _, datagram {} (otHeader 5 0 0 0 5 0 0 0 0 0), rfl⟩

theorem transportFramesAct_2_meets :
    ∃ (o : PortId), ∃ (h : _), ∃ (f : _), ∃ (k : Cluster), ∃ (u : State), ∃ (v : State), ∃ (s : State), ∃ (mine : _), ∃ (e : _), ∃ (far : _), s.takeOt o 1 = (u, some (h, f)) ∧ u.cluster h.part = some k ∧ k.ends h.conn = some (mine, e, far) ∧ rdLE h.payload 0 8 = k.cl.key ∧ nbits (rdLE h.payload 8 4) 29 24 = e ∧ nbits (rdLE h.payload 8 4) 18 16 = far ∧ nbits (rdLE h.payload 8 4) 13 8 = k.self ∧ nbits (rdLE h.payload 8 4) 2 0 = mine ∧ (rdLE h.payload 8 4).testBit 31 = true ∧ (v = ((u.otHeard h f.ce).updCluster h.part fun c => c.updConn h.conn fun r => { r with gotOpen := true, gotReply := true })) :=
  ⟨2, _, _, _, _, _, datagram {} (otHeader 1 0 0 0 5 0 0 0 0 16 ++ leBytes 8 5 ++ leBytes 4 0x81000000 ++ leBytes 4 0), _, _, _, rfl, rfl, rfl, by decide, by decide, by decide, by decide, by decide, by decide, rfl⟩

theorem transportFramesAct_3_meets :
    ∃ (o : PortId), ∃ (h : _), ∃ (f : _), ∃ (k : Cluster), ∃ (u : State), ∃ (v : State), ∃ (s : State), ∃ (mine : _), ∃ (e : _), ∃ (far : _), s.takeOt o 1 = (u, some (h, f)) ∧ u.cluster h.part = some k ∧ k.ends h.conn = some (mine, e, far) ∧ rdLE h.payload 0 8 = k.cl.key ∧ nbits (rdLE h.payload 8 4) 29 24 = e ∧ nbits (rdLE h.payload 8 4) 18 16 = far ∧ nbits (rdLE h.payload 8 4) 13 8 = k.self ∧ nbits (rdLE h.payload 8 4) 2 0 = mine ∧ (rdLE h.payload 8 4).testBit 31 = false ∧ ((k.run h.conn).up = false ∨ (k.run h.conn).moved = false) ∧ (v = ((u.otHeard h f.ce).updCluster h.part fun c => c.updConn h.conn fun r => { r with gotOpen := true }).sendOpen h.part k h.conn true) :=
  ⟨2, _, _, _, _, _, datagram {} (otHeader 1 0 0 0 5 0 0 0 0 16 ++ leBytes 8 5 ++ leBytes 4 0x1000000 ++ leBytes 4 0), _, _, _, rfl, rfl, rfl, by decide, by decide, by decide, by decide, by decide, by decide, by decide, rfl⟩

theorem transportFramesAct_4_meets :
    ∃ (o : PortId), ∃ (h : _), ∃ (f : _), ∃ (k : Cluster), ∃ (u : State), ∃ (q : State), ∃ (s : State), ∃ (mine : _), ∃ (e : _), ∃ (far : _), s.takeOt o 1 = (u, some (h, f)) ∧ u.cluster h.part = some k ∧ k.ends h.conn = some (mine, e, far) ∧ rdLE h.payload 0 8 = k.cl.key ∧ nbits (rdLE h.payload 8 4) 29 24 = e ∧ nbits (rdLE h.payload 8 4) 18 16 = far ∧ nbits (rdLE h.payload 8 4) 13 8 = k.self ∧ nbits (rdLE h.payload 8 4) 2 0 = mine ∧ (rdLE h.payload 8 4).testBit 31 = false ∧ (k.run h.conn).up = true ∧ (k.run h.conn).moved = true ∧ q = u.otHeard h f.ce :=
  ⟨2, _, _, _, _, _, datagram { up := true, vcs := List.replicate 16 { rxCum := 1 } } (otHeader 1 0 0 0 5 0 0 0 0 16 ++ leBytes 8 5 ++ leBytes 4 0x1000000 ++ leBytes 4 0), _, _, _, rfl, rfl, rfl, by decide, by decide, by decide, by decide, by decide, by decide, by decide, by decide, rfl⟩

theorem transportFramesAct_5_meets :
    ∃ (o : PortId), ∃ (h : _), ∃ (f : _), ∃ (k : Cluster), ∃ (u : State), ∃ (s : State), s.takeOt o 1 = (u, some (h, f)) ∧ u.cluster h.part = some k ∧ (rdLE h.payload 0 8 ≠ k.cl.key ∨ k.ends h.conn = none) :=
  ⟨2, _, _, _, _, datagram {} (otHeader 1 0 0 0 5 0 0 0 0 16 ++ leBytes 8 6 ++ leBytes 8 0), rfl, rfl, by decide⟩

theorem transportFramesAct_6_meets :
    ∃ (o : PortId), ∃ (h : _), ∃ (f : _), ∃ (k : Cluster), ∃ (u : State), ∃ (s : State), ∃ (mine : _), ∃ (e : _), ∃ (far : _), s.takeOt o 1 = (u, some (h, f)) ∧ u.cluster h.part = some k ∧ k.ends h.conn = some (mine, e, far) ∧ (nbits (rdLE h.payload 8 4) 29 24 ≠ e ∨ nbits (rdLE h.payload 8 4) 18 16 ≠ far ∨ nbits (rdLE h.payload 8 4) 13 8 ≠ k.self ∨ nbits (rdLE h.payload 8 4) 2 0 ≠ mine) :=
  ⟨2, _, _, _, _, datagram {} (otHeader 1 0 0 0 5 0 0 0 0 16 ++ leBytes 8 5 ++ leBytes 8 0), _, _, _, rfl, rfl, rfl, by decide⟩

theorem transportFramesAct_7_meets :
    ∃ (o : PortId), ∃ (h : _), ∃ (f : _), ∃ (k : Cluster), ∃ (u : State), ∃ (v : State), ∃ (s : State), s.takeOt o 2 = (u, some (h, f)) ∧ v = u.otArrived h f.ce ∧ v.cluster h.part = some k ∧ (k.run h.conn).up = true ∧ (h.psn + 2 ^ 32 - ((k.run h.conn).vc h.vc).rxCum) % 2 ^ 32 < k.cl.credits h.vc ∧ (∀ g ∈ ((k.run h.conn).vc h.vc).rxHeld, g.psn ≠ h.psn) :=
  ⟨2, _, _, _, _, _, datagram { up := true } (otHeader 2 3 3 0 5 0 3 0 0 1 ++ [7]), rfl, rfl, rfl, by decide, by decide, by decide⟩

theorem transportFramesAct_8_meets :
    ∃ (o : PortId), ∃ (h : _), ∃ (f : _), ∃ (k : Cluster), ∃ (u : State), ∃ (v : State), ∃ (s : State), s.takeOt o 2 = (u, some (h, f)) ∧ v = u.otArrived h f.ce ∧ v.cluster h.part = some k ∧ (k.run h.conn).up = true ∧ (k.cl.credits h.vc ≤ (h.psn + 2 ^ 32 - ((k.run h.conn).vc h.vc).rxCum) % 2 ^ 32 ∨ ∃ g ∈ ((k.run h.conn).vc h.vc).rxHeld, g.psn = h.psn) :=
  ⟨2, _, _, _, _, _, datagram { up := true } (otHeader 2 3 3 0 5 0 4 0 0 1 ++ [7]), rfl, rfl, rfl, by decide, by decide⟩

theorem transportFramesAct_9_meets :
    ∃ (o : PortId), ∃ (h : _), ∃ (f : _), ∃ (k : Cluster), ∃ (u : State), ∃ (v : State), ∃ (s : State), s.takeOt o 3 = (u, some (h, f)) ∧ v = u.otArrived h f.ce ∧ v.cluster h.part = some k ∧ (k.run h.conn).up = false :=
  ⟨2, _, _, _, _, _, datagram {} (otHeader 3 0 0 0 5 0 0 0 0 32 ++ leBytes 32 0), rfl, rfl, rfl, by decide⟩

theorem transportFramesAct_10_meets :
    ∃ (o : PortId), ∃ h f k u q, ∃ s : State, s.takeOt o 3 = (u, some (h, f)) ∧ q = u.otArrived h f.ce ∧ q.cluster h.part = some k ∧ (k.run h.conn).up = true ∧ rdLE h.payload 0x12 2 = 0 ∧ (k.run h.conn).cutMark = [] ∧
    let v := (k.run h.conn).vc h.vc
    let cum := rdLE h.payload 0 4
    let left := v.inflight.filter fun f => leMod cum f.psn
    ({ v with inflight := left } : VcRun).sackMissing cum (rdLE h.payload 8 8) = [] :=
  ⟨2, _, _, _, _, _, datagram { up := true } (otHeader 3 0 0 0 5 0 0 0 0 32 ++ leBytes 32 0), rfl, rfl, rfl, by decide, by decide, by decide, by decide⟩

theorem transportTimersAct_0_meets :
    ∃ (p : PartId), ∃ (i : _), ∃ (k : Cluster), ∃ (s : State), s.cluster p = some k ∧ (k.ends i).isSome = true ∧ (k.run i).gotOpen = false :=
  ⟨0, 0, _, timed {}, rfl, by decide, by decide⟩

theorem transportTimersAct_1_meets :
    ∃ (p : PartId), ∃ (i : _), ∃ (k : Cluster), ∃ (s : State), s.cluster p = some k ∧ (k.run i).gotOpen = true :=
  ⟨0, 0, _, timed { gotOpen := true }, rfl, by decide⟩

theorem transportTimersAct_2_meets :
    ∃ (p : PartId), ∃ (i : _), ∃ (k : Cluster), ∃ (s : State), s.cluster p = some k ∧ (k.run i).up = true :=
  ⟨0, 0, _, timed { up := true }, rfl, by decide⟩

theorem transportTimersAct_3_meets :
    ∃ (p : PartId), ∃ (i : _), ∃ (vc : VcId), ∃ (k : Cluster), ∃ (s : State), s.cluster p = some k ∧ (k.run i).up = true ∧ 0 < ((k.run i).vc vc.val).sinceAck :=
  ⟨0, 0, 15, _, timed { up := true, vcs := List.replicate 16 { sinceAck := 1 } }, rfl, by decide, by decide⟩

theorem transportTimersAct_4_meets :
    ∃ (p : PartId), ∃ (i : _), ∃ (vc : VcId), ∃ (k : Cluster), ∃ (f : _), ∃ (r : _), ∃ (s : State), s.cluster p = some k ∧ ((k.run i).vc vc.val).inflight = f :: r ∧ (k.run i).idleTimeouts + 1 < 16 :=
  ⟨0, 0, 0, _, _, _, timed { up := true, vcs := List.replicate 16 { inflight := [⟨0, true, true, 0, 0, 0, [], 0, false, false, false⟩] } }, rfl, rfl, by decide⟩

theorem transportTimersAct_5_meets :
    ∃ (p : PartId), ∃ (i : _), ∃ (vc : VcId), ∃ (k : Cluster), ∃ (f : _), ∃ (r : _), ∃ (s : State), s.cluster p = some k ∧ ((k.run i).vc vc.val).inflight = f :: r ∧ 16 ≤ (k.run i).idleTimeouts + 1 :=
  ⟨0, 0, 0, _, _, _, timed { up := true, idleTimeouts := 15, vcs := List.replicate 16 { inflight := [default] } }, rfl, rfl, by decide⟩

theorem transportTimersAct_7_meets :
    ∃ (p : PartId), ∃ (i : _), ∃ (k : Cluster), ∃ (s : State), s.cluster p = some k ∧ (k.run i).up = false :=
  ⟨0, 0, _, timed {}, rfl, by decide⟩

theorem transportTimersAct_8_meets :
    ∃ (p : PartId), ∃ (i : _), ∃ (j : _), ∃ (x : _), ∃ (k : Cluster), ∃ (s : State), s.job p = some j ∧ s.cluster p = some k ∧ (k.run i).up = true ∧ k.leads = true ∧ k.begun = false ∧ k.path i = some x :=
  ⟨0, 0, _, _, _, timed { up := true }, rfl, rfl, by decide, by decide, by decide, rfl⟩

theorem transportTimersAct_9_meets :
    ∃ (p : PartId), ∃ (k : Cluster), ∃ (s : State), s.cluster p = some k :=
  ⟨0, _, timed {}, rfl⟩

theorem transportTimersAct_10_meets :
    ∃ (p : PartId), ∃ (k : Cluster), ∃ (s : State), s.cluster p = some k :=
  ⟨0, _, timed {}, rfl⟩

theorem registerRequestsAct_0_meets :
    ∃ (r : _), ∃ (s : State), (Arrives s 0x01 { dev := true, dirIn := true, len := fun n => decide (n % 4 = 0 ∧ 4 ≤ n ∧ n ≤ 1024), inRecovery := true } r) ∧ r.wValue % 4 = 0 ∧ r.wIndex * 65536 + r.wValue + r.wLength ≤ regSpan ∧ s.mc.recovery = false :=
  ⟨toDev 0x01 true 0 4 [], up, ⟨by decide, by decide, by decide, by decide, by decide⟩, by decide, by decide, by decide⟩

theorem registerRequestsAct_2_meets :
    ∃ (r : _), ∃ (s : State), (Arrives s 0x02 { dev := true, dirIn := false, len := fun n => decide (n = 4), inRecovery := true } r) ∧ r.wValue % 4 = 0 ∧ r.wIndex * 65536 + r.wValue < regSpan ∧ s.mc.recovery = false :=
  ⟨toDev 0x02 false 0 4 [1, 0, 0, 0], up, ⟨by decide, by decide, by decide, by decide, by decide⟩, by decide, by decide, by decide⟩

theorem registerRequestsAct_3_meets :
    ∃ (r : _), ∃ (s : State), (Arrives s 0x02 { dev := true, dirIn := false, len := fun n => decide (n = 4), inRecovery := true } r) ∧ s.mc.recovery = true ∧ r.wValue % 4 = 0 ∧ r.wIndex * 65536 + r.wValue < regSpan ∧ r.wIndex * 65536 + r.wValue ≠ mcResetCtl :=
  ⟨toDev 0x02 false 0 4 [1, 0, 0, 0], { up with mc := { up.mc with recovery := true } }, ⟨by decide, by decide, by decide, by decide, by decide⟩, by decide, by decide, by decide, by decide⟩

theorem registerRequestsAct_4_meets :
    ∃ (r : _), ∃ (s : State), (Arrives s 0x03 { dev := true, lo := 0, hi := 5, dirIn := true, len := fun n => decide (n = 8), value0 := true, index0 := true, inRecovery := true } r) :=
  ⟨toDev 0x03 true 0 8 [], up, ⟨by decide, by decide, by decide, by decide, by decide⟩⟩

theorem interfaceRequestsAct_0_meets :
    ∃ (r : _), ∃ (s : State), Arrives s 0x10 (jobForm false 16) r ∧ rdLE r.data 12 4 = 0 ∧ rdLE r.data 0 6 % 0x100000 = 0 ∧ (rdLE r.data 0 6 + 0x4000000 ≤ regRegion ∨ regRegion + regSpan ≤ rdLE r.data 0 6) :=
  ⟨toIface 0x10 4 false (List.replicate 16 0) 16, up, ⟨by decide, by decide, by decide, by decide, by decide⟩, by decide, by decide, by decide⟩

theorem interfaceRequestsAct_1_meets :
    ∃ (r : _), ∃ (s : State), Arrives s 0x11 (jobForm false 8) r ∧ rdLE r.data 0 2 < 4096 ∧ rdLE r.data 2 2 = 0 ∧ (let h := s.parts[(Fin.ofNat 4 (reqIface r - 1) : PartId)].iface.hdr; (rdLE r.data 0 2 + 4096 - h.cmdTail) % 4096 + (h.cmdTail + 4096 - h.cmdHead) % 4096 ≤ 4095) :=
  ⟨toIface 0x11 1 false (leBytes 8 4095) 8, up, ⟨by decide, by decide, by decide, by decide, by decide⟩, by decide, by decide, by decide⟩

theorem interfaceRequestsAct_2_meets :
    ∃ (p : PartId), ∃ (q : HeldReq), ∃ (s : State), s.parts[p].iface.held = [] ∧ s.parts[p].iface.heldFrame = none ∧ s.parts[p].iface.hasLanded q.e = true :=
  ⟨0, .doorbell 1 0, up, by decide, by decide, by decide⟩

theorem interfaceRequestsAct_3_meets :
    ∃ (r : _), ∃ (s : State), Arrives s 0x12 (jobForm true 32) r :=
  ⟨toIface 0x12 4 true [] 32, up, ⟨by decide, by decide, by decide, by decide, by decide⟩⟩

theorem interfaceRequestsAct_4_meets :
    ∃ (p : PartId), ∃ (r : _), ∃ (s : State), (Arrives s 0x13 { dev := false, lo := 1, hi := 5, dirIn := false, len := fun n => decide (n = 0) } r) ∧ reqIface r = 1 + p.val ∧ r.wValue = 0 :=
  ⟨3, toIface 0x13 4 false [] 0, up, ⟨by decide, by decide, by decide, by decide, by decide⟩, by decide, by decide⟩

theorem interfaceRequestsAct_5_meets :
    ∃ (i : Fin 5), ∃ (p : PartId), ∃ (s : State), i.val = p.val ∧ s.parts[p].iface.resetBusy = true ∧ (∀ h ∈ s.parts[p].iface.resetHandles, ∀ x, s.handleOf h = some x → x.state = .done) ∧ s.parts[p].iface.resetFlags.testBit 1 = false :=
  ⟨3, 3, up.updIface 3 fun i => { i with resetBusy := true, resetHandles := [9] }, by decide, by decide, by intro h _ x b; simp [State.handleOf, up, State.updIface, State.updPart, State.reset] at b, by decide⟩

theorem interfaceRequestsAct_6_meets :
    ∃ (i : Fin 5), ∃ (s : State), i.val = 4 ∧ s.diag.resetBusy = true :=
  ⟨4, { up with diag := { up.diag with resetBusy := true } }, by decide, by decide⟩

theorem handleRequestsAct_0_meets :
    ∃ x ∈ ([(0x20, handleForm true 16 true, .opStatus), (0x21, handleForm false 0 false, .opSuspend), (0x22, handleForm false 0 false, .opResume), (0x23, handleForm false 0 true, .opCancel), (0x24, handleForm false 0 true, .opRelease)] : List (Nat × ReqForm × (Setup → Instr))), ∃ (r : _), ∃ (s : State), Arrives s x.1 x.2.1 r ∧ s.ownHandle (reqIface r) r.wValue = none :=
  ⟨_, .head _, toDev 0x20 true 7 16 [], up, ⟨by decide, by decide, by decide, by decide, by decide⟩, by decide⟩

theorem handleRequestsAct_1_meets :
    ∃ (r : _), ∃ (h : _), ∃ (s : State), Arrives s 0x20 (handleForm true 16 true) r ∧ s.ownHandle (reqIface r) r.wValue = some h :=
  ⟨toDev 0x20 true 1 16 [], _, withOp op1, ⟨by decide, by decide, by decide, by decide, by decide⟩, rfl⟩

theorem handleRequestsAct_2_meets :
    ∃ (r : _), ∃ (h : Handle), ∃ (s : State), Arrives s 0x21 (handleForm false 0 false) r ∧ s.ownHandle (reqIface r) r.wValue = some h ∧ h.state = .running ∧ h.suspendPending = false ∧ s.canSuspend h = true ∧ h.kind ≠ 1 :=
  ⟨toDev 0x21 false 1 0 [], _, withOp op1, ⟨by decide, by decide, by decide, by decide, by decide⟩, rfl, by decide, by decide, by decide, by decide⟩

theorem handleRequestsAct_3_meets :
    ∃ (r : _), ∃ (h : Handle), ∃ (s : State), Arrives s 0x22 (handleForm false 0 false) r ∧ s.ownHandle (reqIface r) r.wValue = some h ∧ h.state = .suspended ∧ h.kind ≠ 1 :=
  ⟨toDev 0x22 false 1 0 [], _, withOp { op1 with state := .suspended }, ⟨by decide, by decide, by decide, by decide, by decide⟩, rfl, by decide, by decide⟩

theorem handleRequestsAct_4_meets :
    ∃ (r : _), ∃ (h : Handle), ∃ (s : State), Arrives s 0x23 (handleForm false 0 true) r ∧ s.ownHandle (reqIface r) r.wValue = some h ∧ h.state = .running ∧ h.pastReturn = false :=
  ⟨toDev 0x23 false 1 0 [], _, withOp op1, ⟨by decide, by decide, by decide, by decide, by decide⟩, rfl, by decide, by decide⟩

theorem handleRequestsAct_5_meets :
    ∃ (r : _), ∃ (h : Handle), ∃ (s : State), Arrives s 0x24 (handleForm false 0 true) r ∧ s.ownHandle (reqIface r) r.wValue = some h ∧ h.state = .done :=
  ⟨toDev 0x24 false 1 0 [], _, withOp { op1 with state := .done }, ⟨by decide, by decide, by decide, by decide, by decide⟩, rfl, by decide⟩

theorem handleRequestsAct_6_meets :
    ∃ (r : _), ∃ (h : Handle), ∃ (s : State), Arrives s 0x24 (handleForm false 0 true) r ∧ s.ownHandle (reqIface r) r.wValue = some h ∧ h.state ≠ .done :=
  ⟨toDev 0x24 false 1 0 [], _, withOp op1, ⟨by decide, by decide, by decide, by decide, by decide⟩, rfl, by decide⟩

theorem handleRequestsAct_7_meets :
    ∃ (r : _), ∃ (s : State), Arrives s 0x25 (handleForm true 256 true) r :=
  ⟨toDev 0x25 true 0 256 [], up, ⟨by decide, by decide, by decide, by decide, by decide⟩⟩

theorem handleRequestsAct_8_meets :
    ∃ (h : _), ∃ (x : _), ∃ (s : State), s.handleOf h = some x ∧ x.suspendPending = true ∧ x.state = .running ∧ s.atSuspendPoint x = true :=
  ⟨1, _, withOp { op1 with suspendPending := true }, rfl, by decide, by decide, by decide⟩

theorem flashOperationsAct_0_meets :
    ∃ (r : _), ∃ (s : State), Arrives s 0x30 (formOpStart 0x12) r ∧ r.wValue = 0x12 ∧ s.handlesFull 0 = false ∧ s.mc.armedUntil.isSome = true ∧ s.mc.sealIntact = true :=
  ⟨{ asks with wValue := 0x12 }, { up with mc := { up.mc with armedUntil := some 60000000000 } }, ⟨by decide, by decide, by decide, by decide, by decide⟩, by decide, by decide, by decide, by decide⟩

theorem flashOperationsAct_1_meets :
    ∃ (r : _), ∃ (s : State), Arrives s 0x30 (formOpStart 0x12) r ∧ r.wValue = 0x12 ∧ s.handlesFull 0 = false ∧ (s.mc.armedUntil = none ∨ s.mc.sealIntact = false) :=
  ⟨{ asks with wValue := 0x12 }, up, ⟨by decide, by decide, by decide, by decide, by decide⟩, by decide, by decide, by decide⟩

theorem flashOperationsAct_2_meets :
    ∃ x ∈ ([(0x12, .fwStage), (0x13, .nvmWrite)] : List (Nat × (Setup → Instr))), ∃ (r : _), ∃ (s : State), Arrives s 0x30 (formOpStart x.1) r ∧ r.wValue = x.1 ∧ s.handlesFull 0 = true :=
  ⟨_, .head _, { asks with wValue := 0x12 }, { up with handles := List.replicate 64 op1 }, ⟨by decide, by decide, by decide, by decide, by decide⟩, by decide, by decide⟩

theorem flashOperationsAct_3_meets :
    ∃ (r : Setup) (l : List Staged) (s : State), Arrives s 0x30 (formOpStart 0x13) r ∧ r.wValue = 0x13 ∧ s.handlesFull 0 = false ∧ s.stagedRequest = some l ∧ l ≠ [] ∧
    s.handleOf s.nextHandle = none ∧ (∀ x ∈ l, s.recordBad x = false ∧ s.privileged x = false) ∧ cfgRecordsCheck l s.ownerKey (s.counter 1) = none :=
  ⟨{ asks with wValue := 0x13 }, _, stagedWith 3 0 9, ⟨by decide, by decide, by decide, by decide, by decide⟩, rfl, by decide, staged_one _ 3 0 9 rfl, by decide, by decide, by decide, by decide⟩

theorem flashOperationsAct_4_meets :
    ∃ (r : Setup) (l : List Staged) (x : Staged) (s : State), Arrives s 0x30 (formOpStart 0x13) r ∧ r.wValue = 0x13 ∧ s.handlesFull 0 = false ∧ s.stagedRequest = some l ∧
    s.handleOf s.nextHandle = none ∧ (∀ y ∈ l, s.recordBad y = false) ∧ l.find? s.privileged = some x ∧ s.mc.armedUntil.isSome = true ∧ s.mc.sealIntact = true ∧
    cfgRecordsCheck l s.ownerKey (s.counter 1) = none :=
  ⟨{ asks with wValue := 0x13 }, _, _, { stagedWith 3 0 9 with mc := { up.mc with recovery := true, armedUntil := some 1 } }, ⟨by decide, by decide, by decide, by decide, by decide⟩, rfl, by decide, staged_one _ 3 0 9 rfl,
    by decide, by decide, rfl, by decide, by decide, by decide⟩

theorem flashOperationsAct_5_meets :
    ∃ (r : Setup) (l : List Staged) (x : Staged) (s : State), Arrives s 0x30 (formOpStart 0x13) r ∧ r.wValue = 0x13 ∧ s.handlesFull 0 = false ∧ s.stagedRequest = some l ∧
    (∀ y ∈ l, s.recordBad y = false) ∧ l.find? s.privileged = some x ∧ (s.mc.armedUntil = none ∨ s.mc.sealIntact = false) :=
  ⟨{ asks with wValue := 0x13 }, _, _, { stagedWith 3 0 9 with mc := { up.mc with recovery := true } }, ⟨by decide, by decide, by decide, by decide, by decide⟩, rfl, by decide, staged_one _ 3 0 9 rfl,
    by decide, rfl, by decide⟩

theorem flashOperationsAct_6_meets :
    ∃ (r : Setup) (l : List Staged) (s : State), Arrives s 0x30 (formOpStart 0x13) r ∧ r.wValue = 0x13 ∧ s.handlesFull 0 = false ∧ s.stagedRequest = some l ∧
    ∃ y ∈ l, s.recordBad y = true :=
  ⟨{ asks with wValue := 0x13 }, _, stagedWith 3 1 9, ⟨by decide, by decide, by decide, by decide, by decide⟩, rfl, by decide, staged_one _ 3 1 9 rfl, by decide⟩

theorem flashOperationsAct_7_meets :
    ∃ (r : Setup) (l : List Staged) (x : List Nat) (e : Nat) (s : State), Arrives s 0x30 (formOpStart 0x13) r ∧ r.wValue = 0x13 ∧ s.handlesFull 0 = false ∧ s.stagedRequest = some l ∧
    (∀ y ∈ l, s.recordBad y = false) ∧ (l.find? s.privileged = none ∨ s.mc.armedUntil.isSome = true ∧ s.mc.sealIntact = true) ∧
    cfgRecordsCheck l s.ownerKey (s.counter 1) = some (e, x) :=
  ⟨{ asks with wValue := 0x13 }, _, _, _, { stagedWith 1 0 9 with mc := { up.mc with recovery := true, armedUntil := some 1 } }, ⟨by decide, by decide, by decide, by decide, by decide⟩, rfl, by decide, staged_one _ 1 0 9 rfl,
    by decide, by decide, rfl⟩

theorem flashOperationsAct_8_meets :
    ∃ (r : _), ∃ (s : State), Arrives s 0x30 (formOpStart 0x13) r ∧ r.wValue = 0x13 ∧ s.handlesFull 0 = false ∧ s.stagedRequest = none :=
  ⟨{ asks with wValue := 0x13 }, { up with staging := [(4, 1)] }, ⟨by decide, by decide, by decide, by decide, by decide⟩, by decide, by decide, by decide⟩

theorem flashOperationsAct_9_meets :
    ∃ (h : _), ∃ (r : _), ∃ (s : State), s.dueRecord h 1 = some r :=
  ⟨1, _, recordDue 1 [1, 2], rfl⟩

theorem flashOperationsAct_10_meets :
    ∃ (h : _), ∃ (r : _), ∃ (s : State), s.dueRecord h 2 = some r :=
  ⟨1, _, recordDue 2 [1, 2], rfl⟩

theorem flashOperationsAct_11_meets :
    ∃ (h : _), ∃ (r : Staged), ∃ (s : State), s.dueRecord h 3 = some r ∧ r.data ≠ [] :=
  ⟨1, _, recordDue 3 [1, 2], rfl, by decide⟩

theorem flashOperationsAct_12_meets :
    ∃ (h : _), ∃ (r : Staged), ∃ (s : State), s.dueRecord h 3 = some r ∧ r.data = [] :=
  ⟨1, _, recordDue 3 [], rfl, by decide⟩

theorem flashOperationsAct_13_meets :
    ∃ (h : _), ∃ (r : _), ∃ (s : State), s.dueRecord h 4 = some r :=
  ⟨1, _, recordDue 4 [], rfl⟩

theorem flashOperationsAct_14_meets :
    ∃ (h : _), ∃ (r : _), ∃ (s : State), s.dueRecord h 5 = some r :=
  ⟨1, _, recordDue 5 [1, 2], rfl⟩

theorem flashOperationsAct_15_meets :
    ∃ (h : _), ∃ (r : _), ∃ (s : State), s.dueRecord h 6 = some r :=
  ⟨1, _, recordDue 6 [], rfl⟩

theorem flashOperationsAct_18_meets :
    ∃ n m : Nat, ∃ s : State, n < 8 ∧ s.counters.length = 8 ∧ m ≠ n := ⟨7, 0, up, by decide, by decide, by decide⟩

theorem pagesAreProgrammed_0_meets :
    ∃ (s : State), (s.mc.nvmBusy = false ∨ s.nvmHead = none) :=
  ⟨up, by decide⟩

theorem pagesAreProgrammed_1_meets :
    ∃ (w : NvmWork), ∃ (s : State), s.mc.nvmBusy = true ∧ s.nvmHead = some w ∧ (∀ h, w.src ≠ .op h) ∧ w.blocks ≤ w.erased ∧ w.data.length ≤ w.pos + pageBytes :=
  ⟨_, programming { src := .log, data := [1] }, by decide, rfl, fun h => nofun, by decide, by decide⟩

theorem pagesAreProgrammed_2_meets :
    ∃ (w : NvmWork), ∃ (s : State), s.mc.nvmBusy = true ∧ s.nvmHead = some w ∧ w.erased < w.blocks ∧ (w.erased + 1 < w.blocks ∨ w.pos < w.data.length) :=
  ⟨_, programming { src := .log, blocks := 2 }, by decide, rfl, by decide, by decide⟩

theorem windowFramesAct_0_meets :
    ∃ (p : PartId), ∃ (f : _), ∃ (s : State), s.hostUp = true ∧ s.parts[p].iface.resetBusy = false ∧ s.parts[p].iface.heldFrame = none ∧ s.parts[p].iface.fault = false ∧ f.gen = s.parts[p].iface.gen ∧ s.frameErr p f = none ∧ f.ftype = 1 ∧ s.parts[p].iface.held = [] :=
  ⟨0, frame1, windowed {}, by decide, by decide, by decide, by decide, by decide, by decide, by decide, by decide⟩

theorem windowFramesAct_2_meets :
    ∃ (p : PartId), ∃ (f : _), ∃ (env : _), ∃ (u : State), ∃ (s : State), u = s.takeEnv env ∧ u.hostUp = true ∧ u.parts[p].iface.resetBusy = false ∧ u.parts[p].iface.heldFrame = none ∧ u.parts[p].iface.fault = false ∧ f.gen = u.parts[p].iface.gen ∧ u.frameErr p f = none ∧ f.ftype = 2 ∧ u.parts[p].iface.held = [] :=
  ⟨0, frameOf 2 0 0 0 [], quietEnv, _, windowed {}, rfl, by decide, by decide, by decide, by decide, by decide, by decide, by decide, by decide⟩

theorem windowFramesAct_3_meets :
    ∃ (p : PartId) (f : Frame) (s : State) (a : Nat), s.lbad (s.windowJob p) (spanOf (s.parts[p].iface.base + f.offset) f.length) = none ∧ s.inRings a = false :=
  ⟨0, frame1, windowed {}, 0, by decide, by decide⟩

theorem windowFramesAct_4_meets :
    ∃ (p : PartId), ∃ (f : Frame), ∃ (s : State), s.hostUp = true ∧ s.parts[p].iface.resetBusy = false ∧ s.parts[p].iface.heldFrame = none ∧ s.parts[p].iface.fault = false ∧ f.gen ≠ s.parts[p].iface.gen :=
  ⟨0, frameOf 1 1 1 0 [7], windowed {}, by decide, by decide, by decide, by decide, by decide⟩

theorem windowFramesAct_5_meets :
    ∃ (p : PartId), ∃ (s : State), s.parts[p].iface.fault = true :=
  ⟨3, up.updIface 3 fun i => { i with fault := true }, by decide⟩

theorem windowFramesAct_6_meets :
    ∃ (p : PartId), ∃ (f : _), ∃ (o : _), ∃ (b : _), ∃ (st : _), ∃ (s : State), s.hostUp = true ∧ s.parts[p].iface.resetBusy = false ∧ s.parts[p].iface.heldFrame = none ∧ s.parts[p].iface.fault = false ∧ f.gen = s.parts[p].iface.gen ∧ s.frameErr p f = some (o, b, st) ∧ f.ftype ≠ 2 ∧ s.parts[p].iface.held = [] :=
  ⟨0, frameOf 1 0 1 1 [7], _, _, _, windowed {}, by decide, by decide, by decide, by decide, by decide, rfl, by decide, by decide⟩

theorem windowFramesAct_7_meets :
    ∃ (p : PartId), ∃ (f : Frame), ∃ (s : State), s.parts[p].iface.heldFrame = some f ∧ f.ftype ≠ 2 :=
  ⟨0, _, windowed { heldFrame := some frame1 }, rfl, by decide⟩

theorem windowFramesAct_8_meets :
    ∃ (p : PartId), ∃ (k : Nat), ∃ (t : Nat), ∃ (e : Nat), ∃ (s : State), s.parts[p].iface.held[k]? = some (.doorbell t e) :=
  ⟨0, 0, _, _, windowed { held := [.doorbell 4095 0] }, rfl⟩

theorem windowFramesAct_9_meets :
    ∃ (p : PartId), ∃ (k : Nat), ∃ (b : Nat), ∃ (g : Nat), ∃ (e : Nat), ∃ (s : State), s.parts[p].iface.held[k]? = some (.window b g e) :=
  ⟨0, 0, _, _, _, windowed { held := [.window 0x100000000 1 0] }, rfl⟩

theorem windowFramesAct_10_meets :
    ∃ (p : PartId), ∃ (s : State), s.hostUp = true ∧ s.parts[p].iface.notice ≠ s.parts[p].iface.lastNotice :=
  ⟨3, up, by decide, by decide⟩

theorem windowFramesAct_11_meets :
    ∃ (f : _), ∃ (s : State), s.linked = true ∧ s.diag.resetBusy = false ∧ s.diag.fault = false ∧ s.stagingErr f = none ∧ f.ftype ≠ 2 :=
  ⟨frame1, up, by decide, by decide, by decide, by decide, by decide⟩

theorem windowFramesAct_12_meets :
    ∃ (f : _), ∃ (s : State), s.linked = true ∧ s.diag.resetBusy = false ∧ s.diag.fault = false ∧ s.stagingErr f = none ∧ f.ftype = 2 :=
  ⟨frameOf 2 0 0 0 [], up, by decide, by decide, by decide, by decide, by decide⟩

theorem windowFramesAct_13_meets :
    ∃ (f : _), ∃ (o : _), ∃ (b : _), ∃ (st : _), ∃ (s : State), s.linked = true ∧ s.diag.resetBusy = false ∧ s.diag.fault = false ∧ s.stagingErr f = some (o, b, st) ∧ f.ftype ≠ 2 :=
  ⟨frameOf 1 0 1 1 [7], _, _, _, up, by decide, by decide, by decide, rfl, by decide⟩

theorem ringCommandsAct_0_meets :
    ∃ x ∈ ringCommands, ∃ (p : PartId), ∃ (env : _), ∃ (head : _), ∃ (b : _), ∃ (u : State), ∃ (v : State), ∃ (s : State), u = (if x.1 = 0x21 then s.takeEnv env else s).skipUnnamed p ∧ u.frontCmd p = some (head, some b) ∧ (cmdOf head b).op = x.1 ∧ u.mustWait p b = false ∧ u.take p (cmdOf head b) = some v :=
  ⟨_, .head _, 0, quietEnv, _, _, _, _, ring (List.replicate 64 0), rfl, rfl, by decide, by decide, rfl⟩

theorem ringCommandsAct_1_meets :
    ∃ x ∈ ringCommands, ∃ (p : PartId), ∃ (env : _), ∃ (head : _), ∃ (b : _), ∃ (u : State), ∃ (s : State), u = (if x.1 = 0x21 then s.takeEnv env else s).skipUnnamed p ∧ u.frontCmd p = some (head, some b) ∧ ((cmdOf head b).op ≠ x.1 ∨ u.mustWait p b = true ∨ u.take p (cmdOf head b) = none) :=
  ⟨_, .head _, 0, quietEnv, _, _, _, ring (leBytes 4 0x10000000), rfl, rfl, by decide⟩

theorem ringCommandsAct_2_meets :
    ∃ (p : PartId) (k : TakenCmd) (m u s : State), s.take p k = some u ∧ m = s.meetEntry p ∧ s.weakUnits = [] := ⟨0, took 0x10 3, _, _, up, rfl, rfl, by decide⟩

theorem ringCommandsAct_3_meets :
    ∃ (b : List Byte), ∃ (k : TakenCmd), entryOk b [(0x10, 48)] = true ∧ k.level = 0 :=
  ⟨List.replicate 64 0, took 0 0, by decide, by decide⟩

theorem ringCommandsAct_4_meets :
    ∃ (b : _), entryOk b [(0x10, 48)] = false :=
  ⟨[0xFF], by decide⟩

theorem ringCommandsAct_5_meets :
    ∃ (p : PartId) (b : List Byte) (k : TakenCmd) (j : Job) (u s : State), entryOk b [(0x16, 2), (0x20, 32)] = true ∧ rdLE b 0x18 8 ≤ 1 ∧ k.level = 0 ∧ s.parts[p].phys ≠ 0 ∧ s.job p = none ∧
    s.handlesFull (1 + p.val) = false ∧ s.loadJob p (rdLE b 0x10 6) = .ok (u, j) := by
  have h : (match runImage.loadJob 0 0x100000000 with | .ok _ => true | .error _ => false) = true := by decide +kernel
  cases e : runImage.loadJob 0 0x100000000 with
  | error x => simp [e] at h
  | ok x => exact ⟨0, storeEntry.take 32, took 0x10 0, x.2, x.1, runImage, by decide, by decide, by decide, by decide, by decide, by decide, e⟩

theorem ringCommandsAct_6_meets :
    ∃ (p : PartId), ∃ (b : List Byte), ∃ (k : TakenCmd), ∃ (s : State), entryOk b [(0x16, 2), (0x20, 32)] = true ∧ rdLE b 0x18 8 ≤ 1 ∧ k.level = 0 ∧ s.parts[p].phys ≠ 0 ∧ (s.job p).isSome = true :=
  ⟨0, List.replicate 64 0, took 0x10 0, withJob job0, by decide, by decide, by decide, by decide, by decide⟩

theorem ringCommandsAct_7_meets :
    ∃ (p : PartId), ∃ (b : _), ∃ (k : _), ∃ (s : State), s.storeCheck p b k 0 true = none :=
  ⟨0, storeEntry, took 0x20 0, withQp (windowed {}), by decide⟩

theorem ringCommandsAct_8_meets :
    ∃ (p : PartId), ∃ (b : _), ∃ (k : _), ∃ (u : State), ∃ (s : State), s.storeCheck p b k 2 false = none ∧ u = s.touchAll ((spanOf (rdLE b 0x10 6) (rdLE b 0x24 4)).map ((s.windowJob p).phys false)) ∧ u.lbad (s.windowJob p) (spanOf (rdLE b 0x10 6) (rdLE b 0x24 4)) = none ∧ k.level ≠ 0 :=
  ⟨0, storeEntry, took 0x21 1, _, withQp (windowed {}), by decide, rfl, by decide, by decide⟩

theorem ringCommandsAct_9_meets :
    ∃ (p : PartId), ∃ (b : _), ∃ (k : _), ∃ (s : State), s.imageCheck p b k 1 2 (fun _ _ => none) = none ∧ s.cluster p = none :=
  ⟨0, imageEntry, took 0x30 1, training .running, by decide, by decide⟩

theorem ringCommandsAct_10_meets :
    ∃ (p : PartId), ∃ (b : _), ∃ (k : _), ∃ (s : State), s.imageCheck p b k 0 0 (fun x j => if x.state = .suspended ∧ j.step.started = false then none else some stField) = none :=
  ⟨0, imageEntry, took 0x31 0, training .suspended, by decide⟩

theorem ringCommandsAct_11_meets :
    ∃ (p : PartId), ∃ (r : _), ∃ (l : _), ∃ (s : State), s.parts[p].iface.waiting = r :: l ∧ s.hctxUp = true ∧ 0 < s.cplRoom p :=
  ⟨0, _, _, windowed { waiting := [[1]] }, rfl, by decide, by decide⟩

theorem ringCommandsAct_12_meets :
    ∃ (p : PartId), ∃ (r : _), ∃ (l : _), ∃ (s : State), s.parts[p].iface.waiting = r :: l ∧ s.hctxUp = false :=
  ⟨0, _, _, { windowed { waiting := [[1]] } with mc := { up.mc with stacksUp := 0 } }, rfl, by decide⟩

theorem hostLinkActs_0_meets :
    ∃ (s : State), s.mc.on = true ∧ (s.mc.complete = true ∨ s.mc.recovery = true) :=
  ⟨up, by decide, by decide⟩

theorem hostLinkActs_1_meets :
    ∃ (s : State), (¬(s.mc.on = true ∧ (s.mc.complete = true ∨ s.mc.recovery = true))) :=
  ⟨State.reset, by decide⟩

theorem hostLinkActs_2_meets :
    ∃ (n : Nat), ∃ (s : State), n = (if s.mc.recovery = true then 1 else Nat.min s.usb.offered s.mc.usbMax) ∧ n < 8 ∧ s.usb.vbus = true ∧ s.mc.usbDown = false :=
  ⟨_, { up with usb := { up.usb with vbus := true, offered := 1 } }, rfl, by decide, by decide, by decide⟩

theorem hostLinkActs_3_meets :
    ∃ (s : State), s.mc.usbDown = true :=
  ⟨{ up with mc := { up.mc with usbDown := true } }, by decide⟩

theorem hostLinkActs_4_meets :
    ∃ (s : State), s.usb.vbus = true ∧ s.mc.usbDown = false ∧ s.mc.recovery = false ∧ s.usb.offered ≤ 4 ∧ 4 ≤ Nat.min s.usb.offered s.mc.usbMax :=
  ⟨{ up with usb := { up.usb with vbus := true, offered := 4 } }, by decide, by decide, by decide, by decide, by decide⟩

theorem hostLinkActs_5_meets :
    ∃ (u : State), ∃ (s : State), (u = ({ s with usb := { s.usb with vbus := false, suspended := false, stalled := false, data := [] } } : State).setReg usbLink (pack [(4, 8)])) :=
  ⟨_, up, rfl⟩

theorem hostLinkActs_6_meets :
    ∃ x ∈ ([(1, .busReset), (2, .warmReset)] : List (Nat × Instr)), ∃ (s : State), (s.linked = true ∨ s.usb.suspended = true) :=
  ⟨_, .head _, up, by decide⟩

theorem hostLinkActs_8_meets :
    ∃ (s : State), s.linked = true :=
  ⟨up, by decide⟩

theorem hostLinkActs_9_meets :
    ∃ (s : State), s.usb.suspended = true :=
  ⟨{ up with usb := { up.usb with suspended := true } }, by decide⟩

theorem portFramesAct_0_meets :
    ∃ (o : PortId), ∃ (q : SubId), ∃ (s : State), s.portOn o = true ∧ s.subOn o.val q.val = true ∧ s.linkUp o.val q.val = false :=
  ⟨0, 0, port0 0, by decide, by decide, by decide⟩

theorem portFramesAct_1_meets :
    ∃ (o : PortId), ∃ (q : SubId), ∃ (n : _), ∃ (s : State), s.linkUp o.val q.val = true ∧ n = (s.stored o).length :=
  ⟨0, 0, _, port0 1, by decide, rfl⟩

theorem portFramesAct_2_meets :
    ∃ (o : PortId), ∃ (q : SubId), ∃ (s : State), s.linkUp o.val q.val = true ∧ mapGet s.ports[o].fecAt q.val = none :=
  ⟨0, 0, port0 1, by decide, by decide⟩

theorem portFramesAct_3_meets :
    ∃ (o : PortId), ∃ (q : SubId), ∃ (n : Nat), ∃ (s : State), s.linkUp o.val q.val = true ∧ mapGet s.ports[o].fecAt q.val = some n ∧ s.mc.time < n + 3600000000000 :=
  ⟨0, 0, _, (port0 1).updPort 0 fun p => { p with fecAt := [(0, 0)] }, by decide, rfl, by decide⟩

theorem portFramesAct_4_meets :
    ∃ (o : PortId), ∃ (q : SubId), ∃ (f : EthFrame), ∃ (g : RxFrame), ∃ (v : State), ∃ (u : State), ∃ (s : State), s.portOn o = true ∧ s.linkUp o.val q.val = true ∧ s.portReach o (s.ports[o].clock + f.wait) = some v ∧ u = ((v.portCount o 16 f.fecCorr).portCount o 17 f.fecUncorr).portCount2 o 6 f.bytes.length ∧ g = parseFrame (!f.pcsError && decide (f.fecUncorr = 0)) f.bytes :=
  ⟨0, 0, eth0, _, _, _, port0 1, by decide, by decide, rfl, rfl, rfl⟩

theorem portFramesAct_5_meets :
    ∃ (o : PortId), ∃ (q : SubId), ∃ (w : _), ∃ (u : State), ∃ (s : State), s.portOn o = true ∧ s.linkUp o.val q.val = true ∧ s.portReach o (s.ports[o].clock + w) = some u :=
  ⟨0, 0, 65535, _, port0 1, by decide, by decide, rfl⟩

theorem portFramesAct_6_meets :
    ∃ (o : PortId), ∃ (q : SubId), ∃ (c : _), ∃ (f : _), ∃ (s : State), s.headFrame o q c = some f :=
  ⟨7, 3, 7, _, (up.send 7 { sub := 3, cls := 7, src := .mc, body := .pfc 0 1 }), rfl⟩

theorem portFramesAct_7_meets :
    ∃ f : TxFrame, f.ptpEvent = none := ⟨{ sub := 3, cls := 7, src := .mc, body := .pfc 0 1 }, by decide⟩

theorem portFramesAct_8_meets :
    ∃ (o : PortId), ∃ (q : SubId), ∃ (m : BitVec 8), ∃ (named : Nat × Nat → Bool), ∃ (u : State), ∃ (s : State), named = (fun k => decide (k.1 / 8 = q.val) && m.getLsbD (k.1 % 8)) ∧ s.portReach o (s.ports[o].clock + (((s.ports[o].paused.filter named).map Prod.snd).foldl Nat.max (s.now o) - s.now o)) = some u :=
  ⟨0, 0, 0x81, _, _, up.updPort 0 fun p => { p with paused := [(0, 65536), (7, 0), (8, 9)] }, rfl, rfl⟩

theorem portFramesAct_9_meets :
    ∃ (o : PortId), ∃ (q : SubId), ∃ (k : Fin 8), ∃ (s : State), s.portOn o = true ∧ q.val * 8 + k.val ∈ s.ports[o].pausing ∧ s.classField o.val q.val k.val 8 < s.rxFill o q.val k.val :=
  ⟨7, 3, 7, up.updPort 7 fun p => { p with pausing := [31], otIn := [⟨3, 7, 64, [], false, false, []⟩] }, by decide, by decide, by decide⟩

theorem portTimeActs_0_meets :
    ∃ (o : PortId), ∃ (k : Fin 2), ∃ (u : State), ∃ (s : State), s.schedOn o.val k.val = true ∧ (s.operList o k).isEmpty = false ∧ s.portReach o (s.ports[o].clock + (entryAt (s.operList o k) (cyclePos s.ports[o].clock s.ports[o].sched[k].base s.ports[o].sched[k].cycle)).2) = some u :=
  ⟨0, 0, _, (up.setReg (portGateCtl 0 0) 0x80000000).updPort 0 fun p => { p with sched := p.sched.set 0 { len := 1, cycle := 1000 } }, by decide, by decide, rfl⟩

theorem portTimeActs_1_meets :
    ∃ (o : PortId), ∃ (n : _), ∃ (u : State), ∃ (s : State), s.portReach o n = some u :=
  ⟨0, 65536000000, _, up, rfl⟩

theorem portTimeActs_2_meets :
    ∃ (o : PortId), ∃ (k : Fin 2), ∃ (s : State), s.ports[o].sched[k].pending = true ∧ s.ports[o].sched[k].changeAt ≤ s.ports[o].clock :=
  ⟨0, 1, up.updPort 0 fun p => { p with sched := p.sched.set 1 { pending := true } }, by decide, by decide⟩

theorem portTimeActs_3_meets :
    ∃ (o : PortId), ∃ (k : Fin 2), ∃ (u : State), ∃ (s : State), s.ports[o].sched[k].pending = true ∧ s.ports[o].clock < s.ports[o].sched[k].changeAt ∧ s.portReach o s.ports[o].sched[k].changeAt = some u :=
  ⟨0, 1, _, up.updPort 0 fun p => { p with sched := p.sched.set 1 { pending := true, changeAt := 1 } }, by decide, by decide, rfl⟩

theorem portTimeActs_6_meets :
    ∃ (o : PortId), ∃ (k : Fin 2), ∃ (v : _), ∃ (n : _), ∃ (s : State), s.gateCtlBad o k v = some n :=
  ⟨0, 0, 0x80000000, _, up, rfl⟩

theorem portTimeActs_7_meets :
    ∃ (o : PortId), ∃ (k : Fin 2), ∃ (v : _), ∃ (s : State), s.gateCtlBad o k v = none :=
  ⟨0, 1, 0, up, by decide⟩

theorem portTimeActs_8_meets :
    ∃ (o : PortId), ∃ (s : State), s.regFld (portPtpCtl o.val) 1 0 = 0 :=
  ⟨7, up, by decide⟩

theorem portTimeActs_9_meets :
    ∃ (o : PortId), ∃ (s : State), s.regFld (portPtpCtl o.val) 1 0 ≠ 0 :=
  ⟨0, up.setReg (portPtpCtl 0) 1, by decide⟩

theorem portTimeActs_10_meets :
    ∃ (o : PortId), ∃ (v : Word), ∃ (s : State), s.regFld (portPtpCtl o.val) 1 0 = 0 ∧ -freqMax ≤ v.toInt ∧ v.toInt ≤ freqMax :=
  ⟨0, 65536000, up, by decide, by decide, by decide⟩

theorem portTimeActs_11_meets :
    ∃ (o : PortId), ∃ (m : PtpIn), ∃ (r : List PtpIn), ∃ (s : State), s.ptpMode o ≠ 0 ∧ s.portOn o = true ∧ s.ports[o].ptpIn = m :: r :=
  ⟨0, _, _, (up.setReg (portPtpCtl 0) 1).updPort 0 fun p => { p with ptpIn := [⟨0, 0, [], [2] ++ List.replicate 43 0⟩] }, by decide, by decide, rfl⟩

theorem portTimeActs_12_meets :
    ∃ (m : PtpIn), rdLE m.bytes 4 1 = 0 ∧ 44 ≤ m.bytes.length ∧ ptpType m.bytes = 2 :=
  ⟨⟨0, 0, [], [2] ++ List.replicate 43 0⟩, by decide, by decide, by decide⟩

theorem portTimeActs_13_meets :
    ∃ (o : PortId), ∃ (s : State), s.ptpMode o ≠ 0 ∧ s.portOn o = true ∧ s.ports[o].ptp.role ≠ .master :=
  ⟨0, up.setReg (portPtpCtl 0) 1, by decide, by decide, by decide⟩

theorem portTimeActs_14_meets
    (v : List Byte) (h0 : recField 0x25 0 v = 0) (h4 : recField 0x25 4 v = 1) : ∃ (o : PortId) (n : Nat) (u s : State), n = s.ptpField o.val 4 * 1000000000 * nsUnits ∧ s.cmpUse o.val 2 = 3 ∧ n ≠ 0 ∧ s.portReach o ((s.ports[o].clock / n + 1) * n) = some u := by
  have e (i : Nat) : (ppsState v).ptpField 0 i = recField 0x25 i v := by
    simp [State.ptpField, State.cfgRecs, ppsState, State.updPort, h0]
  refine ⟨0, 65536000000000, _, ppsState v, ?_, ?_, by decide, if_pos ⟨?_, ?_⟩⟩
  · show _ = (ppsState v).ptpField 0 4 * _ * _; rw [e, h4]; decide
  · show (ppsState v).cmpUse 0 2 = 3; have a : (ppsState v).schedOn 0 0 = false := (by decide +kernel : up.schedOn 0 0 = false); have b : (ppsState v).schedOn 0 1 = false := (by decide +kernel : up.schedOn 0 1 = false); simp [State.cmpUse, a, b, e, h4]
  · show (65535999999999 : Nat) ≤ (65535999999999 / 65536000000000 + 1) * 65536000000000; decide
  · show (65535999999999 / 65536000000000 + 1) * 65536000000000 ≤ (65535999999999 : Nat) + 65536000000; decide

theorem portTimeActs_15_meets :
    ∃ (o : PortId), ∃ (s : State), (s.cmpUse o.val 2 ≠ 3 ∨ s.ptpField o.val 4 = 0) :=
  ⟨0, up, by decide⟩

theorem roceActs_0_meets :
    ∃ (o : PortId), ∃ (q : SubId), ∃ (k : _), ∃ (u : State), ∃ (v : State), ∃ (s : State), s.portOn o = true ∧ s.takeRoce o (fun x => x.asks q) = some (u, k) ∧ u.qpServes o k = true ∧ v = u.cnpFor o k.qp k.ce :=
  ⟨0, 0, _, _, _, withQp (roceWaits 0x0A 0 (List.replicate 16 0) up), by decide, rfl, by decide, rfl⟩

theorem roceActs_2_meets :
    ∃ (o : PortId), ∃ (n : _), ∃ (q : SubId), ∃ (k : _), ∃ (u : State), ∃ (s : State), s.portOn o = true ∧ s.takeRoce o (fun x => x.answers n q) = some (u, k) ∧ u.qpServes o k = true :=
  ⟨0, 0, 0, _, _, withQp (roceWaits 0x11 0 [0, 0, 0, 0] up), by decide, rfl, by decide⟩

theorem roceActs_4_meets :
    ∃ (o : PortId), ∃ (n : _), ∃ (k : _), ∃ (u : State), ∃ (s : State), s.portOn o = true ∧ s.takeRoce o (fun x => decide (x.op = opCnp ∧ x.qp = n)) = some (u, k) ∧ u.qpServes o k = true ∧ cnpDue (u.qp o k.qp).cutAt (u.nowNs o) = true :=
  ⟨0, 0, _, _, withQp (roceWaits 0x81 0 (List.replicate 16 0) up), by decide, rfl, by decide, by decide⟩

theorem roceActs_5_meets :
    ∃ (o : PortId), ∃ (n : Fin 1024), ∃ (s : State), s.portOn o = true ∧ (s.qp o n.val).rts = true ∧ (s.qp o n.val).oldest.isSome = true :=
  ⟨0, 0, (withQp up).updQp 0 0 fun q => { q with wqes := [{ op := 0, owner := .op 1, loc := 0, va := 0, rkey := 0, len := 4, psn := 0, pkts := 1, data := [1, 2, 3, 4], sent := true }] }, by decide, by decide, by decide⟩

theorem roceActs_6_meets :
    ∃ (o : PortId), ∃ (n : Fin 1024), ∃ (s : State), s.portOn o = true ∧ (s.qp o n.val).rts = true :=
  ⟨0, 0, withQp up, by decide, by decide⟩

theorem roceActs_8_meets :
    ∃ (o : PortId), ∃ (v : _), ∃ (b : _), ∃ (u : State), ∃ (s : State), b = ofWords ((List.range 16).map fun w => s.reg (portQpxData o.val w)) ∧ u = s.setReg (portQpxSel o.val) (qpxSel v) :=
  ⟨0, 0, _, _, up, rfl, rfl⟩

theorem serviceRegistersAct_0_meets :
    ∃ (s : State), s.mc.on = true ∧ s.mc.attBusy = false ∧ s.mc.identityKey = true :=
  ⟨{ up with mc := { up.mc with identityKey := true } }, by decide, by decide, by decide⟩

theorem serviceRegistersAct_1_meets :
    ∃ (s : State), s.mc.on = true ∧ s.mc.attBusy = false ∧ s.mc.identityKey = false :=
  ⟨up, by decide, by decide, by decide⟩

theorem serviceRegistersAct_2_meets :
    ∃ (s : State), s.mc.attBusy = true :=
  ⟨{ up with mc := { up.mc with attBusy := true } }, by decide⟩

theorem serviceRegistersAct_3_meets :
    ∃ (v : _), fld v 23 0 < logEntries :=
  ⟨520191, by decide⟩

theorem stepsKeepCanonicalForms_0_meets :
    ∃ (s : State), ∃ (t : State), s.Canonical ∧ step s = .next t :=
  ⟨State.reset, _, ⟨by decide, by decide, by decide, by decide, by decide⟩, rfl⟩

theorem securityCountersNeverDecrease_0_meets :
    ∃ (i : Instr), ∃ (s : State), ∃ (t : State), s.counters.length = 8 ∧ exec i s = .next t :=
  ⟨.sealOpen, up, _, by decide, rfl⟩

theorem unpoweredDeviceStaysOff_0_meets :
    ∃ (s : State), ∃ (t : State), s.Dark ∧ (∀ env, s.pending.head? ≠ some (.powerOnStart env)) ∧ step s = .next t :=
  ⟨State.reset, _, ⟨by decide, by decide, by decide, by decide, by decide, by decide, by decide, by decide, by decide, by decide, by decide⟩, fun env => nofun, rfl⟩

/-! ### What commands answer -/

/-- Whether a command answers a next state with a property. -/
def after (i : Instr) (s : State) (f : State → Bool) : Bool := match exec i s with | .next t => f t | _ => false

/-- Commands in a row, the last with a property. -/
def afterBoth (i k : Instr) (s : State) (f : State → Bool) : Bool := after i s fun t => after k t f

/-- R371: a power-on start without a reconstructed root fails stage 2 and goes no further. -/
theorem test_start_needs_root : after (.powerOnStart ⟨false, true, false, none⟩) State.reset (fun t => t.mc.on && !t.mc.complete && decide (t.mc.failStage ≠ 0)) = true := by
  decide +kernel

/-- Readings of a loop period in which nothing happens (R27, R405). -/
def quietLoop : LoopReadings :=
  { rails := List.replicate 7 none, hubRail := (0, 0), coreCurrents := List.replicate 8 0, temps := []
    capacity := List.replicate 8 (List.replicate 4 0), achieved := List.replicate 8 (List.replicate 4 0), pg := 0x3F, pmbAlert := false
    capBinds := List.replicate 8 false, marginsOk := List.replicate 8 false, memory := quietEnv, usbLow := 0, fec := [] }

/-- R27, R406: a loop period is 1 ms of the MC counter. -/
theorem test_tick_is_1ms : after (.mcLoopTick quietLoop) up (fun t => decide (t.mc.time = 1000000)) = true := by
  decide +kernel

/-- R391: presence is armed for 60 s. -/
theorem test_presence_60s : after .presenceAssert up (fun t => decide (t.mc.armedUntil = some 60000000000)) = true := by decide

/-- R402, R403: a fenced core is out of service. -/
theorem test_fence_takes_core : after (.coreFenceForce 7) up (fun t => !t.cores[7].inService && t.cores[6].inService) = true := by decide +kernel

/-- R209: a signal of 15 wraps a counter modulo 2^32. -/
theorem test_signal_wraps :
    after (.counterSignalRemote 0 0) (((busy []).updPart 0 fun p => { p with flying := [(0, 255, 15)] }).updLCtx ⟨0, false⟩ fun h => h.setCounter 255 0xFFFFFFFE)
      (fun t => decide (t.cores[0].first.counter 255 = 13 ∧ t.parts[0].flying = [])) = true := by decide +kernel

/-- R216: SYN ADD adds its operand to a counter. -/
theorem test_syn_add :
    after (.synAdd 0 0) ((busy [iss .syn [(0, 0x60000000), (4, 0x02000005), (5, 7)]]).updLCtx ⟨0, false⟩ fun h => h.setCounter 5 3)
      (fun t => decide (t.cores[0].first.counter 5 = 10)) = true := by decide +kernel

/-- R196: FILL writes its 32-bit pattern. -/
theorem test_fill_writes_pattern :
    after (.movFill 0 0 quietEnv) (busy [iss .mov [(0, 0x40000000), (4, 0x20000000), (7, 0x2000), (11, 4), (12, 0x04030201)]])
      (fun t => decide (t.rdBytes 0x2000 5 = [1, 2, 3, 4, 0])) = true := by decide +kernel

/-- R196: COPY carries bytes from source to destination. -/
theorem test_copy_carries :
    after (.movCopy 0 0 quietEnv) { busy [iss .mov [(0, 0x40000000), (5, 0x1000), (7, 0x2000), (11, 2)]] with mem := [⟨0x1000, 7⟩, ⟨0x1001, 9⟩, ⟨0x1002, 5⟩] }
      (fun t => decide (t.rdBytes 0x2000 3 = [7, 9, 0])) = true := by decide +kernel

/-- R148: ZERO leaves +0 in the tile and the slot FILLING until the fill ends. -/
theorem test_gb_zero_fills : afterBoth (.gbZero 0 0 quietEnv) (.slotFilled 0 0) (gbWith .empty [gbOp 0x8])
    (fun t => decide ((t.cores[0].first.slots.getD 0 {}).state = .live ∧ (t.cores[0].first.slots.getD 1 {}).state = .empty)) = true := by decide +kernel

/-- R48, R144: an addition of 1 to an element at 0 leaves the WG64 value 1. -/
theorem test_gb_addition : after (.gbAddition 0 0) (gbWith .live [owing])
    (fun t => decide ((fFP32.encode .nearest (wgDecode (leNat (t.rdBytes (gbBase 0) 8)))).1 = 0x3F800000)) = true := by decide +kernel

/-- R157: a decision without overflow lets the step proceed. -/
theorem test_decision_proceeds : after (.decisionSequence 0 quietEnv) (due {}) (fun t => decide (((t.job 0).map fun j => j.step.decision) = some .proceed)) = true := by
  decide +kernel

/-- R157: an overflow skips the step, which is counted and commits without an update. -/
theorem test_overflow_skips : after (.decisionSequence 0 quietEnv) (due { overflow := true })
    (fun t => decide (((t.job 0).map fun j => (j.num.skips, j.step.commit)) = some (1, 1))) = true := by decide +kernel

/-- R225: the lowest free core takes over a logical core. -/
theorem test_remap_takes_spare : after (.coreRemap 0) ((withJob { job0 with kind := .train }).updCore 0 fun k => { k with inService := false })
    (fun t => decide (((t.job 0).map Job.serves) = some [some ⟨1, false⟩])) = true := by decide +kernel

/-- R244: a WRITE frame lands its byte and its sequence number. -/
theorem test_frame_lands : after (.frameWrite 0 frame1) (windowed {})
    (fun t => decide (t.rd 0x100000000 = 7 ∧ t.parts[0].iface.landed = 1)) = true := by decide +kernel

/-- R245: a frame with a reserved field set opens WINDOW_FAULT. -/
theorem test_frame_faults : after (.frameWrite 0 (frameOf 1 0 1 1 [7])) (windowed {}) (fun t => t.parts[0].iface.fault) = true := by decide +kernel

/-- R255: JOB_LOAD places the job and writes STARTED. -/
theorem test_job_loads :
    after (.jobLoad 0) (((runImage.putBytes (runImage.hctx 0 + 0x10000) (leBytes 4 0x10000000)).putBytes (runImage.hctx 0 + 0x10010) (leBytes 6 0x100000000)).updIface 0
      fun i => { i with hdr := { i.hdr with cmdTail := 1 } })
      (fun t => decide (((t.job 0).map Job.lcores) = some 1 ∧ t.handles.length = 1 ∧ t.parts[0].iface.hdr.cmdHead = 1)) = true := by decide +kernel

/-- R267: a request about a handle that does not exist stalls. -/
theorem test_unknown_handle_stalls : after (.opStatus (toDev 0x20 true 7 16 [])) up (fun t => t.usb.stalled) = true := by decide +kernel

/-- R239: a register read of four bytes answers four bytes. -/
theorem test_register_read : after (.regRead (toDev 0x01 true 0 4 [])) up (fun t => decide (t.usb.data.length = 4)) = true := by decide +kernel

/-- R276: a link that comes up shows in PORT_STAT. -/
theorem test_link_up : after (.portLinkUp 0 0) (port0 0) (fun t => t.linkUp 0 0) = true := by decide +kernel

/-- R278: a frame below 64 bytes is not taken. -/
theorem test_runt_not_taken : after (.frameReceive 0 0 { eth0 with bytes := ethBody 63 ++ checkBytes (ethBody 63) }) (port0 1) (fun t => decide (t.ports[0].otIn = [])) = true := by decide +kernel

/-- R351: the first READY of an attempt is recorded. -/
theorem test_ready_counts : after (.ready 0 1) (ctl lead0 0x21 (about 1 0 0 0)) (fun t => decide (((t.job 0).map fun j => j.cmt.readies.length) = some 1)) = true := by
  decide +kernel

/-! ### Numbers -/

/-- R30: E2M1 holds 0, 0.5, 1, 1.5, 2, 3, 4, 6. -/
theorem test_e2m1_values : ((List.range 8).map fun k => (fFP32.encode .nearest (fE2M1.decode k)).1) =
    [0, 0x3F000000, 0x3F800000, 0x3FC00000, 0x40000000, 0x40400000, 0x40800000, 0x40C00000] := by decide

/-- BF16 1.0 is 0x3F80; 2^-133 is its smallest subnormal (R30). -/
theorem test_bf16_one : (fBF16.encode .nearest (.fin false 1 0)).1 = 0x3F80 ∧ (fBF16.encode .nearest (.fin false 1 (-133))).1 = 1 := by decide

/-- Ties go to even (R33): 2.5 is 2, 5 is 4 in E2M1. -/
theorem test_ties_to_even : (fE2M1.encode .nearest (.fin false 5 (-1))).1 = 4 ∧ (fE2M1.encode .nearest (.fin false 5 0)).1 = 6 := by decide

/-- WG64 (R48): 1 + 1 is 2. -/
theorem test_wg_adds : (fFP32.encode .nearest (wgDecode (wgAdd (wgAdd 0 (.fin false 1 0)) (.fin false 1 0)))).1 = 0x40000000 := by decide

/-- Philox4x32-10 with counter and key 0 begins 6627e8d5 (the publication's first vector). -/
theorem test_philox_zero : (philoxRounds 10 0 0 (0, 0, 0, 0)).1 = 0x6627e8d5 := by decide +kernel

/-- R30's example: the E4M3 byte 0x5B is 22, the E2M1 nibble 0b1101 is -3. -/
theorem test_element_values : toF32 (fE4M3.decode 0x5B) = 0x41B00000 ∧ toF32 (fE2M1.decode 13) = 0xC0400000 := by decide

/-- R32's and R36's examples: a block of E4M3 whose largest value is 100 has scale 0x7D, stores 100 as 0x7C and has summary 0x87. -/
theorem test_mx_block :
    mxEncode fE4M3 [(.fin false 100 0, .nearest), (.zero, .nearest)] = ⟨0x7D, [0x7C, 0], 0, 0⟩ ∧
      summaryOf false [fE4M3.decode 0x7C, fE4M3.decode 0] = 0x87 := by decide

/-- R33: 450 rounds to 448, the largest E4M3 value, and is no saturation; 470 rounds beyond it and is one. -/
theorem test_saturation_by_rounded_value :
    fE4M3.encode .nearest (.fin false 450 0) = (0x7E, .ok) ∧ fE4M3.encode .nearest (.fin false 470 0) = (0x7E, .saturated) := by decide

/-- R47: 1.0 is 0x7F40_0000_0000_0000 and -1.0 is 0x7FC0_0000_0000_0000. -/
theorem test_wg64_ones : wgEncode (.fin false 1 0) = 0x7F40000000000000 ∧ wgEncode (.fin true 1 0) = 0x7FC0000000000000 := by decide

/-- R51's example: a GW24 node adds two blocks, rounding once at the exponent that holds every element. -/
theorem test_gw24_node_adds :
    let z := List.replicate 28 (0 : Int)
    gwAdd false ⟨130, [6000000, 3, 1, -5] ++ z⟩ ⟨129, [5000001, 0, 1, 0] ++ z⟩ = (⟨131, [4250000, 2, 1, -2] ++ z⟩, false) := by decide +kernel

/-- R55's example: the inputs of the generator for element 1,000,005, and its output word x1. -/
theorem test_philox_inputs :
    philox ⟨0x0123456789ABCDEF, 0x42, 1001, 2, 0⟩ 1000005 =
      (philoxRounds 10 0x89ABCDEF 0x01234567 (0x3D091, 0x42, 0x3E9, 0x02000000)).2.1 := by decide +kernel

/-! ### Wires -/

/-- The check value of the CRC-32 of IEEE 802.3, over the digits 1 to 9. -/
theorem test_crc32_check : crc32 ([49, 50, 51, 52, 53, 54, 55, 56, 57].map (BitVec.ofNat 8)) = 0xCBF43926 := by decide +kernel

/-- R310 and the example under R289: a full OT frame with a C-tag over IPv4 takes 9,170 bytes on the wire. -/
theorem test_full_ot_frame :
    (up.setReg (portTag 0 0) 0x80000000).wireLen 0 { sub := 0, cls := 0, src := .ot 0 0 0, mac := [1, 2, 3, 4, 5, 6], body := .ot (mapped [10, 0, 0, 1]) (mapped [10, 0, 0, 2]) (List.replicate 9120 0) } = 9170 := by
  decide +kernel

/-! ### Boundaries -/

/-- The distance of a PSN from the one expected, where the clauses about it meet (R299). -/
theorem test_psn_distances :
    [psnDist 0 0, psnDist 0 1, psnDist 0 (2 ^ 23 - 1), psnDist 0 (2 ^ 23), psnDist 5 4] = [0, 1, 2 ^ 23 - 1, 2 ^ 23, 2 ^ 24 - 1] := by decide

/-- A packet of each of these distances waits at a port whose queue pair takes it. -/
theorem psn_cases_meet : ∀ n ∈ [0, 1, 2 ^ 23 - 1, 2 ^ 23, 2 ^ 24 - 1], ∀ op ∈ [0x0A, 0x0C], ∃ (k : RocePkt) (u : State),
    (withQp (roceWaits op n (List.replicate 16 0) up)).takeRoce 0 (fun x => x.asks 0) = some (u, k) ∧ u.qpServes 0 k = true ∧
      psnDist (u.qp 0 k.qp).expect k.psn = n ∧ k.op = op := by
  intro n hn op ho
  fin_cases hn <;> fin_cases ho <;> exact ⟨_, _, rfl, by decide +kernel, by decide +kernel, by decide +kernel⟩

/-- The frame lengths at which the clauses about a received frame meet (R278), with a check sequence that is right and one that is not. -/
theorem frame_lengths_meet :
    (∀ n ∈ [63, 64, 9216, 9217], (parseFrame true (ethBody (n - 4 + 4) ++ checkBytes [])).wireLen = n) ∧
      (parseFrame true eth0.bytes).fcsOk = true ∧ (parseFrame false eth0.bytes).fcsOk = false ∧
      (parseFrame true (ethBody 64 ++ [0, 0, 0, 0])).fcsOk = false := by
  decide +kernel

/-! ### Terms that are not well formed -/

/-- A term that each check of Sys2Proof/WellFormed.lean refuses: a cell that is none, a slot of the header store that is none, data
where none may be, a field too wide, a header cut short, a lane too few, a family too few, a code too few, a voltage too few,
a frame read as a write. -/
theorem test_ill_formed :
    [MemEnv.wf { quietEnv with ce := [0x10000000000] }, MemEnv.wf { quietEnv with headUe := [(0, 64)] },
      Setup.wf { asks with data := [0] }, Setup.wf { asks with bRequest := 256 }, Setup.wf { asks with dirIn := false },
      Frame.wf { frame1 with header := [] }, Frame.wf { frame1 with data := [] },
      LoopReadings.wf { quietLoop with rails := [] }, LoopReadings.wf { quietLoop with capacity := [] },
      CoreSurvey.wf ⟨0, [], []⟩, CoreSurvey.wf ⟨0, List.replicate 8 0, [8]⟩,
      Plan.wf ⟨List.replicate 7 (List.replicate 64 15), List.replicate 71 15⟩, Plan.wf ⟨List.replicate 8 (List.replicate 63 15), List.replicate 71 15⟩,
      Plan.wf ⟨List.replicate 8 (List.replicate 64 15), List.replicate 70 15⟩,
      EthFrame.wf { eth0 with wait := 65536000000001 },
      (Instr.frameWrite 0 (frameOf 2 0 1 0 [])).wf, (Instr.frameRead 0 frame1 quietEnv).wf].all (fun b => !b) = true := by decide +kernel

/-- And the terms of these tests, which they let pass. -/
theorem test_well_formed :
    [quietEnv.wf, asks.wf, frame1.wf, quietLoop.wf, CoreSurvey.wf ⟨0, List.replicate 8 12, [7]⟩, Plan.wf ⟨List.replicate 8 (List.replicate 64 15), List.replicate 71 15⟩, eth0.wf,
      (Instr.frameWrite 0 frame1).wf, (Instr.frameRead 0 (frameOf 2 0 1 0 []) quietEnv).wf].all id = true := by decide +kernel

/-- The machine after reset holds no command, and idles. -/
theorem test_idle : step State.reset = .next State.reset := rfl

/-- No word spells a command: the table gives no bits. -/
theorem test_no_words (n w : Nat) : decodeTableWord n w = none := rfl

end Sys2Proof.Tests
end

namespace Sys2Proof.Machine

/-! ### Waits on counters (R208) -/

theorem waitMet_iff_sub_lt (v t : Word) : waitMet v t = true ↔ (v - t).toNat < 2 ^ 31 :=
  decide_eq_true_iff

/-- R208 in natural numbers: the distance from the target to the value, modulo 2^32. -/
theorem waitMet_iff_mod_lt (v t : Word) :
    waitMet v t = true ↔ (v.toNat + 2 ^ 32 - t.toNat) % 2 ^ 32 < 2 ^ 31 := by
  have hdist : (v - t).toNat = (v.toNat + 2 ^ 32 - t.toNat) % 2 ^ 32 := by
    rw [BitVec.toNat_sub]
    congr 1
    omega
  rw [waitMet_iff_sub_lt, hdist]

@[simp] theorem waitMet_self (t : Word) : waitMet t t = true := by
  simp [waitMet_iff_sub_lt]

/-- While the value stays less than 2^31 ahead of the target, the distance grows by exactly what is added, across the wrap. -/
theorem waitMet_add_of_lt (v t k : Word) (h : (v - t).toNat + k.toNat < 2 ^ 31) : waitMet (v + k) t = true := by
  have hsub : v + k - t = (v - t) + k := add_sub_right_comm v k t
  have hnowrap : (v - t).toNat + k.toNat < 2 ^ 32 := by omega
  rw [waitMet_iff_sub_lt, hsub, BitVec.toNat_add_of_lt hnowrap]
  exact h

/-- `unmet` looks at the two waits in turn, so it answers nothing only after both have passed. -/
theorem unmet_eq_none_iff (l : LCtx) (d : List Word) :
    unmet l d = none ↔
      (dbit d 0 0 = true → waitMet (l.counter (dfld d 4 31 24)) (wordAt d 2) = true) ∧
      (dbit d 0 1 = true → waitMet (l.counter (dfld d 4 23 16)) (wordAt d 3) = true) := by
  unfold unmet
  split
  case isTrue hfirst =>
    obtain ⟨henabled, hwaits⟩ := Bool.and_eq_true_iff.mp hfirst
    simp [henabled, (Bool.not_eq_true' _).mp hwaits]
  case isFalse hfirst =>
    have hmet0 : dbit d 0 0 = true → waitMet (l.counter (dfld d 4 31 24)) (wordAt d 2) = true := by simpa using hfirst
    split
    case isTrue hsecond =>
      obtain ⟨henabled, hwaits⟩ := Bool.and_eq_true_iff.mp hsecond
      simp [henabled, (Bool.not_eq_true' _).mp hwaits]
    case isFalse hsecond =>
      have hmet1 : dbit d 0 1 = true → waitMet (l.counter (dfld d 4 23 16)) (wordAt d 3) = true := by simpa using hsecond
      exact iff_of_true rfl ⟨hmet0, hmet1⟩

/-- Settles O13: the distance of a value from its target, and the two waits of a descriptor one by one. -/
theorem waitsHoldDescriptors : Obligations.WaitsHoldDescriptors :=
  ⟨waitMet_iff_mod_lt, waitMet_self, fun v t k _ hlt => waitMet_add_of_lt v t k hlt, unmet_eq_none_iff⟩

end Sys2Proof.Machine


namespace Sys2Proof.Machine

/-! ### Fields of a register (R7) -/

theorem getLsbD_putFld (w : Word) (hi lo v i : Nat) (hi32 : i < 32) :
    (putFld w hi lo v).getLsbD i = if lo ≤ i ∧ i ≤ hi then v.testBit (i - lo) else w.getLsbD i := by
  simp only [putFld, BitVec.getLsbD_or, BitVec.getLsbD_and, BitVec.getLsbD_not, BitVec.getLsbD_ofNat, Nat.testBit_shiftLeft,
    Nat.testBit_two_pow_sub_one, hi32, decide_true, Bool.true_and]
  split
  case isTrue hin =>
    have hmask : i - lo < hi + 1 - lo := by omega
    simp [hin, hmask]
  case isFalse hout =>
    by_cases hlo : lo ≤ i
    · have hmask : ¬ i - lo < hi + 1 - lo := by omega
      simp [hmask]
    · simp [hlo]

theorem testBit_fld (w : Word) (hi lo i : Nat) :
    (fld w hi lo).testBit i = (decide (i < hi + 1 - lo) && w.getLsbD (lo + i)) := by
  simp [fld, nbits, Nat.testBit_mod_two_pow, Nat.testBit_shiftRight, BitVec.getLsbD]

theorem fld_putFld_same (w : Word) {hi lo : Nat} (v : Nat) (h : hi < 32) :
    fld (putFld w hi lo v) hi lo = v % 2 ^ (hi + 1 - lo) := by
  refine Nat.eq_of_testBit_eq fun i => ?_
  rw [testBit_fld, Nat.testBit_mod_two_pow]
  by_cases hi' : i < hi + 1 - lo
  · rw [getLsbD_putFld w hi lo v (lo + i) (by omega), if_pos (by omega), Nat.add_sub_cancel_left]
  · simp [hi']

/-- A field keeps its value when a field beside it is written. -/
theorem fld_putFld_disjoint (w : Word) {hi lo hi' lo' : Nat} (v : Nat) (h : hi < 32) (hd : hi < lo' ∨ hi' < lo) :
    fld (putFld w hi' lo' v) hi lo = fld w hi lo := by
  refine Nat.eq_of_testBit_eq fun i => ?_
  rw [testBit_fld, testBit_fld]
  by_cases hi' : i < hi + 1 - lo
  · rw [getLsbD_putFld _ _ _ v (lo + i) (by omega), if_neg (by omega)]
  · simp [hi']

theorem regFld_setFld_same (s : State) (o : Nat) {hi lo : Nat} (v : Nat) (h : hi < 32) :
    (s.setFld o hi lo v).regFld o hi lo = v % 2 ^ (hi + 1 - lo) := by
  rw [State.regFld, reg_setFld_same, fld_putFld_same _ v h]

theorem regFld_setFld_disjoint (s : State) (o : Nat) {hi lo hi' lo' : Nat} (v : Nat) (h : hi < 32) (hd : hi < lo' ∨ hi' < lo) :
    (s.setFld o hi' lo' v).regFld o hi lo = s.regFld o hi lo := by
  rw [State.regFld, reg_setFld_same, fld_putFld_disjoint _ v h hd, State.regFld]

/-! ### Which registers are not a core's fence register -/

theorem ne_coreFence_of_lt {o : Nat} (h : o < 0x1000000) (c : CoreId) : o ≠ coreFence c.val := by
  unfold coreFence coreBase; omega

theorem ne_coreFence_of_ge {o : Nat} (h : 0x2000000 ≤ o) (c : CoreId) : o ≠ coreFence c.val := by
  unfold coreFence coreBase; omega

theorem coreBase_add_ne_coreFence (d : Nat) {k : Nat} (hk : k < 0x100000) (hne : k ≠ 0xA01C) (c : CoreId) :
    coreBase d + k ≠ coreFence c.val := by
  unfold coreFence coreBase; omega

theorem severity_le_four (code : Nat) : severity code ≤ 4 := by
  unfold severity
  split_ifs <;> decide

theorem mcEvtCnt_ne_coreFence {v : Nat} (h : v ≤ 5) (c : CoreId) : mcEvtCnt v ≠ coreFence c.val :=
  ne_coreFence_of_lt (by unfold mcEvtCnt mcBase; omega) c

theorem usbJobLost_ne_coreFence (p : Nat) (c : CoreId) : usbJobLost p ≠ coreFence c.val :=
  ne_coreFence_of_ge (by unfold usbJobLost usbBase; omega) c

theorem usbJobCplwait_ne_coreFence (p : Nat) (c : CoreId) : usbJobCplwait p ≠ coreFence c.val :=
  ne_coreFence_of_ge (by unfold usbJobCplwait usbBase; omega) c

theorem portOtCnt_ne_coreFence (t n : Nat) (c : CoreId) : portOtCnt t n ≠ coreFence c.val :=
  ne_coreFence_of_ge (by unfold portOtCnt portBase; omega) c

theorem errorPlace_idx_lt (a : Nat) : (errorPlace a).2.1 < 8 := by
  unfold errorPlace
  split
  case h_6 => decide
  all_goals exact Fin.isLt _

theorem ceCounter_ne_coreFence (level : Nat) {idx : Nat} (h : idx < 8) (c : CoreId) : ceCounter level idx ≠ coreFence c.val := by
  unfold ceCounter
  split_ifs
  · exact ne_coreFence_of_lt (by unfold hubHbmCe hubBase; omega) c
  · exact coreBase_add_ne_coreFence idx (by decide) (by decide) c
  · exact coreBase_add_ne_coreFence idx (by decide) (by decide) c

/-! ### A fence that holds (R402, R403)

What a fence makes of a core, and that nothing that follows a fence takes it back: the events it raises, the ABORT of the
step under way, the roster that may then apply, the end of a job, re-plans of cores that have become quiet. -/

/-- Core `c` is fenced with `cause`: out of service, with nothing issued, FENCED and the cause in its fence register, its rail off. -/
structure State.FenceHolds (s : State) (c : CoreId) (cause : Nat) : Prop where
  outOfService : s.cores[c].inService = false
  idle : s.cores[c].issued = []
  flagged : s.regFld (coreFence c.val) 31 31 = 1
  caused : s.regFld (coreFence c.val) 15 0 = cause
  railOff : s.mc.rails[c].on = false

namespace State.FenceHolds

variable {s t : State} {c : CoreId} {cause : Nat}

/-! #### The state's own updates -/

/-- What decides whether a fence holds. -/
theorem congrFields (h : s.FenceHolds c cause) (hcores : t.cores = s.cores) (hrails : t.mc.rails = s.mc.rails)
    (hflag : t.regFld (coreFence c.val) 31 31 = s.regFld (coreFence c.val) 31 31)
    (hcause : t.regFld (coreFence c.val) 15 0 = s.regFld (coreFence c.val) 15 0) : t.FenceHolds c cause where
  outOfService := hcores ▸ h.outOfService
  idle := hcores ▸ h.idle
  flagged := hflag.trans h.flagged
  caused := hcause.trans h.caused
  railOff := hrails ▸ h.railOff

theorem congr (h : s.FenceHolds c cause) (hcores : t.cores = s.cores) (hregs : t.regs = s.regs)
    (hrails : t.mc.rails = s.mc.rails) : t.FenceHolds c cause := by
  have hfld (hi lo : Nat) : t.regFld (coreFence c.val) hi lo = s.regFld (coreFence c.val) hi lo := by
    simp only [State.regFld, State.reg, hregs]
  exact h.congrFields hcores hrails (hfld 31 31) (hfld 15 0)

theorem setReg {o : Nat} {v : Word} (ho : o ≠ coreFence c.val) (h : s.FenceHolds c cause) : (s.setReg o v).FenceHolds c cause := by
  have hfld (hi lo : Nat) : (s.setReg o v).regFld (coreFence c.val) hi lo = s.regFld (coreFence c.val) hi lo := by
    simp only [State.regFld, reg_setReg_other s v ho.symm]
  exact h.congrFields (setReg_cores s o v) (by rw [setReg_mc]) (hfld 31 31) (hfld 15 0)

theorem setFld {o hi lo v : Nat} (ho : o ≠ coreFence c.val) (h : s.FenceHolds c cause) : (s.setFld o hi lo v).FenceHolds c cause :=
  h.setReg ho

theorem countFld {o hi lo k : Nat} (ho : o ≠ coreFence c.val) (h : s.FenceHolds c cause) :
    (s.countFld o hi lo k).FenceHolds c cause :=
  h.setFld ho

theorem count {o k : Nat} (ho : o ≠ coreFence c.val) (h : s.FenceHolds c cause) : (s.count o k).FenceHolds c cause :=
  h.countFld ho

/-- RETIRED stands between FENCED and the cause. -/
theorem setRetired {v : Nat} (h : s.FenceHolds c cause) : (s.setFld (coreFence c.val) 30 30 v).FenceHolds c cause :=
  h.congrFields (setFld_cores s _ 30 30 v) (by rw [setFld_mc]) (regFld_setFld_disjoint s _ v (by omega) (by omega))
    (regFld_setFld_disjoint s _ v (by omega) (by omega))

theorem updCore {d : CoreId} {f : CoreS → CoreS} (hin : ∀ k, (f k).inService = k.inService)
    (hissued : ∀ k, k.issued = [] → (f k).issued = []) (h : s.FenceHolds c cause) : (s.updCore d f).FenceHolds c cause := by
  have hcore : (s.updCore d f).cores[c] = if d = c then f s.cores[c] else s.cores[c] := by
    by_cases hd : d = c
    · subst hd; simp [State.updCore]
    · simp [State.updCore, hd, Fin.val_ne_of_ne hd]
  refine ⟨?_, ?_, h.flagged, h.caused, h.railOff⟩ <;> rw [hcore] <;> split
  · rw [hin]; exact h.outOfService
  · exact h.outOfService
  · exact hissued _ h.idle
  · exact h.idle

theorem mapCores {f : CoreS → CoreS} (hin : ∀ k, (f k).inService = k.inService)
    (hissued : ∀ k, k.issued = [] → (f k).issued = []) (h : s.FenceHolds c cause) : (s.mapCores f).FenceHolds c cause := by
  have hcore : (s.mapCores f).cores[c] = f s.cores[c] := by simp [State.mapCores]
  refine ⟨?_, ?_, h.flagged, h.caused, h.railOff⟩ <;> rw [hcore]
  · rw [hin]; exact h.outOfService
  · exact hissued _ h.idle

theorem updRail {d : CoreId} {f : CoreRail → CoreRail} (hon : ∀ r, (f r).on = r.on) (h : s.FenceHolds c cause) :
    (s.updRail d f).FenceHolds c cause := by
  have hrail : (s.updRail d f).mc.rails[c].on = s.mc.rails[c].on := by
    by_cases hd : d = c
    · subst hd; simp [State.updRail, hon]
    · simp [State.updRail, Fin.val_ne_of_ne hd]
  exact ⟨h.outOfService, h.idle, h.flagged, h.caused, hrail.trans h.railOff⟩

theorem ifThenElse {p : Prop} [Decidable p] (ht : t.FenceHolds c cause) (hs : s.FenceHolds c cause) :
    (if p then t else s).FenceHolds c cause := by
  split
  · exact ht
  · exact hs

theorem foldl {α : Type} {f : State → α → State} (hf : ∀ s a, s.FenceHolds c cause → (f s a).FenceHolds c cause) (l : List α)
    (h : s.FenceHolds c cause) : (l.foldl f s).FenceHolds c cause := by
  induction l generalizing s with
  | nil => exact h
  | cons a r ih => exact ih (hf s a h)

theorem updPart {p : PartId} {f : Part → Part} (h : s.FenceHolds c cause) : (s.updPart p f).FenceHolds c cause := h.congr rfl rfl rfl

theorem updJob {p : PartId} {f : Job → Job} (h : s.FenceHolds c cause) : (s.updJob p f).FenceHolds c cause := h.updPart

theorem updCluster {p : PartId} {f : Cluster → Cluster} (h : s.FenceHolds c cause) : (s.updCluster p f).FenceHolds c cause :=
  h.updJob

theorem updIface {p : PartId} {f : Iface → Iface} (h : s.FenceHolds c cause) : (s.updIface p f).FenceHolds c cause := h.updPart

theorem updHandle {n : Nat} {f : Handle → Handle} (h : s.FenceHolds c cause) : (s.updHandle n f).FenceHolds c cause :=
  h.congr rfl rfl rfl

theorem put {w : List (Nat × Byte)} (h : s.FenceHolds c cause) : (s.put w).FenceHolds c cause := h.congr rfl rfl rfl

theorem putBytes {a : Nat} {bs : List Byte} (h : s.FenceHolds c cause) : (s.putBytes a bs).FenceHolds c cause := h.put

theorem zeroRange {a n : Nat} (h : s.FenceHolds c cause) : (s.zeroRange a n).FenceHolds c cause := h.congr rfl rfl rfl

/-! #### Events (R421) -/

theorem updHdr {p : PartId} {f : RingHdr → RingHdr} (h : s.FenceHolds c cause) : (s.updHdr p f).FenceHolds c cause := by
  unfold State.updHdr
  dsimp only
  split
  · exact h.updIface.putBytes
  · exact h.updIface

theorem dropEvt {p : PartId} (h : s.FenceHolds c cause) : (s.dropEvt p).FenceHolds c cause := by
  have hcount : (s.countFld (usbJobLost p) 31 16 1).FenceHolds c cause := h.countFld (usbJobLost_ne_coreFence _ c)
  unfold State.dropEvt
  dsimp only
  split
  · exact hcount.updHdr
  · exact hcount

theorem eventRing {p : PartId} {rec : List Word} (h : s.FenceHolds c cause) : (s.eventRing p rec).FenceHolds c cause := by
  unfold State.eventRing
  split
  · exact h.dropEvt
  · dsimp only
    split
    · exact h.putBytes.updHdr
    · exact h.dropEvt

theorem mgmtQueue {rec : List Word} (h : s.FenceHolds c cause) : (s.mgmtQueue rec).FenceHolds c cause := by
  unfold State.mgmtQueue
  split
  · exact h.congr rfl rfl rfl
  · exact h.count (ne_coreFence_of_ge (by decide) c)

theorem logQueue {rec : List Word} (h : s.FenceHolds c cause) : (s.logQueue rec).FenceHolds c cause := by
  unfold State.logQueue
  split
  · exact h.congr rfl rfl rfl
  · exact h.countFld (ne_coreFence_of_lt (by decide) c)

theorem fixedLog (h : s.FenceHolds c cause) : s.fixedLog.FenceHolds c cause := by
  unfold State.fixedLog
  split
  · exact h
  · exact h.congr rfl rfl rfl

theorem deliver {part : Option PartId} {code : Nat} {rec : List Word} (h : s.FenceHolds c cause) :
    (s.deliver part code rec).FenceHolds c cause := by
  unfold State.deliver
  extract_lets counted queued ringed
  have hqueued : queued.FenceHolds c cause :=
    (h.count (mcEvtCnt_ne_coreFence (Nat.le_succ_of_le (severity_le_four code)) c)).mgmtQueue
  have hringed : ringed.FenceHolds c cause := by
    unfold ringed
    split
    · exact hqueued.eventRing
    · exact hqueued
  split
  · exact hringed.logQueue.setFld (ne_coreFence_of_lt (by decide) c)
  · exact hringed

theorem raise {src : Src} {part : Option PartId} {code : Nat} {ds : List Nat} (h : s.FenceHolds c cause) :
    (s.raise src part code ds).FenceHolds c cause := by
  unfold State.raise
  dsimp only
  split
  · exact count (mcEvtCnt_ne_coreFence (Nat.le_refl 5) c) (h.congr rfl rfl rfl)
  · exact deliver (h.congr rfl rfl rfl)

/-! #### Errors of memory, and accesses that wake it (R180, R188-R190) -/

theorem kneadFirst {d : CoreId} {u : Fin 3} {rs : List Nat} (h : s.FenceHolds c cause) : (s.kneadFirst d u rs).FenceHolds c cause :=
  h.updCore (fun _ => rfl) fun _ hk => hk

theorem correctedAt {level idx bank region : Nat} (hidx : idx < 8) (h : s.FenceHolds c cause) :
    (s.correctedAt level idx bank region).FenceHolds c cause := by
  have hcount : (s.count (ceCounter level idx) 1).FenceHolds c cause := h.count (ceCounter_ne_coreFence level hidx c)
  unfold State.correctedAt
  dsimp only
  split
  · split
    · exact kneadFirst (raise (hcount.congr rfl rfl rfl))
    · exact raise (hcount.congr rfl rfl rfl)
  · exact hcount.congr rfl rfl rfl

theorem corrected {a : Nat} (h : s.FenceHolds c cause) : (s.corrected a).FenceHolds c cause :=
  h.correctedAt (errorPlace_idx_lt a)

theorem meetUnits {f : Nat → Bool} (h : s.FenceHolds c cause) : (s.meetUnits f).FenceHolds c cause := by
  refine h.foldl (fun s u hs => ?_) _
  dsimp only
  split
  · exact hs.corrected.congr rfl rfl rfl
  · exact hs.corrected

theorem uncorrectable {part : Option PartId} {a : Nat} (h : s.FenceHolds c cause) : (s.uncorrectable part a).FenceHolds c cause := by
  have hidx := errorPlace_idx_lt a
  unfold State.uncorrectable
  generalize errorPlace a = place at hidx ⊢
  obtain ⟨level, idx, bank, region⟩ := place
  dsimp -zeta only at hidx ⊢
  have hub (o : Nat) (ho : o < 0x2000) : hubBase (idx / 2) + o + idx % 2 * 0x100 ≠ coreFence c.val :=
    ne_coreFence_of_lt (by unfold hubBase; omega) c
  have core (o : Nat) (ho : o < 0xA000) : coreBase idx + o ≠ coreFence c.val :=
    coreBase_add_ne_coreFence idx (by omega) (by omega) c
  extract_lets u raised counted located row hubMc mc listed marked addressed
  have hraised : raised.FenceHolds c cause := h.raise
  split
  · have hlocated : located.FenceHolds c cause :=
      ((hraised.count (hub 0x1008 (by decide))).setReg (hub 0x100C (by decide))).setReg (hub 0x1010 (by decide))
    split
    · exact hlocated
    · exact fixedLog (hlocated.congr rfl rfl rfl)
  · have hlisted : listed.FenceHolds c cause := hraised.congr rfl rfl rfl
    have hmarked : marked.FenceHolds c cause := (hlisted.setFld (core 0x6014 (by decide))).countFld (core 0x6014 (by decide))
    have haddressed : addressed.FenceHolds c cause :=
      (hmarked.setReg (core 0x6018 (by decide))).setReg (core 0x601C (by decide))
    split
    · exact haddressed.kneadFirst
    · exact haddressed

theorem touch {d : CoreId} (h : s.FenceHolds c cause) : (s.touch d).FenceHolds c cause := by
  have hwakes : coreMemWakes d.val ≠ coreFence c.val := coreBase_add_ne_coreFence d (by decide) (by decide) c
  have hwaking : (s.updCore d fun k => { k with ret := .waking }).FenceHolds c cause := h.updCore (fun _ => rfl) fun _ hk => hk
  unfold State.touch
  split
  · exact (hwaking.countFld hwakes).countFld hwakes
  · exact (hwaking.countFld hwakes).countFld hwakes
  · exact h.countFld hwakes
  · exact h

theorem touchAll {as : List Nat} (h : s.FenceHolds c cause) : (s.touchAll as).FenceHolds c cause :=
  h.foldl (fun _ _ hs => hs.touch) _

/-! #### Completion records (R249, R254, R259) -/

theorem writeCpl {p : PartId} {rec : List Byte} (h : s.FenceHolds c cause) : (s.writeCpl p rec).FenceHolds c cause := by
  unfold State.writeCpl
  exact ifThenElse h.meetUnits.putBytes.updHdr.updIface h.meetUnits.putBytes.updHdr

theorem reservedRecord {p : PartId} {rec : List Byte} (h : s.FenceHolds c cause) : (s.reservedRecord p rec).FenceHolds c cause := by
  unfold State.reservedRecord
  split
  · exact updIface (h.countFld (usbJobLost_ne_coreFence _ c))
  · split
    · exact h.writeCpl.updIface
    · exact updIface (h.count (usbJobCplwait_ne_coreFence _ c))

theorem opDone {n status event d0 : Nat} (h : s.FenceHolds c cause) : (s.opDone n status event d0).FenceHolds c cause := by
  unfold State.opDone
  split
  · exact h
  · split
    · exact h
    · split
      · exact h.updHandle.updIface.reservedRecord
      · exact ifThenElse h.updHandle.raise h.updHandle

/-! #### Re-plans, and the end of a job (R26, R219, R220) -/

theorem replan {d : CoreId} {plan : Plan} (h : s.FenceHolds c cause) : (s.replan d plan).FenceHolds c cause := by
  have hmargin : coreMargin d.val ≠ coreFence c.val := coreBase_add_ne_coreFence d (by decide) (by decide) c
  unfold State.replan
  extract_lets old planned counted logged
  have hcounted : counted.FenceHolds c cause := countFld hmargin (h.updRail fun _ => rfl)
  have hlogged : logged.FenceHolds c cause := ifThenElse hcounted.fixedLog hcounted
  exact ifThenElse hlogged hlogged.raise

theorem quiesceDone (h : s.FenceHolds c cause) : s.quiesceDone.FenceHolds c cause := by
  refine h.foldl (fun s d hs => ?_) _
  split
  · exact ifThenElse hs.replan hs
  · exact hs

theorem finishJob {p : PartId} (h : s.FenceHolds c cause) : (s.finishJob p).FenceHolds c cause := by
  unfold State.finishJob
  split
  · exact h
  · extract_lets rested left done
    have hrested : rested.FenceHolds c cause := by
      refine h.mapCores (fun k => ?_) (fun k hk => ?_)
      · split <;> rfl
      · split <;> exact hk
    have hdone : done.FenceHolds c cause := hrested.updPart.opDone
    split
    · exact ifThenElse hdone (hdone.congr rfl rfl rfl)
    · exact hdone

theorem settle {p : PartId} (h : s.FenceHolds c cause) : (s.settle p).FenceHolds c cause := by
  unfold State.settle
  extract_lets quiet
  have hquiet : quiet.FenceHolds c cause := h.quiesceDone
  split
  · exact hquiet
  · exact ifThenElse hquiet.finishJob hquiet

theorem mapStreams {p : PartId} {f : Stream → Stream} (h : s.FenceHolds c cause) : (s.mapStreams p f).FenceHolds c cause := by
  refine h.mapCores (fun k => ?_) (fun k hk => ?_)
  · split <;> rfl
  · split <;> exact hk

theorem stopStreams {p : PartId} (h : s.FenceHolds c cause) : (s.stopStreams p).FenceHolds c cause := h.mapStreams

theorem freeGheld {d : CoreId} (h : s.FenceHolds c cause) : (s.freeGheld d).FenceHolds c cause := by
  have hfresh : s.fresh.2.FenceHolds c cause := h.congr rfl rfl rfl
  exact ifThenElse (hfresh.count (coreBase_add_ne_coreFence d (by decide) (by decide) c)) hfresh

theorem cancelNet {p : PartId} (h : s.FenceHolds c cause) : (s.cancelNet p).FenceHolds c cause := by
  unfold State.cancelNet
  extract_lets mine asks held counted dropped
  have hheld : held.FenceHolds c cause := h.foldl (fun s d hs => hs.foldl (fun s _ hs => hs.freeGheld) _) _
  have hcounted : counted.FenceHolds c cause := by
    refine hheld.foldl (fun s d hs => ?_) _
    exact hs.count (coreBase_add_ne_coreFence d (k := 0x9004) (by decide) (by decide) c)
  have hdropped : dropped.FenceHolds c cause := hcounted.mapCores (fun _ => rfl) fun k hk => by rw [hk]; rfl
  exact hdropped.updCluster.quiesceDone

theorem endJob {p : PartId} {why : StopWhy} {status event : Nat} (h : s.FenceHolds c cause) :
    (s.endJob p why status event).FenceHolds c cause := by
  unfold State.endJob
  extract_lets stopped left
  have hleft : left.FenceHolds c cause := h.updJob.updCluster
  exact hleft.stopStreams.cancelNet.settle

theorem suspendJob {p : PartId} (h : s.FenceHolds c cause) : (s.suspendJob p).FenceHolds c cause := by
  unfold State.suspendJob
  split
  · exact h
  · exact h.updHandle.updJob

theorem pauseJob {p : PartId} (h : s.FenceHolds c cause) : (s.pauseJob p).FenceHolds c cause := h.updJob.updCluster

theorem clearSlots {j : Job} {l : Nat} (h : s.FenceHolds c cause) : (s.clearSlots j l).FenceHolds c cause := by
  unfold State.clearSlots
  split
  · exact h
  · extract_lets slots cleared
    have hcleared : cleared.FenceHolds c cause := h.foldl (fun s g hs => ifThenElse hs.zeroRange hs) _
    refine hcleared.updCore (fun k => ?_) (fun k hk => ?_) <;> unfold CoreS.updHalf <;> split
    · rfl
    · rfl
    · exact hk
    · exact hk

theorem changeStep {p : PartId} (h : s.FenceHolds c cause) : (s.changeStep p).FenceHolds c cause := by
  unfold State.changeStep
  split
  · exact h
  · exact mapCores (fun _ => rfl) (fun k hk => by rw [hk]; rfl) (h.foldl (fun _ _ hs => hs.clearSlots) _)

/-! #### Messages of a cluster (R310, R314, R351) -/

theorem updPort {n : PortId} {f : Port → Port} (h : s.FenceHolds c cause) : (s.updPort n f).FenceHolds c cause := h.congr rfl rfl rfl

theorem otSend {p : PartId} {cl : Cluster} {i vc : Nat} {bytes : List Byte} (h : s.FenceHolds c cause) :
    (s.otSend p cl i vc bytes).FenceHolds c cause := by
  unfold State.otSend
  split
  · exact h
  · exact h.updPort

theorem pumpGo {p : PartId} {i vc : Nat} (fs : List OtFrame) (h : s.FenceHolds c cause) :
    (State.pumpGo p i vc fs s).FenceHolds c cause := by
  induction fs generalizing s with
  | nil => exact h
  | cons f rest ih =>
    unfold State.pumpGo
    split
    · exact h
    · extract_lets r v sent sentS n counted
      split
      · exact h
      · split
        · exact ih h.otSend.updCluster
        · have hcounted : counted.FenceHolds c cause := by
            unfold counted
            split
            · exact h.count (portOtCnt_ne_coreFence _ _ c)
            · exact h
          exact hcounted.updCluster

theorem pump {p : PartId} {i vc : Nat} (h : s.FenceHolds c cause) : (s.pump p i vc).FenceHolds c cause := by
  unfold State.pump
  split
  · exact h
  · exact h.pumpGo _

theorem sendOn {p : PartId} {i vc : Nat} {bytes : List Byte} (h : s.FenceHolds c cause) : (s.sendOn p i vc bytes).FenceHolds c cause := by
  unfold State.sendOn
  split
  · exact h
  · exact h.updCluster.pump

theorem sendTo {p : PartId} {e vc : Nat} {bytes : List Byte} (h : s.FenceHolds c cause) : (s.sendTo p e vc bytes).FenceHolds c cause := by
  unfold State.sendTo
  split
  · exact h
  · split
    · exact h.updCluster
    · split
      · exact h.sendOn
      · exact h

theorem sendCtl {p : PartId} {e type : Nat} {body : List Byte} (h : s.FenceHolds c cause) :
    (s.sendCtl p e type body).FenceHolds c cause := by
  unfold State.sendCtl
  split
  · exact h.sendTo
  · exact h

theorem sendNet {p : PartId} {e vc kind status id a b d : Nat} {payload : List Byte} (h : s.FenceHolds c cause) :
    (s.sendNet p e vc kind status id a b d payload).FenceHolds c cause := by
  unfold State.sendNet
  split
  · exact h.sendTo
  · exact h

theorem sendAbortReq {p : PartId} {code entry : Nat} (h : s.FenceHolds c cause) : (s.sendAbortReq p code entry).FenceHolds c cause := by
  unfold State.sendAbortReq
  split
  · exact h.updJob.sendCtl
  · exact h

/-! #### Rosters, and the units they move (R358, R362) -/

theorem sendUnit {p : PartId} {ke : Nat × Nat} (h : s.FenceHolds c cause) : (s.sendUnit p ke).FenceHolds c cause := by
  unfold State.sendUnit
  split
  · split
    · extract_lets as
      split
      · exact h.uncorrectable.updJob
      · exact h.touchAll.meetUnits.sendNet.updCluster
    · exact h
  · exact h

theorem freeUnits {p : PartId} (h : s.FenceHolds c cause) : (s.freeUnits p).FenceHolds c cause := by
  unfold State.freeUnits
  split
  · exact ifThenElse h h.updCluster
  · exact h

theorem placeUnit {p : PartId} {m : InMsg} (h : s.FenceHolds c cause) : (s.placeUnit p m).FenceHolds c cause := by
  unfold State.placeUnit
  split
  · split
    · extract_lets k
      split
      · exact h.put.updCluster
      · exact h.updCluster
    · exact h
  · exact h

theorem retryXfers {p : PartId} (h : s.FenceHolds c cause) : (s.retryXfers p).FenceHolds c cause := by
  unfold State.retryXfers
  split
  · exact h.updCluster.foldl (fun _ _ hs => hs.placeUnit) _
  · exact h

theorem sendRebalanced {p : PartId} (h : s.FenceHolds c cause) : (s.sendRebalanced p).FenceHolds c cause := by
  unfold State.sendRebalanced
  split
  · exact h.raise.updJob.updCluster.sendCtl
  · exact h

theorem rebalanceEnd {p : PartId} (h : s.FenceHolds c cause) : (s.rebalanceEnd p).FenceHolds c cause := by
  unfold State.rebalanceEnd
  split
  · exact ifThenElse h.sendRebalanced h
  · exact h

theorem rebalanceBegin {p : PartId} (h : s.FenceHolds c cause) : (s.rebalanceBegin p).FenceHolds c cause := h.updJob.updCluster

theorem applyRoster {p : PartId} {r : RosterMsg} {first : Bool} (h : s.FenceHolds c cause) :
    (s.applyRoster p r first).FenceHolds c cause := by
  unfold State.applyRoster
  split
  case h_2 => exact h
  case h_1 =>
    extract_lets old joins added seated marked announced begun sent
    have hseated : seated.FenceHolds c cause := h.updCluster
    have hmarked : marked.FenceHolds c cause := ifThenElse hseated hseated.updJob
    have hannounced : announced.FenceHolds c cause := hmarked.foldl (fun _ _ hs => hs.raise) _
    split
    · exact ifThenElse hannounced hannounced.rebalanceBegin.rebalanceEnd
    · split
      · exact hannounced.updCluster
      · split
        · exact hannounced.updJob
        · have hbegun : begun.FenceHolds c cause := hannounced.rebalanceBegin.updCluster
          have hsent : sent.FenceHolds c cause := ifThenElse hbegun (hbegun.foldl (fun _ _ hs => hs.sendUnit) _)
          exact hsent.freeUnits.retryXfers.rebalanceEnd

/-! #### The ABORT that a fence reports (R23, R352, R353) -/

theorem dropEpoch {p : PartId} (h : s.FenceHolds c cause) : (s.dropEpoch p).FenceHolds c cause := h.updCluster

theorem reportOwed {p : PartId} (h : s.FenceHolds c cause) : (s.reportOwed p).FenceHolds c cause := by
  unfold State.reportOwed
  split
  · split
    · exact h.updCluster.sendCtl.pauseJob
    · split
      · exact h.updJob.sendAbortReq
      · exact h
  · exact h

theorem applyAbort {p : PartId} {a flags code entry epoch : Nat} (h : s.FenceHolds c cause) :
    (s.applyAbort p a flags code entry epoch).FenceHolds c cause := by
  unfold State.applyAbort
  split
  · exact h
  · extract_lets raised toPause marked changed renewed recounted held
    have hrenewed : renewed.FenceHolds c cause := h.raise.updJob.stopStreams.cancelNet.changeStep.dropEpoch.updCluster
    split
    · exact hrenewed.endJob
    · split
      · have hheld : held.FenceHolds c cause :=
          ifThenElse (ifThenElse hrenewed.updJob.pauseJob hrenewed.updJob.suspendJob) hrenewed.updJob
        exact hheld.applyRoster.reportOwed
      · exact ifThenElse (ifThenElse hrenewed.pauseJob hrenewed.suspendJob) hrenewed.updJob

theorem abortAlone {p : PartId} {code : Nat} (h : s.FenceHolds c cause) : (s.abortAlone p code).FenceHolds c cause := by
  unfold State.abortAlone
  split
  · exact h
  · exact applyAbort (ifThenElse h.raise h)

theorem reportAbort {p : PartId} {code : Nat} {entry : Option Nat} (h : s.FenceHolds c cause) :
    (s.reportAbort p code entry).FenceHolds c cause := by
  unfold State.reportAbort
  split
  · exact h
  · split
    · exact h
    · split
      · exact h.abortAlone
      · exact ifThenElse h.updJob (ifThenElse h h.sendAbortReq)

theorem haltStep {p : PartId} (h : s.FenceHolds c cause) : (s.haltStep p).FenceHolds c cause :=
  h.stopStreams.cancelNet.mapCores (fun _ => rfl) fun k hk => by rw [hk]; rfl

theorem jobFenced {p : PartId} (h : s.FenceHolds c cause) : (s.jobFenced p).FenceHolds c cause := by
  unfold State.jobFenced
  split
  · exact h
  · split
    · exact h.settle
    · split
      · exact ifThenElse h (ifThenElse h.reportAbort.haltStep h.reportAbort)
      · exact h.updJob.stopStreams.cancelNet

end State.FenceHolds

@[simp] theorem loseCore_cores (s : State) (c : CoreId) : (s.loseCore c).cores = s.cores := by
  rw [State.loseCore, zeroRange_cores, zeroRange_cores]

/-- Clearing a core's rates touches neither the cores nor the MC (R405). -/
theorem clearRates_keeps (base : Nat) (l : List Nat) (s : State) :
    (l.foldl (fun s n => s.setReg (base + 4 * n) 0) s).cores = s.cores ∧
      (l.foldl (fun s n => s.setReg (base + 4 * n) 0) s).mc = s.mc := by
  induction l generalizing s with
  | nil => exact ⟨rfl, rfl⟩
  | cons n r ih =>
    obtain ⟨hcores, hmc⟩ := ih (s.setReg (base + 4 * n) 0)
    exact ⟨hcores.trans (setReg_cores s _ 0), hmc.trans (setReg_mc s _ 0)⟩

/-- FENCED, BY_PROOF and the cause, written for a core that is out of service, idle and without its rail (R403). -/
theorem fenceHolds_of_writes (s : State) (c : CoreId) {cause : Nat} (byProof : Nat) (hcause : cause < 2 ^ 16)
    (hout : s.cores[c].inService = false) (hidle : s.cores[c].issued = []) (hoff : s.mc.rails[c].on = false) :
    (((s.setFld (coreFence c.val) 31 31 1).setFld (coreFence c.val) 29 29 byProof).setFld
      (coreFence c.val) 15 0 cause).FenceHolds c cause where
  outOfService := by rwa [setFld_cores, setFld_cores, setFld_cores]
  idle := by rwa [setFld_cores, setFld_cores, setFld_cores]
  flagged := by
    rw [regFld_setFld_disjoint _ _ _ (by omega) (by omega), regFld_setFld_disjoint _ _ _ (by omega) (by omega)]
    exact regFld_setFld_same s _ 1 (by omega)
  caused := (regFld_setFld_same _ _ cause (by omega)).trans (Nat.mod_eq_of_lt hcause)
  railOff := by rwa [setFld_mc, setFld_mc, setFld_mc]

/-- R402, R403: a core in service that is fenced is fenced with that cause, whatever the fence sets going. -/
theorem fenceHolds_fenceCore (s : State) (c : CoreId) {cause : Nat} (byProof : Bool) (hin : s.cores[c].inService = true)
    (hcause : cause < 2 ^ 16) : (s.fenceCore c cause byProof).FenceHolds c cause := by
  unfold State.fenceCore
  rw [if_neg (by simpa using hin)]
  extract_lets part id taken dropped lost hour off unrated flagged forced mc counted raised recent retired logged
  clear_value part
  have hout : taken.cores[c].inService = false := by simp [taken, State.updCore]
  have hidle : taken.cores[c].issued = [] := by simp [taken, State.updCore]
  have hoff : off.mc.rails[c].on = false := by simp [off, State.updRail]
  have hdropped : dropped.cores = taken.cores := by
    unfold dropped
    split
    · exact updJob_cores taken _ _
    · rfl
  obtain ⟨hrates, hmc⟩ := clearRates_keeps (coreRateArr c.val) (List.range 4) off
  have hcores : unrated.cores = taken.cores := by rw [hrates, updRail_cores, loseCore_cores, hdropped]
  have hforced : forced.FenceHolds c cause :=
    fenceHolds_of_writes unrated c (b2n byProof) hcause (by rwa [hcores]) (by rwa [hcores]) (by rwa [hmc])
  clear_value forced
  have hraised : raised.FenceHolds c cause := State.FenceHolds.raise (hforced.congr rfl rfl rfl)
  clear_value raised
  have hretired : retired.FenceHolds c cause := by
    refine .ifThenElse (.raise (.setRetired ?_)) hraised
    exact hraised.updRail fun _ => rfl
  split
  · exact hretired.fixedLog.jobFenced
  · exact hretired.fixedLog

/-! ### Margins that are exhausted (R411)

An event leaves the cores alone, so a core that is in service when it raises MARGIN_EXHAUSTED still is when it is fenced. -/

@[simp] theorem updHdr_cores (s : State) (p : PartId) (f : RingHdr → RingHdr) : (s.updHdr p f).cores = s.cores := by
  unfold State.updHdr
  extract_lets changed
  split
  · rw [putBytes_cores, updIface_cores]
  · rw [updIface_cores]

@[simp] theorem dropEvt_cores (s : State) (p : PartId) : (s.dropEvt p).cores = s.cores := by
  unfold State.dropEvt
  extract_lets counted
  split
  · rw [updHdr_cores, countFld_cores]
  · rw [countFld_cores]

@[simp] theorem eventRing_cores (s : State) (p : PartId) (rec : List Word) : (s.eventRing p rec).cores = s.cores := by
  unfold State.eventRing
  split
  · exact dropEvt_cores s p
  · extract_lets tail
    split
    · rw [updHdr_cores, putBytes_cores]
    · exact dropEvt_cores s p

@[simp] theorem mgmtQueue_cores (s : State) (rec : List Word) : (s.mgmtQueue rec).cores = s.cores := by
  unfold State.mgmtQueue
  split
  · rfl
  · rw [count_cores]

@[simp] theorem logQueue_cores (s : State) (rec : List Word) : (s.logQueue rec).cores = s.cores := by
  unfold State.logQueue
  split
  · rfl
  · rw [countFld_cores]

@[simp] theorem deliver_cores (s : State) (part : Option PartId) (code : Nat) (rec : List Word) :
    (s.deliver part code rec).cores = s.cores := by
  unfold State.deliver
  extract_lets counted queued ringed
  have hqueued : queued.cores = s.cores := by rw [mgmtQueue_cores, count_cores]
  have hringed : ringed.cores = s.cores := by
    unfold ringed
    split
    · rw [eventRing_cores, hqueued]
    · exact hqueued
  split
  · rw [setFld_cores, logQueue_cores, hringed]
  · exact hringed

@[simp] theorem raise_cores (s : State) (src : Src) (part : Option PartId) (code : Nat) (ds : List Nat) :
    (s.raise src part code ds).cores = s.cores := by
  unfold State.raise
  extract_lets key n mc counted
  split
  · rw [count_cores]
  · rw [deliver_cores]

/-- What a survey makes of a core that runs and has a family without a code. -/
def State.marginExhausted (s : State) (v : CoreSurvey) (f : Nat) : State :=
  (s.updRail v.core fun r => { r with worst := Nat.min 255 (v.margins.foldl Nat.min (v.margins.headD 0)) }).raise
    (.core v.core.val) s.cores[v.core].part 0x4004 [v.core.val, f]

theorem marginExhausted_cores (s : State) (v : CoreSurvey) (f : Nat) : (s.marginExhausted v f).cores = s.cores := by
  rw [State.marginExhausted, raise_cores, updRail_cores]

theorem surveyCore_exhausted (s : State) (v : CoreSurvey) {f : Nat} {rest : List Nat} (hup : s.coreUp v.core = true)
    (hf : v.exhausted = f :: rest) : s.surveyCore v = (s.marginExhausted v f).fenceCore v.core 0x4004 false := by
  unfold State.surveyCore
  rw [hup, hf]
  rfl

theorem exec_ageingSurvey_one (s : State) (v : CoreSurvey) (hon : s.mc.on = true) :
    exec (.ageingSurvey [v]) s = .next (s.surveyCore v) := by
  change execAgeingSurvey [v] s = _
  rw [execAgeingSurvey, if_pos hon, List.foldl_cons, List.foldl_nil]

/-- Settles O9: the survey of such a core raises the event and fences the core, and that fence holds. -/
theorem exhaustedMarginFences : Obligations.ExhaustedMarginFences := by
  intro v f rest s hon hup hf
  have hin : (s.marginExhausted v f).cores[v.core].inService = true := by
    obtain ⟨hin, -⟩ := Bool.and_eq_true_iff.mp hup
    rwa [marginExhausted_cores]
  obtain ⟨hout, hidle, hflag, hcause, hoff⟩ :=
    fenceHolds_fenceCore (s.marginExhausted v f) v.core (cause := 0x4004) false hin (by decide)
  have hexec : exec (.ageingSurvey [v]) s = .next ((s.marginExhausted v f).fenceCore v.core 0x4004 false) := by
    rw [exec_ageingSurvey_one s v hon, surveyCore_exhausted s v hup hf]
  exact ⟨.core v.core.val, s.marginExhausted v f, _, rfl, hexec, rfl, hout, hidle, hflag, hcause, hoff⟩

end Sys2Proof.Machine

namespace Sys2Proof.Machine

/-! ### What every command keeps (R375)

The queue, the canonical forms of the tables and the security counters, through every operation of the model: one lemma for each
operation, in the order of the model's files, then one for each command. -/

/-- What no command may undo: from `s` to `t` the commands that wait stay, the canonical forms stay, and no security counter falls. -/
structure State.Keeps (s t : State) : Prop where
  pending : t.pending = s.pending
  canonical : s.Canonical → t.Canonical
  counters : s.counters.length = 8 → t.counters.length = 8 ∧ ∀ n, s.counter n ≤ t.counter n

/-- A command answers a next state of which `State.Keeps` holds. -/
def KeepsNext (s : State) (o : Result) : Prop := ∃ t, o = .next t ∧ s.Keeps t

namespace State.Keeps

variable {s₀ s t : State} {α : Type}

theorem refl (s : State) : s.Keeps s := ⟨rfl, id, fun h => ⟨h, fun _ => le_rfl⟩⟩

theorem trans (hk : s₀.Keeps s) (ht : s.Keeps t) : s₀.Keeps t where
  pending := ht.pending.trans hk.pending
  canonical h₀ := ht.canonical (hk.canonical h₀)
  counters h₀ :=
    have hs := hk.counters h₀
    have ht := ht.counters hs.1
    ⟨ht.1, fun n => (hs.2 n).trans (ht.2 n)⟩

theorem same (hk : s₀.Keeps s) (e : (t.pending, t.mem, t.regs, t.nvm, t.latches, t.counters) =
    (s.pending, s.mem, s.regs, s.nvm, s.latches, s.counters)) : s₀.Keeps t := by
  simp only [Prod.mk.injEq] at e
  obtain ⟨hpending, hmem, hregs, hnvm, hlatches, hcounters⟩ := e
  refine hk.trans ⟨hpending, fun hc => ⟨?_, ?_, ?_, ?_, ?_⟩, fun hl => ⟨hcounters ▸ hl, fun n => ?_⟩⟩
  · exact hmem ▸ hc.mem
  · exact hregs ▸ hc.regs
  · exact hnvm ▸ hc.nvm
  · exact hlatches ▸ hc.latches
  · exact hcounters ▸ hc.counters
  · rw [State.counter, State.counter, hcounters]

theorem update {freeCtr : Nat} {badUnits weakUnits : List Nat} {cores : Vector CoreS 8} {parts : Vector Part 4} {handles : List Handle}
    {lastHandle : Nat} {staging : List (Nat × Byte)} {diag : Iface} {usb : Usb} {mc : MC} {ports : Vector Port 8} {paired : Bool}
    (hk : s₀.Keeps s) : s₀.Keeps { s with freeCtr, badUnits, weakUnits, cores, parts, handles, lastHandle, staging, diag, usb, mc, ports, paired } :=
  hk.same rfl

theorem ite {p : Prop} [Decidable p] (ht : s₀.Keeps t) (hs : s₀.Keeps s) : s₀.Keeps (if p then t else s) := by
  split
  · exact ht
  · exact hs

/-- The same where both branches go on from one state. -/
theorem both {u : State} {p : Prop} [Decidable p] (hk : s₀.Keeps s) (ht : s₀.Keeps s → s₀.Keeps t) (hu : s₀.Keeps s → s₀.Keeps u) :
    s₀.Keeps (if p then t else u) :=
  ite (ht hk) (hu hk)

theorem foldl {f : State → α → State} {l : List α} (hk : s₀.Keeps s)
    (hf : ∀ s a, s₀.Keeps s → s₀.Keeps (f s a)) : s₀.Keeps (l.foldl f s) := by
  induction l generalizing s with
  | nil => exact hk
  | cons a l ih => exact ih (hf s a hk)

/-- The same for a state that comes with a value. -/
theorem foldl_fst {β : Type} {f : State × β → α → State × β} {l : List α} {p : State × β} (hk : s₀.Keeps p.1)
    (hf : ∀ p a, s₀.Keeps p.1 → s₀.Keeps (f p a).1) : s₀.Keeps (l.foldl f p).1 := by
  induction l generalizing p with
  | nil => exact hk
  | cons a l ih => exact ih (hf p a hk)

theorem of_fst {p : State × α} {v : α} (hk : s₀.Keeps p.1) (e : p = (t, v)) : s₀.Keeps t := by
  subst e; exact hk

theorem of_snd {p : α × State} {v : α} (hk : s₀.Keeps p.2) (e : p = (v, t)) : s₀.Keeps t := by
  subst e; exact hk

theorem next (hk : s₀.Keeps s) : KeepsNext s₀ (.next s) := ⟨s, rfl, hk⟩

theorem setReg {o : Nat} {v : Word} (hk : s₀.Keeps s) : s₀.Keeps (s.setReg o v) :=
  hk.trans ⟨rfl, fun hc => { hc with regs := canon_setReg s o v hc.regs }, fun hl => ⟨hl, fun _ => le_rfl⟩⟩

theorem put {w : List (Nat × Byte)} (hk : s₀.Keeps s) : s₀.Keeps (s.put w) :=
  hk.trans ⟨rfl, fun hc => { hc with mem := wf_put s w hc.mem }, fun hl => ⟨hl, fun _ => le_rfl⟩⟩

theorem zeroRange {a n : Nat} (hk : s₀.Keeps s) : s₀.Keeps (s.zeroRange a n) :=
  hk.trans ⟨rfl, fun hc => { hc with mem := wf_zeroRange s a n hc.mem }, fun hl => ⟨hl, fun _ => le_rfl⟩⟩

theorem nvmErase {a n : Nat} (hk : s₀.Keeps s) : s₀.Keeps (s.nvmErase a n) :=
  hk.trans ⟨rfl, fun hc => { hc with nvm := mapCanon_filter _ _ hc.nvm }, fun hl => ⟨hl, fun _ => le_rfl⟩⟩

theorem nvmPut {a : Nat} {bs : List Byte} (hk : s₀.Keeps s) : s₀.Keeps (s.nvmPut a bs) :=
  hk.trans ⟨rfl, fun hc => { hc with nvm := mapCanon_foldl_mapPut _ _ _ _ hc.nvm }, fun hl => ⟨hl, fun _ => le_rfl⟩⟩

theorem setLatches {l : List (Nat × Word)} (hk : s₀.Keeps s) (hl : keysRise s.latches = true → keysRise l = true) :
    s₀.Keeps { s with latches := l } :=
  hk.trans ⟨rfl, fun hc => { hc with latches := hl hc.latches }, fun hl => ⟨hl, fun _ => le_rfl⟩⟩

/-- A counter advances to the greater of two values (R375). -/
theorem advance {n v : Nat} (hk : s₀.Keeps s) : s₀.Keeps (s.advance n v) := by
  have hlen : (s.advance n v).counters.length = s.counters.length := List.length_set
  have hle (m : Nat) : s.counter m ≤ (s.advance n v).counter m := by
    simp only [State.counter, State.advance, List.getD_eq_getElem?_getD, List.getElem?_set]
    split
    case isTrue hm =>
      split
      · exact Nat.le_max_left (s.counters[m]?.getD 0) v |>.trans_eq (by rw [hm]; rfl)
      · rw [List.getElem?_eq_none (by omega)]
    case isFalse => exact le_rfl
  exact hk.trans ⟨rfl, fun hc => { hc with counters := hlen.trans hc.counters }, fun hl => ⟨hlen.trans hl, hle⟩⟩

/-- Everything volatile goes, and what lasts is as it was (R370). -/
theorem volatileLost (hk : s₀.Keeps s) : s₀.Keeps s.volatileLost :=
  hk.trans ⟨rfl, fun hc => ⟨rfl, rfl, hc.nvm, rfl, hc.counters⟩, fun hl => ⟨hl, fun _ => le_rfl⟩⟩

/-- The memories lose their contents. -/
theorem emptyMem {mc : MC} (hk : s₀.Keeps s) : s₀.Keeps { s with mem := [], badUnits := [], weakUnits := [], mc } :=
  hk.trans ⟨rfl, fun hc => { hc with mem := rfl }, fun hl => ⟨hl, fun _ => le_rfl⟩⟩

/-! #### Machine/Ops -/

theorem setFld {o hi lo v : Nat} (hk : s₀.Keeps s) : s₀.Keeps (s.setFld o hi lo v) := hk.setReg

theorem countFld {o hi lo k : Nat} (hk : s₀.Keeps s) : s₀.Keeps (s.countFld o hi lo k) := hk.setFld

theorem count {o k : Nat} (hk : s₀.Keeps s) : s₀.Keeps (s.count o k) := hk.countFld

theorem count64 {lo hi k : Nat} (hk : s₀.Keeps s) : s₀.Keeps (s.count64 lo hi k) := hk.setReg.setReg

theorem updCore {c : CoreId} {f : CoreS → CoreS} (hk : s₀.Keeps s) : s₀.Keeps (s.updCore c f) := hk.update

theorem mapCores {f : CoreS → CoreS} (hk : s₀.Keeps s) : s₀.Keeps (s.mapCores f) := hk.update

theorem updPart {p : PartId} {f : Machine.Part → Machine.Part} (hk : s₀.Keeps s) : s₀.Keeps (s.updPart p f) := hk.update

theorem updJob {p : PartId} {f : Job → Job} (hk : s₀.Keeps s) : s₀.Keeps (s.updJob p f) := hk.updPart

theorem updIface {p : PartId} {f : Iface → Iface} (hk : s₀.Keeps s) : s₀.Keeps (s.updIface p f) := hk.updPart

theorem fresh (hk : s₀.Keeps s) : s₀.Keeps s.fresh.2 := hk.update

theorem updStream {c : CoreId} {x : CtxId} {f : Machine.Stream → Machine.Stream} (hk : s₀.Keeps s) : s₀.Keeps (s.updStream c x f) :=
  hk.updCore

theorem putBytes {a : Nat} {bs : List Byte} (hk : s₀.Keeps s) : s₀.Keeps (s.putBytes a bs) := hk.put

theorem updHdr {p : PartId} {f : RingHdr → RingHdr} (hk : s₀.Keeps s) : s₀.Keeps (s.updHdr p f) :=
  ite hk.updIface.putBytes hk.updIface

theorem dropCpl {p : PartId} (hk : s₀.Keeps s) : s₀.Keeps (s.dropCpl p) := ite hk.countFld.updHdr hk.countFld

theorem dropEvt {p : PartId} (hk : s₀.Keeps s) : s₀.Keeps (s.dropEvt p) := ite hk.countFld.updHdr hk.countFld

theorem eventRing {p : PartId} {rec : List Word} (hk : s₀.Keeps s) : s₀.Keeps (s.eventRing p rec) := by
  unfold State.eventRing
  dsimp only
  split
  · exact hk.dropEvt
  · exact ite hk.putBytes.updHdr hk.dropEvt

theorem mgmtQueue {rec : List Word} (hk : s₀.Keeps s) : s₀.Keeps (s.mgmtQueue rec) := ite hk.update hk.count

theorem logQueue {rec : List Word} (hk : s₀.Keeps s) : s₀.Keeps (s.logQueue rec) := ite hk.update hk.countFld

theorem fixedLog (hk : s₀.Keeps s) : s₀.Keeps s.fixedLog := ite hk hk.update

theorem deliver {part : Option PartId} {code : Nat} {rec : List Word} (hk : s₀.Keeps s) : s₀.Keeps (s.deliver part code rec) := by
  unfold State.deliver
  dsimp only
  split
  · split
    · exact hk.count.mgmtQueue.eventRing.logQueue.setFld
    · exact hk.count.mgmtQueue.logQueue.setFld
  · split
    · exact hk.count.mgmtQueue.eventRing
    · exact hk.count.mgmtQueue

theorem raise {src : Src} {part : Option PartId} {code : Nat} {ds : List Nat} (hk : s₀.Keeps s) :
    s₀.Keeps (s.raise src part code ds) :=
  ite hk.update.count hk.update.deliver

theorem kneadFirst {c : CoreId} {u : Fin 3} {rs : List Nat} (hk : s₀.Keeps s) : s₀.Keeps (s.kneadFirst c u rs) := hk.updCore

theorem correctedAt {level idx bank region : Nat} (hk : s₀.Keeps s) : s₀.Keeps (s.correctedAt level idx bank region) := by
  unfold State.correctedAt
  dsimp only
  split
  · split
    · exact hk.count.update.raise.kneadFirst
    · exact hk.count.update.raise
  · exact hk.count.update

theorem corrected {a : Nat} (hk : s₀.Keeps s) : s₀.Keeps (s.corrected a) := by
  unfold State.corrected
  split
  · exact hk.correctedAt

theorem meetUnits {f : Nat → Bool} (hk : s₀.Keeps s) : s₀.Keeps (s.meetUnits f) :=
  foldl hk fun _ _ hs => ite hs.corrected.update hs.corrected

theorem meetReads {as : List Nat} (hk : s₀.Keeps s) : s₀.Keeps (s.meetReads as) := hk.meetUnits

theorem meetRange {a n : Nat} (hk : s₀.Keeps s) : s₀.Keeps (s.meetRange a n) := hk.meetUnits

theorem uncorrectable {part : Option PartId} {a : Nat} (hk : s₀.Keeps s) : s₀.Keeps (s.uncorrectable part a) := by
  unfold State.uncorrectable
  dsimp only
  split
  · exact both hk.raise.count.setReg.setReg id fun h₁ => h₁.update.fixedLog
  · split
    · exact hk.raise.update.setFld.countFld.setReg.setReg.kneadFirst
    · exact hk.raise.update.setFld.countFld.setReg.setReg

theorem takeEnv {env : MemEnv} (hk : s₀.Keeps s) : s₀.Keeps (s.takeEnv env) :=
  update (foldl (foldl (foldl hk (fun _ _ hs => hs.count)) (fun _ _ hs => hs.updCore)) (fun _ _ hs => hs.updCore))

theorem takeReads {env : MemEnv} {as : List Nat} (hk : s₀.Keeps s) : s₀.Keeps (s.takeReads env as) := hk.takeEnv.meetReads

theorem touch {c : CoreId} (hk : s₀.Keeps s) : s₀.Keeps (s.touch c) := by
  unfold State.touch
  dsimp only
  split
  · exact hk.updCore.countFld.countFld
  · exact hk.updCore.countFld.countFld
  · exact hk.countFld
  · exact hk

theorem touchAll {as : List Nat} (hk : s₀.Keeps s) : s₀.Keeps (s.touchAll as) := foldl hk fun _ _ hs => hs.touch

theorem writeCpl {p : PartId} {rec : List Byte} (hk : s₀.Keeps s) : s₀.Keeps (s.writeCpl p rec) :=
  both hk.meetRange.putBytes.updHdr (fun h₁ => h₁.updIface) id

theorem reservedRecord {p : PartId} {rec : List Byte} (hk : s₀.Keeps s) : s₀.Keeps (s.reservedRecord p rec) :=
  ite hk.countFld.updIface (ite hk.writeCpl.updIface hk.count.updIface)

/-! #### Machine/Ports -/

theorem updPort {t : PortId} {f : Port → Port} (hk : s₀.Keeps s) : s₀.Keeps (s.updPort t f) := hk.update

theorem portCount {t : PortId} {n k : Nat} (hk : s₀.Keeps s) : s₀.Keeps (s.portCount t n k) := hk.count

theorem portCount2 {t : PortId} {n k : Nat} (hk : s₀.Keeps s) : s₀.Keeps (s.portCount2 t n k) := hk.count64

theorem otCount {t : PortId} {n k : Nat} (hk : s₀.Keeps s) : s₀.Keeps (s.otCount t n k) := hk.count

theorem send {t : PortId} {f : TxFrame} (hk : s₀.Keeps s) : s₀.Keeps (s.send t f) := hk.updPort

theorem portReach {x : PortId} {n : Nat} (hk : s₀.Keeps s) (e : s.portReach x n = some t) : s₀.Keeps t := by
  unfold State.portReach at e
  dsimp only at e
  split at e
  · cases e
    exact hk.updPort
  · cases e

theorem setLink {t : PortId} {q : SubId} {m : LinkMode} (hk : s₀.Keeps s) : s₀.Keeps (s.setLink t q m) := hk.updPort.setFld

theorem subDown {t : PortId} {q : SubId} {cause : Nat} (hk : s₀.Keeps s) : s₀.Keeps (s.subDown t q cause) :=
  hk.updPort.setFld.portCount.portCount.raise

theorem portSilent {t : PortId} {cause : Nat} (hk : s₀.Keeps s) : s₀.Keeps (s.portSilent t cause) :=
  setFld (updPort (foldl hk (fun _ _ hs => setLink (ite hs.subDown hs))))

theorem sendMc {t : PortId} {q : SubId} {mac : List Byte} {ty : Nat} {payload : List Byte} (hk : s₀.Keeps s) :
    s₀.Keeps (s.sendMc t q mac ty payload) :=
  hk.send

theorem sendLldp {t : PortId} {q : SubId} (hk : s₀.Keeps s) : s₀.Keeps (s.sendLldp t q) := hk.sendMc

theorem sendPfc {t : PortId} {q : SubId} {c quanta : Nat} (hk : s₀.Keeps s) : s₀.Keeps (s.sendPfc t q c quanta) := hk.send

theorem pfcWatch {t : PortId} {q : SubId} {c : Nat} (hk : s₀.Keeps s) : s₀.Keeps (s.pfcWatch t q c) :=
  ite hk (ite hk.sendPfc.updPort (ite hk.sendPfc.updPort hk))

theorem buffersLost {t : PortId} (hk : s₀.Keeps s) : s₀.Keeps (s.buffersLost t) :=
  foldl hk.updPort fun _ _ hs => foldl hs (fun _ _ hs => hs.pfcWatch)

/-! #### Machine/Rdma -/

theorem updQp {t : PortId} {n : Nat} {f : Qp → Qp} (hk : s₀.Keeps s) : s₀.Keeps (s.updQp t n f) := hk.updPort

theorem sendRoce {t : PortId} {n op psn : Nat} {ack : Bool} {ext data : List Byte} (hk : s₀.Keeps s) :
    s₀.Keeps (s.sendRoce t n op psn ack ext data) :=
  hk.send

theorem sendAeth {t : PortId} {n syndrome psn : Nat} (hk : s₀.Keeps s) : s₀.Keeps (s.sendAeth t n syndrome psn) := hk.sendRoce

theorem sendWqe {t : PortId} {n : Nat} {w : Wqe} {k : Nat} (hk : s₀.Keeps s) : s₀.Keeps (s.sendWqe t n w k) := by
  unfold State.sendWqe
  dsimp only
  split
  · exact foldl hk fun _ _ hs => hs.sendRoce
  · exact hk.sendRoce
  · exact hk.sendRoce
  · exact hk.sendRoce

theorem pushQp {t : PortId} {n : Nat} {l : List Wqe} (hk : s₀.Keeps s) : s₀.Keeps (State.pushQp t n l s) := by
  induction l generalizing s with
  | nil => exact hk
  | cons _ l ih =>
    unfold State.pushQp
    split
    · exact hk
    · exact ih hk.updQp.sendWqe

theorem runQp {t : PortId} {n : Nat} (hk : s₀.Keeps s) : s₀.Keeps (s.runQp t n) := hk.pushQp

theorem postWqe {t : PortId} {n op : Nat} {owner : WqeOwner} {loc va rkey len : Nat} {data : List Byte} (hk : s₀.Keeps s) :
    s₀.Keeps (s.postWqe t n op owner loc va rkey len data) :=
  hk.updQp.runQp

theorem postRead {t : PortId} {n : Nat} {owner : WqeOwner} {loc va rkey len : Nat} (hk : s₀.Keeps s) :
    s₀.Keeps (s.postRead t n owner loc va rkey len) :=
  foldl hk fun _ _ hs => hs.postWqe

theorem postWrite {t : PortId} {n : Nat} {owner : WqeOwner} {va rkey : Nat} {bs : List Byte} (hk : s₀.Keeps s) :
    s₀.Keeps (s.postWrite t n owner va rkey bs) :=
  foldl hk fun _ _ hs => hs.postWqe

theorem postFlush {t : PortId} {n : Nat} {owner : WqeOwner} {va rkey len : Nat} (hk : s₀.Keeps s) :
    s₀.Keeps (s.postFlush t n owner va rkey len) :=
  ite hk.postWqe hk.updQp.postWqe

/-! #### Machine/Jobs -/

theorem lput {j : Job} {w : List (Nat × Byte)} (hk : s₀.Keeps s) : s₀.Keeps (s.lput j w) := hk.put

theorem lputBytes {j : Job} {a : Nat} {bs : List Byte} (hk : s₀.Keeps s) : s₀.Keeps (s.lputBytes j a bs) := hk.lput

theorem updLCtx {v : Serve} {f : LCtx → LCtx} (hk : s₀.Keeps s) : s₀.Keeps (s.updLCtx v f) := hk.updCore

theorem signal {p : PartId} {l n inc : Nat} (hk : s₀.Keeps s) : s₀.Keeps (s.signal p l n inc) := by
  unfold State.signal
  split
  · exact hk
  · exact hk.updLCtx

theorem notice {p : PartId} {j : Job} {e : Issued} (hk : s₀.Keeps s) : s₀.Keeps (s.notice p j e) :=
  ite hk.writeCpl (ite hk.dropCpl hk.dropCpl.raise.updJob)

theorem perform {e : Issued} (hk : s₀.Keeps s) : s₀.Keeps (s.perform e) := by
  unfold State.perform
  dsimp only
  split
  · exact hk
  · exact ite hk (both (ite (ite (updPart (ite hk.signal hk)) (signal (ite hk.signal hk))) (ite hk.signal hk)) (fun h₁ => notice h₁)
      id)

theorem updIssued {c : CoreId} {seq : Nat} {f : Issued → Issued} (hk : s₀.Keeps s) : s₀.Keeps (s.updIssued c seq f) := hk.updCore

theorem dropIssued {c : CoreId} {seq : Nat} (hk : s₀.Keeps s) : s₀.Keeps (s.dropIssued c seq) := hk.updCore

/-! #### Machine/Ot -/

theorem updCluster {p : PartId} {f : Cluster → Cluster} (hk : s₀.Keeps s) : s₀.Keeps (s.updCluster p f) := hk.updJob

theorem otSend {p : PartId} {c : Cluster} {i vc : Nat} {bytes : List Byte} (hk : s₀.Keeps s) : s₀.Keeps (s.otSend p c i vc bytes) :=
    by
  unfold State.otSend
  split
  · exact hk
  · exact hk.send

theorem sendOpen {p : PartId} {c : Cluster} {i : Nat} {reply : Bool} (hk : s₀.Keeps s) : s₀.Keeps (s.sendOpen p c i reply) := by
  unfold State.sendOpen
  dsimp only
  split
  · exact hk
  · exact hk.otSend

theorem sendAck {p : PartId} {i vc : Nat} (hk : s₀.Keeps s) : s₀.Keeps (s.sendAck p i vc) := by
  unfold State.sendAck
  dsimp only
  split
  · exact hk
  · exact hk.otSend.updCluster

theorem pumpGo {p : PartId} {i vc : Nat} {l : List OtFrame} (hk : s₀.Keeps s) : s₀.Keeps (State.pumpGo p i vc l s) := by
  induction l generalizing s with
  | nil => exact hk
  | cons f rest ih =>
    unfold State.pumpGo
    split
    · exact hk
    · dsimp only
      split
      · exact hk
      · split
        · exact ih hk.otSend.updCluster
        · refine updCluster ?_
          split
          · exact hk.otCount
          · exact hk

theorem pump {p : PartId} {i vc : Nat} (hk : s₀.Keeps s) : s₀.Keeps (s.pump p i vc) := by
  unfold State.pump
  split
  · exact hk
  · exact hk.pumpGo

theorem sendOn {p : PartId} {i vc : Nat} {bytes : List Byte} (hk : s₀.Keeps s) : s₀.Keeps (s.sendOn p i vc bytes) := by
  unfold State.sendOn
  dsimp only
  split
  · exact hk
  · exact hk.updCluster.pump

theorem sendTo {p : PartId} {e vc : Nat} {bytes : List Byte} (hk : s₀.Keeps s) : s₀.Keeps (s.sendTo p e vc bytes) := by
  unfold State.sendTo
  split
  · exact hk
  · split
    · exact hk.updCluster
    · split
      · exact hk.sendOn
      · exact hk

theorem sendCtl {p : PartId} {e type : Nat} {body : List Byte} (hk : s₀.Keeps s) : s₀.Keeps (s.sendCtl p e type body) := by
  unfold State.sendCtl
  split
  · exact hk.sendTo
  · exact hk

theorem sendNet {p : PartId} {e vc kind status id a b c : Nat} {payload : List Byte} (hk : s₀.Keeps s) :
    s₀.Keeps (s.sendNet p e vc kind status id a b c payload) := by
  unfold State.sendNet
  split
  · exact hk.sendTo
  · exact hk

theorem sendGather {p : PartId} {e vc kind status id a b : Nat} {payload : List Byte} (hk : s₀.Keeps s) :
    s₀.Keeps (s.sendGather p e vc kind status id a b payload) := by
  unfold State.sendGather
  split
  · exact hk.sendOn
  · exact hk

theorem otBad {port : Option PortId} (hk : s₀.Keeps s) : s₀.Keeps (s.otBad port) := by
  unfold State.otBad
  split
  · exact hk.otCount
  · exact hk

theorem takeMsg {p : PartId} {t : PortId} {e vc : Nat} {bs : List Byte} (hk : s₀.Keeps s) : s₀.Keeps (s.takeMsg p t e vc bs) :=
  ite hk.updCluster hk.otBad

theorem joinFrame {p : PartId} {t : PortId} {i e vc : Nat} {f : OtFrame} (hk : s₀.Keeps s) : s₀.Keeps (s.joinFrame p t i e vc f) :=
    by
  unfold State.joinFrame
  dsimp only
  split
  · exact hk
  · exact ite hk.updCluster.takeMsg hk.updCluster

theorem drain {p : PartId} {t : PortId} {i e vc : Nat} {l : List OtFrame} (hk : s₀.Keeps s) :
    s₀.Keeps (State.drain p t i e vc l s) := by
  induction l generalizing s with
  | nil => exact hk
  | cons _ l ih =>
    unfold State.drain
    split
    · exact hk
    · dsimp only
      split
      · exact hk
      · exact ih hk.joinFrame

theorem popMsg {p : PartId} {x vc k : Nat} {m : List Byte} (hk : s₀.Keeps s) (e : s.popMsg p x vc k = some (m, t)) : s₀.Keeps t :=
    by
  unfold State.popMsg at e
  split at e
  · cases e
  · split at e
    · cases e
    · dsimp only at e
      rw [Option.ite_none_right_eq_some] at e
      obtain ⟨-, e⟩ := e
      cases e
      exact hk.updCluster

/-! #### Machine/Units -/

theorem putUnit {j : Job} {u : UnitMap} {slot : Nat} {bs : List Byte} (hk : s₀.Keeps s) : s₀.Keeps (s.putUnit j u slot bs) := hk.put

theorem sendUnit {p : PartId} {ke : Nat × Nat} (hk : s₀.Keeps s) : s₀.Keeps (s.sendUnit p ke) := by
  unfold State.sendUnit
  dsimp only
  split
  · split
    · split
      · exact hk.uncorrectable.updJob
      · exact hk.touchAll.meetReads.sendNet.updCluster
    · exact hk
  · exact hk

theorem freeUnits {p : PartId} (hk : s₀.Keeps s) : s₀.Keeps (s.freeUnits p) := by
  unfold State.freeUnits
  dsimp only
  split
  · exact ite hk hk.updCluster
  · exact hk

theorem placeUnit {p : PartId} {m : InMsg} (hk : s₀.Keeps s) : s₀.Keeps (s.placeUnit p m) := by
  unfold State.placeUnit
  dsimp only
  split
  · split
    · split
      · exact hk.putUnit.updCluster
      · exact hk.updCluster
    · exact hk
  · exact hk

theorem retryXfers {p : PartId} (hk : s₀.Keeps s) : s₀.Keeps (s.retryXfers p) := by
  unfold State.retryXfers
  split
  · exact foldl hk.updCluster fun _ _ hs => hs.placeUnit
  · exact hk

theorem sendRebalanced {p : PartId} (hk : s₀.Keeps s) : s₀.Keeps (s.sendRebalanced p) := by
  unfold State.sendRebalanced
  dsimp only
  split
  · exact hk.raise.updJob.updCluster.sendCtl
  · exact hk

theorem rebalanceEnd {p : PartId} (hk : s₀.Keeps s) : s₀.Keeps (s.rebalanceEnd p) := by
  unfold State.rebalanceEnd
  split
  · exact ite hk.sendRebalanced hk
  · exact hk

theorem rebalanceBegin {p : PartId} (hk : s₀.Keeps s) : s₀.Keeps (s.rebalanceBegin p) := hk.updJob.updCluster

theorem applyRoster {p : PartId} {r : RosterMsg} {first : Bool} (hk : s₀.Keeps s) : s₀.Keeps (s.applyRoster p r first) := by
  unfold State.applyRoster
  dsimp only
  split
  · split
    · exact both (foldl (ite hk.updCluster hk.updCluster.updJob) (fun _ _ hs => hs.raise)) id fun h₁ => rebalanceEnd
        (rebalanceBegin h₁)
    · split
      · exact updCluster (foldl hk.updCluster (fun _ _ hs => hs.raise))
      · split
        · exact updJob (foldl hk.updCluster.updJob (fun _ _ hs => hs.raise))
        · exact rebalanceEnd (retryXfers (freeUnits
            (both (updCluster (rebalanceBegin (foldl hk.updCluster.updJob (fun _ _ hs => hs.raise)))) id fun h₁ => foldl h₁
            (fun _ _ hs => hs.sendUnit))))
  · exact hk

/-! #### Machine/Commit -/

theorem updHandle {h : Nat} {f : Handle → Handle} (hk : s₀.Keeps s) : s₀.Keeps (s.updHandle h f) := hk.update

theorem finalRecord {p : PartId} {c : TakenCmd} {status handle event d0 d1 : Nat} (hk : s₀.Keeps s) :
    s₀.Keeps (s.finalRecord p c status handle event d0 d1) :=
  hk.updIface.reservedRecord

theorem opDone {h status event d0 : Nat} (hk : s₀.Keeps s) : s₀.Keeps (s.opDone h status event d0) := by
  unfold State.opDone
  dsimp only
  split
  · exact hk
  · split
    · exact hk
    · split
      · exact hk.updHandle.finalRecord
      · exact ite hk.updHandle.raise hk.updHandle

theorem updRail {c : CoreId} {f : CoreRail → CoreRail} (hk : s₀.Keeps s) : s₀.Keeps (s.updRail c f) := hk.update

theorem replan {c : CoreId} {plan : Plan} (hk : s₀.Keeps s) : s₀.Keeps (s.replan c plan) :=
  both (both hk.updRail.countFld (fun h₁ => h₁.fixedLog) id) id fun h₂ => raise h₂

theorem quiesceDone (hk : s₀.Keeps s) : s₀.Keeps s.quiesceDone := by
  unfold State.quiesceDone
  exact foldl hk (fun _ _ hs => by
      split
      · exact ite hs.replan hs
      · exact hs)

theorem finishJob {p : PartId} (hk : s₀.Keeps s) : s₀.Keeps (s.finishJob p) := by
  unfold State.finishJob
  dsimp only
  split
  · exact hk
  · split
    · exact both hk.mapCores.updPart.opDone id fun h₁ => h₁.update
    · exact hk.mapCores.updPart.opDone

theorem settle {p : PartId} (hk : s₀.Keeps s) : s₀.Keeps (s.settle p) := by
  unfold State.settle
  dsimp only
  split
  · exact hk.quiesceDone
  · exact ite hk.quiesceDone.finishJob hk.quiesceDone

theorem mapStreams {p : PartId} {f : Machine.Stream → Machine.Stream} (hk : s₀.Keeps s) : s₀.Keeps (s.mapStreams p f) := hk.mapCores

theorem stopStreams {p : PartId} (hk : s₀.Keeps s) : s₀.Keeps (s.stopStreams p) := hk.mapStreams

theorem freeGheld {c : CoreId} (hk : s₀.Keeps s) : s₀.Keeps (s.freeGheld c) := by
  unfold State.freeGheld
  split
  next heq => exact both (hk.fresh.of_snd heq) (fun h₁ => h₁.count) id

theorem cancelNet {p : PartId} (hk : s₀.Keeps s) : s₀.Keeps (s.cancelNet p) :=
  quiesceDone (updCluster (mapCores (foldl (foldl hk (fun _ _ hs => foldl hs (fun _ _ hs => hs.freeGheld)))
      (fun _ _ hs => hs.count))))

theorem clearSlots {j : Job} {l : Nat} (hk : s₀.Keeps s) : s₀.Keeps (s.clearSlots j l) := by
  unfold State.clearSlots
  dsimp only
  split
  · exact hk
  · exact updLCtx (foldl hk (fun _ _ hs => ite hs.zeroRange hs))

theorem changeStep {p : PartId} (hk : s₀.Keeps s) : s₀.Keeps (s.changeStep p) := by
  unfold State.changeStep
  dsimp only
  split
  · exact hk
  · exact mapCores (foldl hk (fun _ _ hs => hs.clearSlots))

theorem startStreams {p : PartId} (hk : s₀.Keeps s) : s₀.Keeps (s.startStreams p) := hk.mapCores.updPart.updCluster.updJob

theorem restartWhenClear {p : PartId} (hk : s₀.Keeps s) : s₀.Keeps (s.restartWhenClear p) := ite hk.startStreams hk.updJob

theorem sendReady {p : PartId} (hk : s₀.Keeps s) : s₀.Keeps (s.sendReady p) := by
  unfold State.sendReady
  dsimp only
  split
  · exact hk.updJob.sendCtl
  · exact hk

theorem ckptRead {p : PartId} (hk : s₀.Keeps s) : s₀.Keeps (s.ckptRead p) := by
  unfold State.ckptRead
  dsimp only
  split
  · exact hk
  · split
    · exact hk
    · split
      · exact hk.updJob
      · exact both hk.updJob.sendCtl.freeUnits.retryXfers.rebalanceEnd (fun h₁ => h₁.sendReady) id

theorem ckptFail {p : PartId} {h event : Nat} (hk : s₀.Keeps s) : s₀.Keeps (s.ckptFail p h event) := hk.opDone.ckptRead

theorem ckptNext {h : Nat} (hk : s₀.Keeps s) : s₀.Keeps (s.ckptNext h) := by
  unfold State.ckptNext
  dsimp only
  split
  · exact hk
  · split
    · split
      · exact hk
      · split
        · exact hk.uncorrectable.ckptFail
        · exact ite hk.ckptFail (both hk.touchAll.meetRange.updHandle.postWrite (fun h₁ => h₁.ckptRead) id)
    · exact hk

theorem ckptGo {h : Nat} (hk : s₀.Keeps s) : s₀.Keeps (s.ckptGo h) := by
  unfold State.ckptGo
  split
  · exact hk
  · exact ite hk (ite hk.ckptNext (ite hk.updHandle.postFlush hk.opDone))

theorem startCheckpoints {p : PartId} (hk : s₀.Keeps s) : s₀.Keeps (s.startCheckpoints p) := by
  unfold State.startCheckpoints
  dsimp only
  split
  · exact hk
  · exact ite hk (foldl (both (updJob (foldl hk (fun _ _ hs => hs.updHandle))) (fun h₁ => ckptRead h₁) id)
      (fun _ _ hs => hs.ckptGo))

theorem suspendJob {p : PartId} (hk : s₀.Keeps s) : s₀.Keeps (s.suspendJob p) := by
  unfold State.suspendJob
  dsimp only
  split
  · exact hk
  · exact hk.updHandle.updJob

theorem pauseJob {p : PartId} (hk : s₀.Keeps s) : s₀.Keeps (s.pauseJob p) := hk.updJob.updCluster

theorem endJob {p : PartId} {why : StopWhy} {status event : Nat} (hk : s₀.Keeps s) : s₀.Keeps (s.endJob p why status event) := by
  unfold State.endJob
  exact hk.updJob.updCluster.stopStreams.cancelNet.settle

theorem dropEpoch {p : PartId} (hk : s₀.Keeps s) : s₀.Keeps (s.dropEpoch p) := hk.updCluster

theorem commitEvents {p : PartId} {j : Job} {n : Nat} (hk : s₀.Keeps s) : s₀.Keeps (s.commitEvents p j n) :=
  foldl (ite hk.raise hk) fun _ _ hs => hs.raise

theorem sendAbortReq {p : PartId} {code entry : Nat} (hk : s₀.Keeps s) : s₀.Keeps (s.sendAbortReq p code entry) := by
  unfold State.sendAbortReq
  dsimp only
  split
  · exact hk.updJob.sendCtl
  · exact hk

theorem reportOwed {p : PartId} (hk : s₀.Keeps s) : s₀.Keeps (s.reportOwed p) := by
  unfold State.reportOwed
  dsimp only
  split
  · split
    · exact hk.updCluster.sendCtl.pauseJob
    · split
      · exact hk.updJob.sendAbortReq
      · exact hk
  · exact hk

theorem applyCommit {p : PartId} {n flags : Nat} (hk : s₀.Keeps s) : s₀.Keeps (s.applyCommit p n flags) := by
  unfold State.applyCommit
  dsimp only
  split
  · exact hk
  · split
    · exact endJob (both hk.commitEvents.updJob.updHandle.changeStep.updCluster (fun h₁ => h₁.startCheckpoints) id)
    · split
      · exact endJob (both hk.commitEvents.updJob.updHandle.changeStep.updCluster (fun h₁ => h₁.startCheckpoints) id)
      · split
        · exact reportOwed (applyRoster (both (both hk.commitEvents.updJob.updHandle.changeStep.updCluster
            (fun h₁ => h₁.startCheckpoints) id) (fun h₂ => suspendJob h₂) id))
        · exact ite (reportOwed (suspendJob (both hk.commitEvents.updJob.updHandle.changeStep.updCluster
            (fun h₁ => h₁.startCheckpoints) id))) (reportOwed
            (updJob (both hk.commitEvents.updJob.updHandle.changeStep.updCluster (fun h₁ => h₁.startCheckpoints) id)))

theorem applyAbort {p : PartId} {a flags cause entry epoch : Nat} (hk : s₀.Keeps s) :
    s₀.Keeps (s.applyAbort p a flags cause entry epoch) := by
  unfold State.applyAbort
  dsimp only
  split
  · exact hk
  · split
    · exact hk.raise.updJob.stopStreams.cancelNet.changeStep.dropEpoch.updCluster.endJob
    · split
      · exact reportOwed (applyRoster (both hk.raise.updJob.stopStreams.cancelNet.changeStep.dropEpoch.updCluster.updJob
          (fun h₃ => both h₃ (fun h₁ => h₁.pauseJob) fun h₁ => h₁.suspendJob) id))
      · exact ite (both hk.raise.updJob.stopStreams.cancelNet.changeStep.dropEpoch.updCluster (fun h₁ => h₁.pauseJob)
          fun h₁ => h₁.suspendJob) hk.raise.updJob.stopStreams.cancelNet.changeStep.dropEpoch.updCluster.updJob

theorem abortAlone {p : PartId} {cause : Nat} (hk : s₀.Keeps s) : s₀.Keeps (s.abortAlone p cause) := by
  unfold State.abortAlone
  dsimp only
  split
  · exact hk
  · exact applyAbort (ite hk.raise hk)

theorem reportAbort {p : PartId} {code : Nat} {entry : Option Nat} (hk : s₀.Keeps s) : s₀.Keeps (s.reportAbort p code entry) := by
  unfold State.reportAbort
  dsimp only
  split
  · exact hk
  · split
    · exact hk
    · split
      · exact hk.abortAlone
      · exact ite hk.updJob (ite hk hk.sendAbortReq)

theorem commitAlone {p : PartId} (hk : s₀.Keeps s) : s₀.Keeps (s.commitAlone p) := by
  unfold State.commitAlone
  dsimp only
  split
  · exact hk
  · exact hk.updJob.applyCommit

theorem stepDone {p : PartId} (hk : s₀.Keeps s) : s₀.Keeps (s.stepDone p) := by
  unfold State.stepDone
  dsimp only
  split
  · exact hk
  · exact ite hk (ite hk.updJob (ite hk.sendReady hk.commitAlone))

theorem commitWaiting {p : PartId} (hk : s₀.Keeps s) : s₀.Keeps (s.commitWaiting p) := ite hk.commitAlone hk

theorem retire {c : CoreId} {seq : Nat} (hk : s₀.Keeps s) : s₀.Keeps (s.retire c seq) := hk.updCore

theorem failQuiet {c : CoreId} {e : Issued} {code : Nat} {entry : Option Nat} (hk : s₀.Keeps s) :
    s₀.Keeps (s.failQuiet c e code entry) := by
  unfold State.failQuiet
  dsimp only
  split
  · exact hk.dropIssued
  · exact ite hk.retire.updCluster.quiesceDone.settle
      (both hk.retire.updCluster.quiesceDone.raise.updStream (fun h₁ => h₁.reportAbort) fun h₁ => h₁.endJob)

theorem failDescriptor {c : CoreId} {e : Issued} {err : DErr} (hk : s₀.Keeps s) : s₀.Keeps (s.failDescriptor c e err) :=
  failQuiet (ite hk hk.raise)

theorem loseCore {c : CoreId} (hk : s₀.Keeps s) : s₀.Keeps (s.loseCore c) := hk.zeroRange.zeroRange

theorem haltStep {p : PartId} (hk : s₀.Keeps s) : s₀.Keeps (s.haltStep p) := hk.stopStreams.cancelNet.mapCores

theorem jobFenced {p : PartId} (hk : s₀.Keeps s) : s₀.Keeps (s.jobFenced p) := by
  unfold State.jobFenced
  dsimp only
  split
  · exact hk
  · exact ite hk.settle (ite (ite hk (ite hk.reportAbort.haltStep hk.reportAbort)) hk.updJob.stopStreams.cancelNet)

theorem fenceCore {c : CoreId} {cause : Nat} {byProof : Bool} (hk : s₀.Keeps s) : s₀.Keeps (s.fenceCore c cause byProof) := by
  have hlost {u : State} (hu : s₀.Keeps u) {f : CoreRail → CoreRail} {m : MC} {b : Nat} :
      s₀.Keeps ({ (((List.range 4).foldl (fun s n => s.setReg (coreRateArr c.val + 4 * n) 0)
        ((u.loseCore c).updRail c f)).setFld (coreFence c.val) 31 31 1 |>.setFld (coreFence c.val) 29 29 b).setFld
        (coreFence c.val) 15 0 cause with mc := m } : State) :=
    update (setFld (setFld (setFld (foldl hu.loseCore.updRail fun _ _ hs => hs.setReg))))
  unfold State.fenceCore
  refine ite hk ?_
  dsimp only
  split
  · exact jobFenced (fixedLog (ite (hlost hk.updCore.updCluster).raise.updRail.setFld.raise (hlost hk.updCore.updCluster).raise))
  · exact fixedLog (ite (hlost hk.updCore).raise.updRail.setFld.raise (hlost hk.updCore).raise)

theorem fenceByErrors {a : Nat} (hk : s₀.Keeps s) : s₀.Keeps (s.fenceByErrors a) := ite hk.fenceCore hk

theorem fenceDue (hk : s₀.Keeps s) : s₀.Keeps s.fenceDue := foldl hk fun _ _ hs => hs.fenceByErrors

theorem ckptOn {h : Nat} (hk : s₀.Keeps s) : s₀.Keeps (s.ckptOn h) := by
  unfold State.ckptOn
  dsimp only
  split
  · exact hk.ckptGo.commitWaiting.fenceDue
  · exact hk.ckptGo.fenceDue

theorem failRead {c : CoreId} {e : Issued} {a : Nat} (hk : s₀.Keeps s) : s₀.Keeps (s.failRead c e a) :=
  hk.uncorrectable.failQuiet.fenceByErrors

theorem finish {c : CoreId} {e : Issued} (hk : s₀.Keeps s) : s₀.Keeps (s.finish c e) := hk.updIssued

theorem access {j : Job} {reads writes : List Nat} (hk : s₀.Keeps s) : s₀.Keeps (s.access j reads writes).1 := by
  unfold State.access
  dsimp only
  split
  · exact hk.touchAll
  · exact hk.touchAll

theorem takeFor {env : MemEnv} {p : PartId} {as : List Nat} (hk : s₀.Keeps s) : s₀.Keeps (s.takeFor env p as) := hk.takeReads

theorem failAccess {c : CoreId} {e : Issued} {x : DErr ⊕ Nat} (hk : s₀.Keeps s) : s₀.Keeps (s.failAccess c e x) := by
  cases x with
  | inl => exact hk.failDescriptor
  | inr => exact hk.failRead

/-! #### Machine/Starter -/

theorem sendAll {p : PartId} {es : List Nat} {epoch type : Nat} {body : List Byte} (hk : s₀.Keeps s) :
    s₀.Keeps (s.sendAll p es epoch type body) := by
  unfold State.sendAll
  split
  · exact foldl hk fun _ _ hs => hs.sendTo
  · exact hk

theorem starterAbort {p : PartId} {cause entry flags : Nat} {targets : List Nat} (hk : s₀.Keeps s) :
    s₀.Keeps (s.starterAbort p cause entry flags targets) := by
  unfold State.starterAbort
  dsimp only
  split
  · exact ite hk (sendAll (updJob (ite (raise (ite hk.raise hk)) (ite hk.raise hk))))
  · exact hk

theorem removeMember {p : PartId} {e cause abortCause : Nat} (hk : s₀.Keeps s) : s₀.Keeps (s.removeMember p e cause abortCause) :=
    by
  unfold State.removeMember
  dsimp only
  split
  · exact ite hk.updCluster (ite hk.updJob (starterAbort (sendAll (ite hk.raise.raise hk.raise))))
  · exact hk

theorem sendCommit {p : PartId} {flags : Nat} (hk : s₀.Keeps s) : s₀.Keeps (s.sendCommit p flags) := by
  unfold State.sendCommit
  dsimp only
  split
  · exact ite hk (sendAll (ite hk.updJob hk.updJob.sendAll))
  · exact hk

theorem weighReady {p : PartId} (hk : s₀.Keeps s) : s₀.Keeps (s.weighReady p) := by
  unfold State.weighReady
  dsimp only
  split
  · split
    · exact hk.raise.starterAbort
    · exact ite hk.sendCommit hk
  · exact hk

theorem tryStart {p : PartId} (hk : s₀.Keeps s) : s₀.Keeps (s.tryStart p) := by
  unfold State.tryStart
  dsimp only
  split
  · exact ite hk.updJob.sendAll hk
  · exact hk

theorem beginFirst {p : PartId} (hk : s₀.Keeps s) : s₀.Keeps (s.beginFirst p) := by
  unfold State.beginFirst
  dsimp only
  split
  · exact ite hk (ite hk.raise.pauseJob (both hk.updCluster.sendAll (fun h₁ => h₁.updJob) fun h₁ => h₁.sendAll))
  · exact hk

theorem restoreRoster {p : PartId} (hk : s₀.Keeps s) : s₀.Keeps (s.restoreRoster p) := by
  unfold State.restoreRoster
  dsimp only
  split
  · exact ite hk.sendAll.starterAbort hk
  · exact hk

theorem removeUnreached {p : PartId} (hk : s₀.Keeps s) : s₀.Keeps (s.removeUnreached p) := by
  unfold State.removeUnreached
  split
  · split
    · exact hk.removeMember
    · exact hk
  · exact hk

theorem afterDecision {p : PartId} (hk : s₀.Keeps s) : s₀.Keeps (s.afterDecision p) := by
  unfold State.afterDecision
  dsimp only
  split
  · split
    · exact hk
    · split
      · exact hk.starterAbort
      · split
        · exact hk.updJob.removeMember
        · split
          · exact hk.updJob.raise.starterAbort
          · exact hk.removeUnreached
  · exact hk

theorem noStarter {p : PartId} (hk : s₀.Keeps s) : s₀.Keeps (s.noStarter p) := by
  unfold State.noStarter
  dsimp only
  split
  · exact hk.raise.updJob.stopStreams.cancelNet.pauseJob.updCluster
  · exact hk

theorem sendJoin {p : PartId} (hk : s₀.Keeps s) : s₀.Keeps (s.sendJoin p) := by
  unfold State.sendJoin
  split
  · exact hk.updCluster.sendCtl
  · exact hk

theorem takeover {p : PartId} (hk : s₀.Keeps s) : s₀.Keeps (s.takeover p) := by
  unfold State.takeover
  dsimp only
  split
  · exact sendAll (updJob (both (sendAll (both hk.raise.updCluster.sendAll.raise (fun h₁ => h₁.raise) id)) (fun h₂ => raise h₂) id))
  · exact hk

/-! #### Machine/Gather -/

theorem serveGather {p : PartId} {m : InMsg} (hk : s₀.Keeps s) : s₀.Keeps (s.serveGather p m) := by
  unfold State.serveGather
  dsimp only
  split
  · split
    · exact hk.updCluster
    · split
      · exact hk.uncorrectable.reportAbort.fenceByErrors
      · exact hk.touchAll.meetReads.sendGather
  · exact hk

theorem serveHeldGathers {p : PartId} (hk : s₀.Keeps s) : s₀.Keeps (s.serveHeldGathers p) := by
  unfold State.serveHeldGathers
  split
  · exact foldl hk.updCluster fun _ _ hs => hs.serveGather
  · exact hk

/-! #### Machine/Net -/

theorem running {c : CoreId} {e : Issued} (hk : s₀.Keeps s) : s₀.Keeps (s.running c e) := hk.updIssued

theorem updRed {p : PartId} {b : Nat} {f : RedRun → RedRun} (hk : s₀.Keeps s) : s₀.Keeps (s.updRed p b f) := hk.updCluster

theorem redSend {p : PartId} {c : Cluster} {r : RedRun} {kind status e i : Nat} {bs : List Byte} (hk : s₀.Keeps s) :
    s₀.Keeps (s.redSend p c r kind status e i bs) := by
  unfold State.redSend
  split
  · exact hk.sendOn
  · exact hk

theorem redResult {p : PartId} {b i : Nat} {bs : List Byte} (hk : s₀.Keeps s) : s₀.Keeps (s.redResult p b i bs) := by
  unfold State.redResult
  dsimp only
  split
  · split
    · exact hk
    · exact both (foldl hk.lputBytes.updJob.updRed (fun _ _ hs => hs.redSend)) (fun h₁ => updIssued (updJob (updCluster h₁))) id
  · exact hk

theorem redStep {p : PartId} {b i : Nat} (hk : s₀.Keeps s) : s₀.Keeps (s.redStep p b i) := by
  unfold State.redStep
  dsimp only
  split
  · exact hk
  · split
    · exact hk
    · split
      · exact hk.updRed
      · split
        · exact hk.updRed.redResult
        · exact hk.updRed.updRed.redSend

theorem redMismatch {p : PartId} {r : RedRun} {m : InMsg} {off : Nat} (hk : s₀.Keeps s) : s₀.Keeps (s.redMismatch p r m off) :=
  hk.sendNet.failDescriptor

theorem takeUp {p : PartId} {m : InMsg} (hk : s₀.Keeps s) : s₀.Keeps (s.takeUp p m) := by
  unfold State.takeUp
  dsimp only
  split
  · split
    · exact hk.updCluster
    · split
      · exact hk.updCluster
      · split
        · exact hk.redMismatch
        · split
          · exact hk.otBad
          · exact ite hk.updCluster hk.updRed.redStep
  · exact hk

theorem execReduce_keeps {c : CoreId} {slot : Fin 16} {env : MemEnv} (hk : s₀.Keeps s) : KeepsNext s₀ (execReduce c slot env s) :=
    by
  -- the address is held apart, since the kernel would compute with its 48 bits
  obtain ⟨address, haddress⟩ : ∃ f, nA0 = f := ⟨nA0, rfl⟩
  unfold execReduce
  rw [haddress]
  split
  · exact hk.next
  · dsimp only
    split
    next heq => exact (hk.takeFor.access.of_fst heq).failAccess.next
    next heq =>
      have hread := hk.takeFor.access.of_fst heq
      split
      · exact hread.lputBytes.updJob.finish.next
      · exact next (foldl (foldl hread.running.updCluster.updCluster fun _ _ hs => hs.redStep) fun _ _ hs => hs.takeUp)

theorem execReduceUp_keeps {p : PartId} {e : EntryId} {vc : VcId} (hk : s₀.Keeps s) : KeepsNext s₀ (execReduceUp p e vc s) := by
  unfold execReduceUp
  dsimp only
  split
  · exact hk.next
  next heq => exact (hk.popMsg heq).takeUp.next

theorem execReduceDown_keeps {p : PartId} {e : EntryId} {vc : VcId} (hk : s₀.Keeps s) : KeepsNext s₀ (execReduceDown p e vc s) := by
  unfold execReduceDown
  split
  · exact hk.next
  next heq =>
    split
    · exact (hk.popMsg heq).next
    · split
      · exact (hk.popMsg heq).next
      · split
        · exact (hk.popMsg heq).failDescriptor.next
        · split
          · exact (hk.popMsg heq).redMismatch.next
          · exact (hk.popMsg heq).redResult.next

theorem execGather_keeps {c : CoreId} {slot : Fin 16} {env : MemEnv} (hk : s₀.Keeps s) : KeepsNext s₀ (execGather c slot env s) :=
    by
  unfold execGather
  dsimp only
  split
  · exact hk.next
  · split
    · split
      · exact hk.takeFor.running.sendGather.next
      · split
        · exact hk.takeFor.failDescriptor.next
        · split
          next heq => exact (hk.takeFor.meetReads.access.of_fst heq).failAccess.next
          next heq => exact (hk.takeFor.meetReads.access.of_fst heq).lputBytes.finish.next
    · exact hk.failDescriptor.next

theorem execGatherReq_keeps {p : PartId} {e : EntryId} {vc : VcId} (hk : s₀.Keeps s) : KeepsNext s₀ (execGatherReq p e vc s) := by
  unfold execGatherReq
  split
  · exact hk.next
  next heq => exact (hk.popMsg heq).serveGather.next

theorem execGatherReply_keeps {p : PartId} {e : EntryId} {vc : VcId} (hk : s₀.Keeps s) : KeepsNext s₀ (execGatherReply p e vc s) :=
    by
  unfold execGatherReply
  dsimp only
  split
  · exact hk.next
  next heq =>
    split
    · split
      · exact (hk.popMsg heq).sendGather.failDescriptor.next
      · split
        · exact next (failDescriptor (ite (hk.popMsg heq).freeGheld (hk.popMsg heq)))
        · split
          · exact next (failDescriptor (ite (hk.popMsg heq).freeGheld (hk.popMsg heq)))
          · split
            · exact next (failDescriptor (ite (hk.popMsg heq).freeGheld (hk.popMsg heq)))
            · split
              next heq1 => exact ((ite (hk.popMsg heq).freeGheld (hk.popMsg heq)).access.of_fst heq1).failAccess.next
              next heq1 => exact ((ite (hk.popMsg heq).freeGheld (hk.popMsg heq)).access.of_fst heq1).lputBytes.finish.next
    · exact (hk.popMsg heq).next

theorem sendGo {p : PartId} {peer vc n : Nat} (hk : s₀.Keeps s) : s₀.Keeps (State.sendGo p peer vc n s) := by
  induction n generalizing s with
  | zero => exact hk
  | succ n ih =>
    unfold State.sendGo
    split
    · dsimp only
      split
      · split
        · exact hk.updCluster.sendNet.failDescriptor
        · split
          next heq => exact (hk.updCluster.access.of_fst heq).failAccess
          next heq => exact ih (hk.updCluster.access.of_fst heq).sendNet.updCluster
      · exact hk
    · exact hk

theorem execSend_keeps {c : CoreId} {slot : Fin 16} {env : MemEnv} (hk : s₀.Keeps s) : KeepsNext s₀ (execSend c slot env s) := by
  unfold execSend
  dsimp only
  split
  · exact hk.next
  · split
    · exact hk.failDescriptor.next
    · exact next (sendGo (ite hk.takeFor.running hk.takeFor.running.count))

theorem execRecv_keeps {c : CoreId} {slot : Fin 16} (hk : s₀.Keeps s) : KeepsNext s₀ (execRecv c slot s) := by
  unfold execRecv
  split
  · exact hk.next
  · exact hk.running.next

theorem execPipePost_keeps {p : PartId} {e : EntryId} {vc : VcId} (hk : s₀.Keeps s) : KeepsNext s₀ (execPipePost p e vc s) := by
  unfold execPipePost
  dsimp only
  split
  · exact hk.next
  next heq => exact (hk.popMsg heq).updCluster.sendGo.next

theorem execPipe_keeps {p : PartId} {e : EntryId} {vc : VcId} (hk : s₀.Keeps s) : KeepsNext s₀ (execPipe p e vc s) := by
  unfold execPipe
  dsimp only
  split
  · exact hk.next
  next heq =>
    split
    · exact hk.next
    · split
      · split
        · exact next (failDescriptor (ite (hk.popMsg heq) (hk.popMsg heq).sendNet))
        · split
          next heq2 => exact ((hk.popMsg heq).access.of_fst heq2).failAccess.next
          next heq2 => exact ((hk.popMsg heq).access.of_fst heq2).lputBytes.sendNet.count64.updCluster.finish.next
      · exact (hk.popMsg heq).next

theorem execPipeDone_keeps {p : PartId} {e : EntryId} {vc : VcId} (hk : s₀.Keeps s) : KeepsNext s₀ (execPipeDone p e vc s) := by
  unfold execPipeDone
  split
  · exact hk.next
  next heq =>
    split
    · exact (hk.popMsg heq).next
    · split
      · exact (hk.popMsg heq).failDescriptor.next
      · exact (hk.popMsg heq).finish.next

theorem execNetStoreRead_keeps {c : CoreId} {slot : Fin 16} (hk : s₀.Keeps s) : KeepsNext s₀ (execNetStoreRead c slot s) := by
  unfold execNetStoreRead
  dsimp only
  split
  · exact hk.next
  · split
    · exact hk.failDescriptor.next
    · split
      next heq => exact (hk.access.of_fst heq).failAccess.next
      next heq => exact (hk.access.of_fst heq).running.postRead.next

theorem execNetStoreWrite_keeps {c : CoreId} {slot : Fin 16} {env : MemEnv} (hk : s₀.Keeps s) :
    KeepsNext s₀ (execNetStoreWrite c slot env s) := by
  unfold execNetStoreWrite
  dsimp only
  split
  · exact hk.next
  · split
    · exact hk.failDescriptor.next
    · split
      next heq => exact (hk.takeFor.access.of_fst heq).failAccess.next
      next heq => exact (hk.takeFor.access.of_fst heq).running.postWrite.next

/-! #### Machine/Admit -/

theorem takeBatch {c : CoreId} {e : Issued} {j : Job} {head tokens : Nat} {ad : Admission} (hk : s₀.Keeps s) :
    s₀.Keeps (s.takeBatch c e j head tokens ad) := by
  unfold State.takeBatch
  dsimp only
  split
  · exact hk.failDescriptor
  · split
    next heq => exact (hk.access.of_fst heq).failAccess
    next heq => exact (hk.access.of_fst heq).meetReads.lputBytes.lputBytes.updJob.finish

theorem execMbAdmit_keeps {c : CoreId} {slot : Fin 16} {env : MemEnv} (hk : s₀.Keeps s) : KeepsNext s₀ (execMbAdmit c slot env s) :=
    by
  unfold execMbAdmit
  dsimp only
  split
  · exact hk.next
  · split
    next heq => exact (hk.takeFor.access.of_fst heq).failAccess.next
    next heq =>
      split
      · exact (hk.takeFor.access.of_fst heq).failDescriptor.next
      · split
        · exact (hk.takeFor.access.of_fst heq).failDescriptor.next
        · split
          next heq1 => exact ((hk.takeFor.access.of_fst heq).access.of_fst heq1).failAccess.next
          next heq1 =>
            split
            · exact ((hk.takeFor.access.of_fst heq).access.of_fst heq1).meetReads.failDescriptor.next
            · split
              · exact next (failDescriptor (both ((hk.takeFor.access.of_fst heq).access.of_fst heq1).meetReads (fun h₁ => h₁.updJob)
                  id))
              · exact next (takeBatch (both (both ((hk.takeFor.access.of_fst heq).access.of_fst heq1).meetReads
                  (fun h₁ => h₁.updJob) id) (fun h₂ => raise h₂) id))

/-! #### Machine/Census -/

theorem restoreFixed {b : List Byte} (hk : s₀.Keeps s) : s₀.Keeps (s.restoreFixed b) := hk.update

/-! #### Machine/Streams -/

theorem matReport {c : CoreId} {x : CtxId} {u : MatUnit} {count : Nat} {failed retried : Bool} (hk : s₀.Keeps s) :
    s₀.Keeps (s.matReport c x u count failed retried) :=
  hk.setReg.setReg

theorem fetchDesc {j : Job} {x : ListRec} {i : Nat} (hk : s₀.Keeps s) : s₀.Keeps (s.fetchDesc j x i).2 := by
  unfold State.fetchDesc
  dsimp only
  split
  · exact hk
  · exact hk.update

theorem endFault {c : CoreId} {x : CtxId} {p : PartId} {j : Job} {l : Nat} {r : ListRec} {d : List Word} {i : Nat} (hk : s₀.Keeps s)
    :
    s₀.Keeps (s.endFault c x p j l r d i) :=
  ite hk.failDescriptor hk

theorem updGbSlot {v : Serve} {k : Nat} {f : GbSlot → GbSlot} (hk : s₀.Keeps s) : s₀.Keeps (s.updGbSlot v k f) := hk.updLCtx

theorem spillIssues {j : Job} {e : Issued} (hk : s₀.Keeps s) : s₀.Keeps (s.spillIssues j e) := by
  unfold State.spillIssues
  dsimp only
  split
  · split
    · exact ite hk.updGbSlot hk
    · exact hk
  · exact hk

theorem issueInto {c : CoreId} {x : CtxId} {e : Issued} (hk : s₀.Keeps s) : s₀.Keeps (s.issueInto c x e) := by
  unfold State.issueInto
  exact hk.updCore.updStream

theorem tryIssue {c : CoreId} {x : CtxId} {p : PartId} {j : Job} {l : Nat} {r : ListRec} {i : Nat} {d : List Word} (hk : s₀.Keeps s)
    :
    s₀.Keeps (s.tryIssue c x p j l r i d) := by
  unfold State.tryIssue
  dsimp only
  split
  · split
    · exact hk.updStream
    · split
      · exact hk.updStream
      · split
        · split
          · exact hk.matReport.failDescriptor
          · exact hk.failDescriptor
        · split
          · split
            · exact hk.matReport.failDescriptor
            · exact hk.failDescriptor
          · split
            · split
              · exact hk.matReport.failDescriptor
              · exact hk.failDescriptor
            · split
              next heq1 => exact (hk.access.of_fst heq1).failAccess
              next heq1 =>
                split
                · split
                  · exact (hk.access.of_fst heq1).meetReads.matReport.failDescriptor
                  · exact (hk.access.of_fst heq1).meetReads.failDescriptor
                · exact endFault (both (hk.access.of_fst heq1).meetReads.issueInto.spillIssues (fun h₁ => h₁.sendNet) id)
  · split
    · exact hk.updStream
    · split
      · exact hk.updStream
      · split
        · split
          · exact hk.matReport.failDescriptor
          · exact hk.failDescriptor
        · split
          · split
            · exact hk.matReport.failDescriptor
            · exact hk.failDescriptor
          · split
            · split
              · exact hk.matReport.failDescriptor
              · exact hk.failDescriptor
            · split
              next heq1 => exact (hk.access.of_fst heq1).failAccess
              next heq1 =>
                split
                · split
                  · exact (hk.access.of_fst heq1).meetReads.matReport.failDescriptor
                  · exact (hk.access.of_fst heq1).meetReads.failDescriptor
                · exact endFault (both (hk.access.of_fst heq1).meetReads.issueInto.spillIssues (fun h₁ => h₁.sendNet) id)

theorem execDescriptorIssue_keeps {c : CoreId} {x : CtxId} (hk : s₀.Keeps s) : KeepsNext s₀ (execDescriptorIssue c x s) := by
  unfold execDescriptorIssue
  dsimp only
  split
  · exact hk.next
  · split
    next heq => exact (hk.access.of_fst heq).failAccess.next
    next heq =>
      split
      · exact (hk.access.of_fst heq).meetReads.fetchDesc.updStream.next
      · exact next (both (hk.access.of_fst heq).meetReads.fetchDesc id fun h₁ => h₁.tryIssue)

theorem execStreamWaitLong_keeps {c : CoreId} {x : CtxId} (hk : s₀.Keeps s) : KeepsNext s₀ (execStreamWaitLong c x s) := by
  unfold execStreamWaitLong
  dsimp only
  split
  · split
    · exact hk.raise.updStream.next
    · exact hk.next
  · exact hk.next

theorem execCounterSignalRemote_keeps {p : PartId} {k : Nat} (hk : s₀.Keeps s) : KeepsNext s₀ (execCounterSignalRemote p k s) := by
  unfold execCounterSignalRemote
  split
  · exact hk.next
  · exact hk.updPart.signal.next

theorem complete {c : CoreId} {e : Issued} (hk : s₀.Keeps s) : s₀.Keeps (s.complete c e) :=
  dropIssued (ite hk.perform.count hk.perform)

theorem execDescriptorComplete_keeps {c : CoreId} {k : Nat} (hk : s₀.Keeps s) : KeepsNext s₀ (execDescriptorComplete c k s) := by
  unfold execDescriptorComplete
  split
  · exact hk.next
  · split
    · exact hk.complete.settle.next
    · exact hk.next

theorem synDone {c : CoreId} {e : Issued} (hk : s₀.Keeps s) : s₀.Keeps (s.synDone c e) := by
  unfold State.synDone
  exact hk.complete.updStream.settle

theorem synAct {e : Issued} {f : LCtx → LCtx} (hk : s₀.Keeps s) : s₀.Keeps (s.synAct e f) := by
  unfold State.synAct
  split
  · exact hk.updLCtx
  · exact hk

theorem execSynNop_keeps {c : CoreId} {x : CtxId} (hk : s₀.Keeps s) : KeepsNext s₀ (execSynNop c x s) := by
  unfold execSynNop
  split
  · exact hk.next
  · exact hk.synDone.next

theorem execSynSet_keeps {c : CoreId} {x : CtxId} (hk : s₀.Keeps s) : KeepsNext s₀ (execSynSet c x s) := by
  unfold execSynSet
  split
  · exact hk.next
  · exact hk.synAct.synDone.next

theorem execSynAdd_keeps {c : CoreId} {x : CtxId} (hk : s₀.Keeps s) : KeepsNext s₀ (execSynAdd c x s) := by
  unfold execSynAdd
  split
  · exact hk.next
  · exact hk.synAct.synDone.next

theorem execFenceStream_keeps {c : CoreId} {x : CtxId} (hk : s₀.Keeps s) : KeepsNext s₀ (execFenceStream c x s) := by
  unfold execFenceStream
  split
  · exact hk.next
  · split
    · exact hk.synDone.next
    · exact hk.next

theorem execFenceCore_keeps {c : CoreId} {x : CtxId} (hk : s₀.Keeps s) : KeepsNext s₀ (execFenceCore c x s) := by
  unfold execFenceCore
  split
  · exact hk.next
  · split
    · exact hk.synDone.next
    · exact hk.next

theorem park {c : CoreId} {e : Issued} (hk : s₀.Keeps s) : s₀.Keeps (s.park c e) := hk.complete.updStream

theorem execStepEnd_keeps {c : CoreId} {x : CtxId} (hk : s₀.Keeps s) : KeepsNext s₀ (execStepEnd c x s) := by
  unfold execStepEnd
  split
  · exact hk.next
  · split
    · exact hk.park.settle.next
    · exact hk.next

theorem allEnded {p : PartId} (hk : s₀.Keeps s) : s₀.Keeps (s.allEnded p) := by
  unfold State.allEnded
  split
  · exact hk
  · split
    · exact hk
    · split
      · exact hk.finishJob
      · exact ite hk.suspendJob hk.startStreams
      · exact ite hk.stepDone.fenceDue hk

theorem execEndRun_keeps {c : CoreId} {x : CtxId} (hk : s₀.Keeps s) : KeepsNext s₀ (execEndRun c x s) := by
  unfold execEndRun
  split
  · exact hk.next
  · split
    · exact hk.park.settle.allEnded.next
    · exact hk.next

theorem execUnitMap_keeps {c : CoreId} {x : CtxId} (hk : s₀.Keeps s) : KeepsNext s₀ (execUnitMap c x s) := by
  unfold execUnitMap
  split
  · exact hk.next
  · exact hk.synDone.next

theorem execUnitBegin_keeps {c : CoreId} {x : CtxId} (hk : s₀.Keeps s) : KeepsNext s₀ (execUnitBegin c x s) := by
  unfold execUnitBegin
  dsimp only
  split
  · exact hk.next
  · exact next (synDone (ite hk hk.updStream))

theorem execStreamsRestart_keeps {p : PartId} (hk : s₀.Keeps s) : KeepsNext s₀ (execStreamsRestart p s) := by
  unfold execStreamsRestart
  split
  · split
    · exact hk.startStreams.next
    · exact hk.next
  · exact hk.next

/-! #### Machine/Tables -/

theorem fillTable {j : Job} {l n : Nat} {img : List Byte} (hk : s₀.Keeps s) : s₀.Keeps (s.fillTable j l n img) := by
  unfold State.fillTable
  dsimp only
  split
  · exact hk
  · exact updLCtx (ite hk.put hk.put.updCore)

theorem meetHead {c : CoreId} {guest : Bool} {n : Nat} (hk : s₀.Keeps s) : s₀.Keeps (s.meetHead c guest n) := ite hk.correctedAt hk

theorem failHead {c : CoreId} {e : Issued} (hk : s₀.Keeps s) : s₀.Keeps (s.failHead c e) := by
  unfold State.failHead
  dsimp only [State.fresh]
  exact hk.update.raise.update.setFld.countFld.setReg.setReg.failQuiet.fenceByErrors

theorem copyPreloads {j : Job} {sel : Preload → Bool} (hk : s₀.Keeps s) : s₀.Keeps (s.copyPreloads j sel).1 := by
  refine foldl_fst hk fun acc _ hacc => ?_
  dsimp only
  split
  · exact hacc
  · split
    · exact hacc.touchAll.touchAll
    · exact hacc.touchAll.touchAll.meetReads.lputBytes

theorem dropTables {j : Job} (hk : s₀.Keeps s) : s₀.Keeps (s.dropTables j) := foldl hk fun _ _ hs => hs.updLCtx

theorem loadTables {j : Job} {sel : TabRec → Bool} (hk : s₀.Keeps s) : s₀.Keeps (s.loadTables j sel).1 := by
  refine foldl_fst hk fun acc _ hacc => ?_
  dsimp only
  split
  · exact hacc
  · split
    · exact hacc
    · split
      · exact hacc.meetReads.fillTable
      · exact hacc.meetReads

theorem zeroResident {j : Job} {l : Nat} (hk : s₀.Keeps s) : s₀.Keeps (s.zeroResident j l) := foldl hk fun _ _ hs => hs.zeroRange

/-! #### Machine/Decision -/

theorem writeShadowBank {p : PartId} {n : NumState} {go : Bool} {norm : Nat} (hk : s₀.Keeps s) :
    s₀.Keeps (s.writeShadowBank p n go norm) := by
  unfold State.writeShadowBank
  dsimp only
  split
  · exact hk
  · exact hk.putBytes

theorem writeConsts {p : PartId} {clip : Nat} (hk : s₀.Keeps s) : s₀.Keeps (s.writeConsts p clip) := by
  unfold State.writeConsts
  dsimp only
  split
  · exact hk
  · exact foldl (foldl hk (fun _ _ hs => hs.lputBytes)) fun _ _ hs => foldl hs (fun _ _ hs => ite hs.lputBytes.lputBytes hs)

theorem decideSkip {p : PartId} {j : Job} (hk : s₀.Keeps s) : s₀.Keeps (s.decideSkip p j) :=
  fenceDue (stepDone (updJob (writeShadowBank (ite hk.raise.raise hk.raise))))

theorem decideProceed {p : PartId} {j : Job} (hk : s₀.Keeps s) : s₀.Keeps (s.decideProceed p j) := by
  unfold State.decideProceed
  dsimp only
  split
  · exact foldl hk.raise.writeConsts.writeShadowBank.updJob (fun _ _ hs => by
      split
      · exact hs
      · exact hs.updLCtx)
  · exact foldl hk.writeConsts.writeShadowBank.updJob (fun _ _ hs => by
      split
      · exact hs
      · exact hs.updLCtx)

theorem execDecisionSequence_keeps {p : PartId} {env : MemEnv} (hk : s₀.Keeps s) : KeepsNext s₀ (execDecisionSequence p env s) := by
  unfold execDecisionSequence
  dsimp only
  split
  · exact hk.next
  · split
    · exact hk.next
    · split
      · exact hk.takeReads.touchAll.uncorrectable.reportAbort.fenceByErrors.next
      · exact next (both hk.takeReads.touchAll (fun h₁ => h₁.decideSkip) fun h₁ => h₁.decideProceed)

theorem setModes {c : CoreId} {j : Job} {l : Nat} (hk : s₀.Keeps s) : s₀.Keeps (s.setModes c j l) := hk.updCore

theorem checkUnits {p : PartId} (hk : s₀.Keeps s) : s₀.Keeps (s.checkUnits p) := by
  unfold State.checkUnits
  split
  · exact hk
  · exact foldl hk fun _ _ hs => ite hs.fenceCore hs

theorem remapFailed {p : PartId} {l : Nat} (hk : s₀.Keeps s) : s₀.Keeps (s.remapFailed p l) := by
  unfold State.remapFailed
  dsimp only
  split
  · exact pauseJob (ite hk.raise hk.raise.updCluster.sendCtl)
  · exact hk.raise.pauseJob

theorem remapLost {p : PartId} {j : Job} {l : Nat} (hk : s₀.Keeps s) : s₀.Keeps (s.remapLost p j l) := by
  unfold State.remapLost
  dsimp only
  split
  · exact hk
  · split
    · exact pauseJob (foldl hk (fun _ _ hs => hs.raise))
    · exact both (updJob (foldl hk (fun _ _ hs => hs.raise))) id fun h₁ => reportOwed h₁

theorem remapTo {p : PartId} {l : Nat} {old : CoreId} {v : Serve} (hk : s₀.Keeps s) : s₀.Keeps (s.remapTo p l old v) := by
  unfold State.remapTo
  dsimp only
  split
  · exact hk.updJob.updCore.raise
  · split
    next heq => exact ((remapLost (both hk.updJob.updCore.raise.touch.updLCtx id fun h₁ => h₁.setModes)).copyPreloads.of_fst
        heq).uncorrectable.fenceByErrors.updJob.updLCtx.pauseJob
    next heq =>
      split
      next heq1 => exact (((remapLost (both hk.updJob.updCore.raise.touch.updLCtx id fun h₁ => h₁.setModes)).copyPreloads.of_fst
          heq).loadTables.of_fst heq1).uncorrectable.fenceByErrors.updJob.updLCtx.pauseJob
      next heq1 => exact (((remapLost (both hk.updJob.updCore.raise.touch.updLCtx id fun h₁ => h₁.setModes)).copyPreloads.of_fst
          heq).loadTables.of_fst heq1).raise.updJob.updLCtx.pauseJob
      next heq1 => exact (((remapLost (both hk.updJob.updCore.raise.touch.updLCtx id fun h₁ => h₁.setModes)).copyPreloads.of_fst
          heq).loadTables.of_fst heq1).zeroResident

theorem remapAll {p : PartId} {l : List (Nat × CoreId)} (hk : s₀.Keeps s) : s₀.Keeps (State.remapAll p l s) := by
  induction l generalizing s with
  | nil => exact hk
  | cons _ l ih =>
    unfold State.remapAll
    split
    · exact hk
    · split
      · exact ih hk.remapTo
      · split
        · exact ih hk.remapTo
        · exact hk.remapFailed

theorem execCoreRemap_keeps {p : PartId} (hk : s₀.Keeps s) : KeepsNext s₀ (execCoreRemap p s) := by
  unfold execCoreRemap
  dsimp only
  split
  · exact hk.next
  · split
    · exact hk.next
    · split
      · exact hk.next
      · split
        · exact hk.remapFailed.next
        · split
          · exact hk.remapAll.checkUnits.next
          · split
            · exact hk.remapAll.checkUnits.updJob.next
            · exact hk.remapAll.checkUnits.next

/-! #### Machine/RegView -/

/-- A read takes its latch away, or sets the latch of the upper half (R14, R302). -/
theorem regRead {o : Nat} (hk : s₀.Keeps s) : s₀.Keeps (s.regRead o).2 := by
  unfold State.regRead
  split
  · exact hk.setLatches (keysRise_mapErase o)
  · dsimp only
    split
    · exact hk.setReg.setReg
    · split
      · exact hk.setLatches (keysRise_mapSet _ _)
      · split
        · exact hk.update
        · exact hk

/-! #### Machine/Images -/

theorem loadNext {h : Nat} (hk : s₀.Keeps s) : s₀.Keeps (s.loadNext h) := by
  unfold State.loadNext
  split
  · exact hk
  · split
    · exact ite hk.postRead hk
    · exact hk

theorem loadBegin {h : Nat} (hk : s₀.Keeps s) : s₀.Keeps (s.loadBegin h) := hk.updHandle.loadNext

theorem loadDone {p : PartId} {h : Nat} (hk : s₀.Keeps s) : s₀.Keeps (s.loadDone p h) := ite hk.opDone.sendRebalanced hk.opDone

theorem loadParts {p : PartId} {h : Nat} (hk : s₀.Keeps s) : s₀.Keeps (s.loadParts p h) := by
  unfold State.loadParts
  dsimp only
  split
  · exact hk
  · exact ite hk.updHandle.loadDone hk.updHandle.loadNext

theorem loadRoster {p : PartId} (hk : s₀.Keeps s) : s₀.Keeps (s.loadRoster p) := by
  unfold State.loadRoster
  split
  · exact hk.loadParts
  · exact hk

theorem loadMismatch {p : PartId} {h field unit : Nat} (hk : s₀.Keeps s) : s₀.Keeps (s.loadMismatch p h field unit) := by
  unfold State.loadMismatch
  dsimp only
  split
  · exact ite hk.raise.opDone.sendAbortReq hk.raise.opDone
  · exact hk.raise.opDone

theorem loadGot {p : PartId} {h : Nat} {bs : List Byte} (hk : s₀.Keeps s) : s₀.Keeps (s.loadGot p h bs) := by
  unfold State.loadGot
  dsimp only
  split
  · split
    · exact hk
    · split
      · split
        · exact hk.updHandle.loadMismatch
        · exact hk.updHandle.updJob.updHandle.loadNext
      · split
        · exact hk.updHandle.putBytes.updJob.loadParts
        · exact both hk.updHandle.putBytes.updJob.updHandle id fun h₁ => h₁.loadParts
      · split
        · exact hk.updHandle.loadMismatch
        · exact ite (loadDone (updHandle (ite hk.updHandle hk.updHandle.putBytes)))
            (loadNext (updHandle (ite hk.updHandle hk.updHandle.putBytes)))
  · exact hk

/-! #### Machine/CommitMsgs -/

theorem execStartStep_keeps {p : PartId} {e : EntryId} (hk : s₀.Keeps s) : KeepsNext s₀ (execStartStep p e s) := by
  unfold execStartStep
  dsimp only
  split
  · exact hk.next
  next heq =>
    split
    · split
      · exact (hk.popMsg heq).next
      · split
        · exact (hk.popMsg heq).applyRoster.updHandle.updJob.updCluster.restartWhenClear.removeUnreached.next
        · exact (hk.popMsg heq).updHandle.updJob.updCluster.restartWhenClear.removeUnreached.next
    · exact (hk.popMsg heq).next

theorem execReady_keeps {p : PartId} {e : EntryId} (hk : s₀.Keeps s) : KeepsNext s₀ (execReady p e s) := by
  unfold execReady
  dsimp only
  split
  · exact hk.next
  next heq =>
    split
    · split
      · exact hk.next
      · split
        · exact (hk.popMsg heq).next
        · exact (hk.popMsg heq).updJob.weighReady.next
    · exact (hk.popMsg heq).next

theorem execAbortReq_keeps {p : PartId} {e : EntryId} (hk : s₀.Keeps s) : KeepsNext s₀ (execAbortReq p e s) := by
  unfold execAbortReq
  dsimp only
  split
  · exact hk.next
  next heq =>
    split
    · split
      · exact hk.next
      · split
        · exact (hk.popMsg heq).next
        · split
          · exact (hk.popMsg heq).removeMember.next
          · exact next (starterAbort (ite (hk.popMsg heq).raise (hk.popMsg heq)))
    · exact (hk.popMsg heq).next

theorem execCommit_keeps {p : PartId} {e : EntryId} (hk : s₀.Keeps s) : KeepsNext s₀ (execCommit p e s) := by
  unfold execCommit
  dsimp only
  split
  · exact hk.next
  next heq =>
    split
    · split
      · split
        · split
          · exact (hk.popMsg heq).updJob.applyRoster.next
          · exact (hk.popMsg heq).next
        · exact (hk.popMsg heq).next
      · split
        · exact (hk.popMsg heq).applyCommit.serveHeldGathers.afterDecision.fenceDue.next
        · exact (hk.popMsg heq).otBad.next
    · exact (hk.popMsg heq).next

theorem execAbort_keeps {p : PartId} {e : EntryId} (hk : s₀.Keeps s) : KeepsNext s₀ (execAbort p e s) := by
  unfold execAbort
  dsimp only
  split
  · exact hk.next
  next heq =>
    split
    · split
      · split
        · split
          · exact (hk.popMsg heq).updJob.applyRoster.next
          · exact (hk.popMsg heq).next
        · exact (hk.popMsg heq).next
      · split
        · exact (hk.popMsg heq).applyAbort.serveHeldGathers.afterDecision.fenceDue.next
        · exact (hk.popMsg heq).otBad.next
    · exact (hk.popMsg heq).next

theorem execCommitTimeout_keeps {p : PartId} (hk : s₀.Keeps s) : KeepsNext s₀ (execCommitTimeout p s) := by
  unfold execCommitTimeout
  dsimp only
  split
  · split
    · exact hk.next
    · split
      · exact hk.next
      · split
        · exact hk.raise.updJob.removeMember.next
        · exact hk.raise.updJob.starterAbort.next
  · exact hk.next

theorem execCkptReq_keeps {p : PartId} {e : EntryId} (hk : s₀.Keeps s) : KeepsNext s₀ (execCkptReq p e s) := by
  unfold execCkptReq
  dsimp only
  split
  · exact hk.next
  next heq => exact (hk.popMsg heq).updJob.next

theorem execCkptRead_keeps {p : PartId} {e : EntryId} (hk : s₀.Keeps s) : KeepsNext s₀ (execCkptRead p e s) := by
  unfold execCkptRead
  dsimp only
  split
  · exact hk.next
  next heq =>
    split
    · exact (hk.popMsg heq).updJob.next
    · exact (hk.popMsg heq).next

theorem execRebalanced_keeps {p : PartId} {e : EntryId} (hk : s₀.Keeps s) : KeepsNext s₀ (execRebalanced p e s) := by
  unfold execRebalanced
  dsimp only
  split
  · exact hk.next
  next heq =>
    split
    · split
      · exact hk.next
      · split
        · exact (hk.popMsg heq).next
        · split
          · exact (hk.popMsg heq).raise.starterAbort.next
          · exact (hk.popMsg heq).updJob.tryStart.next
    · exact (hk.popMsg heq).next

theorem hostOp {p : PartId} {op : Nat} (hk : s₀.Keeps s) : s₀.Keeps (s.hostOp p op) := by
  unfold State.hostOp
  dsimp only
  split
  · exact ite hk (ite hk.updJob (ite (ite hk.raise hk.updJob.updHandle.beginFirst.tryStart)
      (ite hk.updJob (ite hk.updJob.sendCommit hk.updJob.starterAbort))))
  · exact hk

theorem execHostOp_keeps {p : PartId} {e : EntryId} (hk : s₀.Keeps s) : KeepsNext s₀ (execHostOp p e s) := by
  unfold execHostOp
  split
  · exact hk.next
  next heq => exact (hk.popMsg heq).hostOp.next

theorem execUnitXfer_keeps {p : PartId} {e : EntryId} {vc : VcId} (hk : s₀.Keeps s) : KeepsNext s₀ (execUnitXfer p e vc s) := by
  unfold execUnitXfer
  dsimp only
  split
  · exact hk.next
  next heq =>
    split
    · exact (hk.popMsg heq).next
    · split
      · exact (hk.popMsg heq).raise.reportAbort.next
      · exact (hk.popMsg heq).placeUnit.rebalanceEnd.next

/-! #### Machine/Nvm -/

theorem writeHeader {fw cfg : Nat} (hk : s₀.Keeps s) : s₀.Keeps (s.writeHeader fw cfg) := by
  unfold State.writeHeader
  dsimp only
  split
  · exact hk.nvmPut
  · exact hk.nvmPut

theorem writeFixed (hk : s₀.Keeps s) : s₀.Keeps s.writeFixed := by
  unfold State.writeFixed
  dsimp only
  split
  · exact hk.nvmPut
  · exact hk.nvmPut

theorem logEntry {b : List Byte} (hk : s₀.Keeps s) : s₀.Keeps (s.logEntry b) := update (nvmPut (ite hk.nvmErase hk))

theorem logRecord {n : Nat} {b : List Byte} (hk : s₀.Keeps s) : s₀.Keeps (s.logRecord n b) := by
  induction n generalizing b s with
  | zero => exact hk
  | succ n ih =>
    unfold State.logRecord
    exact ite hk (ih hk.logEntry)

theorem updHead {f : NvmWork → NvmWork} (hk : s₀.Keeps s) : s₀.Keeps (s.updHead f) := hk.update

theorem nvmGo (hk : s₀.Keeps s) : s₀.Keeps s.nvmGo := by
  unfold State.nvmGo
  dsimp only
  split
  · exact hk
  · split
    · split
      · exact ite hk.updHead.updHandle.update hk
      · exact hk
    · exact hk

theorem nvmNext (hk : s₀.Keeps s) : s₀.Keeps s.nvmNext := hk.update.nvmGo

theorem nvmBegin {base blocks : Nat} {data : List Byte} (hk : s₀.Keeps s) : s₀.Keeps (s.nvmBegin base blocks data) :=
  hk.updHead.nvmGo

theorem nvmPage {w : NvmWork} (hk : s₀.Keeps s) : s₀.Keeps (s.nvmPage w) := by
  unfold State.nvmPage
  dsimp only
  split
  · exact hk.nvmErase.updHead
  · split
    · exact hk.nvmPut.updHead.updHandle
    · exact hk.nvmPut.updHead

/-! #### Machine/Requests -/

theorem setError {i : Nat} {e : List Byte} (hk : s₀.Keeps s) : s₀.Keeps (s.setError i e) :=
  ite hk.updIface (ite hk.update hk.update)

theorem reqFail {i b status detail : Nat} (hk : s₀.Keeps s) : s₀.Keeps (s.reqFail i b status detail) := hk.setError.update

theorem reqOk {d : List Byte} (hk : s₀.Keeps s) : s₀.Keeps (s.reqOk d) := hk.update

theorem standardRequest {r : Setup} (hk : s₀.Keeps s) : s₀.Keeps (s.standardRequest r) := by
  unfold State.standardRequest
  dsimp only
  split
  · split
    · exact hk.reqOk
    · exact hk.update
  · exact hk

theorem request {x : Setup} {b : Nat} {q : ReqForm} {f : Nat → State → State} (hk : s₀.Keeps s)
    (hf : ∀ i s, s₀.Keeps s → s₀.Keeps (f i s)) : s₀.Keeps (s.request x b q f) :=
  ite hk (ite hk.standardRequest (ite hk.reqFail (ite hk.reqFail (ite hk.reqFail (hf _ _ hk)))))

theorem openHandle {f : Nat → Handle} (hk : s₀.Keeps s) : s₀.Keeps (s.openHandle f) := hk.update

theorem startOk {h : Nat} (hk : s₀.Keeps s) : s₀.Keeps (s.startOk h) := hk.reqOk

theorem startNo {status : Nat} (hk : s₀.Keeps s) : s₀.Keeps (s.startNo status) := hk.reqOk

theorem opStart {x : Setup} {kind : Nat} {check : State → Except (Nat × State) (State × Handle)} {go : Nat → State → State}
    (hk : s₀.Keeps s) (herr : ∀ s t n, s₀.Keeps s → check s = .error (n, t) → s₀.Keeps t)
    (hok : ∀ s t y, s₀.Keeps s → check s = .ok (t, y) → s₀.Keeps t) (hgo : ∀ n s, s₀.Keeps s → s₀.Keeps (go n s)) :
    s₀.Keeps (s.opStart x kind check go) := by
  refine hk.request fun _ s hs => ite hs.startNo (ite hs.startNo ?_)
  split
  next heq => exact (herr _ _ _ hs heq).startNo
  next heq => exact startOk (hgo _ _ (hok _ _ _ hs heq).openHandle)

theorem takePresence_ok {kind target : Nat} (hk : s₀.Keeps s) (e : s.takePresence kind target = .ok t) : s₀.Keeps t := by
  unfold State.takePresence at e
  split at e
  · cases e
    exact hk.update
  · cases e

theorem takePresence_error {kind target n : Nat} (hk : s₀.Keeps s) (e : s.takePresence kind target = .error (n, t)) : s₀.Keeps t :=
    by
  unfold State.takePresence at e
  split at e
  · cases e
  · cases e
    exact hk.raise

/-! #### Machine/Memory -/

theorem execRetentionEntry_keeps {c : CoreId} (hk : s₀.Keeps s) : KeepsNext s₀ (execRetentionEntry c s) := by
  unfold execRetentionEntry
  split
  · exact hk.updCore.next
  · exact hk.next

theorem retain (hk : s₀.Keeps s) : s₀.Keeps s.retain := foldl hk fun _ _ hs => hs.updCore

theorem execRetentionWake_keeps {c : CoreId} (hk : s₀.Keeps s) : KeepsNext s₀ (execRetentionWake c s) := hk.touch.next

theorem execWakeDone_keeps {c : CoreId} (hk : s₀.Keeps s) : KeepsNext s₀ (execWakeDone c s) := hk.updCore.next

theorem updKnead {c : CoreId} {m : KneadMem} {f : Knead → Knead} (hk : s₀.Keeps s) : s₀.Keeps (s.updKnead c m f) := hk.updCore

theorem sweepCheck (hk : s₀.Keeps s) : s₀.Keeps s.sweepCheck := foldl hk fun _ _ hs => ite hs.opDone hs

theorem execKneadSelect_keeps {c : CoreId} {m : KneadMem} (hk : s₀.Keeps s) : KeepsNext s₀ (execKneadSelect c m s) := by
  unfold execKneadSelect
  dsimp only
  split
  · exact hk.updKnead.next
  · exact hk.next

theorem execKneadCopyDone_keeps {c : CoreId} {m : KneadMem} (hk : s₀.Keeps s) : KeepsNext s₀ (execKneadCopyDone c m s) := by
  unfold execKneadCopyDone
  split
  · split
    · exact hk.meetUnits.updKnead.next
    · exact hk.next
  · exact hk.next

theorem kneadDone {c : CoreId} {m : KneadMem} {r : Nat} (hk : s₀.Keeps s) : s₀.Keeps (s.kneadDone c m r) := by
  unfold State.kneadDone
  dsimp only
  split
  · exact both hk.updKnead.update.countFld (fun h₁ => h₁.update.updKnead.sweepCheck) id
  · exact both hk.updKnead.update.countFld (fun h₁ => h₁.update.updKnead.sweepCheck) id
  · exact ite hk.updKnead.update.update.updKnead.sweepCheck hk.updKnead.update

theorem execKneadTestDone_keeps {c : CoreId} {m : KneadMem} {pass : Bool} (hk : s₀.Keeps s) :
    KeepsNext s₀ (execKneadTestDone c m pass s) := by
  unfold execKneadTestDone
  dsimp only
  split
  · split
    · exact hk.next
    · split
      · exact hk.updKnead.next
      · split
        · exact hk.updKnead.next
        · exact hk.updKnead.raise.fenceCore.sweepCheck.next
  · exact hk.next

theorem execKneadRestoreDone_keeps {c : CoreId} {m : KneadMem} (hk : s₀.Keeps s) : KeepsNext s₀ (execKneadRestoreDone c m s) := by
  unfold execKneadRestoreDone
  split
  · split
    · exact hk.kneadDone.next
    · exact hk.next
  · exact hk.next

theorem execKneadRemapDone_keeps {c : CoreId} {m : KneadMem} (hk : s₀.Keeps s) : KeepsNext s₀ (execKneadRemapDone c m s) := by
  unfold execKneadRemapDone
  dsimp only
  split
  · split
    · exact hk.updCore.update.fixedLog.raise.kneadDone.next
    · exact hk.next
  · exact hk.next

theorem execKneadLate_keeps {c : CoreId} {m : KneadMem} {region : Nat} (hk : s₀.Keeps s) : KeepsNext s₀ (execKneadLate c m region s)
    := by
  unfold execKneadLate
  split
  · exact hk.kneadFirst.raise.next
  · exact hk.next

theorem execKneadSweep_keeps {x : Setup} (hk : s₀.Keeps s) : KeepsNext s₀ (execKneadSweep x s) := by
  refine next (hk.opStart (fun s t n hs e => ?_) (fun s t y hs e => ?_)
    fun _ _ hs => sweepCheck (foldl hs fun _ _ hs => foldl hs fun _ _ hs => hs.updKnead))
  · split at e
    · cases e; exact hs
    · cases e
  · split at e
    · cases e
    · cases e; exact hs

theorem execPatrolScrub_keeps {k : StackId} {env : MemEnv} {passDone : Bool} (hk : s₀.Keeps s) :
    KeepsNext s₀ (execPatrolScrub k env passDone s) := by
  unfold execPatrolScrub
  dsimp only
  split
  · exact next (both (foldl hk.takeReads (fun _ _ hs => hs.uncorrectable)) (fun h₁ => countFld h₁) id)
  · exact hk.next

/-! #### Machine/Ptp -/

theorem ptpSend {t : PortId} {q : SubId} {type seq : Nat} {twoStep : Bool} {corr : ℤ} {body : List Byte} (hk : s₀.Keeps s) :
    s₀.Keeps (s.ptpSend t q type seq twoStep corr body) := by
  unfold State.ptpSend
  dsimp only
  split
  · exact hk.sendMc
  · exact hk.sendMc
  · exact hk.sendMc

theorem updPtp {t : PortId} {f : PtpRun → PtpRun} (hk : s₀.Keeps s) : s₀.Keeps (s.updPtp t f) := hk.updPort

theorem ptpAnnounce {t : PortId} {m : PtpIn} (hk : s₀.Keeps s) : s₀.Keeps (s.ptpAnnounce t m) :=
  ite hk (ite hk.updPort.setFld hk.updPtp)

theorem ptpSynced {t : PortId} {q : SubId} {t1 t2 : ℤ} (hk : s₀.Keeps s) : s₀.Keeps (s.ptpSynced t q t1 t2).1 :=
  ite hk.updPtp.ptpSend hk.updPtp.ptpSend

theorem fst {v : α} (hk : s₀.Keeps s) : s₀.Keeps (s, v).1 := hk

theorem ptpTake {x : PortId} {m : PtpIn} (hk : s₀.Keeps s) : s₀.Keeps (s.ptpTake x m).1 := by
  unfold State.ptpTake
  dsimp only
  split
  · exact hk
  split
  · split
    · exact hk
    · split
      · exact fst hk.updPtp
      · exact ptpSynced hk
  · split
    · split
      · exact ptpSynced hk
      · exact hk
    · exact hk
  · split
    · exact ptpSend hk
    · exact hk
  · split
    · split
      · exact fst hk.updPtp
      · exact hk
    · exact hk
  · exact ptpSend hk
  · split
    · split
      · exact hk
      · split
        · exact fst hk.updPtp
        · exact fst hk.updPtp
    · exact hk
  · split
    · split
      · exact fst hk.updPtp
      · exact hk
    · exact hk
  · exact ptpAnnounce hk
  · exact hk

theorem ptpSent {t : PortId} {q : SubId} {b : List Byte} {stamp : Nat} (hk : s₀.Keeps s) : s₀.Keeps (s.ptpSent t q b stamp) := by
  unfold State.ptpSent
  dsimp only
  split
  · exact hk.ptpSend
  · exact hk.ptpSend
  · exact hk.updPtp

theorem mcSends {t : PortId} (hk : s₀.Keeps s) : s₀.Keeps (s.mcSends t) :=
  both (ite (foldl hk (fun _ _ hs => hs.sendLldp)) hk) id fun h₃ => both
      (both h₃ (fun h₁ => updPtp (foldl h₁ (fun _ _ hs => hs.ptpSend))) id) (fun h₂ => updPtp (foldl h₂ (fun _ _ hs => hs.ptpSend)))
      id

/-! #### Machine/Power -/

theorem stackDown {k : Nat} (hk : s₀.Keeps s) : s₀.Keeps (s.stackDown k) := hk.zeroRange.update

theorem portDown {t : PortId} (hk : s₀.Keeps s) : s₀.Keeps (s.portDown t) := hk.update.portSilent

theorem linkDown {i : Nat} (hk : s₀.Keeps s) : s₀.Keeps (s.linkDown i) := hk.update

theorem fencePair {h : Nat} {byProof : Bool} (hk : s₀.Keeps s) : s₀.Keeps (s.fencePair h byProof) := hk.fenceCore.fenceCore

theorem loseBlock {k : BlockKind} {i code : Nat} {byProof : Bool} (hk : s₀.Keeps s) : s₀.Keeps (s.loseBlock k i code byProof) := by
  unfold State.loseBlock
  dsimp only
  split
  · exact hk
  · split
    · exact hk.raise
    · exact hk.raise
    · exact hk.raise.stackDown
    · exact hk.raise.portDown
    · exact hk.raise.update.fencePair
    · exact hk.raise.linkDown

theorem hubDown {h code : Nat} {byProof : Bool} (hk : s₀.Keeps s) : s₀.Keeps (s.hubDown h code byProof) :=
  ite hk (foldl (foldl (foldl hk.raise.update.fencePair (fun _ _ hs => hs.loseBlock)) (fun _ _ hs => hs.loseBlock))
      (fun _ _ hs => hs.loseBlock))

theorem blockFails {k : BlockKind} {i code : Nat} {byProof : Bool} (hk : s₀.Keeps s) : s₀.Keeps (s.blockFails k i code byProof) :=
    by
  unfold State.blockFails
  dsimp only
  split
  · split
    · exact hubDown (ite hk.fenceCore hk)
    · exact hk.hubDown.hubDown
    · exact hk.loseBlock.hubDown
  · split
    · exact ite hk.fenceCore hk
    · exact hk.hubDown
    · exact hk.loseBlock

theorem execCoreFenceForce_keeps {c : CoreId} (hk : s₀.Keeps s) : KeepsNext s₀ (execCoreFenceForce c s) := hk.setFld.fenceCore.next

theorem railsOff (hk : s₀.Keeps s) : s₀.Keeps s.railsOff :=
  emptyMem (foldl hk.mapCores fun _ _ hs => hs.portSilent)

theorem execBlockUnusable_keeps {kind : BlockKind} {index code : Nat} (hk : s₀.Keeps s) :
    KeepsNext s₀ (execBlockUnusable kind index code s) := by
  unfold execBlockUnusable
  dsimp only
  split
  · exact hk.next
  · split
    · exact next (update (railsOff (foldl hk (fun _ _ hs => hs.setFld))))
    · exact hk.blockFails.next

theorem execSupplyLost_keeps {rail : Fin 6} {mv : Nat} (hk : s₀.Keeps s) : KeepsNext s₀ (execSupplyLost rail mv s) := by
  unfold execSupplyLost
  dsimp only
  split
  · exact hk.railsOff.update.setFld.raise.next
  · exact hk.next

theorem execThermalHalt_keeps {sensor : Sensor} {tj : Nat} (hk : s₀.Keeps s) : KeepsNext s₀ (execThermalHalt sensor tj s) := by
  unfold execThermalHalt
  dsimp only
  split
  · exact hk.update.raise.next
  · exact hk.next

theorem execThermalResume_keeps (hk : s₀.Keeps s) : KeepsNext s₀ (execThermalResume s) := hk.update.next

theorem trip {sensor : Sensor} {tj : Nat} (hk : s₀.Keeps s) : s₀.Keeps (s.trip sensor tj) := hk.railsOff.update.fixedLog.raise

theorem execThermalTrip_keeps {sensor : Sensor} {tj : Nat} (hk : s₀.Keeps s) : KeepsNext s₀ (execThermalTrip sensor tj s) := by
  unfold execThermalTrip
  split
  · exact hk.trip.next
  · exact hk.next

theorem execThermalHaltLimit_keeps {sensor : Sensor} {tj : Nat} (hk : s₀.Keeps s) : KeepsNext s₀ (execThermalHaltLimit sensor tj s)
    := by
  unfold execThermalHaltLimit
  split
  · exact hk.trip.next
  · exact hk.next

theorem execNvmInhibit_keeps {vin : Bool} {mv : Nat} (hk : s₀.Keeps s) : KeepsNext s₀ (execNvmInhibit vin mv s) := by
  unfold execNvmInhibit
  dsimp only
  split
  · exact hk.next
  · exact hk.update.raise.next

theorem execNvmInhibitClear_keeps (hk : s₀.Keeps s) : KeepsNext s₀ (execNvmInhibitClear s) := hk.update.nvmGo.next

theorem railsToFloor (hk : s₀.Keeps s) : s₀.Keeps s.railsToFloor := hk.update

theorem execVinThrottle_keeps {mv : Nat} (hk : s₀.Keeps s) : KeepsNext s₀ (execVinThrottle mv s) := by
  unfold execVinThrottle
  dsimp only
  split
  · exact hk.next
  · exact hk.railsToFloor.update.raise.next

theorem execVinThrottleClear_keeps (hk : s₀.Keeps s) : KeepsNext s₀ (execVinThrottleClear s) := hk.update.nvmGo.next

theorem execVinHalt_keeps {mv : Nat} (hk : s₀.Keeps s) : KeepsNext s₀ (execVinHalt mv s) := by
  unfold execVinHalt
  dsimp only
  split
  · exact hk.next
  · exact hk.update.raise.next

theorem execVinHaltClear_keeps (hk : s₀.Keeps s) : KeepsNext s₀ (execVinHaltClear s) := hk.update.next

theorem finishPage (hk : s₀.Keeps s) : s₀.Keeps s.finishPage := by
  unfold State.finishPage
  split
  · exact ite hk.nvmPage hk
  · exact hk

theorem execAuxBrownout_keeps (hk : s₀.Keeps s) : KeepsNext s₀ (execAuxBrownout s) := by
  unfold execAuxBrownout
  dsimp only
  split
  · exact hk.finishPage.volatileLost.update.next
  · exact hk.next

theorem loopVolts {r : LoopReadings} (hk : s₀.Keeps s) : s₀.Keeps (s.loopVolts r) := hk.update

theorem loopDuty {r : LoopReadings} (hk : s₀.Keeps s) : s₀.Keeps (s.loopDuty r) := by
  unfold State.loopDuty
  exact ite hk.update (foldl hk.update (fun _ _ hs => by
      split
      · exact ite hs hs.raise.updJob
      · exact hs))

theorem loopCap {r : LoopReadings} (hk : s₀.Keeps s) : s₀.Keeps (s.loopCap r) := by
  unfold State.loopCap
  exact foldl hk.setFld (fun _ _ hs => by
      dsimp only
      split
      · exact ite hs hs.raise.updJob
      · exact hs)

theorem loopCores {r : LoopReadings} (hk : s₀.Keeps s) : s₀.Keeps (s.loopCores r) := by
  unfold State.loopCores
  exact foldl hk (fun _ _ hs => by
      dsimp only
      split
      · exact foldl hs fun _ _ hs => hs.setReg
      · exact setReg (foldl hs (fun _ _ hs => hs.setReg)))

theorem loopPower {r : LoopReadings} (hk : s₀.Keeps s) : s₀.Keeps (s.loopPower r) := by
  unfold State.loopPower
  exact setReg (foldl (setReg (foldl hk.setFld (fun _ _ hs => by
      split
      · exact hs.setReg
      · exact hs.setFld))) (fun _ _ hs => hs.setReg))

theorem loopHeat {r : LoopReadings} (hk : s₀.Keeps s) : s₀.Keeps (s.loopHeat r) := hk.setFld.setFld.update

theorem loopTime (hk : s₀.Keeps s) : s₀.Keeps s.loopTime := ite hk.update (foldl hk.update (fun _ _ hs => hs.updPort.mcSends))

theorem loopFec {r : LoopReadings} (hk : s₀.Keeps s) : s₀.Keeps (s.loopFec r) :=
  foldl hk fun _ _ hs => ite hs (both hs.portCount.portCount id fun h₁ => h₁.setFld)

theorem mgmtSend (hk : s₀.Keeps s) : s₀.Keeps s.mgmtSend := ite hk.update hk.update

theorem loopLink {r : LoopReadings} (hk : s₀.Keeps s) : s₀.Keeps (s.loopLink r) := ite hk.setFld hk

theorem execMcLoopTick_keeps {r : LoopReadings} (hk : s₀.Keeps s) : KeepsNext s₀ (execMcLoopTick r s) := by
  unfold execMcLoopTick
  split
  · exact hk.takeEnv.loopTime.retain.loopHeat.loopDuty.loopVolts.loopCap.loopCores.loopPower.loopLink.loopFec.mgmtSend.sweepCheck.next
  · exact hk.next

/-! #### Machine/Service -/

theorem surveyCore {v : CoreSurvey} (hk : s₀.Keeps s) : s₀.Keeps (s.surveyCore v) := by
  unfold State.surveyCore
  dsimp only
  split
  · exact hk
  · split
    · exact hk.updRail.raise.fenceCore
    · exact ite (ite hk.updRail hk.updRail.updRail.raise) hk.updRail.updRail

theorem execAgeingSurvey_keeps {surveys : List CoreSurvey} (hk : s₀.Keeps s) : KeepsNext s₀ (execAgeingSurvey surveys s) := by
  unfold execAgeingSurvey
  split
  · exact next (foldl hk (fun _ _ hs => hs.surveyCore))
  · exact hk.next

theorem execReplan_keeps {c : CoreId} {plan : Plan} (hk : s₀.Keeps s) : KeepsNext s₀ (execReplan c plan s) := by
  unfold execReplan
  split
  · exact hk.replan.next
  · exact hk.next

theorem execReplanQuiesceTimeout_keeps {c : CoreId} {plan : Plan} (hk : s₀.Keeps s) :
    KeepsNext s₀ (execReplanQuiesceTimeout c plan s) := by
  unfold execReplanQuiesceTimeout
  split
  · exact hk.updRail.quiesceDone.next
  · exact hk.next

theorem execReplanDaily_keeps {c : CoreId} (hk : s₀.Keeps s) : KeepsNext s₀ (execReplanDaily c s) := by
  unfold execReplanDaily
  split
  · exact hk.updRail.next
  · exact hk.next

theorem endSecond (hk : s₀.Keeps s) : s₀.Keeps s.endSecond := foldl hk.update fun _ _ hs => ite hs.raise hs

theorem execTimeLatch_keeps (hk : s₀.Keeps s) : KeepsNext s₀ (execTimeLatch s) := by
  unfold execTimeLatch
  dsimp only
  split
  · exact hk.next
  · exact next (endSecond (foldl hk.setReg.setReg (fun _ _ hs => hs.setReg.setReg)))

theorem execAgeingSummary_keeps (hk : s₀.Keeps s) : KeepsNext s₀ (execAgeingSummary s) := by
  unfold execAgeingSummary
  dsimp only
  split
  · exact hk.next
  · exact hk.raise.logQueue.fixedLog.next

theorem execAgeingLogWrite_keeps (hk : s₀.Keeps s) : KeepsNext s₀ (execAgeingLogWrite s) := by
  unfold execAgeingLogWrite
  dsimp only
  split
  · exact hk.next
  · split
    · split
      · exact hk.nvmNext.next
      · exact hk.update.logRecord.nvmNext.next
    · exact hk.writeFixed.nvmNext.next
    · exact hk.next

theorem proofEnd {h : Nat} (hk : s₀.Keeps s) : s₀.Keeps (s.proofEnd h) := by
  unfold State.proofEnd
  split
  · exact ite hk.opDone hk
  · exact hk

theorem execMgmtProof_keeps {x : Setup} (hk : s₀.Keeps s) : KeepsNext s₀ (execMgmtProof x s) := by
  refine next (hk.opStart (fun s t n hs e => ?_) (fun s t y hs e => ?_) fun _ _ hs => hs.proofEnd)
  · split at e
    · cases e; exact hs
    · cases e
  · split at e
    · cases e
    · cases e; exact hs

theorem proofWipe {k : BlockKind} {i : Nat} (hk : s₀.Keeps s) : s₀.Keeps (s.proofWipe k i) := by
  unfold State.proofWipe
  dsimp only
  split
  · exact hk.loseCore.updCore
  · exact hk.zeroRange
  · exact hk.zeroRange.zeroRange
  · exact hk.buffersLost
  · exact hk

theorem execProofBlockDone_keeps {h : Nat} {failCode : Option Nat} (hk : s₀.Keeps s) :
    KeepsNext s₀ (execProofBlockDone h failCode s) := by
  unfold execProofBlockDone
  dsimp only
  split
  · exact hk.next
  · split
    · exact hk.next
    · split
      · exact hk.next
      · split
        · exact hk.updHandle.proofEnd.next
        · split
          · exact hk.proofWipe.blockFails.updHandle.proofEnd.next
          · exact next (proofEnd (updHandle (ite hk.proofWipe.updRail hk.proofWipe)))

/-! #### Machine/Window -/

theorem windowFault {p : PartId} {f : Frame} {field : Nat × Nat} (hk : s₀.Keeps s) : s₀.Keeps (s.windowFault p f field) :=
  hk.updIface.setReg.raise

theorem respond {p : PartId} {f : Frame} {status : Nat} {data : List Byte} (hk : s₀.Keeps s) : s₀.Keeps (s.respond p f status data)
    :=
  hk.updIface

theorem readFrame {p : PartId} {f : Frame} (hk : s₀.Keeps s) : s₀.Keeps (s.readFrame p f) := by
  unfold State.readFrame
  dsimp only
  split
  · exact hk.touchAll.uncorrectable.fenceByErrors.respond
  · exact hk.touchAll.meetReads.respond

theorem writeFrame {p : PartId} {f : Frame} (hk : s₀.Keeps s) : s₀.Keeps (s.writeFrame p f) := by
  unfold State.writeFrame
  exact hk.touchAll.lputBytes.updIface

theorem takeFrame {p : PartId} {f : Frame} (hk : s₀.Keeps s) : s₀.Keeps (s.takeFrame p f) := by
  unfold State.takeFrame
  split
  · exact ite hk.respond hk.windowFault
  · exact ite hk.readFrame hk.writeFrame

theorem applyHeld {p : PartId} {x : HeldReq} (hk : s₀.Keeps s) : s₀.Keeps (s.applyHeld p x) := by
  cases x with
  | window b g n => unfold State.applyHeld; exact hk.updIface
  | doorbell n x => unfold State.applyHeld; exact hk.updHdr

theorem goOnN {n : Nat} {p : PartId} (hk : s₀.Keeps s) : s₀.Keeps (State.goOnN n p s) := by
  induction n generalizing s with
  | zero => exact hk
  | succ n ih =>
    have hheld : s₀.Keeps (match s.parts[p].iface.held with
        | r :: rest =>
          if s.parts[p].iface.hasLanded r.e then
            State.goOnN n p ((s.updIface p fun i => { i with held := rest }).applyHeld p r) else s
        | [] => s) := by
      split
      · exact ite (ih hk.updIface.applyHeld) hk
      · exact hk
    unfold State.goOnN
    dsimp only
    split
    · exact ite (ih hk.updIface.takeFrame) hheld
    · exact hheld

theorem goOn {p : PartId} (hk : s₀.Keeps s) : s₀.Keeps (s.goOn p) := hk.goOnN

theorem frameIn {p : PartId} {f : Frame} (hk : s₀.Keeps s) : s₀.Keeps (s.frameIn p f) := ite hk (ite hk.updIface hk.takeFrame.goOn)

theorem execFrameWrite_keeps {p : PartId} {f : Frame} (hk : s₀.Keeps s) : KeepsNext s₀ (execFrameWrite p f s) := hk.frameIn.next

theorem execFrameRead_keeps {p : PartId} {f : Frame} {env : MemEnv} (hk : s₀.Keeps s) : KeepsNext s₀ (execFrameRead p f env s) :=
  hk.takeEnv.frameIn.next

theorem execFrameGenTimeout_keeps {p : PartId} (hk : s₀.Keeps s) : KeepsNext s₀ (execFrameGenTimeout p s) := by
  unfold execFrameGenTimeout
  dsimp only
  split
  · exact hk.next
  · exact next (goOn (windowFault (ite hk.updIface.respond hk.updIface)))

theorem execHeldRequestStale_keeps {p : PartId} {k : Nat} (hk : s₀.Keeps s) : KeepsNext s₀ (execHeldRequestStale p k s) := by
  unfold execHeldRequestStale
  dsimp only
  split
  · exact hk.next
  · split
    · exact hk.updIface.updIface.countFld.raise.goOn.next
    · exact hk.updIface.updIface.countFld.raise.goOn.next

theorem hold {p : PartId} {b : Nat} {r : HeldReq} (hk : s₀.Keeps s) : s₀.Keeps (s.hold p b r) :=
  ite hk.reqFail (ite hk.reqFail hk.updIface.reqOk.goOn)

theorem execSetWindow_keeps {r : Setup} (hk : s₀.Keeps s) : KeepsNext s₀ (execSetWindow r s) :=
  next (request hk (fun _ _ hs => ite hs.reqFail (ite hs.reqFail hs.hold)))

theorem execDoorbell_keeps {r : Setup} (hk : s₀.Keeps s) : KeepsNext s₀ (execDoorbell r s) :=
  next (request hk (fun _ _ hs => ite hs.reqFail (ite hs.reqFail (ite hs.reqFail hs.hold))))

theorem execGetIfStatus_keeps {r : Setup} (hk : s₀.Keeps s) : KeepsNext s₀ (execGetIfStatus r s) :=
  next (request hk (fun _ _ hs => hs.reqOk))

theorem execNoticeInterval_keeps {p : PartId} (hk : s₀.Keeps s) : KeepsNext s₀ (execNoticeInterval p s) := by
  unfold execNoticeInterval
  dsimp only
  split
  · exact hk.updIface.next
  · exact hk.next

/-! #### Machine/Operations -/

theorem sendHostOp {p : PartId} {op : Nat} (hk : s₀.Keeps s) : s₀.Keeps (s.sendHostOp p op) := by
  unfold State.sendHostOp
  split
  · exact hk.sendCtl
  · exact hk

theorem resumeAlone {p : PartId} (hk : s₀.Keeps s) : s₀.Keeps (s.resumeAlone p) := by
  unfold State.resumeAlone
  dsimp only
  split
  · exact hk
  · exact ite hk.raise hk.updHandle.updJob.restartWhenClear

theorem cancelJob {p : PartId} (hk : s₀.Keeps s) : s₀.Keeps (s.cancelJob p) := by
  unfold State.cancelJob
  dsimp only
  split
  · exact hk
  · split
    · exact hk.endJob
    · exact ite hk.sendHostOp hk.sendCtl.updCluster.endJob

theorem cancelOp {x : Handle} (hk : s₀.Keeps s) : s₀.Keeps (s.cancelOp x) := by
  unfold State.cancelOp
  dsimp only
  split
  · split
    · exact hk.updHandle.cancelJob
    · exact hk.updHandle.opDone
  · split
    · exact hk.updHandle.opDone.ckptRead.commitWaiting
    · exact hk.updHandle.opDone
  · exact opDone (foldl hk.updHandle (fun _ _ hs => hs.updCore))
  · exact hk.updHandle.update.opDone
  · exact ite hk.updHandle hk.updHandle.update.opDone.nvmGo
  · exact hk.updHandle.opDone

theorem opCancelOn {x : Handle} (hk : s₀.Keeps s) (e : s.opCancelOn x = .ok t) : s₀.Keeps t := by
  unfold State.opCancelOn at e
  split at e
  · cases e; exact hk
  · cases e; exact hk
  all_goals
    split at e
    · cases e
    · cases e
      exact hk.cancelOp

theorem opSuspendOn {x : Handle} (hk : s₀.Keeps s) (e : s.opSuspendOn x = .ok t) : s₀.Keeps t := by
  unfold State.opSuspendOn at e
  split at e
  · cases e
  · split at e
    · cases e
    · split at e
      · cases e; exact hk
      · cases e
        split
        · exact hk.updHandle.sendHostOp
        · exact hk.updHandle

theorem workOn {x : Handle} (hk : s₀.Keeps s) : s₀.Keeps (s.workOn x) := by
  unfold State.workOn
  split
  · exact hk.ckptOn
  · exact hk.loadNext
  · exact hk.nvmGo
  · exact hk

theorem resumeJob {x : Handle} {p : PartId} (hk : s₀.Keeps s) : s₀.Keeps (s.resumeJob x p) := by
  unfold State.resumeJob
  split
  · exact hk
  · exact ite hk.sendHostOp (ite hk.resumeAlone hk)

theorem opResumeOn {x : Handle} (hk : s₀.Keeps s) (e : s.opResumeOn x = .ok t) : s₀.Keeps t := by
  unfold State.opResumeOn at e
  split at e
  · cases e
  · cases e; exact hk
  all_goals
    dsimp only at e
    split at e
    · cases e
      exact hk.updHandle.resumeJob
    · cases e
      exact hk.updHandle.updHandle.workOn

theorem opReleaseOn {x : Handle} (hk : s₀.Keeps s) (e : s.opReleaseOn x = .ok t) : s₀.Keeps t := by
  unfold State.opReleaseOn at e
  split at e
  · cases e
    exact hk.update
  · cases e

theorem onHandle {x : Setup} {b : Nat} {q : ReqForm} {f : Handle → State → Except Nat State} (hk : s₀.Keeps s)
    (hf : ∀ y s t, s₀.Keeps s → f y s = .ok t → s₀.Keeps t) : s₀.Keeps (s.onHandle x b q f) := by
  refine hk.request fun _ s hs => ?_
  split
  · exact hs.reqFail
  · split
    · exact hs.reqFail
    next heq => exact hf _ _ _ hs heq

theorem execOpStatus_keeps {x : Setup} (hk : s₀.Keeps s) : KeepsNext s₀ (execOpStatus x s) :=
  next (hk.onHandle fun _ _ _ hs e => by cases e; exact hs.reqOk)

theorem mapReqOk {o : Except Nat State} (ho : ∀ {u}, o = .ok u → s₀.Keeps u) (e : o.map (fun s => s.reqOk []) = .ok t) :
    s₀.Keeps t := by
  cases o with
  | error => cases e
  | ok u => cases e; exact (ho rfl).reqOk

theorem execOpSuspend_keeps {x : Setup} (hk : s₀.Keeps s) : KeepsNext s₀ (execOpSuspend x s) :=
  next (hk.onHandle fun _ _ _ hs => mapReqOk hs.opSuspendOn)

theorem execOpResume_keeps {x : Setup} (hk : s₀.Keeps s) : KeepsNext s₀ (execOpResume x s) :=
  next (hk.onHandle fun _ _ _ hs => mapReqOk hs.opResumeOn)

theorem execOpCancel_keeps {x : Setup} (hk : s₀.Keeps s) : KeepsNext s₀ (execOpCancel x s) :=
  next (hk.onHandle fun _ _ _ hs => mapReqOk hs.opCancelOn)

theorem execOpRelease_keeps {x : Setup} (hk : s₀.Keeps s) : KeepsNext s₀ (execOpRelease x s) :=
  next (hk.onHandle fun _ _ _ hs => mapReqOk hs.opReleaseOn)

theorem execOpList_keeps {r : Setup} (hk : s₀.Keeps s) : KeepsNext s₀ (execOpList r s) := next (request hk (fun _ _ hs => hs.reqOk))

theorem execOpSuspendPoint_keeps {h : Nat} (hk : s₀.Keeps s) : KeepsNext s₀ (execOpSuspendPoint h s) := by
  unfold execOpSuspendPoint
  split
  · split
    · exact hk.updHandle.next
    · exact hk.next
  · exact hk.next

/-! #### Machine/Load -/

theorem meetSpans {p : PartId} {spans : List (Nat × Nat)} (hk : s₀.Keeps s) : s₀.Keeps (s.meetSpans p spans) := hk.meetReads

/-- Both answers of a load that goes on keep what must be kept. -/
structure LoadKeeps (s₀ : State) (x : LoadAt (State × Job)) : Prop where
  ok : ∀ {t j}, x = .ok (t, j) → s₀.Keeps t
  error : ∀ {t e}, x = .error (t, e) → s₀.Keeps t

theorem loadError {e : LoadStop} (hk : s₀.Keeps s) : LoadKeeps s₀ (.error (s, e)) where
  ok h := by cases h
  error h := by cases h; exact hk

theorem loadOk {j : Job} (hk : s₀.Keeps s) : LoadKeeps s₀ (.ok (s, j)) where
  ok h := by cases h; exact hk
  error h := by cases h

theorem loadAt {α : Type} {x : Load α} {f : α → LoadAt (State × Job)} (hk : s₀.Keeps s) (hf : ∀ a, LoadKeeps s₀ (f a)) :
    LoadKeeps s₀ (Load.at s x >>= f) := by
  cases x with
  | error e => exact loadError hk
  | ok a => exact hf a

theorem loadRest {p : PartId} {h : List Byte} {c : CorePlan} {j0 : Job} (hk : s₀.Keeps s) :
    LoadKeeps s₀ (s.loadRest p h c j0) := by
  have hspans : s₀.Keeps (s.meetSpans p (s.recordSpans p h c)) := hk.meetSpans
  refine loadAt hspans fun _ => loadAt hspans fun _ => loadAt hspans fun _ => loadAt hspans fun _ => loadAt hspans fun _ => ?_
  refine loadAt hspans fun _ => loadAt hspans fun _ => loadAt hspans fun _ => ?_
  dsimp only
  split
  next heq => exact loadError (hspans.meetReads.loadTables.of_fst heq).dropTables
  next heq => exact loadError (hspans.meetReads.loadTables.of_fst heq).dropTables
  next heq =>
    have htables := hspans.meetReads.loadTables.of_fst heq
    split
    · exact loadError htables.dropTables
    · exact loadAt htables.meetReads.dropTables fun _ => loadOk htables.meetReads

theorem wakePart {p : PartId} (hk : s₀.Keeps s) : s₀.Keeps (s.wakePart p) := foldl hk fun _ _ hs => ite hs.touch hs

theorem loadJob {p : PartId} {a : Nat} (hk : s₀.Keeps s) : LoadKeeps s₀ (s.loadJob p a) := by
  have hwoken : s₀.Keeps (s.wakePart p) := hk.wakePart
  have hspans {l : List (Nat × Nat)} : s₀.Keeps ((s.wakePart p).meetSpans p l) := hwoken.meetSpans
  have hplan {l m : List (Nat × Nat)} : s₀.Keeps (((s.wakePart p).meetSpans p l).meetSpans p m) := hspans.meetSpans
  refine loadAt hwoken fun _ => loadAt hspans fun _ => loadAt hspans fun _ => loadAt hplan fun _ => ?_
  refine loadAt hplan fun _ => loadAt hplan fun _ => loadAt hplan fun _ => ?_
  extract_lets rest
  have hrest (pb : List Byte) : LoadKeeps s₀ (rest pb) := by
    refine loadAt hplan fun _ => loadAt hplan fun _ => ?_
    split
    next heq => exact loadError (hplan.copyPreloads.of_fst heq)
    next heq => exact (hplan.copyPreloads.of_fst heq).loadRest
  split
  · exact hrest []
  · exact loadAt hplan hrest

theorem startedRecord {p : PartId} {c : TakenCmd} {h : Nat} (hk : s₀.Keeps s) : s₀.Keeps (s.startedRecord p c h) :=
  hk.reservedRecord

theorem placeJob {p : PartId} {j : Job} (hk : s₀.Keeps s) : s₀.Keeps (s.placeJob p j) := by
  unfold State.placeJob
  dsimp only
  split
  · exact updPart (putBytes (foldl hk (fun _ _ hs => by
      split
      · exact hs
      · exact zeroResident (ite hs.updLCtx hs.updLCtx.setModes))))
  · exact updPart (foldl hk (fun _ _ hs => by
      split
      · exact hs
      · exact zeroResident (ite hs.updLCtx hs.updLCtx.setModes)))

theorem beginJob {p : PartId} {j : Job} {hold : Bool} {cmd : Option TakenCmd} {standing : Option Nat} (hk : s₀.Keeps s) :
    s₀.Keeps (s.beginJob p j hold cmd standing) := by
  have hplaced {u : State} (hu : s₀.Keeps u) {m : MC} {j : Job} :
      s₀.Keeps (if hold then ((({ u with mc := m } : State).placeJob p j).checkUnits p).suspendJob p
        else (({ u with mc := m } : State).placeJob p j).checkUnits p) := by
    have hm : s₀.Keeps { u with mc := m } := hu.update
    exact ite hm.placeJob.checkUnits.suspendJob hm.placeJob.checkUnits
  have hsent {u : State} (hu : s₀.Keeps u) : s₀.Keeps (match u.cluster p with
      | some c => c.mine.foldl (fun s i => s.sendOpen p c i false) u
      | none => if hold then u else u.restartWhenClear p) := by
    split
    · exact foldl hu fun _ _ hs => hs.sendOpen
    · exact ite hu hu.restartWhenClear
  unfold State.beginJob
  cases cmd with
  | none => exact hsent (hplaced hk.openHandle)
  | some d => exact hsent (hplaced hk.openHandle.startedRecord)

theorem loadStopped {p : PartId} {x : LoadStop} (hk : s₀.Keeps s) : s₀.Keeps (s.loadStopped p x).1 := by
  cases x with
  | status => exact hk
  | refuse => exact hk.raise
  | unread => exact hk.uncorrectable.fenceByErrors

theorem standingFailed {p : PartId} {event : Nat} (hk : s₀.Keeps s) : s₀.Keeps (s.standingFailed p event) := hk.raise

theorem loadStanding {p : PartId} {v : List Byte} (hk : s₀.Keeps s) : s₀.Keeps (s.loadStanding p v) := by
  refine ite hk.standingFailed (ite hk.standingFailed (ite hk.putBytes.standingFailed ?_))
  split
  next heq => exact (hk.putBytes.loadJob.error heq).loadStopped.standingFailed
  next heq => exact (hk.putBytes.loadJob.ok heq).beginJob

theorem loadAllStanding (hk : s₀.Keeps s) : s₀.Keeps s.loadAllStanding := by
  unfold State.loadAllStanding
  exact foldl hk (fun _ _ hs => by
      split
      · exact hs.loadStanding
      · exact hs)

/-! #### Machine/Frames -/

theorem execPortLinkUp_keeps {t : PortId} {q : SubId} (hk : s₀.Keeps s) : KeepsNext s₀ (execPortLinkUp t q s) := by
  unfold execPortLinkUp
  dsimp only
  split
  · exact hk.setLink.setFld.raise.sendLldp.next
  · exact hk.next

theorem execPortLinkDown_keeps {t : PortId} {q : SubId} {cause : Nat} (hk : s₀.Keeps s) :
    KeepsNext s₀ (execPortLinkDown t q cause s) := by
  unfold execPortLinkDown
  dsimp only
  split
  · exact hk.subDown.setLink.next
  · exact hk.next

theorem execPortFecDegraded_keeps {t : PortId} {q : SubId} {ratio : Nat} (hk : s₀.Keeps s) :
    KeepsNext s₀ (execPortFecDegraded t q ratio s) := by
  unfold execPortFecDegraded
  dsimp only
  split
  · exact hk.next
  · split
    · split
      · exact hk.setFld.next
      · exact hk.setFld.updPort.raise.next
    · exact hk.setFld.updPort.raise.next

theorem learn {t : PortId} {ip mac : List Byte} (hk : s₀.Keeps s) : s₀.Keeps (s.learn t ip mac) := hk.updPort

theorem arpIn {t : PortId} {q : SubId} {b : List Byte} (hk : s₀.Keeps s) : s₀.Keeps (s.arpIn t q b) :=
  ite (sendMc (ite hk.learn hk)) (ite hk.learn hk)

theorem icmpIn {t : PortId} {q : SubId} {f : RxFrame} {ip : IpHeader} (hk : s₀.Keeps s) : s₀.Keeps (s.icmpIn t q f ip) :=
  ite hk.sendMc hk

theorem icmp6In {t : PortId} {q : SubId} {f : RxFrame} {ip : IpHeader} (hk : s₀.Keeps s) : s₀.Keeps (s.icmp6In t q f ip) := by
  unfold State.icmp6In
  dsimp only
  split
  · exact ite hk.sendMc hk
  · exact ite hk.sendMc hk
  · exact hk.learn
  · exact hk

theorem resolve {t : PortId} {q : SubId} {a : List Byte} (hk : s₀.Keeps s) : s₀.Keeps (s.resolve t q a) := ite hk.sendMc hk.sendMc

theorem rxCount {t : PortId} (hk : s₀.Keeps s) : s₀.Keeps (s.rxCount t) := hk.portCount2

theorem capture {t : PortId} {q : SubId} {f : RxFrame} {flags cnt : Nat} (hk : s₀.Keeps s) : s₀.Keeps (s.capture t q f flags cnt) :=
    by
  unfold State.capture
  dsimp only
  split
  · exact hk.portCount
  · exact ite hk.portCount hk.meetRange.rxCount.putBytes.putBytes.putBytes

theorem pfcIn {t : PortId} {q : SubId} {mask : Nat} {quanta : List Nat} (hk : s₀.Keeps s) : s₀.Keeps (s.pfcIn t q mask quanta) := by
  unfold State.pfcIn
  exact hk.portCount.updPort

theorem ptpArrives {t : PortId} {q : SubId} {f : RxFrame} (hk : s₀.Keeps s) : s₀.Keeps (s.ptpArrives t q f) := by
  unfold State.ptpArrives
  exact hk.rxCount.updPort

theorem ipIn {t : PortId} {q : SubId} {f : RxFrame} {ip : IpHeader} (hk : s₀.Keeps s) : s₀.Keeps (s.ipIn t q f ip) :=
  ite hk.ptpArrives (ite hk.rxCount.icmpIn (ite hk.rxCount.icmp6In
      (ite (ite hk.capture hk.portCount) (ite (both (ite hk.portCount hk) id fun h₂ => both h₂
      (fun h₁ => pfcWatch (updPort (rxCount h₁))) id)
      (ite (pfcWatch (updPort (rxCount (ite hk.portCount hk)))) (capture (ite hk.portCount hk)))))))

theorem classify {t : PortId} {q : SubId} {f : RxFrame} (hk : s₀.Keeps s) : s₀.Keeps (s.classify t q f) := by
  unfold State.classify
  split
  · exact hk.portCount
  · split
    · exact hk
    · split
      · exact ite hk.capture hk.portCount
      · split
        · exact hk
        · split
          · exact hk.portCount
          · split
            · exact ite hk hk.rxCount.pfcIn
            · split
              · exact hk.ptpArrives
              · split
                · exact hk.rxCount
                · split
                  · exact hk.rxCount.arpIn
                  · split
                    · exact hk.ipIn
                    · exact hk.capture

theorem execFrameReceive_keeps {t : PortId} {q : SubId} {f : EthFrame} (hk : s₀.Keeps s) : KeepsNext s₀ (execFrameReceive t q f s)
    := by
  unfold execFrameReceive
  dsimp only
  split
  · exact hk.next
  · split
    · exact hk.next
    next heq => exact (hk.portReach heq).portCount.portCount.portCount2.classify.next

theorem execPfcPauseExpire_keeps {t : PortId} {q : SubId} {classes : BitVec 8} (hk : s₀.Keeps s) :
    KeepsNext s₀ (execPfcPauseExpire t q classes s) := by
  unfold execPfcPauseExpire
  dsimp only
  split
  · exact hk.next
  next heq => exact (hk.portReach heq).updPort.next

theorem execPfcRenew_keeps {t : PortId} {q : SubId} {cls : Fin 8} (hk : s₀.Keeps s) : KeepsNext s₀ (execPfcRenew t q cls s) := by
  unfold execPfcRenew
  split
  · exact hk.sendPfc.next
  · exact hk.next

theorem pace {t : PortId} {x : TxSrc} {d : Nat} (hk : s₀.Keeps s) : s₀.Keeps (s.pace t x d) := by
  unfold State.pace
  dsimp only
  split
  · exact hk
  · exact hk.updQp
  · exact hk.updCluster

theorem takeTx {t : PortId} {f : TxFrame} (hk : s₀.Keeps s) : s₀.Keeps (s.takeTx t f) := by
  unfold State.takeTx
  exact hk.updPort

theorem dropOversize {t : PortId} {f : TxFrame} (hk : s₀.Keeps s) : s₀.Keeps (s.dropOversize t f) :=
  both hk.takeTx.portCount (fun h₁ => h₁.updPort.raise) id

theorem txCount {t : PortId} {f : TxFrame} (hk : s₀.Keeps s) : s₀.Keeps (s.txCount t f) := by
  unfold State.txCount
  dsimp only
  split
  · exact hk.portCount2.portCount2.portCount
  · exact both hk.portCount2.portCount2 (fun h₁ => h₁.portCount) id
  · exact ite (both hk.portCount2.portCount2.count64 (fun h₁ => h₁.otCount) id)
      (both hk.portCount2.portCount2 (fun h₁ => h₁.otCount) id)
  · exact hk.portCount2.portCount2

theorem startTx {t : PortId} {f : TxFrame} (hk : s₀.Keeps s) : s₀.Keeps (s.startTx t f) := by
  unfold State.startTx
  dsimp only
  split
  · exact hk.takeTx.txCount.pace.updPort.ptpSent
  · exact hk.takeTx.txCount.pace.updPort

theorem sendNext {t : PortId} {q : SubId} {l : List Nat} (hk : s₀.Keeps s) : s₀.Keeps (State.sendNext t q l s) := by
  induction l generalizing s with
  | nil => exact hk
  | cons c l ih =>
    unfold State.sendNext
    split
    · exact ih hk
    · dsimp only
      refine ite (ih hk) (ite hk.dropOversize (ite (ih hk) (ite hk.startTx ?_)))
      split
      · exact hk.updPort.startTx
      · exact ih (ite hk hk.resolve)

theorem execFrameTransmit_keeps {t : PortId} {x : TxTurn} (hk : s₀.Keeps s) : KeepsNext s₀ (execFrameTransmit t x s) := by
  unfold execFrameTransmit
  split
  · exact hk.next
  · split
    · exact hk.next
    next heq =>
      split
      · exact hk.next
      · split
        · exact (hk.portReach heq).startTx.next
        · exact (hk.portReach heq).sendNext.next

/-! #### Machine/PortTime -/

theorem execGateEntryChange_keeps {t : PortId} {k : Fin 2} (hk : s₀.Keeps s) : KeepsNext s₀ (execGateEntryChange t k s) := by
  unfold execGateEntryChange
  dsimp only
  split
  · split
    next heq => exact (hk.portReach heq).next
    · exact hk.next
  · exact hk.next

theorem copySched {t : PortId} {k : Fin 2} (hk : s₀.Keeps s) : s₀.Keeps (s.copySched t k) := by
  unfold State.copySched
  exact updPort (foldl hk (fun _ _ hs => foldl hs (fun _ _ hs => hs.setReg)))

theorem execScheduleChangeTime_keeps {t : PortId} {k : Fin 2} (hk : s₀.Keeps s) : KeepsNext s₀ (execScheduleChangeTime t k s) := by
  unfold execScheduleChangeTime
  dsimp only
  split
  · exact hk.next
  · split
    · exact hk.copySched.next
    · split
      next heq => exact (hk.portReach heq).copySched.next
      · exact hk.next

theorem execPortGateCtlChange_keeps {t : PortId} {k : Fin 2} (hk : s₀.Keeps s) : KeepsNext s₀ (execPortGateCtlChange t k s) :=
  hk.updPort.next

theorem execPortGateCtlCancel_keeps {t : PortId} {k : Fin 2} (hk : s₀.Keeps s) : KeepsNext s₀ (execPortGateCtlCancel t k s) :=
  hk.updPort.next

theorem portRefuse {t : PortId} {o top : Nat} (hk : s₀.Keeps s) : s₀.Keeps (s.portRefuse t o top) := hk.raise

theorem execPortGateCtlEn_keeps {t : PortId} {k : Fin 2} {value : Word} (hk : s₀.Keeps s) :
    KeepsNext s₀ (execPortGateCtlEn t k value s) := by
  unfold execPortGateCtlEn
  dsimp only
  split
  · exact hk.portRefuse.next
  · exact next (ite hk.setReg.copySched hk.setReg)

theorem stepPort {t : PortId} {ns : ℤ} (hk : s₀.Keeps s) : s₀.Keeps (s.stepPort t ns) := hk.updPort.portCount.setReg.raise

theorem execPortPtpStep_keeps {t : PortId} {value : Word} (hk : s₀.Keeps s) : KeepsNext s₀ (execPortPtpStep t value s) := by
  unfold execPortPtpStep
  split
  · exact hk.stepPort.next
  · exact hk.next

theorem execPortPtpFreq_keeps {t : PortId} {value : Word} (hk : s₀.Keeps s) : KeepsNext s₀ (execPortPtpFreq t value s) := by
  unfold execPortPtpFreq
  split
  · exact hk.setReg.next
  · exact hk.next

theorem discipline {t : PortId} {o : ℤ} (hk : s₀.Keeps s) : s₀.Keeps (s.discipline t o) := ite hk.stepPort hk.fresh.setReg

theorem execPtpMessage_keeps {t : PortId} {q : SubId} (hk : s₀.Keeps s) : KeepsNext s₀ (execPtpMessage t q s) := by
  unfold execPtpMessage
  split
  · exact hk.next
  · split
    · exact hk.next
    · split
      · exact hk.next
      · split
        next heq => exact (hk.updPort.ptpTake.of_fst heq).next
        next heq => exact (hk.updPort.ptpTake.of_fst heq).discipline.next

theorem execPtpMasterLost_keeps {t : PortId} (hk : s₀.Keeps s) : KeepsNext s₀ (execPtpMasterLost t s) := by
  unfold execPtpMasterLost
  dsimp only
  split
  · exact hk.next
  · exact hk.setFld.raise.updPtp.next

theorem execPeriodicOutput_keeps {t : PortId} (hk : s₀.Keeps s) : KeepsNext s₀ (execPeriodicOutput t s) := by
  unfold execPeriodicOutput
  dsimp only
  split
  · exact hk.next
  · split
    · exact hk.next
    next heq => exact next (ite (hk.portReach heq).update (hk.portReach heq))

/-! #### Machine/Roce -/

theorem storeDone {p : PartId} {c : TakenCmd} (hk : s₀.Keeps s) : s₀.Keeps (s.storeDone p c) :=
  ite hk.updIface.postFlush hk.finalRecord

theorem ownerDone {t : PortId} {n : Nat} {w : Wqe} (hk : s₀.Keeps s) : s₀.Keeps (s.ownerDone t n w) := by
  unfold State.ownerDone
  dsimp only
  split
  · exact hk
  · split
    · split
      · exact hk.finish
      · exact hk
    · split
      · exact hk.storeDone
      · exact hk
    · split
      · exact hk
      · split
        · split
          · exact hk.loadGot
          · exact hk
        · exact ite hk.updHandle hk.updHandle.ckptOn

theorem dropWqe {t : PortId} {n psn : Nat} (hk : s₀.Keeps s) : s₀.Keeps (s.dropWqe t n psn) := hk.updQp

theorem loadFailed {x : Handle} (hk : s₀.Keeps s) : s₀.Keeps (s.loadFailed x) := by
  unfold State.loadFailed
  dsimp only
  split
  · split
    · exact ite hk.opDone.sendAbortReq hk.opDone
    · exact hk.opDone
  · exact hk.opDone

theorem failUsers {t : PortId} {n : Nat} (hk : s₀.Keeps s) : s₀.Keeps (s.failUsers t n) := by
  unfold State.failUsers
  exact foldl (foldl (updQp (foldl hk (fun _ _ hs => foldl hs (fun _ _ hs => hs.finalRecord)))) (fun _ _ hs => by
      split
      · exact hs.loadFailed
      · split
        · exact hs.ckptFail
        · exact hs.opDone)) (fun _ _ hs => by
      split
      · exact hs.failQuiet
      · exact hs)

theorem unqueueQp {t : PortId} {n : Nat} {all : Bool} (hk : s₀.Keeps s) : s₀.Keeps (s.unqueueQp t n all) := hk.updPort

theorem qpError {t : PortId} {n syndrome : Nat} (hk : s₀.Keeps s) : s₀.Keeps (s.qpError t n syndrome) :=
  hk.unqueueQp.updQp.raise.failUsers

theorem goBack {t : PortId} {n : Nat} (hk : s₀.Keeps s) : s₀.Keeps (s.goBack t n) :=
  foldl hk.unqueueQp fun _ _ hs => hs.portCount.sendWqe

theorem retryQp {t : PortId} {n : Nat} {rnr : Bool} {syndrome : Nat} (hk : s₀.Keeps s) : s₀.Keeps (s.retryQp t n rnr syndrome) :=
  ite hk.qpError hk.updQp.goBack

theorem ackQp {t : PortId} {n psn : Nat} {l : List Wqe} (hk : s₀.Keeps s) : s₀.Keeps (State.ackQp t n psn l s) := by
  induction l generalizing s with
  | nil => exact hk
  | cons w l ih =>
    unfold State.ackQp
    exact ite hk (ite hk.updQp (ite (ih hk.updQp) (ih hk.dropWqe.ownerDone)))

theorem acked {t : PortId} {n psn : Nat} (hk : s₀.Keeps s) : s₀.Keeps (s.acked t n psn) := hk.ackQp

theorem placeRead {t : PortId} {n : Nat} {w : Wqe} {bs : List Byte} (hk : s₀.Keeps s) : s₀.Keeps (s.placeRead t n w bs) := by
  unfold State.placeRead
  dsimp only
  split
  · exact hk
  · exact hk.touchAll.lputBytes
  · exact ite hk.touchAll.lputBytes hk

theorem readArrives {t : PortId} {n psn : Nat} {bs : List Byte} (hk : s₀.Keeps s) : s₀.Keeps (s.readArrives t n psn bs) := by
  unfold State.readArrives
  dsimp only
  split
  · exact hk
  · exact ite hk (ite hk (ite hk.goBack (ite hk.placeRead.dropWqe.ownerDone hk.placeRead.updQp)))

theorem flushConfirmed {t : PortId} {n ident status : Nat} (hk : s₀.Keeps s) : s₀.Keeps (s.flushConfirmed t n ident status) := by
  unfold State.flushConfirmed
  dsimp only
  split
  · exact hk.updQp.sendAeth
  · exact ite hk.updQp.sendAeth.dropWqe.ownerDone hk.updQp.sendAeth.qpError

theorem takeRoce {x : PortId} {mine : RocePkt → Bool} {y : RocePkt} (hk : s₀.Keeps s) (e : s.takeRoce x mine = some (t, y)) :
    s₀.Keeps t := by
  unfold State.takeRoce at e
  split at e
  · cases e
  · split at e
    · cases e
      exact hk.updPort.pfcWatch
    · cases e

theorem aethIn {t : PortId} {n psn syndrome : Nat} (hk : s₀.Keeps s) : s₀.Keeps (s.aethIn t n psn syndrome) := by
  unfold State.aethIn
  dsimp only
  split
  · exact hk.acked
  · exact hk.acked.retryQp
  · exact ite hk.acked.retryQp hk.qpError

theorem cnpFor {t : PortId} {n : Nat} {ce : Bool} (hk : s₀.Keeps s) : s₀.Keeps (s.cnpFor t n ce) := ite hk.updQp.sendRoce hk

theorem execRoceResponse_keeps {t : PortId} {qp : Nat} {q : SubId} (hk : s₀.Keeps s) : KeepsNext s₀ (execRoceResponse t qp q s) :=
    by
  unfold execRoceResponse
  dsimp only
  split
  · exact hk.next
  · split
    · exact hk.next
    next heq =>
      split
      · exact (hk.takeRoce heq).next
      · split
        · exact (hk.takeRoce heq).cnpFor.aethIn.runQp.next
        · exact (hk.takeRoce heq).cnpFor.acked.readArrives.runQp.next

theorem execRoceAckTimeout_keeps {t : PortId} {qp : Fin 1024} (hk : s₀.Keeps s) : KeepsNext s₀ (execRoceAckTimeout t qp s) := by
  unfold execRoceAckTimeout
  dsimp only
  split
  · exact hk.retryQp.next
  · exact hk.next

theorem execCnp_keeps {t : PortId} {qp : Nat} (hk : s₀.Keeps s) : KeepsNext s₀ (execCnp t qp s) := by
  unfold execCnp
  split
  · exact hk.next
  · split
    · exact hk.next
    next heq =>
      split
      · exact (hk.takeRoce heq).updQp.next
      · exact (hk.takeRoce heq).next

theorem execRoceRateIncrease_keeps {t : PortId} {qp : Fin 1024} (hk : s₀.Keeps s) : KeepsNext s₀ (execRoceRateIncrease t qp s) := by
  unfold execRoceRateIncrease
  split
  · exact hk.updQp.next
  · exact hk.next

theorem roceDenied {t : PortId} {n psn rkey : Nat} (hk : s₀.Keeps s) : s₀.Keeps (s.roceDenied t n psn rkey) :=
  hk.sendAeth.raise.updQp.raise.failUsers

theorem placeIn {p : PartId} {a : Nat} {bs : List Byte} (hk : s₀.Keeps s) : s₀.Keeps (s.placeIn p a bs) := hk.touchAll.lputBytes

theorem expectNext {t : PortId} {n k : Nat} {whole : Bool} (hk : s₀.Keeps s) : s₀.Keeps (s.expectNext t n k whole) := hk.updQp

theorem ackIf {t : PortId} {k : RocePkt} (hk : s₀.Keeps s) : s₀.Keeps (s.ackIf t k) := ite hk.sendAeth hk

theorem writeIn {t : PortId} {q : Qp} {k : RocePkt} (hk : s₀.Keeps s) : s₀.Keeps (s.writeIn t q k) := by
  unfold State.writeIn
  dsimp only
  split
  · exact hk.sendAeth
  · exact ite hk.sendAeth (ite hk.roceDenied hk.placeIn.expectNext.ackIf.updQp)

theorem readIn {t : PortId} {q : Qp} {k : RocePkt} {again : Bool} (hk : s₀.Keeps s) : s₀.Keeps (s.readIn t q k again) := by
  unfold State.readIn
  dsimp only
  split
  · exact hk.sendAeth
  · split
    · exact hk.roceDenied
    · split
      · exact sendAeth (fenceByErrors (uncorrectable (ite hk hk.expectNext)))
      · exact foldl (meetReads (touchAll (ite hk hk.expectNext))) fun _ _ hs => hs.sendRoce

theorem sendIn {t : PortId} {q : Qp} {k : RocePkt} (hk : s₀.Keeps s) : s₀.Keeps (s.sendIn t q k) := by
  unfold State.sendIn
  dsimp only
  split
  · split
    · exact hk.fresh.sendAeth
    · exact hk.sendAeth
  · split
    · exact ite hk.fresh.sendAeth (ite hk.fresh.roceDenied hk.fresh.placeIn.updQp.expectNext.ackIf)
    · exact ite hk.sendAeth (ite hk.roceDenied hk.placeIn.updQp.expectNext.ackIf)

theorem requestIn {t : PortId} {q : Qp} {k : RocePkt} (hk : s₀.Keeps s) : s₀.Keeps (s.requestIn t q k) := by
  unfold State.requestIn
  split
  · exact hk.writeIn
  · split
    · exact hk.readIn
    · split
      · split
        · exact hk.flushConfirmed.runQp
        · exact hk.sendIn
      · exact hk.sendAeth

theorem execRoceRequest_keeps {t : PortId} {sub : SubId} (hk : s₀.Keeps s) : KeepsNext s₀ (execRoceRequest t sub s) := by
  unfold execRoceRequest
  dsimp only
  split
  · exact hk.next
  · split
    · exact hk.next
    next heq =>
      split
      · exact (hk.takeRoce heq).next
      · split
        · exact (hk.takeRoce heq).cnpFor.requestIn.next
        · split
          · exact (hk.takeRoce heq).cnpFor.sendAeth.next
          · split
            · exact (hk.takeRoce heq).cnpFor.readIn.next
            · exact (hk.takeRoce heq).cnpFor.sendAeth.next

theorem execQpxRead_keeps {t : PortId} {value : Word} (hk : s₀.Keeps s) : KeepsNext s₀ (execQpxRead t value s) :=
  next (foldl hk.setReg (fun _ _ hs => hs.setReg))

theorem writeCtx {t : PortId} {n : Nat} {b : List Byte} (hk : s₀.Keeps s) : s₀.Keeps (s.writeCtx t n b) := by
  unfold State.writeCtx
  exact hk.unqueueQp.failUsers.updQp

theorem writeMr {t : PortId} {i : Nat} {b : List Byte} (hk : s₀.Keeps s) : s₀.Keeps (s.writeMr t i b) := by
  unfold State.writeMr
  exact hk.updPort

theorem execQpxWrite_keeps {t : PortId} {value : Word} (hk : s₀.Keeps s) : KeepsNext s₀ (execQpxWrite t value s) := by
  unfold execQpxWrite
  dsimp only
  split
  · exact hk.setReg.portRefuse.next
  · split
    · split
      · exact hk.setReg.portRefuse.next
      · exact hk.setReg.writeMr.next
    · split
      · exact hk.setReg.portRefuse.next
      · exact hk.setReg.writeCtx.next

/-! #### Machine/Commands -/

theorem meetEntry {p : PartId} (hk : s₀.Keeps s) : s₀.Keeps (s.meetEntry p) := hk.meetRange.meetRange

theorem take {p : PartId} {c : TakenCmd} (hk : s₀.Keeps s) (e : s.take p c = some t) : s₀.Keeps t := by
  unfold State.take at e
  split at e
  · cases e
  · cases e
    exact hk.meetEntry.count.updHdr.updIface

theorem failCmd {p : PartId} {c : TakenCmd} {status event : Nat} (hk : s₀.Keeps s) : s₀.Keeps (s.failCmd p c status event) :=
  hk.updIface.finalRecord

theorem takeUnnamed {p : PartId} (hk : s₀.Keeps s) (e : s.takeUnnamed p = some t) : s₀.Keeps t := by
  unfold State.takeUnnamed at e
  split at e
  · cases e
  · obtain ⟨u, hu, rfl⟩ := Option.map_eq_some_iff.mp e
    exact (hk.take hu).uncorrectable.failCmd
  · dsimp only at e
    split at e
    · cases e
    · obtain ⟨u, hu, rfl⟩ := Option.map_eq_some_iff.mp e
      exact (hk.take hu).failCmd

theorem skipUnnamedN {n : Nat} {p : PartId} (hk : s₀.Keeps s) : s₀.Keeps (State.skipUnnamedN n p s) := by
  induction n generalizing s with
  | zero => exact hk
  | succ n ih =>
    unfold State.skipUnnamedN
    split
    next heq => exact ih (hk.takeUnnamed heq)
    next => exact hk

theorem skipUnnamed {p : PartId} (hk : s₀.Keeps s) : s₀.Keeps (s.skipUnnamed p) := hk.skipUnnamedN

theorem onCmd {p : PartId} {op : Nat} {f : List Byte → TakenCmd → State → State} (hk : s₀.Keeps s)
    (hf : ∀ b c s, s₀.Keeps s → s₀.Keeps (f b c s)) : s₀.Keeps (s.onCmd p op f) := by
  unfold State.onCmd
  dsimp only
  split
  · refine ite hk.skipUnnamed ?_
    split
    next heq => exact skipUnnamed (hf _ _ _ (hk.skipUnnamed.take heq))
    next => exact hk.skipUnnamed
  · exact hk.skipUnnamed

theorem setTaken {p : PartId} {c d : TakenCmd} (hk : s₀.Keeps s) : s₀.Keeps (s.setTaken p c d) := hk.updIface

theorem nopCmd {p : PartId} {b : List Byte} {c : TakenCmd} (hk : s₀.Keeps s) : s₀.Keeps (s.nopCmd p b c) := by
  unfold State.nopCmd
  split
  · exact hk.failCmd
  · exact hk.finalRecord

theorem execCmdNop_keeps {p : PartId} (hk : s₀.Keeps s) : KeepsNext s₀ (execCmdNop p s) :=
  next (onCmd hk (fun _ _ _ hs => hs.nopCmd))

theorem jobLoadCmd {p : PartId} {b : List Byte} {c : TakenCmd} (hk : s₀.Keeps s) : s₀.Keeps (s.jobLoadCmd p b c) := by
  unfold State.jobLoadCmd
  dsimp only
  split
  · exact hk.failCmd
  · split
    next heq => exact (hk.loadJob.error heq).loadStopped.failCmd
    next heq => exact (hk.loadJob.ok heq).setTaken.beginJob

theorem execJobLoad_keeps {p : PartId} (hk : s₀.Keeps s) : KeepsNext s₀ (execJobLoad p s) :=
  next (onCmd hk (fun _ _ _ hs => hs.jobLoadCmd))

theorem storeReadCmd {p : PartId} {b : List Byte} {c : TakenCmd} (hk : s₀.Keeps s) : s₀.Keeps (s.storeReadCmd p b c) := by
  unfold State.storeReadCmd
  dsimp only
  split
  · exact hk.failCmd
  · exact hk.setTaken.postRead

theorem execStoreRead_keeps {p : PartId} (hk : s₀.Keeps s) : KeepsNext s₀ (execStoreRead p s) :=
  next (onCmd hk (fun _ _ _ hs => hs.storeReadCmd))

theorem storeWriteCmd {p : PartId} {b : List Byte} {c : TakenCmd} (hk : s₀.Keeps s) : s₀.Keeps (s.storeWriteCmd p b c) := by
  unfold State.storeWriteCmd
  dsimp only
  split
  · exact hk.failCmd
  · split
    · exact hk.touchAll.uncorrectable.fenceByErrors.failCmd
    · exact both hk.touchAll.meetReads.setTaken.postWrite (fun h₁ => h₁.finalRecord) id

theorem execStoreWrite_keeps {p : PartId} {env : MemEnv} (hk : s₀.Keeps s) : KeepsNext s₀ (execStoreWrite p env s) :=
  next (onCmd hk.takeEnv (fun _ _ _ hs => hs.storeWriteCmd))

theorem beginImage {p : PartId} {b : List Byte} {c : TakenCmd} {kind : Nat} (hk : s₀.Keeps s) : s₀.Keeps (s.beginImage p b c kind)
    :=
  hk.setTaken.openHandle.startedRecord

theorem checkpointCmd {p : PartId} {b : List Byte} {c : TakenCmd} (hk : s₀.Keeps s) : s₀.Keeps (s.checkpointCmd p b c) := by
  unfold State.checkpointCmd
  dsimp only
  split
  · exact hk.failCmd
  · split
    · exact hk.beginImage.updJob.sendCtl
    · exact hk.beginImage.updJob

theorem execCheckpoint_keeps {p : PartId} (hk : s₀.Keeps s) : KeepsNext s₀ (execCheckpoint p s) :=
  next (onCmd hk (fun _ _ _ hs => hs.checkpointCmd))

theorem modelLoadCmd {p : PartId} {b : List Byte} {c : TakenCmd} (hk : s₀.Keeps s) : s₀.Keeps (s.modelLoadCmd p b c) := by
  unfold State.modelLoadCmd
  dsimp only
  split
  · exact hk.failCmd
  · exact hk.beginImage.loadBegin

theorem execModelLoad_keeps {p : PartId} (hk : s₀.Keeps s) : KeepsNext s₀ (execModelLoad p s) :=
  next (onCmd hk (fun _ _ _ hs => hs.modelLoadCmd))

theorem execCommandFinalRecord_keeps {p : PartId} (hk : s₀.Keeps s) : KeepsNext s₀ (execCommandFinalRecord p s) := by
  unfold execCommandFinalRecord
  dsimp only
  split
  · exact hk.next
  · split
    · exact hk.countFld.updIface.next
    · split
      · exact hk.writeCpl.updIface.next
      · exact hk.next

/-! #### Machine/Counters -/

theorem clearRegs {os : List Nat} (hk : s₀.Keeps s) : s₀.Keeps (s.clearRegs os) := foldl hk fun _ _ hs => hs.setReg

theorem execCoreNumClrWtrunc_keeps {c : CoreId} (hk : s₀.Keeps s) : KeepsNext s₀ (execCoreNumClrWtrunc c s) := hk.clearRegs.next

theorem execCoreNumClrOutsat_keeps {c : CoreId} (hk : s₀.Keeps s) : KeepsNext s₀ (execCoreNumClrOutsat c s) := hk.clearRegs.next

theorem execCoreNumClrNonfin_keeps {c : CoreId} (hk : s₀.Keeps s) : KeepsNext s₀ (execCoreNumClrNonfin c s) := hk.clearRegs.next

theorem execCoreNumClrSumviol_keeps {c : CoreId} (hk : s₀.Keeps s) : KeepsNext s₀ (execCoreNumClrSumviol c s) := hk.clearRegs.next

theorem execCoreArrClrBeats_keeps {c : CoreId} (hk : s₀.Keeps s) : KeepsNext s₀ (execCoreArrClrBeats c s) := hk.clearRegs.next

theorem execCoreArrClrStalls_keeps {c : CoreId} (hk : s₀.Keeps s) : KeepsNext s₀ (execCoreArrClrStalls c s) := hk.clearRegs.next

theorem execCoreArrClrMismatches_keeps {c : CoreId} (hk : s₀.Keeps s) : KeepsNext s₀ (execCoreArrClrMismatches c s) :=
  hk.clearRegs.next

theorem execCoreVrClrLsteps_keeps {c : CoreId} (hk : s₀.Keeps s) : KeepsNext s₀ (execCoreVrClrLsteps c s) := hk.clearRegs.next

theorem execCoreVrClrStalls_keeps {c : CoreId} (hk : s₀.Keeps s) : KeepsNext s₀ (execCoreVrClrStalls c s) := hk.clearRegs.next

theorem execCoreVrClrTagfail_keeps {c : CoreId} (hk : s₀.Keeps s) : KeepsNext s₀ (execCoreVrClrTagfail c s) := hk.clearRegs.next

theorem execCoreGbClrOps_keeps {c : CoreId} (hk : s₀.Keeps s) : KeepsNext s₀ (execCoreGbClrOps c s) := hk.clearRegs.next

theorem execCoreGbClrBytes_keeps {c : CoreId} (hk : s₀.Keeps s) : KeepsNext s₀ (execCoreGbClrBytes c s) := hk.clearRegs.next

theorem execCoreGbClrWaits_keeps {c : CoreId} (hk : s₀.Keeps s) : KeepsNext s₀ (execCoreGbClrWaits c s) := hk.clearRegs.next

theorem execCoreMemClrWaits_keeps {c : CoreId} (hk : s₀.Keeps s) : KeepsNext s₀ (execCoreMemClrWaits c s) := hk.clearRegs.next

theorem execCoreMemClrCe_keeps {c : CoreId} (hk : s₀.Keeps s) : KeepsNext s₀ (execCoreMemClrCe c s) := hk.clearRegs.next

theorem execCoreMemClrUe_keeps {c : CoreId} (hk : s₀.Keeps s) : KeepsNext s₀ (execCoreMemClrUe c s) := hk.setFld.next

theorem execCoreStrClrCounts_keeps {c : CoreId} (hk : s₀.Keeps s) : KeepsNext s₀ (execCoreStrClrCounts c s) := hk.updCore.next

theorem execCoreNetClrOps_keeps {c : CoreId} (hk : s₀.Keeps s) : KeepsNext s₀ (execCoreNetClrOps c s) := hk.clearRegs.next

theorem execCoreNetClrStalls_keeps {c : CoreId} (hk : s₀.Keeps s) : KeepsNext s₀ (execCoreNetClrStalls c s) := hk.clearRegs.next

theorem execCoreNetClrBubble_keeps {c : CoreId} (hk : s₀.Keeps s) : KeepsNext s₀ (execCoreNetClrBubble c s) := hk.clearRegs.next

theorem execPortCntClrAll_keeps {t : PortId} (hk : s₀.Keeps s) : KeepsNext s₀ (execPortCntClrAll t s) := hk.clearRegs.next

theorem execPortOtClrAll_keeps {t : PortId} (hk : s₀.Keeps s) : KeepsNext s₀ (execPortOtClrAll t s) := hk.clearRegs.next

/-! #### Machine/Mat -/

theorem outCounts {c : CoreId} {p : PartId} {tensor sat nonfin : Nat} (hk : s₀.Keeps s) :
    s₀.Keeps (s.outCounts c p tensor sat nonfin) := by
  unfold State.outCounts
  dsimp only
  split
  · exact hk.count.count
  · exact ite hk.count.count hk.count.count.raise.updJob

theorem matDone {c : CoreId} {e : Issued} {u : MatUnit} {count : Nat} {failed retried : Bool} (hk : s₀.Keeps s) :
    s₀.Keeps (s.matDone c e u count failed retried) := by
  unfold State.matDone
  dsimp only
  split
  · exact hk.count64.matReport
  · exact both hk.count64.matReport id fun h₁ => h₁.raise.updJob

theorem updUnit {c : CoreId} {a : ArrayId} {h : Fin 2} {f : HalfS → HalfS} (hk : s₀.Keeps s) : s₀.Keeps (s.updUnit c a h f) :=
  hk.updCore

theorem setService {c : CoreId} {u : MatUnit} {v : Service} (hk : s₀.Keeps s) : s₀.Keeps (s.setService c u v) :=
  ite hk.updUnit.updUnit hk.updUnit

theorem moveQueued {c : CoreId} {u : MatUnit} (hk : s₀.Keeps s) : s₀.Keeps (s.moveQueued c u) :=
  foldl hk fun _ _ hs => hs.dropIssued.updCore

theorem suspect {c : CoreId} {u : MatUnit} (hk : s₀.Keeps s) : s₀.Keeps (s.suspect c u) :=
  ite hk.setService.updCore.raise.fenceCore
    (ite hk.setService.updCore.raise.fenceCore (ite hk.setService.updCore.raise hk.setService.updCore.raise.moveQueued))

theorem mismatch {c : CoreId} {u : MatUnit} {m : MatD} {w : Nat} {f : ScoreFault} (hk : s₀.Keeps s) :
    s₀.Keeps (s.mismatch c u m w f) :=
  both hk.raise.count.setReg.updUnit (fun h₁ => h₁.suspect) id

theorem updGrid {c : CoreId} {u : MatUnit} {f : Grid → Grid} (hk : s₀.Keeps s) : s₀.Keeps (s.updGrid c u f) := hk.updUnit

theorem loadShadow {c : CoreId} {u : MatUnit} {x : Option (Issued × Nat)} (hk : s₀.Keeps s) : s₀.Keeps (s.loadShadow c u x) := by
  unfold State.loadShadow
  split
  · exact hk.updGrid
  · exact hk.updGrid

theorem setGrids {c : CoreId} {u : MatUnit} {m : MatD} {mem : Nat → Byte} {fl : List Flaw} {n : Nat} (hk : s₀.Keeps s) :
    s₀.Keeps (s.setGrids c u m mem fl n) :=
  foldl hk fun _ _ hs => hs.updGrid

theorem endGrids {c : CoreId} {u : MatUnit} {e : Issued} {mem : Nat → Byte} {fl : List Flaw} (hk : s₀.Keeps s) :
    s₀.Keeps (s.endGrids c u e mem fl) :=
  foldl hk.setGrids fun _ _ hs => hs.updGrid.loadShadow

theorem putRests {c : CoreId} {m : MatD} {mem : Nat → Byte} {w lim : Nat} (hk : s₀.Keeps s) : s₀.Keeps (s.putRests c m mem w lim) :=
  ite hk hk.put

theorem countBeats {c : CoreId} {u : MatUnit} {ganged : Bool} {cols n : Nat} (hk : s₀.Keeps s) :
    s₀.Keeps (s.countBeats c u ganged cols n) :=
  foldl hk fun _ _ hs => hs.count64

theorem countStalls {c : CoreId} {u : MatUnit} {m : MatD} {w feed drain : Nat} (hk : s₀.Keeps s) :
    s₀.Keeps (s.countStalls c u m w feed drain) :=
  ite hk.count.count hk.count

theorem matOutputs {c : CoreId} {e : Issued} {j : Job} {m : MatD} {mem : Nat → Byte} {fl : List Flaw} {w lo lim : Nat}
    (hk : s₀.Keeps s) : s₀.Keeps (s.matOutputs c e j m mem fl w lo lim) :=
  ite (ite hk hk.updIssued) hk.lput.outCounts

theorem matPartial {c : CoreId} {u : MatUnit} {e : Issued} {j : Job} {m : MatD} {mem : Nat → Byte} {w : Nat} {retried : Bool}
    {fails : Nat → Bool} (hk : s₀.Keeps s) : s₀.Keeps (s.matPartial c u e j m mem w retried fails) := by
  unfold State.matPartial
  dsimp only
  split
  · exact hk.fresh.fresh.fresh.countBeats.matDone
  · exact hk.fresh.fresh.fresh.matOutputs.countBeats.matDone

theorem failOwing {c : CoreId} {e : Issued} {err : DErr} (hk : s₀.Keeps s) : s₀.Keeps (s.failOwing c e err) :=
  hk.updIssued.failDescriptor

theorem breachFails {c : CoreId} {u : MatUnit} {e : Issued} {j : Job} {m : MatD} {mem : Nat → Byte} {w : Nat} {retried : Bool}
    (hk : s₀.Keeps s) : s₀.Keeps (s.breachFails c u e j m mem w retried) :=
  hk.update.matPartial.count.failDescriptor

theorem abandon {c : CoreId} {u : MatUnit} {e : Issued} {first : Option MatUnit} {j : Job} {m : MatD} {mem : Nat → Byte}
    {fl : List Flaw} {w lo : Nat} {f : ScoreFault} (hk : s₀.Keeps s) : s₀.Keeps (s.abandon c u e first j m mem fl w lo f) := by
  unfold State.abandon
  dsimp only
  split
  · exact both hk.fresh.countBeats.matOutputs.setGrids.putRests.dropIssued.mismatch id fun h₁ => h₁.updCore
  · exact both hk.fresh.countBeats.matOutputs.setGrids.putRests.fresh.mismatch id fun h₁ => h₁.matDone.failOwing

theorem runMat {c : CoreId} {u : MatUnit} {e : Issued} {first : Option MatUnit} {lo : Nat} {flaws : List Flaw} {feed drain : Nat}
    (hk : s₀.Keeps s) : s₀.Keeps (s.runMat c u e first lo flaws feed drain) := by
  unfold State.runMat
  dsimp only
  split
  · exact hk.dropIssued
  · split
    next heq => exact (hk.countStalls.access.of_fst heq).matPartial.failAccess
    next heq =>
      split
      · exact (hk.countStalls.access.of_fst heq).breachFails
      · split
        · exact (hk.countStalls.access.of_fst heq).countBeats.matDone.failDescriptor
        · split
          · exact (hk.countStalls.access.of_fst heq).abandon
          · exact both (hk.countStalls.access.of_fst heq).countBeats.matOutputs.putRests.endGrids (fun h₁ => h₁.updIssued)
              fun h₁ => h₁.matDone.finish

theorem execMatRun_keeps {c : CoreId} {u : MatUnit} {flaws : List Flaw} {feedStalls drainStalls : Nat} {env : MemEnv}
    (hk : s₀.Keeps s) : KeepsNext s₀ (execMatRun c u flaws feedStalls drainStalls env s) := by
  unfold execMatRun
  dsimp only
  split
  · exact hk.next
  · split
    · exact hk.next
    · split
      · exact hk.takeFor.matDone.failDescriptor.next
      · exact hk.takeFor.runMat.next

theorem execMatRetry_keeps {c : CoreId} {k : Nat} {flaws : List Flaw} {feedStalls drainStalls : Nat} {env : MemEnv}
    (hk : s₀.Keeps s) : KeepsNext s₀ (execMatRetry c k flaws feedStalls drainStalls env s) := by
  unfold execMatRetry
  dsimp only
  split
  · exact hk.next
  · split
    · split
      · exact hk.next
      · exact hk.takeFor.runMat.next
    · exact hk.next

theorem fillLine {c : CoreId} {u : MatUnit} {row col : Nat} {x : Issued × Nat} (hk : s₀.Keeps s) :
    s₀.Keeps (s.fillLine c u row col x) :=
  ite hk.updGrid hk

theorem endToken {c : CoreId} {u : MatUnit} {next : Option (Issued × Nat)} (hk : s₀.Keeps s) : s₀.Keeps (s.endToken c u next) := by
  unfold State.endToken
  dsimp only
  split
  · exact hk.updGrid
  · exact hk.updGrid

theorem execSwapToken_keeps {c : CoreId} {u : MatUnit} {row col : Fin 256} {waited : Bool} {n : Nat} (hk : s₀.Keeps s) :
    KeepsNext s₀ (execSwapToken c u row col waited n s) := by
  unfold execSwapToken
  split
  · exact hk.next
  next e k _ =>
    have hloaded : s₀.Keeps (if (s.cores[c].unit u).grid.loads = some (e.seq, k) then s else s.loadShadow c u (some (e, k))) :=
      ite hk hk.loadShadow
    revert hloaded
    generalize (if (s.cores[c].unit u).grid.loads = some (e.seq, k) then s else s.loadShadow c u (some (e, k))) = v
    intro hv
    dsimp only
    split
    · exact hv.next
    · cases v.nextLoad c u e k with
      | some x => exact next (ite (endToken (fillLine (updGrid (count (ite hv.count hv)))))
          (fillLine (updGrid (count (ite hv.count hv)))))
      | none => exact next (ite (endToken (updGrid (count (ite hv.count hv)))) (updGrid (count (ite hv.count hv))))

theorem updRecords {c : CoreId} {u : MatUnit} {f : HalfS → HalfS} (hk : s₀.Keeps s) : s₀.Keeps (s.updRecords c u f) :=
  ite hk.updUnit.updUnit hk.updUnit

theorem execArrayDiagnostic_keeps {c : CoreId} {u : MatUnit} (hk : s₀.Keeps s) : KeepsNext s₀ (execArrayDiagnostic c u s) := by
  unfold execArrayDiagnostic
  split
  · exact hk.updRecords.next
  · exact hk.next

theorem execArrayDiagnosticDone_keeps {c : CoreId} {u : MatUnit} {found : Option (Fin 256 × Fin 256)} (hk : s₀.Keeps s) :
    KeepsNext s₀ (execArrayDiagnosticDone c u found s) := by
  unfold execArrayDiagnosticDone
  dsimp only
  split
  · exact hk.next
  · split
    · exact hk.updRecords.setService.updRecords.raise.next
    · exact hk.updRecords.setService.setReg.raise.next

/-! #### Machine/Mov -/

theorem movRows {j : Job} {l : List (List MovCell)} (hk : s₀.Keeps s) : s₀.Keeps (s.movRows j l).1 := by
  induction l generalizing s with
  | nil => exact hk
  | cons row l ih =>
    unfold State.movRows
    dsimp only
    split
    · exact hk.lput
    · exact ih hk.lput

theorem runMov {c : CoreId} {e : Issued} {j : Job} (hk : s₀.Keeps s) : s₀.Keeps (s.runMov c e j) := by
  unfold State.runMov
  dsimp only
  split
  next heq => exact (hk.touchAll.movRows.of_fst heq).failAccess
  next heq => exact (hk.touchAll.movRows.of_fst heq).finish

theorem execMovCopy_keeps {c : CoreId} {slot : Fin 8} {env : MemEnv} (hk : s₀.Keeps s) : KeepsNext s₀ (execMovCopy c slot env s) :=
    by
  unfold execMovCopy
  split
  · exact hk.takeFor.runMov.next
  · exact hk.next

theorem execCopyRect_keeps {c : CoreId} {slot : Fin 8} {env : MemEnv} (hk : s₀.Keeps s) : KeepsNext s₀ (execCopyRect c slot env s)
    := by
  unfold execCopyRect
  split
  · exact hk.takeFor.runMov.next
  · exact hk.next

theorem execMovFill_keeps {c : CoreId} {slot : Fin 8} {env : MemEnv} (hk : s₀.Keeps s) : KeepsNext s₀ (execMovFill c slot env s) :=
    by
  unfold execMovFill
  split
  · exact hk.takeFor.runMov.next
  · exact hk.next

/-! #### Machine/Gb -/

theorem putSums {c : CoreId} {p : PartId} {j : Job} {tensor : Nat} {ws : List (Nat × Nat)} (hk : s₀.Keeps s) :
    s₀.Keeps (s.putSums c p j tensor ws) :=
  hk.lput.outCounts

theorem addsMade {c : CoreId} {e : Issued} (hk : s₀.Keeps s) : s₀.Keeps (s.addsMade c e) :=
  ite (finish (ite hk.updIssued.matDone hk.updIssued)) (ite hk.updIssued.dropIssued.settle hk.updIssued)

theorem addFails {c : CoreId} {e : Issued} {err : DErr ⊕ Nat} (hk : s₀.Keeps s) : s₀.Keeps (s.addFails c e err) :=
  ite hk.dropIssued.settle (failAccess (ite hk.updIssued.matDone hk.updIssued))

theorem execGbAddition_keeps {c : CoreId} {k : Nat} (hk : s₀.Keeps s) : KeepsNext s₀ (execGbAddition c k s) := by
  unfold execGbAddition
  dsimp only
  split
  · exact hk.next
  · split
    · exact hk.next
    · split
      · exact hk.next
      · split
        · exact hk.addsMade.next
        · split
          · exact hk.next
          · split
            · exact hk.next
            · split
              · exact hk.addFails.next
              · split
                · split
                  · exact hk.next
                  · exact hk.count.updIssued.next
                · split
                  next heq => exact (hk.meetReads.access.of_fst heq).addFails.next
                  next heq => exact (hk.meetReads.access.of_fst heq).putSums.addsMade.next

theorem beginFill {c : CoreId} {e : Issued} {v : Serve} {k tile ties : Nat} (hk : s₀.Keeps s) :
    s₀.Keeps (s.beginFill c e v k tile ties) :=
  hk.updGbSlot.updIssued

theorem execGbZero_keeps {c : CoreId} {slot : Fin 8} {env : MemEnv} (hk : s₀.Keeps s) : KeepsNext s₀ (execGbZero c slot env s) := by
  unfold execGbZero
  dsimp only
  split
  · exact hk.next
  · split
    · exact hk.takeFor.failDescriptor.next
    · split
      · exact hk.takeFor.failDescriptor.next
      · split
        next heq => exact (hk.takeFor.access.of_fst heq).failAccess.next
        next heq => exact (hk.takeFor.access.of_fst heq).zeroRange.beginFill.next

theorem execRefill_keeps {c : CoreId} {slot : Fin 8} {env : MemEnv} (hk : s₀.Keeps s) : KeepsNext s₀ (execRefill c slot env s) := by
  unfold execRefill
  dsimp only
  split
  · exact hk.next
  · split
    · exact hk.takeFor.failDescriptor.next
    · split
      · exact hk.takeFor.failDescriptor.next
      · split
        next heq => exact (hk.takeFor.access.of_fst heq).failAccess.next
        next heq =>
          split
          · exact (hk.takeFor.access.of_fst heq).failDescriptor.next
          · split
            next heq1 => exact ((hk.takeFor.access.of_fst heq).touchAll.movRows.of_fst heq1).failAccess.next
            next heq1 => exact ((hk.takeFor.access.of_fst heq).touchAll.movRows.of_fst heq1).beginFill.next

theorem execSlotFilled_keeps {c : CoreId} {k : Nat} (hk : s₀.Keeps s) : KeepsNext s₀ (execSlotFilled c k s) := by
  unfold execSlotFilled
  dsimp only
  split
  · exact hk.next
  · split
    · exact hk.next
    · split
      · exact hk.next
      · split
        · exact hk.next
        · exact next (finish (ite hk.updGbSlot.count.count64 hk.updGbSlot.count))

theorem execSpill_keeps {c : CoreId} {slot : Fin 8} (hk : s₀.Keeps s) : KeepsNext s₀ (execSpill c slot s) := by
  unfold execSpill
  dsimp only
  split
  · exact hk.next
  · split
    · exact hk.failDescriptor.next
    · split
      · exact hk.failDescriptor.next
      · exact hk.updIssued.next

theorem execSpillWrite_keeps {c : CoreId} {k : Nat} {env : MemEnv} (hk : s₀.Keeps s) : KeepsNext s₀ (execSpillWrite c k env s) := by
  unfold execSpillWrite
  dsimp only
  split
  · exact hk.next
  · split
    · exact hk.next
    · split
      · exact hk.next
      · split
        · exact hk.next
        · split
          · exact hk.next
          · split
            next heq => exact next (failAccess (both (hk.takeFor.touchAll.movRows.of_fst heq) id fun h₁ => h₁.updGbSlot))
            next heq => exact next (finish (count64 (count
                (both (hk.takeFor.touchAll.movRows.of_fst heq) id fun h₁ => h₁.updGbSlot))))

theorem execTieAdd_keeps {c : CoreId} {slot : Fin 8} {env : MemEnv} (hk : s₀.Keeps s) : KeepsNext s₀ (execTieAdd c slot env s) := by
  unfold execTieAdd
  dsimp only
  split
  · exact hk.next
  · split
    · exact hk.finish.next
    · split
      · split
        · exact hk.takeFor.failDescriptor.next
        · split
          · exact hk.takeFor.failDescriptor.next
          · split
            · exact hk.takeFor.failDescriptor.next
            · split
              · exact hk.takeFor.touchAll.putSums.failAccess.next
              · exact hk.takeFor.touchAll.putSums.updGbSlot.count.finish.next
      · exact hk.takeFor.failDescriptor.next

theorem execGbClearDone_keeps {c : CoreId} (hk : s₀.Keeps s) : KeepsNext s₀ (execGbClearDone c s) := hk.updCore.next

/-! #### Machine/HostLink -/

theorem readRegs {n o : Nat} (hk : s₀.Keeps s) : s₀.Keeps (State.readRegs n o s).2 := by
  induction n generalizing o s with
  | zero => exact hk
  | succ n ih => exact ih hk.regRead

theorem execRegRead_keeps {r : Setup} (hk : s₀.Keeps s) : KeepsNext s₀ (execRegRead r s) := by
  unfold execRegRead
  exact next (request hk (fun _ _ hs => by
      dsimp only
      split
      · exact hs.reqFail
      · exact ite hs.reqFail hs.readRegs.reqOk))

theorem execGetLastError_keeps {r : Setup} (hk : s₀.Keeps s) : KeepsNext s₀ (execGetLastError r s) :=
  next (request hk (fun _ _ hs => hs.reqOk))

theorem resetIfaces (hk : s₀.Keeps s) : s₀.Keeps s.resetIfaces := update (foldl hk (fun _ _ hs => hs.updIface))

theorem resetRings {p : PartId} {cancel : Bool} (hk : s₀.Keeps s) : s₀.Keeps (s.resetRings p cancel) := by
  refine ite hk.updHdr.updIface (foldl hk.updHdr.updIface.updIface fun s x hs => ?_)
  split
  next heq =>
    obtain ⟨y, -, hy⟩ := Option.map_eq_some_iff.mp heq
    exact hs.opCancelOn hy
  next => exact hs

theorem execFuncReset_keeps {r : Setup} (hk : s₀.Keeps s) : KeepsNext s₀ (execFuncReset r s) :=
  next (request hk (fun _ _ hs => ite hs.reqFail (ite hs.update.reqOk hs.updIface.resetRings.reqOk)))

theorem execFuncResetDone_keeps {i : Fin 5} (hk : s₀.Keeps s) : KeepsNext s₀ (execFuncResetDone i s) := by
  unfold execFuncResetDone
  dsimp only
  split
  · split
    · exact hk.update.raise.next
    · exact hk.next
  · split
    · exact hk.next
    · exact next (raise (updIface (ite hk.update.zeroRange.updIface hk.update)))

theorem attach (hk : s₀.Keeps s) : s₀.Keeps s.attach := ite hk (both hk.setReg.update.update id fun h₁ => h₁.countFld.raise)

theorem execUsbAttach_keeps {speed : Fin 4} {orient : Bool} (hk : s₀.Keeps s) : KeepsNext s₀ (execUsbAttach speed orient s) := by
  unfold execUsbAttach
  dsimp only
  split
  · exact hk.update.attach.next
  · exact hk.update.next

theorem hostLost {cause : Nat} (hk : s₀.Keeps s) : s₀.Keeps (s.hostLost cause) := hk.resetIfaces.countFld.raise

theorem execUsbDisconnect_keeps (hk : s₀.Keeps s) : KeepsNext s₀ (execUsbDisconnect s) := by
  unfold execUsbDisconnect
  dsimp only
  split
  · exact hk.update.setReg.hostLost.next
  · exact hk.update.setReg.next

theorem linkReset {cause : Nat} (hk : s₀.Keeps s) : s₀.Keeps (s.linkReset cause) := ite hk.update.setFld.hostLost hk

theorem execBusReset_keeps (hk : s₀.Keeps s) : KeepsNext s₀ (execBusReset s) := hk.linkReset.next

theorem execWarmReset_keeps (hk : s₀.Keeps s) : KeepsNext s₀ (execWarmReset s) := hk.linkReset.next

theorem execUsbSuspend_keeps (hk : s₀.Keeps s) : KeepsNext s₀ (execUsbSuspend s) := by
  unfold execUsbSuspend
  dsimp only
  split
  · exact hk.update.setFld.next
  · exact hk.next

theorem execUsbResume_keeps (hk : s₀.Keeps s) : KeepsNext s₀ (execUsbResume s) := by
  unfold execUsbResume
  dsimp only
  split
  · exact hk.update.setFld.next
  · exact hk.next

/-! #### Machine/Membership -/

theorem execJoin_keeps {p : PartId} {e : EntryId} (hk : s₀.Keeps s) : KeepsNext s₀ (execJoin p e s) := by
  unfold execJoin
  dsimp only
  split
  · exact hk.next
  next heq =>
    split
    · exact (hk.popMsg heq).next
    · split
      · exact (hk.popMsg heq).sendCtl.next
      · split
        · exact (hk.popMsg heq).raise.sendCtl.next
        · exact (hk.popMsg heq).updCluster.sendCtl.beginFirst.restoreRoster.next

theorem execJoinReply_keeps {p : PartId} {e : EntryId} (hk : s₀.Keeps s) : KeepsNext s₀ (execJoinReply p e s) := by
  unfold execJoinReply
  split
  · exact hk.next
  next heq =>
    split
    · exact (hk.popMsg heq).updCluster.next
    · exact (hk.popMsg heq).updCluster.endJob.next

theorem execRoster_keeps {p : PartId} {e : EntryId} (hk : s₀.Keeps s) : KeepsNext s₀ (execRoster p e s) := by
  unfold execRoster
  dsimp only
  split
  · exact hk.next
  next heq =>
    split
    · exact (hk.popMsg heq).next
    · split
      · exact (hk.popMsg heq).applyRoster.loadRoster.removeUnreached.next
      · exact next (both (hk.popMsg heq).updCluster (fun h₁ => h₁.sendAbortReq) id)

theorem execLeave_keeps {p : PartId} {e : EntryId} (hk : s₀.Keeps s) : KeepsNext s₀ (execLeave p e s) := by
  unfold execLeave
  split
  · exact hk.next
  next heq =>
    split
    · exact (hk.popMsg heq).next
    · split
      · exact (hk.popMsg heq).removeMember.next
      · exact (hk.popMsg heq).next

theorem execRedirect_keeps {p : PartId} {e : EntryId} (hk : s₀.Keeps s) : KeepsNext s₀ (execRedirect p e s) := by
  unfold execRedirect
  dsimp only
  split
  · exact hk.next
  next heq =>
    split
    · exact (hk.popMsg heq).next
    · split
      · exact (hk.popMsg heq).next
      · exact (hk.popMsg heq).updCluster.sendJoin.next

theorem execLeadQuery_keeps {p : PartId} {e : EntryId} (hk : s₀.Keeps s) : KeepsNext s₀ (execLeadQuery p e s) := by
  unfold execLeadQuery
  split
  · exact hk.next
  next heq =>
    split
    · exact (hk.popMsg heq).next
    · split
      · exact (hk.popMsg heq).sendCtl.next
      · exact (hk.popMsg heq).updCluster.next

theorem execLeadReply_keeps {p : PartId} {e : EntryId} (hk : s₀.Keeps s) : KeepsNext s₀ (execLeadReply p e s) := by
  unfold execLeadReply
  dsimp only
  split
  · exact hk.next
  next heq =>
    split
    · exact (hk.popMsg heq).next
    · split
      · exact (hk.popMsg heq).next
      · split
        · exact (hk.popMsg heq).next
        · split
          · exact (hk.popMsg heq).updCluster.takeover.next
          · exact (hk.popMsg heq).updCluster.next

theorem execStarterQuery_keeps {p : PartId} {e : EntryId} (hk : s₀.Keeps s) : KeepsNext s₀ (execStarterQuery p e s) := by
  unfold execStarterQuery
  split
  · exact hk.next
  next heq =>
    split
    · exact (hk.popMsg heq).next
    · split
      · exact (hk.popMsg heq).next
      · exact (hk.popMsg heq).sendCtl.next

theorem execLost_keeps {p : PartId} {e : EntryId} (hk : s₀.Keeps s) : KeepsNext s₀ (execLost p e s) := by
  unfold execLost
  dsimp only
  split
  · exact hk.next
  next heq =>
    split
    · exact (hk.popMsg heq).next
    · split
      · exact (hk.popMsg heq).removeMember.next
      · exact (hk.popMsg heq).next

theorem execJoinRetry_keeps {p : PartId} (hk : s₀.Keeps s) : KeepsNext s₀ (execJoinRetry p s) := by
  unfold execJoinRetry
  split
  · exact hk.next
  · split
    · exact hk.sendJoin.next
    · exact hk.next

theorem execStartTimeout_keeps {p : PartId} (hk : s₀.Keeps s) : KeepsNext s₀ (execStartTimeout p s) := by
  unfold execStartTimeout
  dsimp only
  split
  · exact hk.next
  · split
    · exact hk.next
    · exact next (beginFirst (updCluster (ite hk.raise.updCluster hk)))

theorem execStarterSilent_keeps {p : PartId} (hk : s₀.Keeps s) : KeepsNext s₀ (execStarterSilent p s) := by
  unfold execStarterSilent
  dsimp only
  split
  · exact hk.next
  · split
    · exact hk.next
    · split
      · exact next (foldl hk.updCluster.updCluster (fun _ _ hs => hs.sendCtl))
      · split
        · exact hk.updCluster.updCluster.sendCtl.next
        · exact hk.updCluster.next

theorem execLeadQueryTimeout_keeps {p : PartId} (hk : s₀.Keeps s) : KeepsNext s₀ (execLeadQueryTimeout p s) := by
  unfold execLeadQueryTimeout
  split
  · exact hk.next
  · split
    · exact hk.updCluster.noStarter.next
    · exact hk.next

theorem execNoStarterTimeout_keeps {p : PartId} (hk : s₀.Keeps s) : KeepsNext s₀ (execNoStarterTimeout p s) := by
  unfold execNoStarterTimeout
  split
  · exact hk.next
  · split
    · exact hk.next
    · exact hk.noStarter.next

theorem execStarterQueryRetry_keeps {p : PartId} (hk : s₀.Keeps s) : KeepsNext s₀ (execStarterQueryRetry p s) := by
  unfold execStarterQueryRetry
  split
  · exact hk.next
  · split
    · exact next (foldl hk (fun _ _ hs => hs.sendCtl))
    · exact hk.next

/-! #### Machine/Security -/

theorem fwRefused {h : Nat} {r : Refused} (hk : s₀.Keeps s) : s₀.Keeps (s.fwRefused h r) := hk.raise.opDone

theorem execFwStage_keeps {x : Setup} (hk : s₀.Keeps s) : KeepsNext s₀ (execFwStage x s) := by
  refine next (hk.opStart (fun s t n hs e => ?_) (fun s t y hs e => ?_) fun n s hs => ?_)
  · split at e
    next heq => cases e; exact hs.takePresence_error heq
    · cases e
  · split at e
    · cases e
    next heq => cases e; exact hs.takePresence_ok heq
  · dsimp only
    split
    · exact hs.fwRefused
    · exact nvmGo (hs.update)

theorem fwFinish {h n : Nat} (hk : s₀.Keeps s) : s₀.Keeps (s.fwFinish h n) :=
  ite hk.fwRefused.nvmNext (nvmNext (opDone (raise (writeHeader (ite hk.advance.advance hk.advance)))))

theorem nvmWriteEnd {h : Nat} (hk : s₀.Keeps s) : s₀.Keeps (s.nvmWriteEnd h) := by
  unfold State.nvmWriteEnd
  split
  · exact ite hk.opDone hk
  · exact hk

theorem execNvmWrite_keeps {x : Setup} (hk : s₀.Keeps s) : KeepsNext s₀ (execNvmWrite x s) := by
  refine next (hk.opStart (fun s t n hs e => ?_) (fun s t y hs e => ?_) fun n s hs => ?_)
  · split at e
    · cases e; exact hs
    · split at e
      · cases e; exact hs
      · dsimp only at e
        split at e
        · cases e
        · split at e
          next heq => cases e; exact hs.takePresence_error heq
          · cases e
  · split at e
    · cases e
    · split at e
      · cases e
      · dsimp only at e
        split at e
        · cases e; exact hs
        · split at e
          · cases e
          next heq => cases e; exact hs.takePresence_ok heq
  · dsimp only
    split
    · exact hs.raise.opDone
    · exact ite hs.updHandle.nvmWriteEnd hs.updHandle.update.nvmGo

theorem recordDone {h : Nat} (hk : s₀.Keeps s) : s₀.Keeps (s.recordDone h) := by
  unfold State.recordDone
  dsimp only
  split
  · exact hk.updHandle.updHead.update.nvmNext
  · exact ite hk.updHandle.updHead.update.opDone.nvmNext (both hk.updHandle.updHead.update (fun h₁ => h₁.opDone.nvmNext) id)

theorem execNvmConfig_keeps {h : Nat} (hk : s₀.Keeps s) : KeepsNext s₀ (execNvmConfig h s) := by
  unfold execNvmConfig
  split
  · exact hk.nvmBegin.next
  · exact hk.next

theorem execOwnerKey_keeps {h : Nat} (hk : s₀.Keeps s) : KeepsNext s₀ (execOwnerKey h s) := by
  unfold execOwnerKey
  split
  · exact hk.nvmBegin.next
  · exact hk.next

theorem execPayload_keeps {h : Nat} (hk : s₀.Keeps s) : KeepsNext s₀ (execPayload h s) := by
  unfold execPayload
  split
  · split
    · exact hk.recordDone.next
    · exact hk.nvmBegin.next
  · exact hk.next

theorem execIdentityReset_keeps {h : Nat} (hk : s₀.Keeps s) : KeepsNext s₀ (execIdentityReset h s) := by
  unfold execIdentityReset
  dsimp only
  split
  · exact hk.advance.nvmErase.raise.recordDone.next
  · exact hk.next

theorem execDebugUnlock_keeps {h : Nat} (hk : s₀.Keeps s) : KeepsNext s₀ (execDebugUnlock h s) := by
  unfold execDebugUnlock
  dsimp only
  split
  · exact hk.update.raise.recordDone.next
  · exact hk.next

theorem pair (hk : s₀.Keeps s) : s₀.Keeps s.pair := hk.nvmErase.nvmPut.update

theorem execNvmPair_keeps {h : Nat} (hk : s₀.Keeps s) : KeepsNext s₀ (execNvmPair h s) := by
  unfold execNvmPair
  split
  · exact hk.pair.recordDone.next
  · exact hk.next

theorem recordWritten {h : Nat} {x : Handle} {w : NvmWork} (hk : s₀.Keeps s) : s₀.Keeps (s.recordWritten h x w) := by
  unfold State.recordWritten
  dsimp only
  split
  · exact hk.advance.writeHeader.recordDone
  · exact hk.advance.update.raise.recordDone
  · exact hk.recordDone

theorem execNvmPageComplete_keeps (hk : s₀.Keeps s) : KeepsNext s₀ (execNvmPageComplete s) := by
  unfold execNvmPageComplete
  dsimp only
  split
  · split
    · exact hk.nvmPage.next
    · split
      · exact hk.nvmPage.update.nvmGo.next
      · split
        · split
          · split
            · exact hk.nvmPage.fwFinish.next
            · exact hk.nvmPage.recordWritten.next
          · exact hk.nvmPage.nvmNext.next
        · exact hk.nvmPage.nvmNext.next
  · exact hk.next

theorem execStagingFrame_keeps {f : Frame} (hk : s₀.Keeps s) : KeepsNext s₀ (execStagingFrame f s) := by
  have hanswered {st : Nat} {d : List Byte} {u : State} (hu : s₀.Keeps u) :
      s₀.Keeps { u with diag := { u.diag with responses := u.diag.responses ++ [stagingResponse f st d] } } := hu.update
  unfold execStagingFrame
  split
  · exact hk.next
  · dsimp only
    split
    · split
      · exact (hanswered hk).next
      · exact next (raise (same (ite (hanswered hk) hk) rfl))
    · split
      · exact (hanswered hk).next
      · exact next (hk.update)

theorem execAttGo_keeps (hk : s₀.Keeps s) : KeepsNext s₀ (execAttGo s) := by
  unfold execAttGo
  dsimp only
  split
  · exact hk.next
  · split
    · exact hk.update.setFld.next
    · exact hk.setFld.next

theorem execAttReportDone_keeps (hk : s₀.Keeps s) : KeepsNext s₀ (execAttReportDone s) := by
  unfold execAttReportDone
  dsimp only
  split
  · exact hk.next
  · split
    · exact hk.update.setFld.next
    · exact next (setFld (foldl hk.update.fresh (fun _ _ hs => hs.setReg)))

theorem execPresenceAssert_keeps (hk : s₀.Keeps s) : KeepsNext s₀ (execPresenceAssert s) := by
  unfold execPresenceAssert
  dsimp only
  split
  · exact hk.update.next
  · exact hk.next

theorem execPresenceExpire_keeps (hk : s₀.Keeps s) : KeepsNext s₀ (execPresenceExpire s) := hk.update.next

theorem execSealOpen_keeps (hk : s₀.Keeps s) : KeepsNext s₀ (execSealOpen s) := by
  unfold execSealOpen
  dsimp only
  split
  · exact hk.next
  · split
    · exact hk.update.next
    · exact next (raise (update (ite hk.advance hk)))

theorem execSealIntact_keeps (hk : s₀.Keeps s) : KeepsNext s₀ (execSealIntact s) := by
  unfold execSealIntact
  dsimp only
  split
  · exact hk.next
  · exact hk.update.next

/-! #### Machine/Start -/

theorem leaveReset {cold : Bool} (hk : s₀.Keeps s) : s₀.Keeps (s.leaveReset cold) := by
  unfold State.leaveReset
  dsimp only
  split
  · exact restoreFixed (update (ite hk.volatileLost hk.volatileLost.update))
  · exact update (ite hk.volatileLost hk.volatileLost.update)

theorem startFails {stage : Nat} {src : Src} {r : Refused} (hk : s₀.Keeps s) : s₀.Keeps (s.startFails stage src r) :=
  hk.update.setReg.raise.attach

theorem toStage {n : Nat} (hk : s₀.Keeps s) : s₀.Keeps (s.toStage n) := hk.update

/-- Both answers of a stage of the start keep what must be kept. -/
structure StageKeeps (s₀ : State) (x : Except State State) : Prop where
  ok : ∀ {t}, x = .ok t → s₀.Keeps t
  error : ∀ {t}, x = .error t → s₀.Keeps t

theorem stageOk (hk : s₀.Keeps s) : StageKeeps s₀ (.ok s) where
  ok h := by cases h; exact hk
  error h := by cases h

theorem stageError (hk : s₀.Keeps s) : StageKeeps s₀ (.error s) where
  ok h := by cases h
  error h := by cases h; exact hk

theorem stageBind {x : Except State State} {f : State → Except State State} (hx : StageKeeps s₀ x)
    (hf : ∀ s, s₀.Keeps s → StageKeeps s₀ (f s)) : StageKeeps s₀ (x.bind f) := by
  cases x with
  | error s => exact stageError (hx.error rfl)
  | ok s => exact hf s (hx.ok rfl)

theorem tested {env : StartEnv} {n : Nat} (hk : s₀.Keeps s) : StageKeeps s₀ (s.tested env n) := by
  unfold State.tested
  split
  · exact stageOk hk
  · split
    · exact stageError (startFails (hk.update))
    · exact stageOk hk

theorem startPuf {cold : Bool} {env : StartEnv} (hk : s₀.Keeps s) : StageKeeps s₀ (s.startPuf cold env) := by
  refine stageBind hk.toStage.tested fun s hs => ?_
  split
  · exact stageError hs.startFails
  · exact stageOk (hs.update)

theorem startCounters {env : StartEnv} (hk : s₀.Keeps s) : StageKeeps s₀ (s.startCounters env) := by
  refine stageBind hk.toStage.tested fun s hs => ?_
  dsimp only
  split
  · exact stageError hs.startFails
  · split
    · exact stageError hs.fresh.startFails
    · exact stageOk (hs.update)

theorem startFirmware {env : StartEnv} (hk : s₀.Keeps s) : StageKeeps s₀ (s.startFirmware env) := by
  refine stageBind hk.toStage.tested fun s hs => ?_
  dsimp only
  split
  · exact stageError hs.startFails
  · exact stageOk (hs.update)

theorem startConfig (hk : s₀.Keeps s) : StageKeeps s₀ s.startConfig := by
  unfold State.startConfig
  dsimp only
  split
  · exact stageError (hk.toStage.update.startFails)
  · exact stageOk hk.toStage.update

theorem startReports {brownout cold : Bool} (hk : s₀.Keeps s) : s₀.Keeps (s.startReports brownout cold) :=
  ite (raise (update (ite hk.raise hk))) (ite hk.raise hk)

theorem start {cold : Bool} {env : StartEnv} (hk : s₀.Keeps s) : s₀.Keeps (s.start cold env) := by
  have hreset : s₀.Keeps ((s.leaveReset cold).startReports s.mc.brownout cold) := hk.leaveReset.startReports
  have hstages := stageBind (stageBind (stageBind (hreset.startPuf (cold := cold) (env := env))
    fun _ hs => hs.startCounters (env := env)) fun _ hs => hs.startFirmware (env := env)) fun _ hs => hs.startConfig
  unfold State.start
  dsimp only
  split
  next heq => exact hstages.error heq
  next heq => exact (hstages.ok heq).toStage.update

theorem execPowerOnStart_keeps {env : StartEnv} (hk : s₀.Keeps s) : KeepsNext s₀ (execPowerOnStart env s) := by
  unfold execPowerOnStart
  split
  · exact hk.next
  · exact hk.start.next

theorem execRstNAssert_keeps (hk : s₀.Keeps s) : KeepsNext s₀ (execRstNAssert s) := by
  unfold execRstNAssert
  dsimp only
  split
  · exact hk.finishPage.volatileLost.update.next
  · exact hk.next

theorem execRstNRelease_keeps {env : StartEnv} (hk : s₀.Keeps s) : KeepsNext s₀ (execRstNRelease env s) := by
  unfold execRstNRelease
  split
  · exact hk.start.next
  · exact hk.next

theorem execMcResetCtlCold_keeps {env : StartEnv} (hk : s₀.Keeps s) : KeepsNext s₀ (execMcResetCtlCold env s) := by
  unfold execMcResetCtlCold
  split
  · exact hk.finishPage.start.next
  · exact hk.next

theorem blocksUp (hk : s₀.Keeps s) : s₀.Keeps s.blocksUp := foldl hk.update fun _ _ hs => hs.setFld

theorem proofRemaps {l : List (Nat × Nat × Nat)} (hk : s₀.Keeps s) : s₀.Keeps (s.proofRemaps l) :=
  foldl (foldl hk (fun _ _ hs => hs.updCore)) fun _ _ hs => ite hs.blockFails hs.updCore.update.fixedLog

theorem proofRepairs {l : List (Nat × Nat)} (hk : s₀.Keeps s) : s₀.Keeps (s.proofRepairs l) := hk.update.fixedLog

theorem proof {r : ProofResult} (hk : s₀.Keeps s) : s₀.Keeps (s.proof r) :=
  update (foldl hk.proofRemaps.proofRepairs.update (fun _ _ hs => ite hs.blockFails hs))

theorem placeHctx (hk : s₀.Keeps s) : s₀.Keeps s.placeHctx := by
  unfold State.placeHctx
  dsimp only
  split
  · exact hk
  · exact ite hk hk.update.raise

theorem applyEntries {t start n : Nat} {v : List Byte} (hk : s₀.Keeps s) : s₀.Keeps (s.applyEntries t start n v) :=
  foldl hk fun _ _ hs => hs.setFld.setReg

theorem applySched {v : List Byte} (hk : s₀.Keeps s) : s₀.Keeps (s.applySched v) :=
  both hk.applyEntries.setReg.setFld.setReg.setReg (fun h₁ => h₁.copySched) id

theorem applyPort {ty : Nat} {v : List Byte} (hk : s₀.Keeps s) : s₀.Keeps (s.applyPort ty v) := by
  unfold State.applyPort
  dsimp only
  split
  · exact hk.setReg
  · exact hk.setFld.setFld.setFld.setFld
  · exact hk.setFld
  · exact hk.applySched
  · exact hk.setFld
  · exact hk.setReg
  · exact hk.writeCtx
  · exact hk.updPort
  · exact hk

theorem applyCoreMem {v : List Byte} (hk : s₀.Keeps s) : s₀.Keeps (s.applyCoreMem v) := hk.setFld.setFld.setReg.setFld

theorem applyPart {v : List Byte} (hk : s₀.Keeps s) : s₀.Keeps (s.applyPart v) := hk.updPart.update

theorem applyRec {r : Nat × List Byte} (hk : s₀.Keeps s) : s₀.Keeps (s.applyRec r) := by
  unfold State.applyRec
  dsimp only
  split
  · exact hk.setReg
  · exact hk.setFld
  · exact hk.setFld
  · exact hk.applyPart
  · exact hk.applyCoreMem
  · exact hk.setFld
  · exact ite hk hk.setFld.setFld
  · exact ite hk.applyPort hk

theorem applyConfig (hk : s₀.Keeps s) : s₀.Keeps s.applyConfig :=
  foldl (foldl hk.setFld (fun _ _ hs => hs.applyRec)) fun _ _ hs => hs.zeroRange.updIface

theorem release {how : CascadeState} (hk : s₀.Keeps s) : s₀.Keeps (s.release how) := by
  unfold State.release
  exact loadAllStanding (foldl hk.toStage.update (fun _ _ hs => by
      split
      · exact ite hs.startStreams hs
      · exact hs))

theorem completeStart (hk : s₀.Keeps s) : s₀.Keeps s.completeStart := by
  unfold State.completeStart
  dsimp only
  split
  · exact release (foldl hk.toStage.update.fresh.raise.attach (fun _ _ hs => ite (foldl hs (fun _ _ hs => hs.setLink)) hs))
  · exact ite (release (foldl hk.toStage.update.fresh.raise.attach (fun _ _ hs => ite (foldl hs (fun _ _ hs => hs.setLink)) hs)))
      (update (foldl hk.toStage.update.fresh.raise.attach (fun _ _ hs => ite (foldl hs (fun _ _ hs => hs.setLink)) hs)))

theorem execPowerGood_keeps {proof : ProofResult} (hk : s₀.Keeps s) : KeepsNext s₀ (execPowerGood proof s) := by
  unfold execPowerGood
  dsimp only
  split
  · exact hk.next
  · split
    · exact hk.toStage.setFld.blocksUp.proof.placeHctx.toStage.applyConfig.completeStart.next
    · exact hk.toStage.setFld.blocksUp.proof.placeHctx.startFails.next

theorem execPowerGoodTimeout_keeps (hk : s₀.Keeps s) : KeepsNext s₀ (execPowerGoodTimeout s) := by
  unfold execPowerGoodTimeout
  dsimp only
  split
  · exact hk.next
  · exact hk.update.startFails.next

theorem execCascadePulse_keeps (hk : s₀.Keeps s) : KeepsNext s₀ (execCascadePulse s) := by
  unfold execCascadePulse
  split
  · exact hk.next
  · dsimp only
    split
    · exact hk.update.release.next
    · exact hk.update.next

theorem execCascadeDelayExpire_keeps (hk : s₀.Keeps s) : KeepsNext s₀ (execCascadeDelayExpire s) := by
  unfold execCascadeDelayExpire
  dsimp only
  split
  · exact hk.update.next
  · exact hk.next

theorem execCascadeTimeout_keeps (hk : s₀.Keeps s) : KeepsNext s₀ (execCascadeTimeout s) := by
  unfold execCascadeTimeout
  split
  · exact hk.raise.release.next
  · exact hk.next

theorem execStandingJobRestart_keeps {p : PartId} (hk : s₀.Keeps s) : KeepsNext s₀ (execStandingJobRestart p s) := by
  unfold execStandingJobRestart
  dsimp only
  split
  · split
    · exact hk.update.next
    · exact hk.update.loadStanding.next
  · exact hk.next

theorem execTestModeAssert_keeps (hk : s₀.Keeps s) : KeepsNext s₀ (execTestModeAssert s) := by
  unfold execTestModeAssert
  dsimp only
  split
  · exact hk.update.mapCores.zeroRange.zeroRange.update.next
  · exact hk.next

/-! #### Machine/RegWrite -/

theorem after {o : Result} (hk : s₀.Keeps s) (ho : KeepsNext s₀ o) : s₀.Keeps (Machine.after o s) := by
  obtain ⟨t, rfl, ht⟩ := ho
  exact ht

theorem act {v : Word} {b : Nat} {f : State → Result} (hk : s₀.Keeps s) (hf : ∀ s, s₀.Keeps s → KeepsNext s₀ (f s)) :
    s₀.Keeps (Machine.act v b f s) :=
  ite (hk.after (hf s hk)) hk

theorem execMcLogSelWrite_keeps {value : Word} (hk : s₀.Keeps s) : KeepsNext s₀ (execMcLogSelWrite value s) := by
  unfold execMcLogSelWrite
  dsimp only
  split
  · exact next (foldl hk.setReg (fun _ _ hs => hs.setReg))
  · exact next (foldl hk.setReg.update (fun _ _ hs => hs.setReg))

theorem execMcSyncIoDrive_keeps {drive : Bool} (hk : s₀.Keeps s) : KeepsNext s₀ (execMcSyncIoDrive drive s) := hk.setFld.next

theorem writeResetCtl {v : Word} (hk : s₀.Keeps s) : s₀.Keeps (s.writeResetCtl v) :=
  ite (hk.fresh.after hk.fresh.execMcResetCtlCold_keeps) hk.setFld

theorem writeMc {o : Nat} {v : Word} (hk : s₀.Keeps s) : s₀.Keeps (s.writeMc o v) :=
  ite hk.writeResetCtl (ite (hk.after hk.execMcLogSelWrite_keeps) (ite (hk.after hk.execMcSyncIoDrive_keeps)
    (ite (ite hk.setFld.setFld hk.setFld) hk)))

theorem writeHub {h o : Nat} {v : Word} (hk : s₀.Keeps s) : s₀.Keeps (s.writeHub h o v) := ite hk.setFld hk

theorem writeCore {c : CoreId} {o : Nat} {v : Word} (hk : s₀.Keeps s) : s₀.Keeps (s.writeCore c o v).1 := by
  unfold State.writeCore
  split
  · exact (((hk.act fun _ hs => hs.execCoreNumClrWtrunc_keeps).act fun _ hs => hs.execCoreNumClrOutsat_keeps).act
      fun _ hs => hs.execCoreNumClrNonfin_keeps).act fun _ hs => hs.execCoreNumClrSumviol_keeps
  · exact ((hk.act fun _ hs => hs.execCoreArrClrBeats_keeps).act fun _ hs => hs.execCoreArrClrStalls_keeps).act
      fun _ hs => hs.execCoreArrClrMismatches_keeps
  · exact ((hk.act fun _ hs => hs.execCoreVrClrLsteps_keeps).act fun _ hs => hs.execCoreVrClrStalls_keeps).act
      fun _ hs => hs.execCoreVrClrTagfail_keeps
  · exact ((hk.act fun _ hs => hs.execCoreGbClrOps_keeps).act fun _ hs => hs.execCoreGbClrBytes_keeps).act
      fun _ hs => hs.execCoreGbClrWaits_keeps
  · exact hk
  · exact hk.setFld
  · exact ((hk.act fun _ hs => hs.execCoreMemClrWaits_keeps).act fun _ hs => hs.execCoreMemClrCe_keeps).act
      fun _ hs => hs.execCoreMemClrUe_keeps
  · exact hk.act fun _ hs => hs.execCoreStrClrCounts_keeps
  · exact ((hk.act fun _ hs => hs.execCoreNetClrOps_keeps).act fun _ hs => hs.execCoreNetClrStalls_keeps).act
      fun _ hs => hs.execCoreNetClrBubble_keeps
  · exact ite (hk.setFld.act fun _ hs => hs.execCoreFenceForce_keeps) hk.setFld
  · exact hk

theorem writeSec {o : Nat} {v : Word} (hk : s₀.Keeps s) : s₀.Keeps (s.writeSec o v) := by
  refine ite (hk.act fun _ hs => hs.execAttGo_keeps) ?_
  split
  · exact hk.setReg
  · exact hk

theorem writeGateCtl {x : PortId} {k : Fin 2} {v : Word} (hk : s₀.Keeps s) : s₀.Keeps (s.writeGateCtl x k v) := by
  have hen := hk.after (hk.execPortGateCtlEn_keeps (t := x) (k := k) (value := v))
  exact ite hen ((hen.act fun _ hs => hs.execPortGateCtlCancel_keeps).act fun _ hs => hs.execPortGateCtlChange_keeps)

theorem writeSched {t : PortId} {k : Fin 2} {r : Nat} {v : Word} (hk : s₀.Keeps s) : s₀.Keeps (s.writeSched t k r v) := by
  unfold State.writeSched
  split
  · exact hk.writeGateCtl
  · split
    · exact hk
    · split
      · exact ite hk.setReg hk
      · exact hk.setFld
      · exact hk.setReg
      · exact hk

theorem writeQpx {x : PortId} {v : Word} (hk : s₀.Keeps s) : s₀.Keeps (s.writeQpx x v) :=
  ite (hk.after hk.execQpxRead_keeps) (ite (hk.after hk.execQpxWrite_keeps) hk.setReg)

theorem writePort {x : PortId} {o : Nat} {v : Word} (hk : s₀.Keeps s) : s₀.Keeps (s.writePort x o v).1 := by
  unfold State.writePort
  split
  · exact hk.writeSched
  split
  · exact ite hk (ite hk.setFld hk.setReg)
  split
  · exact hk.setReg
  split
  · exact hk
  split
  · exact hk.setFld
  · exact hk.act fun _ hs => hs.execPortCntClrAll_keeps
  · exact hk
  · exact hk.after hk.execPortPtpFreq_keeps
  · exact hk.after hk.execPortPtpStep_keeps
  · exact hk.writeQpx
  · exact hk
  · exact hk.act fun _ hs => hs.execPortOtClrAll_keeps
  · exact hk

theorem regWrite {o : Nat} {v : Word} (hk : s₀.Keeps s) : s₀.Keeps (s.regWrite o v).1 := by
  unfold State.regWrite
  split
  · exact hk.writeMc
  · split
    · exact hk.writeHub
    · split
      · exact hk.writeCore
      · split
        · exact hk.writePort
        · split
          · exact hk.writeSec
          · exact hk

theorem execRegWrite_keeps {r : Setup} (hk : s₀.Keeps s) : KeepsNext s₀ (execRegWrite r s) := by
  unfold execRegWrite
  exact next (request hk (fun _ _ hs => by
      dsimp only
      split
      · exact hs.reqFail
      · exact ite hs.reqFail (ite hs.reqOk.regWrite.reqFail hs.reqOk.regWrite)))

/-! #### Machine/Vec -/

theorem redCounts {e : Issued} {d : VecD} {p : VecP} {o : EngineOut} (hk : s₀.Keeps s) : s₀.Keeps (s.redCounts e d p o) :=
  ite hk hk.updJob

theorem vecStart {c : CoreId} {e : Issued} {j : Job} {env : MemEnv} {t : Option Tab} (hk : s₀.Keeps s) :
    s₀.Keeps (s.vecStart c e j env t) :=
  hk.takeReads.count

theorem runVec {c : CoreId} {e : Issued} {j : Job} {guest : Bool} {t : Option Tab} (hk : s₀.Keeps s) :
    s₀.Keeps (s.runVec c e j guest t) := by
  unfold State.runVec
  dsimp only
  split
  · exact hk.touchAll.count64.lput.outCounts.redCounts.failAccess
  · exact hk.touchAll.count64.lput.outCounts.redCounts.finish

theorem vec {c : CoreId} {op : Nat} {env : MemEnv} (hk : s₀.Keeps s) : s₀.Keeps (s.vec c op env) := by
  unfold State.vec
  dsimp only
  split
  · exact hk
  · split
    · exact hk
    · split
      · exact hk
      · split
        · exact hk
        · split
          · exact hk
          · split
            · split
              · exact hk.vecStart.meetHead.failDescriptor
              · split
                · exact hk.vecStart.meetHead.failHead
                · split
                  · exact hk.vecStart.meetHead.failDescriptor
                  · exact hk.vecStart.meetHead.runVec
            · split
              · exact hk.vecStart.failDescriptor
              · split
                · exact hk.vecStart.failHead
                · split
                  · exact hk.vecStart.failDescriptor
                  · exact hk.vecStart.runVec

theorem execCvt_keeps {c : CoreId} {env : MemEnv} (hk : s₀.Keeps s) : KeepsNext s₀ (execCvt c env s) := hk.vec.next

theorem execSumm_keeps {c : CoreId} {env : MemEnv} (hk : s₀.Keeps s) : KeepsNext s₀ (execSumm c env s) := hk.vec.next

theorem execVecAdd_keeps {c : CoreId} {env : MemEnv} (hk : s₀.Keeps s) : KeepsNext s₀ (execVecAdd c env s) := hk.vec.next

theorem execVecSub_keeps {c : CoreId} {env : MemEnv} (hk : s₀.Keeps s) : KeepsNext s₀ (execVecSub c env s) := hk.vec.next

theorem execVecMul_keeps {c : CoreId} {env : MemEnv} (hk : s₀.Keeps s) : KeepsNext s₀ (execVecMul c env s) := hk.vec.next

theorem execVecFma_keeps {c : CoreId} {env : MemEnv} (hk : s₀.Keeps s) : KeepsNext s₀ (execVecFma c env s) := hk.vec.next

theorem execVecDiv_keeps {c : CoreId} {env : MemEnv} (hk : s₀.Keeps s) : KeepsNext s₀ (execVecDiv c env s) := hk.vec.next

theorem execSqrt_keeps {c : CoreId} {env : MemEnv} (hk : s₀.Keeps s) : KeepsNext s₀ (execSqrt c env s) := hk.vec.next

theorem execRsqrt_keeps {c : CoreId} {env : MemEnv} (hk : s₀.Keeps s) : KeepsNext s₀ (execRsqrt c env s) := hk.vec.next

theorem execVecMax_keeps {c : CoreId} {env : MemEnv} (hk : s₀.Keeps s) : KeepsNext s₀ (execVecMax c env s) := hk.vec.next

theorem execVecMin_keeps {c : CoreId} {env : MemEnv} (hk : s₀.Keeps s) : KeepsNext s₀ (execVecMin c env s) := hk.vec.next

theorem execVecAbs_keeps {c : CoreId} {env : MemEnv} (hk : s₀.Keeps s) : KeepsNext s₀ (execVecAbs c env s) := hk.vec.next

theorem execVecTable_keeps {c : CoreId} {env : MemEnv} (hk : s₀.Keeps s) : KeepsNext s₀ (execVecTable c env s) := hk.vec.next

theorem execTableBwd_keeps {c : CoreId} {env : MemEnv} (hk : s₀.Keeps s) : KeepsNext s₀ (execTableBwd c env s) := hk.vec.next

theorem execRelu_keeps {c : CoreId} {env : MemEnv} (hk : s₀.Keeps s) : KeepsNext s₀ (execRelu c env s) := hk.vec.next

theorem execDropout_keeps {c : CoreId} {env : MemEnv} (hk : s₀.Keeps s) : KeepsNext s₀ (execDropout c env s) := hk.vec.next

theorem execMaskApply_keeps {c : CoreId} {env : MemEnv} (hk : s₀.Keeps s) : KeepsNext s₀ (execMaskApply c env s) := hk.vec.next

theorem execVecSum_keeps {c : CoreId} {env : MemEnv} (hk : s₀.Keeps s) : KeepsNext s₀ (execVecSum c env s) := hk.vec.next

theorem execSumsq_keeps {c : CoreId} {env : MemEnv} (hk : s₀.Keeps s) : KeepsNext s₀ (execSumsq c env s) := hk.vec.next

theorem execMaxabs_keeps {c : CoreId} {env : MemEnv} (hk : s₀.Keeps s) : KeepsNext s₀ (execMaxabs c env s) := hk.vec.next

theorem execReduceFinal_keeps {c : CoreId} {env : MemEnv} (hk : s₀.Keeps s) : KeepsNext s₀ (execReduceFinal c env s) := hk.vec.next

theorem execUpdAdamw_keeps {c : CoreId} {env : MemEnv} (hk : s₀.Keeps s) : KeepsNext s₀ (execUpdAdamw c env s) := hk.vec.next

theorem execUpdSgdm_keeps {c : CoreId} {env : MemEnv} (hk : s₀.Keeps s) : KeepsNext s₀ (execUpdSgdm c env s) := hk.vec.next

/-! #### Machine/Row -/

theorem rowStart {c : CoreId} {e : Issued} {j : Job} {env : MemEnv} {t : Option Tab} (hk : s₀.Keeps s) :
    s₀.Keeps (s.rowStart c e j env t) :=
  count (foldl hk.takeReads (fun _ _ hs => hs.meetReads))

theorem runRow {c : CoreId} {e : Issued} {j : Job} {t : Option Tab} (hk : s₀.Keeps s) : s₀.Keeps (s.runRow c e j t) := by
  unfold State.runRow
  dsimp only
  split
  · exact failDescriptor (ite hk.touchAll.count hk.touchAll)
  · exact hk.touchAll.failRead
  · split
    · exact hk.touchAll.count64.lput.failAccess
    · exact both hk.touchAll.count64.lput (fun h₁ => h₁.finish) fun h₁ => h₁.updIssued

theorem normRow {c : CoreId} {op : Nat} {env : MemEnv} (hk : s₀.Keeps s) : s₀.Keeps (s.normRow c op env) := by
  unfold State.normRow
  split
  · exact hk
  · exact hk.rowStart.runRow

theorem smaxRowOp {c : CoreId} {op : Nat} {env : MemEnv} (hk : s₀.Keeps s) : s₀.Keeps (s.smaxRowOp c op env) := by
  unfold State.smaxRowOp
  dsimp only
  split
  · exact hk
  · split
    · exact hk.rowStart.meetHead.failDescriptor
    · exact ite hk.rowStart.meetHead.failHead (both hk.rowStart.meetHead (fun h₁ => h₁.failDescriptor) fun h₁ => h₁.runRow)

theorem execNormFwd_keeps {c : CoreId} {env : MemEnv} (hk : s₀.Keeps s) : KeepsNext s₀ (execNormFwd c env s) := hk.normRow.next

theorem execNormBwd_keeps {c : CoreId} {env : MemEnv} (hk : s₀.Keeps s) : KeepsNext s₀ (execNormBwd c env s) := hk.normRow.next

theorem execSmaxFwd_keeps {c : CoreId} {env : MemEnv} (hk : s₀.Keeps s) : KeepsNext s₀ (execSmaxFwd c env s) := hk.smaxRowOp.next

theorem execSmaxBwd_keeps {c : CoreId} {env : MemEnv} (hk : s₀.Keeps s) : KeepsNext s₀ (execSmaxBwd c env s) := hk.smaxRowOp.next

theorem execTblLoad_keeps {c : CoreId} {env : MemEnv} (hk : s₀.Keeps s) : KeepsNext s₀ (execTblLoad c env s) := by
  unfold execTblLoad
  dsimp only
  split
  · exact hk.next
  · split
    next heq => exact (hk.rowStart.access.of_fst heq).failAccess.next
    next heq =>
      split
      · exact (hk.rowStart.access.of_fst heq).failDescriptor.next
      · exact (hk.rowStart.access.of_fst heq).updIssued.next

theorem execTblLoadApply_keeps {c : CoreId} (hk : s₀.Keeps s) : KeepsNext s₀ (execTblLoadApply c s) := by
  unfold execTblLoadApply
  dsimp only
  split
  · exact hk.next
  · split
    · exact hk.next
    · split
      · exact hk.next
      · split
        next heq => exact (hk.access.of_fst heq).failAccess.next
        next heq => exact (hk.access.of_fst heq).fillTable.finish.next

/-! #### Machine/Transport -/

theorem takeOt {t : PortId} {type : Nat} (hk : s₀.Keeps s) : s₀.Keeps (s.takeOt t type).1 := by
  unfold State.takeOt
  dsimp only
  split
  · exact hk
  · split
    · exact hk.updPort.pfcWatch.otCount
    · split
      · exact hk.updPort.pfcWatch
      · exact hk

theorem heard {p : PartId} {e : Nat} (hk : s₀.Keeps s) : s₀.Keeps (s.heard p e) := by
  unfold State.heard
  dsimp only
  split
  · exact hk
  · exact ite (ite hk.updCluster.sendCtl hk.updCluster) hk

theorem connUp {p : PartId} {i : Nat} (hk : s₀.Keeps s) : s₀.Keeps (s.connUp p i) := by
  unfold State.connUp
  dsimp only
  split
  · exact hk
  · split
    · split
      · exact foldl hk.updCluster.raise.sendJoin fun _ _ hs => hs.pump
      · exact foldl hk.updCluster.sendJoin fun _ _ hs => hs.pump
    · split
      · split
        · exact foldl hk.updCluster.raise.sendCtl fun _ _ hs => hs.pump
        · exact foldl hk.updCluster.sendCtl fun _ _ hs => hs.pump
      · split
        · exact foldl hk.updCluster.raise fun _ _ hs => hs.pump
        · exact foldl hk.updCluster fun _ _ hs => hs.pump

theorem otHeard {h : OtHdr} {ce : Bool} (hk : s₀.Keeps s) : s₀.Keeps (s.otHeard h ce) := by
  unfold State.otHeard
  split
  · exact hk
  · exact hk.heard.updCluster

theorem otArrived {h : OtHdr} {ce : Bool} (hk : s₀.Keeps s) : s₀.Keeps (s.otArrived h ce) := by
  unfold State.otArrived
  dsimp only
  split
  · exact hk.otHeard
  · exact ite hk.otHeard.connUp hk.otHeard

theorem dropFlight {p : PartId} {c : Cluster} {i : Nat} (hk : s₀.Keeps s) : s₀.Keeps (s.dropFlight p c i) := by
  unfold State.dropFlight
  dsimp only
  split
  · exact hk
  · exact foldl hk.updPort fun _ _ hs => hs.updPort

theorem connReset {p : PartId} {i : Nat} (hk : s₀.Keeps s) : s₀.Keeps (s.connReset p i) := by
  unfold State.connReset
  split
  · exact hk
  · exact hk.updCluster.dropFlight

theorem failConnUsers {i : Nat} {l : List (CoreId × Issued)} (hk : s₀.Keeps s) : s₀.Keeps (s.failConnUsers i l) :=
  foldl hk fun _ _ hs => hs.failDescriptor

theorem execOtOpen_keeps {t : PortId} (hk : s₀.Keeps s) : KeepsNext s₀ (execOtOpen t s) := by
  unfold execOtOpen
  dsimp only
  split
  next heq => exact (hk.takeOt.of_fst heq).next
  next heq =>
    split
    · exact (hk.takeOt.of_fst heq).next
    · split
      · split
        · exact (hk.takeOt.of_fst heq).next
        · split
          · exact next (both (hk.takeOt.of_fst heq).otHeard.updCluster id fun h₁ => h₁.connUp)
          · split
            · exact (hk.takeOt.of_fst heq).otHeard.connReset.updCluster.sendOpen.sendOpen.failConnUsers.next
            · exact next (both (hk.takeOt.of_fst heq).otHeard.updCluster.sendOpen (fun h₁ => h₁.connUp) id)
      · split
        · exact (hk.takeOt.of_fst heq).next
        · split
          · exact next (both (hk.takeOt.of_fst heq).otHeard.updCluster id fun h₁ => h₁.connUp)
          · split
            · exact (hk.takeOt.of_fst heq).otHeard.connReset.updCluster.sendOpen.sendOpen.failConnUsers.next
            · exact next (both (hk.takeOt.of_fst heq).otHeard.updCluster.sendOpen (fun h₁ => h₁.connUp) id)

theorem execOtOpenRetry_keeps {p : PartId} {i : Nat} (hk : s₀.Keeps s) : KeepsNext s₀ (execOtOpenRetry p i s) := by
  unfold execOtOpenRetry
  split
  · exact hk.next
  · split
    · exact hk.sendOpen.next
    · exact hk.next

theorem receiveData {p : PartId} {x : PortId} {i vc : Nat} {f : OtFrame} (hk : s₀.Keeps s) :
    s₀.Keeps (s.receiveData p x i vc f) := by
  unfold State.receiveData
  split
  · exact hk
  · extract_lets v gap taken drained
    have hdrained : s₀.Keeps drained := hk.updCluster.drain
    split
    · exact hdrained
    · exact ite hdrained.sendAck hdrained

theorem execOtData_keeps {t : PortId} (hk : s₀.Keeps s) : KeepsNext s₀ (execOtData t s) := by
  unfold execOtData
  dsimp only
  split
  next heq => exact (hk.takeOt.of_fst heq).next
  next heq =>
    split
    · exact (hk.takeOt.of_fst heq).otArrived.next
    · split
      · exact (hk.takeOt.of_fst heq).otArrived.next
      · split
        · exact (hk.takeOt.of_fst heq).otArrived.otCount.next
        · split
          · exact next (sendAck (both (hk.takeOt.of_fst heq).otArrived (fun h₁ => h₁.otCount) id))
          · exact next (receiveData (both (hk.takeOt.of_fst heq).otArrived (fun h₁ => h₁.otCount) id))

theorem resend {p : PartId} {i vc : Nat} {f : OtFrame} (hk : s₀.Keeps s) : s₀.Keeps (s.resend p i vc f) := by
  unfold State.resend
  split
  · exact hk
  · exact hk.otSend

theorem execOtAck_keeps {t : PortId} (hk : s₀.Keeps s) : KeepsNext s₀ (execOtAck t s) := by
  unfold execOtAck
  dsimp only
  split
  next heq => exact (hk.takeOt.of_fst heq).next
  next heq =>
    split
    · exact (hk.takeOt.of_fst heq).otArrived.next
    · split
      · exact (hk.takeOt.of_fst heq).otArrived.next
      · exact next (pump (foldl (both (both (hk.takeOt.of_fst heq).otArrived.updCluster (fun h₁ => h₁.otCount) id)
          (fun h₂ => otCount h₂) id) (fun _ _ hs => hs.resend.updCluster)))

theorem execOtKeepalive_keeps {t : PortId} (hk : s₀.Keeps s) : KeepsNext s₀ (execOtKeepalive t s) := by
  unfold execOtKeepalive
  split
  next heq => exact (hk.takeOt.of_fst heq).next
  next heq => exact (hk.takeOt.of_fst heq).otArrived.next

theorem execOtClose_keeps {t : PortId} (hk : s₀.Keeps s) : KeepsNext s₀ (execOtClose t s) := by
  unfold execOtClose
  split
  next heq => exact (hk.takeOt.of_fst heq).next
  next heq => exact (hk.takeOt.of_fst heq).otArrived.next

theorem execKeepaliveTimer_keeps {p : PartId} {i : Nat} (hk : s₀.Keeps s) : KeepsNext s₀ (execKeepaliveTimer p i s) := by
  unfold execKeepaliveTimer
  split
  · exact hk.next
  · split
    · exact hk.otSend.next
    · exact hk.next

theorem execOtAckTimer_keeps {p : PartId} {i : Nat} {vc : VcId} (hk : s₀.Keeps s) : KeepsNext s₀ (execOtAckTimer p i vc s) := by
  unfold execOtAckTimer
  split
  · exact hk.next
  · split
    · exact hk.sendAck.next
    · exact hk.next

theorem connDown {p : PartId} {i cause : Nat} (hk : s₀.Keeps s) : s₀.Keeps (s.connDown p i cause) := by
  unfold State.connDown
  dsimp only
  split
  · exact hk
  · split
    · exact hk
    · split
      · split
        · split
          · exact hk.connReset.otCount.raise.sendOpen.removeMember.failConnUsers
          · exact hk.connReset.sendOpen.removeMember.failConnUsers
        · split
          · exact hk.connReset.otCount.raise.sendOpen.failConnUsers
          · exact hk.connReset.sendOpen.failConnUsers
      · split
        · split
          · exact hk.connReset.otCount.raise.sendOpen.failConnUsers
          · exact hk.connReset.sendOpen.failConnUsers
        · split
          · exact hk.connReset.otCount.raise.sendOpen.sendCtl.failConnUsers
          · exact hk.connReset.sendOpen.sendCtl.failConnUsers

theorem execOtConnDown_keeps {p : PartId} {i cause : Nat} (hk : s₀.Keeps s) : KeepsNext s₀ (execOtConnDown p i cause s) :=
  hk.connDown.next

theorem execRetxTimeout_keeps {p : PartId} {i : Nat} {vc : VcId} (hk : s₀.Keeps s) : KeepsNext s₀ (execRetxTimeout p i vc s) := by
  unfold execRetxTimeout
  dsimp only
  split
  · exact hk.next
  · split
    · exact hk.next
    · split
      · split
        · exact hk.otCount.connDown.next
        · exact hk.connDown.next
      · split
        · exact hk.otCount.resend.updCluster.next
        · exact hk.resend.updCluster.next

theorem execRateIncrease_keeps {p : PartId} {i : Nat} (hk : s₀.Keeps s) : KeepsNext s₀ (execRateIncrease p i s) :=
  hk.updCluster.next

end State.Keeps

/-! ### What holds of every step -/

/-- Every command answers a next state and keeps what no command may undo. -/
theorem exec_keeps (i : Instr) (s : State) : KeepsNext s (exec i s) := by
  have hk := State.Keeps.refl s
  unfold exec
  cases i with
  | powerOnStart => exact hk.execPowerOnStart_keeps
  | rstNAssert => exact hk.execRstNAssert_keeps
  | rstNRelease => exact hk.execRstNRelease_keeps
  | mcResetCtlCold => exact hk.execMcResetCtlCold_keeps
  | powerGood => exact hk.execPowerGood_keeps
  | powerGoodTimeout => exact hk.execPowerGoodTimeout_keeps
  | cascadePulse => exact hk.execCascadePulse_keeps
  | cascadeDelayExpire => exact hk.execCascadeDelayExpire_keeps
  | cascadeTimeout => exact hk.execCascadeTimeout_keeps
  | standingJobRestart => exact hk.execStandingJobRestart_keeps
  | testModeAssert => exact hk.execTestModeAssert_keeps
  | presenceAssert => exact hk.execPresenceAssert_keeps
  | presenceExpire => exact hk.execPresenceExpire_keeps
  | sealOpen => exact hk.execSealOpen_keeps
  | nvmInhibit => exact hk.execNvmInhibit_keeps
  | nvmInhibitClear => exact hk.execNvmInhibitClear_keeps
  | auxBrownout => exact hk.execAuxBrownout_keeps
  | vinThrottle => exact hk.execVinThrottle_keeps
  | vinThrottleClear => exact hk.execVinThrottleClear_keeps
  | vinHalt => exact hk.execVinHalt_keeps
  | vinHaltClear => exact hk.execVinHaltClear_keeps
  | supplyLost => exact hk.execSupplyLost_keeps
  | thermalHalt => exact hk.execThermalHalt_keeps
  | thermalResume => exact hk.execThermalResume_keeps
  | thermalTrip => exact hk.execThermalTrip_keeps
  | thermalHaltLimit => exact hk.execThermalHaltLimit_keeps
  | mcLoopTick => exact hk.execMcLoopTick_keeps
  | ageingSurvey => exact hk.execAgeingSurvey_keeps
  | replan => exact hk.execReplan_keeps
  | replanQuiesceTimeout => exact hk.execReplanQuiesceTimeout_keeps
  | replanDaily => exact hk.execReplanDaily_keeps
  | timeLatch => exact hk.execTimeLatch_keeps
  | ageingSummary => exact hk.execAgeingSummary_keeps
  | ageingLogWrite => exact hk.execAgeingLogWrite_keeps
  | coreFenceForce => exact hk.execCoreFenceForce_keeps
  | mgmtProof => exact hk.execMgmtProof_keeps
  | proofBlockDone => exact hk.execProofBlockDone_keeps
  | kneadSweep => exact hk.execKneadSweep_keeps
  | retentionEntry => exact hk.execRetentionEntry_keeps
  | retentionWake => exact hk.execRetentionWake_keeps
  | wakeDone => exact hk.execWakeDone_keeps
  | kneadSelect => exact hk.execKneadSelect_keeps
  | kneadCopyDone => exact hk.execKneadCopyDone_keeps
  | kneadTestDone => exact hk.execKneadTestDone_keeps
  | kneadRestoreDone => exact hk.execKneadRestoreDone_keeps
  | kneadRemapDone => exact hk.execKneadRemapDone_keeps
  | kneadLate => exact hk.execKneadLate_keeps
  | patrolScrub => exact hk.execPatrolScrub_keeps
  | descriptorIssue => exact hk.execDescriptorIssue_keeps
  | counterSignalRemote => exact hk.execCounterSignalRemote_keeps
  | descriptorComplete => exact hk.execDescriptorComplete_keeps
  | streamWaitLong => exact hk.execStreamWaitLong_keeps
  | matRun => exact hk.execMatRun_keeps
  | swapToken => exact hk.execSwapToken_keeps
  | matRetry => exact hk.execMatRetry_keeps
  | arrayDiagnostic => exact hk.execArrayDiagnostic_keeps
  | arrayDiagnosticDone => exact hk.execArrayDiagnosticDone_keeps
  | gbAddition => exact hk.execGbAddition_keeps
  | cvt => exact hk.execCvt_keeps
  | summ => exact hk.execSumm_keeps
  | vecAdd => exact hk.execVecAdd_keeps
  | vecSub => exact hk.execVecSub_keeps
  | vecMul => exact hk.execVecMul_keeps
  | vecFma => exact hk.execVecFma_keeps
  | vecDiv => exact hk.execVecDiv_keeps
  | sqrt => exact hk.execSqrt_keeps
  | rsqrt => exact hk.execRsqrt_keeps
  | vecMax => exact hk.execVecMax_keeps
  | vecMin => exact hk.execVecMin_keeps
  | vecAbs => exact hk.execVecAbs_keeps
  | vecTable => exact hk.execVecTable_keeps
  | tableBwd => exact hk.execTableBwd_keeps
  | relu => exact hk.execRelu_keeps
  | dropout => exact hk.execDropout_keeps
  | maskApply => exact hk.execMaskApply_keeps
  | vecSum => exact hk.execVecSum_keeps
  | sumsq => exact hk.execSumsq_keeps
  | maxabs => exact hk.execMaxabs_keeps
  | reduceFinal => exact hk.execReduceFinal_keeps
  | updAdamw => exact hk.execUpdAdamw_keeps
  | updSgdm => exact hk.execUpdSgdm_keeps
  | normFwd => exact hk.execNormFwd_keeps
  | normBwd => exact hk.execNormBwd_keeps
  | smaxFwd => exact hk.execSmaxFwd_keeps
  | smaxBwd => exact hk.execSmaxBwd_keeps
  | tblLoad => exact hk.execTblLoad_keeps
  | tblLoadApply => exact hk.execTblLoadApply_keeps
  | movCopy => exact hk.execMovCopy_keeps
  | copyRect => exact hk.execCopyRect_keeps
  | movFill => exact hk.execMovFill_keeps
  | gbZero => exact hk.execGbZero_keeps
  | refill => exact hk.execRefill_keeps
  | slotFilled => exact hk.execSlotFilled_keeps
  | spill => exact hk.execSpill_keeps
  | spillWrite => exact hk.execSpillWrite_keeps
  | tieAdd => exact hk.execTieAdd_keeps
  | gbClearDone => exact hk.execGbClearDone_keeps
  | synNop => exact hk.execSynNop_keeps
  | synSet => exact hk.execSynSet_keeps
  | synAdd => exact hk.execSynAdd_keeps
  | fenceStream => exact hk.execFenceStream_keeps
  | fenceCore => exact hk.execFenceCore_keeps
  | stepEnd => exact hk.execStepEnd_keeps
  | endRun => exact hk.execEndRun_keeps
  | decisionSequence => exact hk.execDecisionSequence_keeps
  | streamsRestart => exact hk.execStreamsRestart_keeps
  | coreRemap => exact hk.execCoreRemap_keeps
  | reduce => exact hk.execReduce_keeps
  | gather => exact hk.execGather_keeps
  | send => exact hk.execSend_keeps
  | recv => exact hk.execRecv_keeps
  | mbAdmit => exact hk.execMbAdmit_keeps
  | netStoreRead => exact hk.execNetStoreRead_keeps
  | netStoreWrite => exact hk.execNetStoreWrite_keeps
  | unitMap => exact hk.execUnitMap_keeps
  | unitBegin => exact hk.execUnitBegin_keeps
  | reduceUp => exact hk.execReduceUp_keeps
  | reduceDown => exact hk.execReduceDown_keeps
  | gatherReq => exact hk.execGatherReq_keeps
  | gatherReply => exact hk.execGatherReply_keeps
  | pipe => exact hk.execPipe_keeps
  | pipePost => exact hk.execPipePost_keeps
  | pipeDone => exact hk.execPipeDone_keeps
  | unitXfer => exact hk.execUnitXfer_keeps
  | startStep => exact hk.execStartStep_keeps
  | ready => exact hk.execReady_keeps
  | abortReq => exact hk.execAbortReq_keeps
  | commit => exact hk.execCommit_keeps
  | abort => exact hk.execAbort_keeps
  | commitTimeout => exact hk.execCommitTimeout_keeps
  | ckptReq => exact hk.execCkptReq_keeps
  | ckptRead => exact hk.execCkptRead_keeps
  | rebalanced => exact hk.execRebalanced_keeps
  | hostOp => exact hk.execHostOp_keeps
  | join => exact hk.execJoin_keeps
  | joinReply => exact hk.execJoinReply_keeps
  | roster => exact hk.execRoster_keeps
  | leave => exact hk.execLeave_keeps
  | redirect => exact hk.execRedirect_keeps
  | leadQuery => exact hk.execLeadQuery_keeps
  | leadReply => exact hk.execLeadReply_keeps
  | starterQuery => exact hk.execStarterQuery_keeps
  | lost => exact hk.execLost_keeps
  | joinRetry => exact hk.execJoinRetry_keeps
  | startTimeout => exact hk.execStartTimeout_keeps
  | starterSilent => exact hk.execStarterSilent_keeps
  | leadQueryTimeout => exact hk.execLeadQueryTimeout_keeps
  | noStarterTimeout => exact hk.execNoStarterTimeout_keeps
  | starterQueryRetry => exact hk.execStarterQueryRetry_keeps
  | otOpen => exact hk.execOtOpen_keeps
  | otOpenRetry => exact hk.execOtOpenRetry_keeps
  | otData => exact hk.execOtData_keeps
  | otAck => exact hk.execOtAck_keeps
  | otKeepalive => exact hk.execOtKeepalive_keeps
  | keepaliveTimer => exact hk.execKeepaliveTimer_keeps
  | otAckTimer => exact hk.execOtAckTimer_keeps
  | retxTimeout => exact hk.execRetxTimeout_keeps
  | otConnDown => exact hk.execOtConnDown_keeps
  | rateIncrease => exact hk.execRateIncrease_keeps
  | regRead => exact hk.execRegRead_keeps
  | regWrite => exact hk.execRegWrite_keeps
  | getLastError => exact hk.execGetLastError_keeps
  | setWindow => exact hk.execSetWindow_keeps
  | doorbell => exact hk.execDoorbell_keeps
  | getIfStatus => exact hk.execGetIfStatus_keeps
  | funcReset => exact hk.execFuncReset_keeps
  | funcResetDone => exact hk.execFuncResetDone_keeps
  | opStatus => exact hk.execOpStatus_keeps
  | opSuspend => exact hk.execOpSuspend_keeps
  | opResume => exact hk.execOpResume_keeps
  | opCancel => exact hk.execOpCancel_keeps
  | opRelease => exact hk.execOpRelease_keeps
  | opList => exact hk.execOpList_keeps
  | opSuspendPoint => exact hk.execOpSuspendPoint_keeps
  | fwStage => exact hk.execFwStage_keeps
  | nvmWrite => exact hk.execNvmWrite_keeps
  | nvmConfig => exact hk.execNvmConfig_keeps
  | ownerKey => exact hk.execOwnerKey_keeps
  | payload => exact hk.execPayload_keeps
  | identityReset => exact hk.execIdentityReset_keeps
  | debugUnlock => exact hk.execDebugUnlock_keeps
  | nvmPair => exact hk.execNvmPair_keeps
  | frameWrite => exact hk.execFrameWrite_keeps
  | frameRead => exact hk.execFrameRead_keeps
  | stagingFrame => exact hk.execStagingFrame_keeps
  | frameGenTimeout => exact hk.execFrameGenTimeout_keeps
  | heldRequestStale => exact hk.execHeldRequestStale_keeps
  | noticeInterval => exact hk.execNoticeInterval_keeps
  | cmdNop => exact hk.execCmdNop_keeps
  | jobLoad => exact hk.execJobLoad_keeps
  | storeRead => exact hk.execStoreRead_keeps
  | storeWrite => exact hk.execStoreWrite_keeps
  | checkpoint => exact hk.execCheckpoint_keeps
  | modelLoad => exact hk.execModelLoad_keeps
  | commandFinalRecord => exact hk.execCommandFinalRecord_keeps
  | usbAttach => exact hk.execUsbAttach_keeps
  | usbDisconnect => exact hk.execUsbDisconnect_keeps
  | busReset => exact hk.execBusReset_keeps
  | warmReset => exact hk.execWarmReset_keeps
  | portLinkUp => exact hk.execPortLinkUp_keeps
  | portLinkDown => exact hk.execPortLinkDown_keeps
  | portFecDegraded => exact hk.execPortFecDegraded_keeps
  | frameReceive => exact hk.execFrameReceive_keeps
  | frameTransmit => exact hk.execFrameTransmit_keeps
  | gateEntryChange => exact hk.execGateEntryChange_keeps
  | scheduleChangeTime => exact hk.execScheduleChangeTime_keeps
  | portGateCtlChange => exact hk.execPortGateCtlChange_keeps
  | portGateCtlCancel => exact hk.execPortGateCtlCancel_keeps
  | portGateCtlEn => exact hk.execPortGateCtlEn_keeps
  | portPtpStep => exact hk.execPortPtpStep_keeps
  | portPtpFreq => exact hk.execPortPtpFreq_keeps
  | ptpMessage => exact hk.execPtpMessage_keeps
  | ptpMasterLost => exact hk.execPtpMasterLost_keeps
  | periodicOutput => exact hk.execPeriodicOutput_keeps
  | pfcPauseExpire => exact hk.execPfcPauseExpire_keeps
  | pfcRenew => exact hk.execPfcRenew_keeps
  | roceRequest => exact hk.execRoceRequest_keeps
  | roceResponse => exact hk.execRoceResponse_keeps
  | cnp => exact hk.execCnp_keeps
  | roceAckTimeout => exact hk.execRoceAckTimeout_keeps
  | roceRateIncrease => exact hk.execRoceRateIncrease_keeps
  | qpxRead => exact hk.execQpxRead_keeps
  | qpxWrite => exact hk.execQpxWrite_keeps
  | attGo => exact hk.execAttGo_keeps
  | attReportDone => exact hk.execAttReportDone_keeps
  | mcLogSelWrite => exact hk.execMcLogSelWrite_keeps
  | coreNumClrWtrunc => exact hk.execCoreNumClrWtrunc_keeps
  | coreNumClrOutsat => exact hk.execCoreNumClrOutsat_keeps
  | coreNumClrNonfin => exact hk.execCoreNumClrNonfin_keeps
  | coreNumClrSumviol => exact hk.execCoreNumClrSumviol_keeps
  | coreArrClrBeats => exact hk.execCoreArrClrBeats_keeps
  | coreArrClrStalls => exact hk.execCoreArrClrStalls_keeps
  | coreArrClrMismatches => exact hk.execCoreArrClrMismatches_keeps
  | coreVrClrLsteps => exact hk.execCoreVrClrLsteps_keeps
  | coreVrClrStalls => exact hk.execCoreVrClrStalls_keeps
  | coreVrClrTagfail => exact hk.execCoreVrClrTagfail_keeps
  | coreGbClrOps => exact hk.execCoreGbClrOps_keeps
  | coreGbClrBytes => exact hk.execCoreGbClrBytes_keeps
  | coreGbClrWaits => exact hk.execCoreGbClrWaits_keeps
  | coreMemClrWaits => exact hk.execCoreMemClrWaits_keeps
  | coreMemClrCe => exact hk.execCoreMemClrCe_keeps
  | coreMemClrUe => exact hk.execCoreMemClrUe_keeps
  | coreStrClrCounts => exact hk.execCoreStrClrCounts_keeps
  | portCntClrAll => exact hk.execPortCntClrAll_keeps
  | portOtClrAll => exact hk.execPortOtClrAll_keeps
  | coreNetClrOps => exact hk.execCoreNetClrOps_keeps
  | coreNetClrStalls => exact hk.execCoreNetClrStalls_keeps
  | coreNetClrBubble => exact hk.execCoreNetClrBubble_keeps
  | usbSuspend => exact hk.execUsbSuspend_keeps
  | usbResume => exact hk.execUsbResume_keeps
  | otClose => exact hk.execOtClose_keeps
  | blockUnusable => exact hk.execBlockUnusable_keeps
  | sealIntact => exact hk.execSealIntact_keeps
  | mcSyncIoDrive => exact hk.execMcSyncIoDrive_keeps
  | nvmPageComplete => exact hk.execNvmPageComplete_keeps

theorem keeps_of_exec {i : Instr} {s t : State} (h : exec i s = .next t) : s.Keeps t := by
  obtain ⟨u, hu, hk⟩ := exec_keeps i s
  rw [hu] at h
  cases h
  exact hk

/-- Settles O57: what `exec_keeps` says of the answer and of the queue. -/
theorem everyCommandCompletes : Obligations.EveryCommandCompletes := fun i s =>
  have ⟨t, ht, hk⟩ := exec_keeps i s
  ⟨t, ht, hk.pending⟩

/-- Settles O58: taking a command off the queue leaves the tables alone, and the command keeps their forms. -/
theorem stepsKeepCanonicalForms : Obligations.StepsKeepCanonicalForms := by
  intro s t hc hstep
  unfold step at hstep
  split at hstep
  case h_1 => cases hstep; exact hc
  case h_2 c rest _ =>
    have hrest : ({ s with pending := rest } : State).Canonical := ⟨hc.mem, hc.regs, hc.nvm, hc.latches, hc.counters⟩
    exact (keeps_of_exec hstep).canonical hrest

/-- Settles O59: only `State.advance` writes the counters, and it takes the greater of two values. -/
theorem securityCountersNeverDecrease : Obligations.SecurityCountersNeverDecrease :=
  fun _ _ _ hlen hexec => ((keeps_of_exec hexec).counters hlen).2

end Sys2Proof.Machine

namespace Sys2Proof.Machine

/-! ### The queue and the state after reset -/

/-- Settles O1: both sides are what `step` does with the first command and with an empty queue. -/
theorem stepRunsFrontCommand : Obligations.StepRunsFrontCommand := by
  refine ⟨fun c rest s => rfl, fun s hs => ?_⟩
  unfold step
  rw [hs]

theorem job_reset (p : PartId) : State.reset.job p = none := by
  simp [State.job, State.reset]

theorem cores_reset (c : CoreId) : State.reset.cores[c] = {} := by
  simp [State.reset]

theorem canonical_reset : State.reset.Canonical :=
  ⟨rfl, rfl, rfl, rfl, rfl⟩

theorem dark_reset : State.reset.Dark where
  aux := rfl
  off := rfl
  rst := rfl
  started := rfl
  pwr := rfl
  hub := rfl
  cascade := rfl
  restart := rfl
  quiet c := by rw [cores_reset]
  jobs := job_reset
  handles := rfl

/-- Settles O2. -/
theorem resetKeepsInvariants : Obligations.ResetKeepsInvariants :=
  ⟨canonical_reset, dark_reset⟩

theorem counter_reset (n : Nat) : State.reset.counter n = 0 := by
  unfold State.counter State.reset
  simp only [List.getD_eq_getElem?_getD, List.getElem?_replicate]
  split <;> rfl

/-- Settles O3. -/
theorem resetValues : Obligations.ResetValues := by
  refine ⟨fun o => rfl, job_reset, fun h => rfl, fun c => ?_, fun a => rfl, fun a => rfl, counter_reset, rfl, rfl, rfl, rfl⟩
  rw [cores_reset]
  exact ⟨rfl, rfl⟩

/-! ### The gradient scale (R60) -/

theorem proceeded_of_few_clean {j : Job} (h : j.num.clean + 1 < 2000) :
    j.proceeded.1.clean = j.num.clean + 1 ∧ j.proceeded.1.sg = j.num.sg := by
  have hfull : ¬ 1999 ≤ j.num.clean := by omega
  simp [Job.proceeded, hfull]

theorem proceeded_of_many_clean {j : Job} (h : 2000 ≤ j.num.clean + 1) :
    j.proceeded.1.clean = 0 ∧ j.proceeded.1.sg = if j.num.sg < 32 then j.num.sg + 1 else j.num.sg := by
  have hfull : 1999 ≤ j.num.clean := by omega
  simp [Job.proceeded, hfull]

/-- Settles O27: the two sides of 2,000 clean steps, and the commit on a raised and on an unraised scale. -/
theorem cleanStepsRaiseTheScale : Obligations.CleanStepsRaiseTheScale := by
  refine ⟨fun j => proceeded_of_few_clean, fun j h => ?_, fun j n m hm => ?_, fun p j n s h => ?_, fun p j n s h hsilent => ?_⟩
  · obtain ⟨hclean, hsg⟩ := proceeded_of_many_clean h
    refine ⟨hclean, fun hlt => ?_, fun hle => ?_⟩
    · rw [hsg, if_pos hlt]
    · rw [hsg, if_neg (by omega)]
  · simp [Job.committed, hm]
  · simp only [State.commitEvents, if_pos h]
  · simp only [State.commitEvents, if_neg (not_lt.2 h), hsilent, List.foldl_nil]

/-! ### A node of a reduction -/

theorem length_flatMap_const {α β : Type*} (l : List α) (f : α → List β) (k : Nat) (h : ∀ a ∈ l, (f a).length = k) :
    (l.flatMap f).length = l.length * k := by
  rw [List.length_flatMap, List.map_congr_left h, List.map_const', List.sum_replicate, smul_eq_mul]

theorem length_leBytes (k n : Nat) : (leBytes k n).length = k := by
  induction k generalizing n with
  | zero => rfl
  | succ k ih => simp [leBytes, ih]

theorem length_gwPrint (wide : Bool) (b : GwBlock) : (gwPrint wide b).length = gwBytes wide := by
  have hms : ((List.range 32).flatMap fun i => leBytes (gwBits wide / 8) (toTwos (gwBits wide) (b.ms.getD i 0))).length =
      32 * (gwBits wide / 8) := by
    rw [length_flatMap_const _ _ (gwBits wide / 8) fun _ _ => length_leBytes _ _, List.length_range]
  rw [gwPrint, List.length_append, hms, length_leBytes]
  cases wide <;> rfl

theorem length_nodeAdd (wide : Bool) (a b : List Byte) :
    (nodeAdd wide a b).length = a.length / gwBytes wide * gwBytes wide := by
  unfold nodeAdd
  rw [length_flatMap_const _ _ (gwBytes wide) fun _ _ => length_gwPrint _ _, List.length_range]

/-- Settles O32: `RedSeg.join` unfolded once for a partial that is not there and for one that is. -/
theorem partialsJoinInOrder : Obligations.PartialsJoinInOrder := by
  refine ⟨fun wide rounds g k hk hnone f => ?_, fun wide rounds g k b f hk hsome => ?_, length_nodeAdd⟩
  · cases f with
    | zero => rfl
    | succ f => simp only [RedSeg.join, hk, hnone]
  · simp only [RedSeg.join, hk, hsome]

/-! ### Messages of a channel -/

theorem job_updJob_same (s : State) (p : PartId) (f : Job → Job) : (s.updJob p f).job p = (s.job p).map f := by
  simp [State.updJob, State.updPart, State.job]

theorem job_updJob_other (s : State) {p q : PartId} (f : Job → Job) (h : q ≠ p) : (s.updJob p f).job q = s.job q := by
  have hval : p.val ≠ q.val := fun he => h (Fin.ext he.symm)
  simp [State.updJob, State.updPart, State.job, Vector.getElem_set_ne _ _ hval]

theorem cluster_updCluster_same (s : State) (p : PartId) (f : Cluster → Cluster) :
    (s.updCluster p f).cluster p = (s.cluster p).map f := by
  rw [State.cluster, State.updCluster, job_updJob_same, State.cluster]
  cases s.job p <;> rfl

/-- What `popMsg` takes: the first message from its sender in its class, and nothing else of the state. -/
theorem popMsg_eq_some {s u : State} {p : PartId} {e vc k : Nat} {m : List Byte} (h : s.popMsg p e vc k = some (m, u)) :
    ∃ c n, s.cluster p = some c ∧ c.inbox.findIdx? (fun m => decide (m.entry = e ∧ m.vc = vc)) = some n ∧
      (c.inbox.getD n default).bytes = m ∧ u = s.updCluster p fun c => { c with inbox := c.inbox.eraseIdx n } := by
  unfold State.popMsg at h
  split at h
  case h_1 => exact absurd h (by simp)
  case h_2 c hc =>
    split at h
    case h_1 => exact absurd h (by simp)
    case h_2 n hn =>
      dsimp only at h
      generalize (if vc = 0 then rdLE (c.inbox.getD n default).bytes 0 1 else rdLE (c.inbox.getD n default).bytes 3 1) = kind at h
      split at h
      · obtain ⟨hm, hu⟩ := Prod.mk.inj (Option.some.inj h)
        exact ⟨c, n, hc, hn, hm, hu.symm⟩
      · exact absurd h (by simp)

theorem popMsg_takes_first (p : PartId) (e vc k : Nat) (m : List Byte) (u s : State) (h : s.popMsg p e vc k = some (m, u)) :
    ∃ c n, s.cluster p = some c ∧ n < c.inbox.length ∧
      (c.inbox.getD n default).bytes = m ∧ (c.inbox.getD n default).entry = e ∧ (c.inbox.getD n default).vc = vc ∧
      (∀ i, i < n → ¬ ((c.inbox.getD i default).entry = e ∧ (c.inbox.getD i default).vc = vc)) ∧
      u.cluster p = some { c with inbox := c.inbox.eraseIdx n } ∧
      u.mem = s.mem ∧ u.regs = s.regs ∧ u.cores = s.cores ∧ u.mc = s.mc ∧ u.ports = s.ports ∧ u.handles = s.handles ∧
      ∀ q, q ≠ p → u.job q = s.job q := by
  obtain ⟨c, n, hc, hn, hm, rfl⟩ := popMsg_eq_some h
  obtain ⟨hlt, hat, hbefore⟩ := List.findIdx?_eq_some_iff_getElem.1 hn
  obtain ⟨hentry, hvc⟩ := of_decide_eq_true hat
  have hget : ∀ i (hi : i < c.inbox.length), c.inbox.getD i default = c.inbox[i] := fun i hi => by
    rw [List.getD_eq_getElem?_getD, List.getElem?_eq_getElem hi, Option.getD_some]
  refine ⟨c, n, hc, hlt, hm, ?_, ?_, fun i hi => ?_, ?_, rfl, rfl, rfl, rfl, rfl, rfl, fun q hq => job_updJob_other s _ hq⟩
  · rw [hget n hlt, hentry]
  · rw [hget n hlt, hvc]
  · rw [hget i (hi.trans hlt)]
    simpa using hbefore i hi
  · rw [cluster_updCluster_same, hc, Option.map_some]

/-- A data message's command whose message is not first from its sender does nothing (log entry 7). -/
theorem exec_data_of_popMsg_none {p : PartId} {e : EntryId} {vc : VcId} {s : State} :
    ∀ x ∈ ([(1, .reduceUp), (2, .reduceDown), (3, .gatherReq), (4, .gatherReply), (5, .pipe), (6, .pipePost), (7, .pipeDone),
      (8, .unitXfer)] : List (Nat × (PartId → EntryId → VcId → Instr))),
    s.popMsg p e.val vc.val x.1 = none → exec (x.2 p e vc) s = .next s := by
  simp only [List.forall_mem_cons]
  refine ⟨?_, ?_, ?_, ?_, ?_, ?_, ?_, ?_, List.forall_mem_nil _⟩ <;> intro hnone
  all_goals simp only [exec, execReduceUp, execReduceDown, execGatherReq, execGatherReply, execPipe, execPipePost,
    execPipeDone, execUnitXfer, hnone]

/-- A control message's command whose message is not first from its sender does nothing (log entry 7). -/
theorem exec_control_of_popMsg_none {p : PartId} {e : EntryId} {s : State} :
    ∀ x ∈ ([(0x01, .join), (0x02, .joinReply), (0x03, .roster), (0x04, .leave), (0x05, .redirect), (0x06, .leadQuery),
      (0x07, .leadReply), (0x08, .starterQuery), (0x09, .lost), (0x20, .startStep), (0x21, .ready), (0x22, .abortReq),
      (0x23, .commit), (0x24, .abort), (0x25, .ckptReq), (0x26, .ckptRead), (0x27, .rebalanced), (0x28, .hostOp)] :
      List (Nat × (PartId → EntryId → Instr))),
    s.popMsg p e.val 0 x.1 = none → exec (x.2 p e) s = .next s := by
  simp only [List.forall_mem_cons]
  refine ⟨?_, ?_, ?_, ?_, ?_, ?_, ?_, ?_, ?_, ?_, ?_, ?_, ?_, ?_, ?_, ?_, ?_, ?_, List.forall_mem_nil _⟩ <;> intro hnone
  all_goals simp only [exec, execJoin, execJoinReply, execRoster, execLeave, execRedirect, execLeadQuery, execLeadReply,
    execStarterQuery, execLost, execStartStep, execReady, execAbortReq, execCommit, execAbort, execCkptReq, execCkptRead,
    execRebalanced, execHostOp, hnone]

/-- Settles O30: `popMsg` is described once, and each of the commands answers its state where it takes nothing. -/
theorem messagesAreTakenOnce : Obligations.MessagesAreTakenOnce :=
  ⟨popMsg_takes_first, fun x hx _ _ _ _ => exec_data_of_popMsg_none x hx, fun x hx _ _ _ => exec_control_of_popMsg_none x hx⟩

end Sys2Proof.Machine

namespace Sys2Proof.Machine
/-! ### Rounding -/

/-- Rounding a magnitude down to whole units, with the rule of the mode for the rest (R53, R54). -/
theorem roundMag_nearest {m : Nat} {e q : Int} (h : e < q) :
    roundMag .nearest m e q =
      let sh := (q - e).toNat
      if 2 ^ (sh - 1) < m % 2 ^ sh ∨ (m % 2 ^ sh = 2 ^ (sh - 1) ∧ m / 2 ^ sh % 2 = 1) then m / 2 ^ sh + 1 else m / 2 ^ sh := by
  simp only [roundMag, if_neg (not_le.2 h), Nat.shiftRight_eq_div_pow]

theorem roundMag_stoch {r m : Nat} {e q : Int} (h : e < q) :
    roundMag (.stoch r) m e q =
      let u := 2 ^ (q - e).toNat
      if 2 ^ 32 ≤ m % u * 2 ^ 32 / u + r then m / u + 1 else m / u := by
  simp only [roundMag, if_neg (not_le.2 h), Nat.shiftRight_eq_div_pow, Nat.shiftLeft_eq]

/-- Nearest, ties to even, for units of twice `half`. -/
theorem nearest_within_half {m n half : Nat} (hpos : 0 < half)
    (hn : n = if half < m % (2 * half) ∨ (m % (2 * half) = half ∧ m / (2 * half) % 2 = 1) then m / (2 * half) + 1
      else m / (2 * half)) :
    2 * (n * (2 * half)) ≤ 2 * m + 2 * half ∧ 2 * m ≤ 2 * (n * (2 * half)) + 2 * half ∧
      ((2 * (n * (2 * half)) = 2 * m + 2 * half ∨ 2 * m = 2 * (n * (2 * half)) + 2 * half) → n % 2 = 0) := by
  have hdiv : m / (2 * half) * (2 * half) + m % (2 * half) = m := Nat.div_add_mod' m (2 * half)
  have hlt : m % (2 * half) < 2 * half := Nat.mod_lt _ (by omega)
  have hsucc : (m / (2 * half) + 1) * (2 * half) = m / (2 * half) * (2 * half) + 2 * half := Nat.succ_mul _ _
  split at hn <;> subst hn
  · omega
  · omega

theorem roundings_nearest (m : Nat) (e q : Int) (h : e < q) :
    let u := 2 ^ (q - e).toNat
    let n := roundMag .nearest m e q
    2 * (n * u) ≤ 2 * m + u ∧ 2 * m ≤ 2 * (n * u) + u ∧ ((2 * (n * u) = 2 * m + u ∨ 2 * m = 2 * (n * u) + u) → n % 2 = 0) := by
  obtain ⟨k, hk⟩ : ∃ k, (q - e).toNat = k + 1 := ⟨(q - e).toNat - 1, by omega⟩
  have hu : 2 ^ (q - e).toNat = 2 * 2 ^ k := by rw [hk, pow_succ, mul_comm]
  have hn := roundMag_nearest (m := m) h
  dsimp only at hn ⊢
  rw [hu, hk, Nat.add_sub_cancel] at hn
  rw [hu]
  exact nearest_within_half (Nat.two_pow_pos k) hn

theorem roundings_stoch (r m : Nat) (e q : Int) (h : e < q) (hr : r < 2 ^ 32) :
    let u := 2 ^ (q - e).toNat
    (roundMag (.stoch r) m e q = m / u ∨ roundMag (.stoch r) m e q = m / u + 1) ∧
      (m % u = 0 → roundMag (.stoch r) m e q = m / u) ∧
      (roundMag (.stoch r) m e q = m / u + 1 ↔ 2 ^ 32 ≤ (m % u) * 2 ^ 32 / u + r) := by
  have hn := roundMag_stoch (r := r) (m := m) h
  dsimp only at hn ⊢
  rw [hn]
  generalize 2 ^ (q - e).toNat = u
  refine ⟨?_, fun hzero => ?_, ?_⟩
  · split
    · exact .inr rfl
    · exact .inl rfl
  · rw [hzero, Nat.zero_mul, Nat.zero_div, if_neg (by omega)]
  · split <;> simp_all

/-- Settles O29. -/
theorem roundingsAreRight : Obligations.RoundingsAreRight :=
  ⟨roundings_nearest, roundings_stoch⟩

/-! ### Values that a format holds are written back as they are (R35) -/

/-- Some exponent field of the format is that of a normal value. -/
def FloatFmt.HasNormals (f : FloatFmt) : Prop := 1 ≤ f.mb ∧ 1 ≤ f.emaxField

theorem floatFormats_hasNormals : ∀ f ∈ floatFormats, f.HasNormals := by
  simp only [floatFormats, List.forall_mem_cons, FloatFmt.HasNormals]
  decide

/-- The magnitude `m` at `e` has exponent field `ex` and mantissa bits `man` in the format, as a subnormal or a normal value. -/
structure FloatFmt.Holds (f : FloatFmt) (ex man m : Nat) (e : Int) : Prop where
  manLt : man < 2 ^ f.mb
  exLe : ex ≤ f.emaxField
  notNan : f.special = .nanOnly → ex = f.emaxField → man + 1 < 2 ^ f.mb
  value : ex = 0 ∧ m = man ∧ e = f.qmin ∨ 0 < ex ∧ m = 2 ^ f.mb + man ∧ e = (ex : Int) - (f.bias : Int) - (f.mb : Int)

/-- What `decode` answers for finite values. -/
theorem decode_holds {f : FloatFmt} {w m : Nat} {neg : Bool} {e : Int} (h : f.decode w = .fin neg m e) :
    neg = decide ((w >>> (f.mb + f.eb)) % 2 = 1) ∧ f.Holds ((w >>> f.mb) % 2 ^ f.eb) (w % 2 ^ f.mb) m e := by
  have hman : w % 2 ^ f.mb < 2 ^ f.mb := Nat.mod_lt _ (Nat.two_pow_pos _)
  have hex : (w >>> f.mb) % 2 ^ f.eb < 2 ^ f.eb := Nat.mod_lt _ (Nat.two_pow_pos _)
  unfold FloatFmt.decode at h
  generalize w % 2 ^ f.mb = man at h hman ⊢
  generalize (w >>> f.mb) % 2 ^ f.eb = ex at h hex ⊢
  dsimp only at h
  split at h
  · split at h <;> cases h
  split at h
  · cases h
  next hieee hnan =>
    have hle : ex ≤ f.emaxField := by
      unfold FloatFmt.emaxField
      split
      next hs =>
        have hne : ex ≠ 2 ^ f.eb - 1 := fun he => hieee ⟨hs, he⟩
        omega
      next => omega
    have htop : f.special = .nanOnly → ex = f.emaxField → man + 1 < 2 ^ f.mb := fun hs he => by
      have hmax : ex = 2 ^ f.eb - 1 := by simpa only [FloatFmt.emaxField, hs] using he
      have hne : man ≠ 2 ^ f.mb - 1 := fun hm => hnan ⟨hs, hmax, hm⟩
      omega
    split at h <;> obtain ⟨rfl, rfl, rfl⟩ := XNum.fin.inj h
    next hzero => exact ⟨rfl, hman, hle, htop, .inl ⟨hzero, rfl, rfl⟩⟩
    next hpos => exact ⟨rfl, hman, hle, htop, .inr ⟨Nat.pos_of_ne_zero hpos, rfl, rfl⟩⟩

namespace FloatFmt.Holds

variable {f : FloatFmt} {ex man m : Nat} {e : Int}

theorem lt (h : f.Holds ex man m e) : m < 2 ^ (f.mb + 1) := by
  have hman := h.manLt
  rw [pow_succ]
  rcases h.value with ⟨_, rfl, _⟩ | ⟨_, rfl, _⟩ <;> omega

/-- The unit that rounding chooses for the value is its own. -/
theorem unit_eq (h : f.Holds ex man m e) (hm : m ≠ 0) : max (expOf m e - (f.mb : Int)) f.qmin = e := by
  have hman := h.manLt
  have hlog := (Nat.log2_lt hm).2 h.lt
  unfold expOf
  rcases h.value with ⟨_, rfl, rfl⟩ | ⟨hex, rfl, rfl⟩
  · have : Nat.log2 m < f.mb := (Nat.log2_lt hm).2 hman
    omega
  · have : f.mb ≤ Nat.log2 (2 ^ f.mb + man) := (Nat.le_log2 hm).2 (Nat.le_add_right _ _)
    unfold FloatFmt.qmin
    omega

/-- Rounding leaves the value as it is. -/
theorem round_eq (h : f.Holds ex man m e) (mode : Round) : f.round mode m e = (m, e) := by
  unfold FloatFmt.round
  split
  next hm =>
    subst hm
    rcases h.value with ⟨_, _, rfl⟩ | ⟨_, hval, _⟩
    · rfl
    · have := Nat.two_pow_pos f.mb
      omega
  next hm =>
    have hmag : roundMag mode m e e = m := by simp [roundMag, alignUp]
    simp only [h.unit_eq hm, hmag, if_neg (not_le.2 h.lt)]

/-- The value is not above the format's largest one. -/
theorem not_over (h : f.Holds ex man m e) (hf : f.HasNormals) : magLt f.maxFin.1 f.maxFin.2 m e = false := by
  obtain ⟨hmb, hmax⟩ := hf
  have hman := h.manLt
  have hle := h.exLe
  have hpow : 2 ^ (f.mb + 1) = 2 * 2 ^ f.mb := by rw [pow_succ, mul_comm]
  have htwo : 2 ≤ 2 ^ f.mb := by
    calc 2 = 2 ^ 1 := rfl
      _ ≤ 2 ^ f.mb := Nat.pow_le_pow_right (by decide) hmb
  have hlt := h.lt
  obtain ⟨me, hme⟩ : ∃ me : Int, me = (f.emaxField : Int) - (f.bias : Int) - (f.mb : Int) := ⟨_, rfl⟩
  have hexp : e ≤ me := by
    rcases h.value with ⟨_, _, rfl⟩ | ⟨_, _, rfl⟩
    · unfold FloatFmt.qmin
      omega
    · omega
  have hbound : m ≤ f.maxFin.1 * 2 ^ (me - e).toNat := by
    by_cases heq : me = e
    · subst heq
      simp only [sub_self, Int.toNat_zero, pow_zero, mul_one]
      unfold FloatFmt.maxFin
      dsimp only
      split
      next hs =>
        rcases h.value with ⟨_, rfl, _⟩ | ⟨_, rfl, hval⟩
        · omega
        · have := h.notNan hs (by omega)
          omega
      next => omega
    · obtain ⟨k, hk⟩ : ∃ k, (me - e).toNat = k + 1 := ⟨(me - e).toNat - 1, by omega⟩
      have hone : 1 ≤ 2 ^ k := Nat.one_le_two_pow
      have hmm : 2 ^ f.mb ≤ f.maxFin.1 := by
        unfold FloatFmt.maxFin
        dsimp only
        split <;> omega
      calc m ≤ 2 ^ f.mb * 2 := by omega
        _ ≤ f.maxFin.1 * 2 := by omega
        _ ≤ f.maxFin.1 * 2 ^ (me - e).toNat := by
          rw [hk, pow_succ]
          exact Nat.mul_le_mul_left _ (by omega)
  have hmaxe : f.maxFin.2 = me := hme.symm
  simp only [magLt, alignUp, hmaxe, min_eq_right hexp, sub_self, Int.toNat_zero, pow_zero, mul_one, Nat.shiftLeft_eq,
    decide_eq_false_iff_not, not_lt]
  exact hbound

/-- The value's bits. -/
theorem pack_eq (h : f.Holds ex man m e) (neg : Bool) : f.pack neg m e = f.signBit neg + ex * 2 ^ f.mb + man := by
  have hman := h.manLt
  unfold FloatFmt.pack
  rcases h.value with ⟨hex, rfl, _⟩ | ⟨hex, rfl, rfl⟩
  · rw [if_pos hman, hex, Nat.zero_mul, Nat.add_zero]
  · have hfield : ((ex : Int) - f.bias - f.mb + f.mb + f.bias).toNat = ex := by omega
    rw [if_neg (by omega), hfield, Nat.shiftLeft_eq, Nat.add_sub_cancel_left]

end FloatFmt.Holds

/-- A word of a format is its sign, its exponent field and its mantissa bits. -/
theorem word_fields (f : FloatFmt) {w : Nat} (h : w < 2 ^ (1 + f.eb + f.mb)) :
    f.signBit (decide ((w >>> (f.mb + f.eb)) % 2 = 1)) + ((w >>> f.mb) % 2 ^ f.eb) * 2 ^ f.mb + w % 2 ^ f.mb = w := by
  have hsign : w >>> (f.mb + f.eb) < 2 := by
    rw [Nat.shiftRight_eq_div_pow, Nat.div_lt_iff_lt_mul (Nat.two_pow_pos _), ← pow_succ']
    convert h using 2
    omega
  have hbit : b2n (decide ((w >>> (f.mb + f.eb)) % 2 = 1)) = w >>> (f.mb + f.eb) := by
    generalize w >>> (f.mb + f.eb) = b at hsign ⊢
    interval_cases b <;> rfl
  have hhigh := Nat.div_add_mod' (w / 2 ^ f.mb) (2 ^ f.eb)
  have hlow := Nat.div_add_mod' w (2 ^ f.mb)
  rw [FloatFmt.signBit, hbit, Nat.shiftLeft_eq, Nat.shiftRight_eq_div_pow, Nat.shiftRight_eq_div_pow, pow_add,
    ← Nat.div_div_eq_div_mul, pow_add, mul_comm (2 ^ f.eb), ← mul_assoc, mul_right_comm, ← add_mul]
  rw [hhigh, hlow]

/-- Settles O28: a decoded finite value is held by the format, so that rounding, the bound and the packing keep it. -/
theorem subnormalsAreExact : Obligations.SubnormalsAreExact := by
  intro f hf mode raw neg m e hraw hdec
  obtain ⟨hneg, hholds⟩ := decode_holds hdec
  simp only [hdec, FloatFmt.encode, hholds.round_eq, hholds.not_over (floatFormats_hasNormals f hf), hholds.pack_eq,
    hneg, word_fields f hraw, Bool.false_eq_true, if_false]

end Sys2Proof.Machine

namespace Sys2Proof.Machine
namespace State.Dark

variable {s : State}

theorem linked (h : s.Dark) : s.linked = false := by simp [State.linked, h.off]

theorem hostUp (h : s.Dark) : s.hostUp = false := by simp [State.hostUp, h.linked]

theorem portOn (h : s.Dark) (t : PortId) : s.portOn t = false := by simp [State.portOn, h.started]

theorem coreUp (h : s.Dark) (c : CoreId) : s.coreUp c = false := by simp [State.coreUp, h.hub]

theorem mayReplan (h : s.Dark) (c : CoreId) : s.mayReplan c = false := by simp [State.mayReplan, h.coreUp]

theorem request (h : s.Dark) (r : Setup) (b : Nat) (q : ReqForm) (f : Nat → State → State) : s.request r b q f = s := by
  simp [State.request, h.linked]

theorem opStart (h : s.Dark) (r : Setup) (kind : Nat) (check : State → Except (Nat × State) (State × Handle))
    (go : Nat → State → State) : s.opStart r kind check go = s :=
  h.request ..

theorem onHandle (h : s.Dark) (r : Setup) (b : Nat) (q : ReqForm) (f : Handle → State → Except Nat State) :
    s.onHandle r b q f = s :=
  h.request ..

theorem cluster (h : s.Dark) (p : PartId) : s.cluster p = none := by simp [State.cluster, h.jobs]

theorem popMsg (h : s.Dark) (p : PartId) (e vc k : Nat) : s.popMsg p e vc k = none := by simp [State.popMsg, h.cluster]

theorem nextIn (h : s.Dark) (c : CoreId) (q : QueueId) (k : Nat) : s.nextIn c q k = none := by
  simp only [State.nextIn, h.quiet, List.filter_nil, List.getElem?_nil]

theorem startNet (h : s.Dark) (c : CoreId) (slot op : Nat) : s.startNet c slot op = none := by simp [State.startNet, h.nextIn]

theorem startMov (h : s.Dark) (c : CoreId) (slot : Fin 8) (op : Nat) : s.startMov c slot op = none := by
  simp [State.startMov, h.nextIn]

theorem headOf (h : s.Dark) (c : CoreId) (q : QueueId) : s.headOf c q = none := by
  simp only [State.headOf, h.quiet, List.find?_nil]

theorem rowHead (h : s.Dark) (c : CoreId) (op : Nat) : s.rowHead c op = none := by simp [State.rowHead, h.headOf]

theorem synEntry (h : s.Dark) (c : CoreId) (x : CtxId) (f : List Word → Bool) : s.synEntry c x f = none := by
  simp only [State.synEntry, h.quiet, List.find?_nil]

theorem turn (h : s.Dark) (c : CoreId) (x : CtxId) : s.turn c x = none := by
  unfold State.turn
  dsimp only
  split
  · rw [h.jobs, Option.bind_none]
  · rfl

theorem loading (h : s.Dark) (c : CoreId) (u : MatUnit) : s.loading c u = none := by
  simp [State.loading, h.headOf, h.quiet c, -Fin.getElem_fin]

theorem handleOf (h : s.Dark) (n : Nat) : s.handleOf n = none := by simp [State.handleOf, h.handles]

theorem dueRecord (h : s.Dark) (n target : Nat) : s.dueRecord n target = none := by simp [State.dueRecord, h.handleOf]

theorem vec (h : s.Dark) (c : CoreId) (op : Nat) (env : MemEnv) : s.vec c op env = s := by simp [State.vec, h.headOf]

theorem normRow (h : s.Dark) (c : CoreId) (op : Nat) (env : MemEnv) : s.normRow c op env = s := by
  simp [State.normRow, h.rowHead]

theorem smaxRowOp (h : s.Dark) (c : CoreId) (op : Nat) (env : MemEnv) : s.smaxRowOp c op env = s := by
  simp [State.smaxRowOp, h.rowHead]

theorem connDown (h : s.Dark) (p : PartId) (i cause : Nat) : s.connDown p i cause = s := by simp [State.connDown, h.cluster]

theorem frameIn (h : s.Dark) (p : PartId) (f : Frame) : s.frameIn p f = s := by simp [State.frameIn, h.hostUp]

theorem awaitsPower (h : s.Dark) : s.awaitsPower = false := by simp [State.awaitsPower, h.off]

theorem hctxUp (h : s.Dark) : s.hctxUp = false := by simp [State.hctxUp, h.hub]

theorem frontCmd (h : s.Dark) (p : PartId) : s.frontCmd p = none := by simp [State.frontCmd, h.hctxUp]

theorem skipUnnamed (h : s.Dark) (p : PartId) : s.skipUnnamed p = s := by
  simp only [State.skipUnnamed, State.skipUnnamedN, State.takeUnnamed, h.frontCmd]

theorem onCmd (h : s.Dark) (p : PartId) (op : Nat) (f : List Byte → TakenCmd → State → State) : s.onCmd p op f = s := by
  simp only [State.onCmd, h.skipUnnamed, h.frontCmd]

theorem startEmpty (h : s.Dark) (p : PartId) : mapGet s.mc.restartAt p.val = none := by rw [h.restart]; rfl

end State.Dark
end Sys2Proof.Machine

namespace Sys2Proof.Machine

/-- What `State.Dark` asks of the MC. -/
def MC.power (m : MC) : (Bool × Bool × Bool × Bool × Bool × Bool) × CascadeState × List (Nat × Nat) :=
  ((m.aux, m.on, m.rstLow, m.complete, m.pwrReq, m.hubRailOn), m.cascade, m.restartAt)

theorem updHalf_issued (k : CoreS) (guest : Bool) (f : LCtx → LCtx) : (k.updHalf guest f).issued = k.issued := by
  cases guest <;> rfl

namespace State.Dark

variable {s t : State} {α : Type}

theorem of_parts (h : s.Dark) (hmc : t.mc.power = s.mc.power) (hcores : ∀ c : CoreId, t.cores[c].issued = [])
    (hjobs : ∀ p, t.job p = none) (hhandles : t.handles = []) : t.Dark := by
  simp only [MC.power, Prod.mk.injEq] at hmc
  obtain ⟨⟨haux, hon, hrst, hcomplete, hpwr, hhub⟩, hcascade, hrestart⟩ := hmc
  exact ⟨haux.trans h.aux, hon.trans h.off, hrst.trans h.rst, hcomplete.trans h.started, hpwr.trans h.pwr, hhub.trans h.hub,
    hcascade.trans h.cascade, hrestart.trans h.restart, hcores, hjobs, hhandles⟩

theorem same (h : s.Dark) (hmc : t.mc.power = s.mc.power) (e : (t.cores, t.parts, t.handles) = (s.cores, s.parts, s.handles)) :
    t.Dark := by
  simp only [Prod.mk.injEq] at e
  obtain ⟨hcores, hparts, hhandles⟩ := e
  refine h.of_parts hmc (fun c => ?_) (fun p => ?_) (hhandles.trans h.handles)
  · rw [hcores, h.quiet]
  · rw [State.job, hparts]
    exact h.jobs p

theorem update {freeCtr : Nat} {pending : List Instr} {mem : List Host.Cell} {badUnits weakUnits : List Nat} {regs latches : List (Nat × Word)}
    {lastHandle : Nat} {staging : List (Nat × Byte)} {diag : Iface} {usb : Usb} {mc : MC} {ports : Vector Port 8}
    {nvm : List (Nat × Byte)} {counters : List Nat} {paired : Bool} (hk : s.Dark) (e : mc.power = s.mc.power) :
    ({ s with
      freeCtr, pending, mem, badUnits, weakUnits, regs, latches, lastHandle, staging, diag, usb, mc, ports
      nvm, counters, paired } : State).Dark :=
  hk.same e rfl

theorem ite {p : Prop} [Decidable p] (ht : t.Dark) (hs : s.Dark) : (if p then t else s).Dark := by
  split
  · exact ht
  · exact hs

theorem both {u : State} {p : Prop} [Decidable p] (hk : s.Dark) (ht : s.Dark → t.Dark) (hu : s.Dark → u.Dark) :
    (if p then t else u).Dark :=
  ite (ht hk) (hu hk)

theorem foldl {f : State → α → State} {l : List α} (hk : s.Dark) (hf : ∀ s a, s.Dark → (f s a).Dark) : (l.foldl f s).Dark := by
  induction l generalizing s with
  | nil => exact hk
  | cons a l ih => exact ih (hf s a hk)

theorem of_fst {p : State × α} {v : α} (hk : p.1.Dark) (e : p = (t, v)) : t.Dark := by
  subst e; exact hk

theorem setReg {o : Nat} {v : Word} (hk : s.Dark) : (s.setReg o v).Dark := hk.update rfl

theorem put {w : List (Nat × Byte)} (hk : s.Dark) : (s.put w).Dark := hk.update rfl

theorem zeroRange {a n : Nat} (hk : s.Dark) : (s.zeroRange a n).Dark := hk.update rfl

theorem nvmErase {a n : Nat} (hk : s.Dark) : (s.nvmErase a n).Dark := hk.update rfl

theorem nvmPut {a : Nat} {bs : List Byte} (hk : s.Dark) : (s.nvmPut a bs).Dark := hk.update rfl

theorem advance {n v : Nat} (hk : s.Dark) : (s.advance n v).Dark := hk.update rfl

theorem updCore {c : CoreId} {f : CoreS → CoreS} (hk : s.Dark)
    (hf : ∀ k, k.issued = [] → (f k).issued = []) : (s.updCore c f).Dark := by
  refine hk.of_parts rfl (fun d => ?_) hk.jobs hk.handles
  by_cases hd : c.val = d.val
  · obtain rfl := Fin.ext hd
    simpa [State.updCore] using hf _ (hk.quiet c)
  · simpa [State.updCore, Vector.getElem_set_ne _ _ hd] using hk.quiet d

theorem updPart {p : PartId} {f : Machine.Part → Machine.Part} (hk : s.Dark)
    (hf : ∀ q, q.job = none → (f q).job = none) : (s.updPart p f).Dark := by
  refine hk.of_parts rfl hk.quiet (fun q => ?_) hk.handles
  have hjob := hk.jobs q
  by_cases hq : p.val = q.val
  · obtain rfl := Fin.ext hq
    simpa [State.updPart, State.job] using hf _ hjob
  · simpa [State.updPart, State.job, Vector.getElem_set_ne _ _ hq] using hjob

theorem updJob {p : PartId} {f : Job → Job} (hk : s.Dark) : (s.updJob p f).Dark :=
  hk.updPart fun _ h => by simp [h]

theorem updCluster {p : PartId} {f : Cluster → Cluster} (hk : s.Dark) : (s.updCluster p f).Dark := hk.updJob

theorem updPort {t : PortId} {f : Port → Port} (hk : s.Dark) : (s.updPort t f).Dark := hk.update rfl

theorem updHandle {h : Nat} {f : Handle → Handle} (hk : s.Dark) : (s.updHandle h f).Dark :=
  hk.of_parts rfl hk.quiet hk.jobs (by simp [State.updHandle, hk.handles])

theorem updRail {c : CoreId} {f : CoreRail → CoreRail} (hk : s.Dark) : (s.updRail c f).Dark := hk.update rfl

theorem setFld {o hi lo v : Nat} (hk : s.Dark) : (s.setFld o hi lo v).Dark := hk.setReg

theorem countFld {o hi lo k : Nat} (hk : s.Dark) : (s.countFld o hi lo k).Dark := hk.setFld

theorem count {o k : Nat} (hk : s.Dark) : (s.count o k).Dark := hk.countFld

theorem updIface {p : PartId} {f : Iface → Iface} (hk : s.Dark) : (s.updIface p f).Dark := hk.updPart (by exact fun _ h => h)

theorem putBytes {a : Nat} {bs : List Byte} (hk : s.Dark) : (s.putBytes a bs).Dark := hk.put

theorem updHdr {p : PartId} {f : RingHdr → RingHdr} (hk : s.Dark) : (s.updHdr p f).Dark :=
  ite hk.updIface.putBytes hk.updIface

theorem updUnit {c : CoreId} {a : ArrayId} {h : Fin 2} {f : HalfS → HalfS} (hk : s.Dark) : (s.updUnit c a h f).Dark :=
  hk.updCore (by exact fun _ h => h)

theorem updRecords {c : CoreId} {u : MatUnit} {f : HalfS → HalfS} (hk : s.Dark) : (s.updRecords c u f).Dark :=
  ite hk.updUnit.updUnit hk.updUnit

theorem updLCtx {v : Serve} {f : LCtx → LCtx} (hk : s.Dark) : (s.updLCtx v f).Dark :=
  hk.updCore fun _ h => (updHalf_issued ..).trans h

theorem updStream {c : CoreId} {x : CtxId} {f : Machine.Stream → Machine.Stream} (hk : s.Dark) : (s.updStream c x f).Dark :=
  hk.updCore fun _ h => (updHalf_issued ..).trans h

theorem updQp {t : PortId} {n : Nat} {f : Qp → Qp} (hk : s.Dark) : (s.updQp t n f).Dark := hk.updPort

theorem clearRegs {os : List Nat} (hk : s.Dark) : (s.clearRegs os).Dark := foldl hk fun _ _ hs => hs.setReg

theorem mgmtQueue {rec : List Word} (hk : s.Dark) : (s.mgmtQueue rec).Dark := ite (hk.update (by rfl)) hk.count

theorem dropEvt {p : PartId} (hk : s.Dark) : (s.dropEvt p).Dark := ite hk.countFld.updHdr hk.countFld

theorem eventRing {p : PartId} {rec : List Word} (hk : s.Dark) : (s.eventRing p rec).Dark := by
  unfold State.eventRing
  dsimp only
  split
  · exact hk.dropEvt
  · exact ite hk.putBytes.updHdr hk.dropEvt

theorem logQueue {rec : List Word} (hk : s.Dark) : (s.logQueue rec).Dark := ite (hk.update (by rfl)) hk.countFld

theorem deliver {part : Option PartId} {code : Nat} {rec : List Word} (hk : s.Dark) : (s.deliver part code rec).Dark := by
  unfold State.deliver
  dsimp only
  split
  · split
    · exact hk.count.mgmtQueue.eventRing.logQueue.setFld
    · exact hk.count.mgmtQueue.logQueue.setFld
  · split
    · exact hk.count.mgmtQueue.eventRing
    · exact hk.count.mgmtQueue

theorem raise {src : Src} {part : Option PartId} {code : Nat} {ds : List Nat} (hk : s.Dark) :
    (s.raise src part code ds).Dark :=
  ite (hk.update (by rfl)).count (hk.update (by rfl)).deliver

theorem setService {c : CoreId} {u : MatUnit} {v : Service} (hk : s.Dark) : (s.setService c u v).Dark :=
  ite hk.updUnit.updUnit hk.updUnit

theorem fresh (hk : s.Dark) : s.fresh.2.Dark := hk.update (by rfl)

theorem kneadFirst {c : CoreId} {u : Fin 3} {rs : List Nat} (hk : s.Dark) : (s.kneadFirst c u rs).Dark := hk.updCore (by exact fun _ h => h)

theorem resetIfaces (hk : s.Dark) : s.resetIfaces.Dark := update (e := by rfl) (foldl hk (fun _ _ hs => hs.updIface))

theorem hostLost {cause : Nat} (hk : s.Dark) : (s.hostLost cause).Dark := hk.resetIfaces.countFld.raise

theorem linkReset {cause : Nat} (hk : s.Dark) : (s.linkReset cause).Dark := ite (hk.update (by rfl)).setFld.hostLost hk

theorem touch {c : CoreId} (hk : s.Dark) : (s.touch c).Dark := by
  unfold State.touch
  dsimp only
  split
  · exact (hk.updCore (by exact fun _ h => h)).countFld.countFld
  · exact (hk.updCore (by exact fun _ h => h)).countFld.countFld
  · exact hk.countFld
  · exact hk

theorem touchAll {as : List Nat} (hk : s.Dark) : (s.touchAll as).Dark := foldl hk fun _ _ hs => hs.touch

theorem correctedAt {level idx bank region : Nat} (hk : s.Dark) : (s.correctedAt level idx bank region).Dark := by
  unfold State.correctedAt
  dsimp only
  split
  · split
    · exact (hk.count.update (by rfl)).raise.kneadFirst
    · exact (hk.count.update (by rfl)).raise
  · exact hk.count.update (by rfl)

theorem corrected {a : Nat} (hk : s.Dark) : (s.corrected a).Dark := by
  unfold State.corrected
  split
  · exact hk.correctedAt

theorem meetUnits {f : Nat → Bool} (hk : s.Dark) : (s.meetUnits f).Dark :=
  foldl hk fun _ _ hs => ite (hs.corrected.update (by rfl)) hs.corrected

theorem meetRange {a n : Nat} (hk : s.Dark) : (s.meetRange a n).Dark := hk.meetUnits

theorem meetReads {as : List Nat} (hk : s.Dark) : (s.meetReads as).Dark := hk.meetUnits

theorem fixedLog (hk : s.Dark) : s.fixedLog.Dark := ite hk (hk.update (by rfl))

theorem uncorrectable {part : Option PartId} {a : Nat} (hk : s.Dark) : (s.uncorrectable part a).Dark := by
  unfold State.uncorrectable
  dsimp only
  split
  · exact both hk.raise.count.setReg.setReg id fun h₁ => (h₁.update (by rfl)).fixedLog
  · split
    · exact (hk.raise.update (by rfl)).setFld.countFld.setReg.setReg.kneadFirst
    · exact (hk.raise.update (by rfl)).setFld.countFld.setReg.setReg

theorem writeCpl {p : PartId} {rec : List Byte} (hk : s.Dark) : (s.writeCpl p rec).Dark :=
  both hk.meetRange.putBytes.updHdr (fun h₁ => h₁.updIface) id

theorem loseCore {c : CoreId} (hk : s.Dark) : (s.loseCore c).Dark := hk.zeroRange.zeroRange

theorem jobFenced {p : PartId} (hk : s.Dark) : (s.jobFenced p).Dark := by
  simp only [State.jobFenced, hk.jobs]
  exact hk

theorem setFenceCount {n : Nat} (hk : s.Dark) : ({ s with mc := { s.mc with fenceCount := n } } : State).Dark := hk.update (by rfl)

theorem fenceCore {c : CoreId} {cause : Nat} {byProof : Bool} (hk : s.Dark) : (s.fenceCore c cause byProof).Dark := by
  have hlost {u : State} (hu : u.Dark) {f : CoreRail → CoreRail} {b : Nat} :
      ((((List.range 4).foldl (fun s n => s.setReg (coreRateArr c.val + 4 * n) 0)
        ((u.loseCore c).updRail c f)).setFld (coreFence c.val) 31 31 1 |>.setFld (coreFence c.val) 29 29 b).setFld
        (coreFence c.val) 15 0 cause).Dark :=
    setFld (setFld (setFld (foldl hu.loseCore.updRail fun _ _ hs => hs.setReg)))
  have hout : (s.updCore c fun k => { k with inService := false, issued := [] }).Dark := hk.updCore fun _ _ => rfl
  unfold State.fenceCore
  refine ite hk ?_
  dsimp only
  split
  · exact jobFenced (fixedLog (ite (hlost hout.updCluster).setFenceCount.raise.updRail.setFld.raise
      (hlost hout.updCluster).setFenceCount.raise))
  · exact fixedLog (ite (hlost hout).setFenceCount.raise.updRail.setFld.raise (hlost hout).setFenceCount.raise)

theorem fenceByErrors {a : Nat} (hk : s.Dark) : (s.fenceByErrors a).Dark := ite hk.fenceCore hk

theorem respond {p : PartId} {f : Frame} {status : Nat} {data : List Byte} (hk : s.Dark) : (s.respond p f status data).Dark
    :=
  hk.updIface

theorem windowFault {p : PartId} {f : Frame} {field : Nat × Nat} (hk : s.Dark) : (s.windowFault p f field).Dark :=
  hk.updIface.setReg.raise

theorem lput {j : Job} {w : List (Nat × Byte)} (hk : s.Dark) : (s.lput j w).Dark := hk.put

theorem lputBytes {j : Job} {a : Nat} {bs : List Byte} (hk : s.Dark) : (s.lputBytes j a bs).Dark := hk.lput

theorem readFrame {p : PartId} {f : Frame} (hk : s.Dark) : (s.readFrame p f).Dark := by
  unfold State.readFrame
  dsimp only
  split
  · exact hk.touchAll.uncorrectable.fenceByErrors.respond
  · exact hk.touchAll.meetReads.respond

theorem writeFrame {p : PartId} {f : Frame} (hk : s.Dark) : (s.writeFrame p f).Dark := by
  unfold State.writeFrame
  exact hk.touchAll.lputBytes.updIface

theorem takeFrame {p : PartId} {f : Frame} (hk : s.Dark) : (s.takeFrame p f).Dark := by
  unfold State.takeFrame
  split
  · exact ite hk.respond hk.windowFault
  · exact ite hk.readFrame hk.writeFrame

theorem applyHeld {p : PartId} {x : HeldReq} (hk : s.Dark) : (s.applyHeld p x).Dark := by
  cases x with
  | window b g n => unfold State.applyHeld; exact hk.updIface
  | doorbell n x => unfold State.applyHeld; exact hk.updHdr

theorem goOnN {n : Nat} {p : PartId} (hk : s.Dark) : (State.goOnN n p s).Dark := by
  induction n generalizing s with
  | zero => exact hk
  | succ n ih =>
    have hheld : (match s.parts[p].iface.held with
        | r :: rest =>
          if s.parts[p].iface.hasLanded r.e then
            State.goOnN n p ((s.updIface p fun i => { i with held := rest }).applyHeld p r) else s
        | [] => s).Dark := by
      split
      · exact ite (ih hk.updIface.applyHeld) hk
      · exact hk
    unfold State.goOnN
    dsimp only
    split
    · exact ite (ih hk.updIface.takeFrame) hheld
    · exact hheld

theorem goOn {p : PartId} (hk : s.Dark) : (s.goOn p).Dark := hk.goOnN

theorem takeEnv {env : MemEnv} (hk : s.Dark) : (s.takeEnv env).Dark :=
  update (e := by rfl) (foldl (foldl (foldl hk (fun _ _ hs => hs.count)) (fun _ _ hs => (hs.updCore (by exact fun _ h => h)))) (fun _ _ hs => (hs.updCore (by exact fun _ h => h))))

theorem portReach {x : PortId} {n : Nat} (hk : s.Dark) (e : s.portReach x n = some t) : t.Dark := by
  unfold State.portReach at e
  dsimp only at e
  split at e
  · cases e
    exact hk.updPort
  · cases e

theorem updHead {f : NvmWork → NvmWork} (hk : s.Dark) : (s.updHead f).Dark := hk.update (by rfl)

theorem nvmPage {w : NvmWork} (hk : s.Dark) : (s.nvmPage w).Dark := by
  unfold State.nvmPage
  dsimp only
  split
  · exact hk.nvmErase.updHead
  · split
    · exact hk.nvmPut.updHead.updHandle
    · exact hk.nvmPut.updHead

theorem nvmGo (hk : s.Dark) : s.nvmGo.Dark := by
  unfold State.nvmGo
  dsimp only
  split
  · exact hk
  · split
    · split
      · exact ite (hk.updHead.updHandle.update (by rfl)) hk
      · exact hk
    · exact hk

theorem nvmNext (hk : s.Dark) : s.nvmNext.Dark := (hk.update (by rfl)).nvmGo

theorem send {t : PortId} {f : TxFrame} (hk : s.Dark) : (s.send t f).Dark := hk.updPort

theorem sendPfc {t : PortId} {q : SubId} {c quanta : Nat} (hk : s.Dark) : (s.sendPfc t q c quanta).Dark := hk.send

theorem pfcWatch {t : PortId} {q : SubId} {c : Nat} (hk : s.Dark) : (s.pfcWatch t q c).Dark :=
  ite hk (ite hk.sendPfc.updPort (ite hk.sendPfc.updPort hk))

theorem otCount {t : PortId} {n k : Nat} (hk : s.Dark) : (s.otCount t n k).Dark := hk.count

theorem takeOt {t : PortId} {type : Nat} (hk : s.Dark) : (s.takeOt t type).1.Dark := by
  unfold State.takeOt
  dsimp only
  split
  · exact hk
  · split
    · exact hk.updPort.pfcWatch.otCount
    · split
      · exact hk.updPort.pfcWatch
      · exact hk

theorem signal {p : PartId} {l n inc : Nat} (hk : s.Dark) : (s.signal p l n inc).Dark := by
  unfold State.signal
  split
  · exact hk
  · exact hk.updLCtx

theorem portRefuse {t : PortId} {o top : Nat} (hk : s.Dark) : (s.portRefuse t o top).Dark := hk.raise

theorem copySched {t : PortId} {k : Fin 2} (hk : s.Dark) : (s.copySched t k).Dark := by
  unfold State.copySched
  exact updPort (foldl hk (fun _ _ hs => foldl hs (fun _ _ hs => hs.setReg)))

theorem portCount {t : PortId} {n k : Nat} (hk : s.Dark) : (s.portCount t n k).Dark := hk.count

theorem subDown {t : PortId} {q : SubId} {cause : Nat} (hk : s.Dark) : (s.subDown t q cause).Dark :=
  hk.updPort.setFld.portCount.portCount.raise

theorem setLink {t : PortId} {q : SubId} {m : LinkMode} (hk : s.Dark) : (s.setLink t q m).Dark := hk.updPort.setFld

theorem updPtp {t : PortId} {f : PtpRun → PtpRun} (hk : s.Dark) : (s.updPtp t f).Dark := hk.updPort

theorem stepPort {t : PortId} {ns : ℤ} (hk : s.Dark) : (s.stepPort t ns).Dark := hk.updPort.portCount.setReg.raise

theorem writeMr {t : PortId} {i : Nat} {b : List Byte} (hk : s.Dark) : (s.writeMr t i b).Dark := by
  unfold State.writeMr
  exact hk.updPort

theorem reservedRecord {p : PartId} {rec : List Byte} (hk : s.Dark) : (s.reservedRecord p rec).Dark :=
  ite hk.countFld.updIface (ite hk.writeCpl.updIface hk.count.updIface)

theorem finalRecord {p : PartId} {c : TakenCmd} {status handle event d0 d1 : Nat} (hk : s.Dark) :
    (s.finalRecord p c status handle event d0 d1).Dark :=
  hk.updIface.reservedRecord

theorem unqueueQp {t : PortId} {n : Nat} {all : Bool} (hk : s.Dark) : (s.unqueueQp t n all).Dark := hk.updPort

theorem netOwner (h : s.Dark) (c q : Nat) : s.netOwner c q = none := by
  simp only [State.netOwner, h.quiet, List.find?_nil]

theorem failUsers {t : PortId} {n : Nat} (hk : s.Dark) : (s.failUsers t n).Dark := by
  unfold State.failUsers
  have hrec : ((allParts.foldl (fun s p =>
      (s.parts[p].iface.taken.filter fun c => decide (c.store ≠ [] ∧ c.path = (t, n))).foldl (fun s c =>
        s.finalRecord p c 3 0 0x6008 0 (s.storeMoved p c)) s) s).updQp t n fun q => { q with wqes := [] }).Dark :=
    updQp (foldl hk fun _ _ hs => foldl hs fun _ _ hs => hs.finalRecord)
  simp only [hrec.handles, List.filter_nil, List.foldl_nil]
  exact foldl hrec fun _ _ hs => by
    rw [hs.netOwner]
    exact hs

theorem writeCtx {t : PortId} {n : Nat} {b : List Byte} (hk : s.Dark) : (s.writeCtx t n b).Dark := by
  unfold State.writeCtx
  exact hk.unqueueQp.failUsers.updQp

theorem mapParts {f : Machine.Part → Machine.Part} (hk : s.Dark) (hf : ∀ q, q.job = none → (f q).job = none) :
    ({ s with parts := s.parts.map f } : State).Dark :=
  hk.of_parts rfl hk.quiet (fun p => by simpa [State.job] using hf _ (hk.jobs p)) hk.handles

theorem attach (hk : s.Dark) : s.attach.Dark := by
  unfold State.attach
  refine ite hk (ite ?_ (raise (countFld ?_)))
  · exact mapParts (update (e := by rfl) (setReg hk)) fun _ h => h
  · exact mapParts (update (e := by rfl) (setReg hk)) fun _ h => h

end State.Dark
end Sys2Proof.Machine

namespace Sys2Proof.Machine

/-- A command's answer is a state of a device without AUX_3V3. -/
def DarkNext (o : Result) : Prop := ∀ t, o = .next t → t.Dark

namespace State.Dark

variable {s t : State}

theorem next (hk : s.Dark) : DarkNext (.next s) := by
  rintro _ ⟨⟩
  exact hk

theorem otArrived (h : s.Dark) (x : OtHdr) (ce : Bool) : s.otArrived x ce = s := by
  simp only [State.otArrived, State.otHeard, h.cluster]

theorem execArrayDiagnostic_dark {c : CoreId} {u : MatUnit} (hk : s.Dark) : DarkNext (execArrayDiagnostic c u s) := by
  unfold execArrayDiagnostic
  split
  · exact hk.updRecords.next
  · exact hk.next

theorem execArrayDiagnosticDone_dark {c : CoreId} {u : MatUnit} {found : Option (Fin 256 × Fin 256)} (hk : s.Dark) :
    DarkNext (execArrayDiagnosticDone c u found s) := by
  unfold execArrayDiagnosticDone
  dsimp only
  split
  · exact hk.next
  · split
    · exact hk.updRecords.setService.updRecords.raise.next
    · exact hk.updRecords.setService.setReg.raise.next

theorem execAttReportDone_dark (hk : s.Dark) : DarkNext (execAttReportDone s) := by
  unfold execAttReportDone
  dsimp only
  split
  · exact hk.next
  · split
    · exact (hk.update (by rfl)).setFld.next
    · exact next (setFld (foldl (hk.update (by rfl)).fresh (fun _ _ hs => hs.setReg)))

theorem execCommandFinalRecord_dark {p : PartId} (hk : s.Dark) : DarkNext (execCommandFinalRecord p s) := by
  unfold execCommandFinalRecord
  dsimp only
  split
  · exact hk.next
  · split
    · exact hk.countFld.updIface.next
    · split
      · exact hk.writeCpl.updIface.next
      · exact hk.next

theorem execCounterSignalRemote_dark {p : PartId} {k : Nat} (hk : s.Dark) : DarkNext (execCounterSignalRemote p k s) := by
  unfold execCounterSignalRemote
  split
  · exact hk.next
  · exact (hk.updPart (by exact fun _ h => h)).signal.next

theorem execFrameGenTimeout_dark {p : PartId} (hk : s.Dark) : DarkNext (execFrameGenTimeout p s) := by
  unfold execFrameGenTimeout
  dsimp only
  split
  · exact hk.next
  · exact next (goOn (windowFault (ite hk.updIface.respond hk.updIface)))

theorem execFrameRead_dark {p : PartId} {f : Frame} {env : MemEnv} (hk : s.Dark) : DarkNext (execFrameRead p f env s) := by
  rw [execFrameRead, hk.takeEnv.frameIn]
  exact hk.takeEnv.next

theorem filterHandles {f : Handle → Bool} (hk : s.Dark) : ({ s with handles := s.handles.filter f } : State).Dark :=
  hk.of_parts rfl hk.quiet hk.jobs (by simp [hk.handles])

theorem execFuncResetDone_dark {i : Fin 5} (hk : s.Dark) : DarkNext (execFuncResetDone i s) := by
  unfold execFuncResetDone
  dsimp only
  split
  · split
    · exact (hk.update (by rfl)).raise.next
    · exact hk.next
  · split
    · exact hk.next
    · exact next (raise (updIface (ite hk.filterHandles.zeroRange.updIface hk.filterHandles)))

theorem execGateEntryChange_dark {t : PortId} {k : Fin 2} (hk : s.Dark) : DarkNext (execGateEntryChange t k s) := by
  unfold execGateEntryChange
  dsimp only
  split
  · split
    next heq => exact (hk.portReach heq).next
    · exact hk.next
  · exact hk.next

theorem execHeldRequestStale_dark {p : PartId} {k : Nat} (hk : s.Dark) : DarkNext (execHeldRequestStale p k s) := by
  unfold execHeldRequestStale
  dsimp only
  split
  · exact hk.next
  · split
    · exact hk.updIface.updIface.countFld.raise.goOn.next
    · exact hk.updIface.updIface.countFld.raise.goOn.next

theorem execMcLogSelWrite_dark {value : Word} (hk : s.Dark) : DarkNext (execMcLogSelWrite value s) := by
  unfold execMcLogSelWrite
  dsimp only
  split
  · exact next (foldl hk.setReg (fun _ _ hs => hs.setReg))
  · exact next (foldl (hk.setReg.update (by rfl)) (fun _ _ hs => hs.setReg))

theorem execNvmPageComplete_dark (hk : s.Dark) : DarkNext (execNvmPageComplete s) := by
  unfold execNvmPageComplete
  split
  next w _ _ =>
    have hpage : (s.nvmPage w).Dark := hk.nvmPage
    dsimp only
    split
    · exact hpage.next
    · split
      · exact (hpage.update (by rfl)).nvmGo.next
      · split
        · simp only [hpage.handleOf]
          exact hpage.nvmNext.next
        · exact hpage.nvmNext.next
  · exact hk.next

theorem execOtAck_dark {t : PortId} (hk : s.Dark) : DarkNext (execOtAck t s) := by
  unfold execOtAck
  split
  next heq => exact (of_fst hk.takeOt heq).next
  next heq =>
    have ht := of_fst hk.takeOt heq
    simp only [ht.otArrived, ht.cluster]
    exact ht.next

theorem execOtClose_dark {t : PortId} (hk : s.Dark) : DarkNext (execOtClose t s) := by
  unfold execOtClose
  split
  next heq => exact (of_fst hk.takeOt heq).next
  next heq =>
    have ht := of_fst hk.takeOt heq
    rw [ht.otArrived]
    exact ht.next

theorem execOtData_dark {t : PortId} (hk : s.Dark) : DarkNext (execOtData t s) := by
  unfold execOtData
  split
  next heq => exact (of_fst hk.takeOt heq).next
  next heq =>
    have ht := of_fst hk.takeOt heq
    simp only [ht.otArrived, ht.cluster]
    exact ht.next

theorem execOtKeepalive_dark {t : PortId} (hk : s.Dark) : DarkNext (execOtKeepalive t s) := by
  unfold execOtKeepalive
  split
  next heq => exact (of_fst hk.takeOt heq).next
  next heq =>
    have ht := of_fst hk.takeOt heq
    rw [ht.otArrived]
    exact ht.next

theorem execOtOpen_dark {t : PortId} (hk : s.Dark) : DarkNext (execOtOpen t s) := by
  unfold execOtOpen
  split
  next heq => exact (of_fst hk.takeOt heq).next
  next heq =>
    have ht := of_fst hk.takeOt heq
    simp only [ht.cluster]
    exact ht.next

theorem execPeriodicOutput_dark {t : PortId} (hk : s.Dark) : DarkNext (execPeriodicOutput t s) := by
  unfold execPeriodicOutput
  dsimp only
  split
  · exact hk.next
  · split
    · exact hk.next
    next heq => exact next (ite ((hk.portReach heq).update (by rfl)) (hk.portReach heq))

theorem execPfcPauseExpire_dark {t : PortId} {q : SubId} {classes : BitVec 8} (hk : s.Dark) :
    DarkNext (execPfcPauseExpire t q classes s) := by
  unfold execPfcPauseExpire
  dsimp only
  split
  · exact hk.next
  next heq => exact (hk.portReach heq).updPort.next

theorem execPortFecDegraded_dark {t : PortId} {q : SubId} {ratio : Nat} (hk : s.Dark) :
    DarkNext (execPortFecDegraded t q ratio s) := by
  unfold execPortFecDegraded
  dsimp only
  split
  · exact hk.next
  · split
    · split
      · exact hk.setFld.next
      · exact hk.setFld.updPort.raise.next
    · exact hk.setFld.updPort.raise.next

theorem execPortGateCtlEn_dark {t : PortId} {k : Fin 2} {value : Word} (hk : s.Dark) :
    DarkNext (execPortGateCtlEn t k value s) := by
  unfold execPortGateCtlEn
  dsimp only
  split
  · exact hk.portRefuse.next
  · exact next (ite hk.setReg.copySched hk.setReg)

theorem execPortLinkDown_dark {t : PortId} {q : SubId} {cause : Nat} (hk : s.Dark) :
    DarkNext (execPortLinkDown t q cause s) := by
  unfold execPortLinkDown
  dsimp only
  split
  · exact hk.subDown.setLink.next
  · exact hk.next

theorem execPortPtpFreq_dark {t : PortId} {value : Word} (hk : s.Dark) : DarkNext (execPortPtpFreq t value s) := by
  unfold execPortPtpFreq
  split
  · exact hk.setReg.next
  · exact hk.next

theorem execPortPtpStep_dark {t : PortId} {value : Word} (hk : s.Dark) : DarkNext (execPortPtpStep t value s) := by
  unfold execPortPtpStep
  split
  · exact hk.stepPort.next
  · exact hk.next

theorem execQpxRead_dark {t : PortId} {value : Word} (hk : s.Dark) : DarkNext (execQpxRead t value s) :=
  next (foldl hk.setReg (fun _ _ hs => hs.setReg))

theorem execQpxWrite_dark {t : PortId} {value : Word} (hk : s.Dark) : DarkNext (execQpxWrite t value s) := by
  unfold execQpxWrite
  dsimp only
  split
  · exact hk.setReg.portRefuse.next
  · split
    · split
      · exact hk.setReg.portRefuse.next
      · exact hk.setReg.writeMr.next
    · split
      · exact hk.setReg.portRefuse.next
      · exact hk.setReg.writeCtx.next

theorem execScheduleChangeTime_dark {t : PortId} {k : Fin 2} (hk : s.Dark) : DarkNext (execScheduleChangeTime t k s) := by
  unfold execScheduleChangeTime
  dsimp only
  split
  · exact hk.next
  · split
    · exact hk.copySched.next
    · split
      next heq => exact (hk.portReach heq).copySched.next
      · exact hk.next

theorem execSealIntact_dark (hk : s.Dark) : DarkNext (execSealIntact s) := by
  unfold execSealIntact
  dsimp only
  split
  · exact hk.next
  · exact (hk.update (by rfl)).next

theorem execSealOpen_dark (hk : s.Dark) : DarkNext (execSealOpen s) := by
  unfold execSealOpen
  dsimp only
  split
  · exact hk.next
  · split
    · exact (hk.update (by rfl)).next
    · exact next (raise (update (e := by rfl) (ite hk.advance hk)))

theorem execStoreWrite_dark {p : PartId} {env : MemEnv} (hk : s.Dark) : DarkNext (execStoreWrite p env s) := by
  rw [execStoreWrite, hk.takeEnv.onCmd]
  exact hk.takeEnv.next

theorem execStreamWaitLong_dark {c : CoreId} {x : CtxId} (hk : s.Dark) : DarkNext (execStreamWaitLong c x s) := by
  unfold execStreamWaitLong
  dsimp only
  split
  · split
    · exact hk.raise.updStream.next
    · exact hk.next
  · exact hk.next

theorem execUsbAttach_dark {speed : Fin 4} {orient : Bool} (hk : s.Dark) : DarkNext (execUsbAttach speed orient s) := by
  simp only [execUsbAttach, hk.off, Bool.false_and, Bool.false_eq_true, if_false]
  exact (hk.update (by rfl)).next

theorem execUsbDisconnect_dark (hk : s.Dark) : DarkNext (execUsbDisconnect s) := by
  unfold execUsbDisconnect
  dsimp only
  split
  · exact (hk.update (by rfl)).setReg.hostLost.next
  · exact (hk.update (by rfl)).setReg.next

theorem execUsbResume_dark (hk : s.Dark) : DarkNext (execUsbResume s) := by
  unfold execUsbResume
  dsimp only
  split
  · exact (hk.update (by rfl)).setFld.next
  · exact hk.next

end State.Dark
end Sys2Proof.Machine

namespace Sys2Proof.Machine

/-- A command that is no application of AUX_3V3 leaves a device without it as one. -/
theorem exec_dark {i : Instr} {s : State} (hd : s.Dark) (hi : ∀ env, i ≠ .powerOnStart env) : DarkNext (exec i s) := by
  unfold exec
  cases i
  case powerOnStart env => exact absurd rfl (hi env)
  case sealOpen => exact hd.execSealOpen_dark
  case counterSignalRemote => exact hd.execCounterSignalRemote_dark
  case streamWaitLong => exact hd.execStreamWaitLong_dark
  case arrayDiagnostic => exact hd.execArrayDiagnostic_dark
  case arrayDiagnosticDone => exact hd.execArrayDiagnosticDone_dark
  case otOpen => exact hd.execOtOpen_dark
  case otData => exact hd.execOtData_dark
  case otAck => exact hd.execOtAck_dark
  case otKeepalive => exact hd.execOtKeepalive_dark
  case funcResetDone => exact hd.execFuncResetDone_dark
  case frameRead => exact hd.execFrameRead_dark
  case frameGenTimeout => exact hd.execFrameGenTimeout_dark
  case heldRequestStale => exact hd.execHeldRequestStale_dark
  case storeWrite => exact hd.execStoreWrite_dark
  case commandFinalRecord => exact hd.execCommandFinalRecord_dark
  case usbAttach => exact hd.execUsbAttach_dark
  case usbDisconnect => exact hd.execUsbDisconnect_dark
  case portLinkDown => exact hd.execPortLinkDown_dark
  case portFecDegraded => exact hd.execPortFecDegraded_dark
  case gateEntryChange => exact hd.execGateEntryChange_dark
  case scheduleChangeTime => exact hd.execScheduleChangeTime_dark
  case portGateCtlEn => exact hd.execPortGateCtlEn_dark
  case portPtpStep => exact hd.execPortPtpStep_dark
  case portPtpFreq => exact hd.execPortPtpFreq_dark
  case periodicOutput => exact hd.execPeriodicOutput_dark
  case pfcPauseExpire => exact hd.execPfcPauseExpire_dark
  case qpxRead => exact hd.execQpxRead_dark
  case qpxWrite => exact hd.execQpxWrite_dark
  case attReportDone => exact hd.execAttReportDone_dark
  case mcLogSelWrite => exact hd.execMcLogSelWrite_dark
  case usbResume => exact hd.execUsbResume_dark
  case otClose => exact hd.execOtClose_dark
  case sealIntact => exact hd.execSealIntact_dark
  case nvmPageComplete => exact hd.execNvmPageComplete_dark
  case presenceExpire | vinHaltClear | thermalResume => exact (hd.update (by rfl)).next
  case nvmInhibitClear | vinThrottleClear => exact (hd.update (by rfl)).nvmGo.next
  case coreFenceForce => exact hd.setFld.fenceCore.next
  case retentionWake => exact hd.touch.next
  case wakeDone | gbClearDone | coreStrClrCounts => exact (hd.updCore (by exact fun _ h => h)).next
  case rateIncrease => exact hd.updCluster.next
  case busReset | warmReset => exact hd.linkReset.next
  case portGateCtlChange | portGateCtlCancel => exact hd.updPort.next
  case coreNumClrWtrunc | coreNumClrOutsat | coreNumClrNonfin | coreNumClrSumviol | coreArrClrBeats | coreArrClrStalls |
      coreArrClrMismatches | coreVrClrLsteps | coreVrClrStalls | coreVrClrTagfail | coreGbClrOps | coreGbClrBytes |
      coreGbClrWaits | coreMemClrWaits | coreMemClrCe | portCntClrAll | portOtClrAll | coreNetClrOps | coreNetClrStalls |
      coreNetClrBubble => exact hd.clearRegs.next
  case coreMemClrUe | mcSyncIoDrive => exact hd.setFld.next
  -- A message finds no job whose channel could hold it.
  case reduceUp | reduceDown | gatherReq | gatherReply | pipe | pipePost | pipeDone | unitXfer | startStep | ready | abortReq |
      commit | abort | ckptReq | ckptRead | rebalanced | hostOp | join | joinReply | roster | leave | redirect | leadQuery |
      leadReply | starterQuery | lost =>
    simp only [execReduceUp, execReduceDown, execGatherReq, execGatherReply, execPipe, execPipePost, execPipeDone, execUnitXfer,
      execStartStep, execReady, execAbortReq, execCommit, execAbort, execCkptReq, execCkptRead, execRebalanced, execHostOp,
      execJoin, execJoinReply, execRoster, execLeave, execRedirect, execLeadQuery, execLeadReply, execStarterQuery, execLost,
      hd.popMsg]
    exact hd.next
  -- Nothing is issued on any core.
  case descriptorIssue | descriptorComplete | matRun | swapToken | matRetry | gbAddition | cvt | summ | vecAdd | vecSub |
      vecMul | vecFma | vecDiv | sqrt | rsqrt | vecMax | vecMin | vecAbs | vecTable | tableBwd | relu | dropout | maskApply |
      vecSum | sumsq | maxabs | reduceFinal | updAdamw | updSgdm | normFwd | normBwd | smaxFwd | smaxBwd | tblLoad |
      tblLoadApply | movCopy | copyRect | movFill | gbZero | refill | slotFilled | spill | spillWrite | tieAdd | synNop |
      synSet | synAdd | fenceStream | fenceCore | stepEnd | endRun | reduce | gather | send | recv | mbAdmit | netStoreRead |
      netStoreWrite | unitMap | unitBegin =>
    simp only [execDescriptorIssue, execDescriptorComplete, execMatRun, execSwapToken, execMatRetry, execGbAddition, execCvt, execSumm,
      execVecAdd, execVecSub, execVecMul, execVecFma, execVecDiv, execSqrt, execRsqrt, execVecMax, execVecMin, execVecAbs,
      execVecTable, execTableBwd, execRelu, execDropout, execMaskApply, execVecSum, execSumsq, execMaxabs, execReduceFinal,
      execUpdAdamw, execUpdSgdm, execNormFwd, execNormBwd, execSmaxFwd, execSmaxBwd, execTblLoad, execTblLoadApply,
      execMovCopy, execCopyRect, execMovFill, execGbZero, execRefill, execSlotFilled, execSpill, execSpillWrite, execTieAdd,
      execSynNop, execSynSet, execSynAdd, execFenceStream, execFenceCore, execStepEnd, execEndRun, execReduce, execGather,
      execSend, execRecv, execMbAdmit, execNetStoreRead, execNetStoreWrite, execUnitMap, execUnitBegin, hd.headOf, hd.loading,
      hd.normRow, hd.quiet, hd.rowHead, hd.smaxRowOp, hd.startMov, hd.startNet, hd.synEntry, hd.turn, hd.vec, List.length_nil,
      getElem?_neg, not_false_eq_true, not_lt_zero]
    exact hd.next
  -- No partition has a job.
  case decisionSequence | streamsRestart | coreRemap | commitTimeout | joinRetry | startTimeout | starterSilent |
      leadQueryTimeout | noStarterTimeout | starterQueryRetry | otOpenRetry | keepaliveTimer | otAckTimer | retxTimeout |
      otConnDown =>
    simp only [execDecisionSequence, execStreamsRestart, execCoreRemap, execCommitTimeout, execJoinRetry, execStartTimeout,
      execStarterSilent, execLeadQueryTimeout, execNoStarterTimeout, execStarterQueryRetry, execOtOpenRetry,
      execKeepaliveTimer, execOtAckTimer, execRetxTimeout, execOtConnDown, hd.cluster, hd.connDown, hd.jobs]
    exact hd.next
  -- The host has no link, and no handle or command of its rings is there.
  case mgmtProof | proofBlockDone | kneadSweep | regRead | regWrite | getLastError | setWindow | doorbell | getIfStatus |
      funcReset | opStatus | opSuspend | opResume | opCancel | opRelease | opList | opSuspendPoint | fwStage | nvmWrite |
      nvmConfig | ownerKey | payload | identityReset | debugUnlock | nvmPair | frameWrite | stagingFrame | noticeInterval |
      cmdNop | jobLoad | storeRead | checkpoint | modelLoad | usbSuspend =>
    simp only [execMgmtProof, execProofBlockDone, execKneadSweep, execRegRead, execRegWrite, execGetLastError, execSetWindow,
      execDoorbell, execGetIfStatus, execFuncReset, execOpStatus, execOpSuspend, execOpResume, execOpCancel, execOpRelease,
      execOpList, execOpSuspendPoint, execFwStage, execNvmWrite, execNvmConfig, execOwnerKey, execPayload, execIdentityReset,
      execDebugUnlock, execNvmPair, execFrameWrite, execStagingFrame, execNoticeInterval, execCmdNop, execJobLoad,
      execStoreRead, execCheckpoint, execModelLoad, execUsbSuspend, hd.dueRecord, hd.frameIn, hd.handleOf, hd.hostUp,
      hd.linked, hd.onCmd, hd.onHandle, hd.opStart, hd.request]
    exact hd.next
  -- The MC is off, and with it every block.
  case rstNAssert | rstNRelease | mcResetCtlCold | powerGood | powerGoodTimeout | cascadePulse | cascadeDelayExpire |
      cascadeTimeout | standingJobRestart | testModeAssert | presenceAssert | nvmInhibit | auxBrownout | vinThrottle |
      vinHalt | supplyLost | thermalHalt | thermalTrip | thermalHaltLimit | mcLoopTick | ageingSurvey | replan |
      replanQuiesceTimeout | replanDaily | timeLatch | ageingSummary | ageingLogWrite | retentionEntry | kneadSelect |
      kneadLate | patrolScrub | portLinkUp | frameReceive | frameTransmit | ptpMessage | ptpMasterLost | pfcRenew |
      roceRequest | roceResponse | cnp | roceAckTimeout | roceRateIncrease | attGo | blockUnusable =>
    simp only [execRstNAssert, execRstNRelease, execMcResetCtlCold, execPowerGood, execPowerGoodTimeout, execCascadePulse,
      execCascadeDelayExpire, execCascadeTimeout, execStandingJobRestart, execTestModeAssert, execPresenceAssert,
      execNvmInhibit, execAuxBrownout, execVinThrottle, execVinHalt, execSupplyLost, execThermalHalt, execThermalTrip,
      execThermalHaltLimit, execMcLoopTick, execAgeingSurvey, execReplan, execReplanQuiesceTimeout, execReplanDaily,
      execTimeLatch, execAgeingSummary, execAgeingLogWrite, execRetentionEntry, execKneadSelect, execKneadLate,
      execPatrolScrub, execPortLinkUp, execFrameReceive, execFrameTransmit, execPtpMessage, execPtpMasterLost, execPfcRenew,
      execRoceRequest, execRoceResponse, execCnp, execRoceAckTimeout, execRoceRateIncrease, execAttGo, execBlockUnusable,
      hd.aux, hd.awaitsPower, hd.cascade, hd.coreUp, hd.hub, hd.mayReplan, hd.off, hd.portOn, hd.pwr, hd.quiet, hd.rst,
      hd.startEmpty, hd.started, BitVec.getLsbD_eq_getElem, Bool.and_false, Bool.and_self, Bool.and_true, Bool.decide_and,
      Bool.false_and, Bool.false_eq_true, Bool.not_false, Bool.true_or, Fin.is_lt, List.contains_eq_mem, List.isEmpty_nil,
      decide_not, decide_true, ne_eq, or_true, reduceCtorEq, true_or, ↓reduceIte]
    exact hd.next
  case kneadCopyDone | kneadTestDone | kneadRestoreDone | kneadRemapDone =>
    simp only [execKneadCopyDone, execKneadTestDone, execKneadRestoreDone, execKneadRemapDone, hd.coreUp, Bool.not_false,
      Bool.false_eq_true, ↓reduceIte]
    split <;> exact hd.next

/-- Settles O60: a step runs the command at the front or idles, and neither lights a dark device. -/
theorem unpoweredDeviceStaysOff : Obligations.UnpoweredDeviceStaysOff := by
  intro s t hd hfront hstep
  unfold step at hstep
  split at hstep
  next =>
    obtain rfl := Host.Outcome.next.inj hstep
    exact hd
  next c rest hpending =>
    have hc : ∀ env, c ≠ .powerOnStart env := fun env he => hfront env (by rw [hpending, he]; rfl)
    exact exec_dark (hd.update (pending := rest) rfl) hc t hstep

end Sys2Proof.Machine


namespace Sys2Proof.Machine
/-! ### Runs of bytes in a sparse table -/

/-- What a table holds after the values `bs` went to the keys from `a + i` on. -/
theorem getD_foldl_mapPut_range' {α : Type} [DecidableEq α] (d e₀ : α) (m : List (Nat × α)) (bs : List α) (a i k : Nat) :
    (mapGet (((List.range' i bs.length).zip bs).foldl (fun m e => mapPut d m (a + e.1) e.2) m) k).getD d =
      if a + i ≤ k ∧ k < a + i + bs.length then bs.getD (k - (a + i)) e₀ else (mapGet m k).getD d := by
  induction bs generalizing m i with
  | nil =>
    rw [if_neg (by simp only [List.length_nil]; omega)]
    rfl
  | cons b bs ih =>
    simp only [List.length_cons, List.range'_succ, List.zip_cons_cons, List.foldl_cons, ih]
    by_cases hk : k = a + i
    · subst hk
      rw [if_neg (by omega), if_pos (by omega), getD_mapPut_same, Nat.sub_self, List.getD_cons_zero]
    · rw [mapGet_mapPut_other _ _ _ hk]
      by_cases hin : a + i ≤ k ∧ k < a + i + (bs.length + 1)
      · obtain ⟨n, hn⟩ : ∃ n, k - (a + i) = n + 1 := ⟨k - (a + i) - 1, by omega⟩
        have hn' : k - (a + (i + 1)) = n := by omega
        rw [if_pos (by omega), if_pos hin, hn, hn', List.getD_cons_succ]
      · rw [if_neg (by omega), if_neg hin]

/-- What a table holds after a run of values was put at `a`. -/
theorem getD_foldl_mapPut_indexed {α : Type} [DecidableEq α] (d e₀ : α) (m : List (Nat × α)) (bs : List α) (a k : Nat) :
    (mapGet ((indexed bs).foldl (fun m e => mapPut d m (a + e.1) e.2) m) k).getD d =
      if a ≤ k ∧ k < a + bs.length then bs.getD (k - a) e₀ else (mapGet m k).getD d := by
  rw [indexed, List.range_eq_range']
  exact getD_foldl_mapPut_range' d e₀ m bs a 0 k

/-- A read of the flash after bytes were programmed. -/
theorem nvmAt_nvmPut (s : State) (a : Nat) (bs : List Byte) (k : Nat) :
    (s.nvmPut a bs).nvmAt k = if a ≤ k ∧ k < a + bs.length then bs.getD (k - a) 0 else s.nvmAt k :=
  getD_foldl_mapPut_indexed 0xFF 0 s.nvm bs a k

/-- A read of the flash after a range was erased. -/
theorem nvmAt_nvmErase (s : State) (a n k : Nat) :
    (s.nvmErase a n).nvmAt k = if a ≤ k ∧ k < a + n then 0xFF else s.nvmAt k := by
  have h := mapGet_filter s.nvm (fun x => !(decide (a ≤ x) && decide (x < a + n))) k
  simp only [State.nvmAt, State.nvmErase, h]
  by_cases hk : a ≤ k ∧ k < a + n
  · simp [hk]
  · rw [if_neg hk, if_pos (by simp; omega)]

theorem memPut_eq_foldl (m : List Host.Cell) (w : List (Nat × Byte)) :
    memPut m w = w.foldl (fun m e => mapPut memDefault m e.1 e.2) m := by
  induction w generalizing m with
  | nil => rfl
  | cons e r ih => exact ih _

/-- A read of memory after bytes were stored. -/
theorem rd_putBytes (s : State) (a : Nat) (bs : List Byte) (x : Nat) :
    (s.putBytes a bs).rd x = if a ≤ x ∧ x < a + bs.length then bs.getD (x - a) 0 else s.rd x := by
  rw [State.rd, State.putBytes, State.put, memPut_eq_foldl, List.foldl_map, memGet]
  exact getD_foldl_mapPut_indexed memDefault 0 s.mem bs a x

/-! ### Pages of the flash -/

/-- What a page of a flash write leaves alone besides: everything but the flash and the MC's account of it, and the progress of
the operation that asked for the write. -/
structure FlashFrame (s t : State) : Prop where
  mem : t.mem = s.mem
  regs : t.regs = s.regs
  cores : t.cores = s.cores
  counters : t.counters = s.counters
  parts : t.parts = s.parts

theorem FlashFrame.trans {s t u : State} (hst : FlashFrame s t) (htu : FlashFrame t u) : FlashFrame s u :=
  ⟨htu.mem.trans hst.mem, htu.regs.trans hst.regs, htu.cores.trans hst.cores, htu.counters.trans hst.counters,
    htu.parts.trans hst.parts⟩

theorem flashFrame_nvmGo (s : State) : FlashFrame s s.nvmGo ∧ s.nvmGo.nvm = s.nvm := by
  unfold State.nvmGo
  dsimp only
  repeat' split
  all_goals exact ⟨⟨rfl, rfl, rfl, rfl, rfl⟩, rfl⟩

theorem flashFrame_nvmNext (s : State) : FlashFrame s s.nvmNext ∧ s.nvmNext.nvm = s.nvm :=
  have ⟨hframe, hnvm⟩ := flashFrame_nvmGo { s with mc := { s.mc with nvmQueue := s.mc.nvmQueue.drop 1, nvmBusy := false } }
  ⟨⟨hframe.mem, hframe.regs, hframe.cores, hframe.counters, hframe.parts⟩, hnvm⟩

theorem nvmHead_updHead {s : State} {w : NvmWork} (f : NvmWork → NvmWork) (h : s.nvmHead = some w) :
    (s.updHead f).nvmHead = some (f w) := by
  unfold State.nvmHead at h ⊢
  unfold State.updHead
  cases hq : s.mc.nvmQueue with
  | nil => rw [hq] at h; cases h
  | cons v r =>
    rw [hq] at h
    cases h
    simp

/-- A page done, after which the write that it belongs to has more to do, or was asked for by no operation. -/
theorem nvmPageComplete_frame {s u : State} {w w' : NvmWork} (hbusy : s.mc.nvmBusy = true) (hhead : s.nvmHead = some w)
    (hpage : s.nvmPage w = u) (hrest : u.nvmHead = some w') (hmore : w'.complete = false ∨ ∀ h, w'.src ≠ .op h)
    (hframe : FlashFrame s u) :
    ∃ t : State, exec .nvmPageComplete s = .next t ∧ t.nvm = u.nvm ∧ FlashFrame s t := by
  have hgo := flashFrame_nvmGo { u with mc := { u.mc with nvmBusy := false } }
  have hnext := flashFrame_nvmNext u
  show ∃ t, execNvmPageComplete s = .next t ∧ _
  simp only [execNvmPageComplete, hbusy, hhead, hpage, hrest]
  split
  · exact ⟨_, rfl, hgo.2, hframe.trans ⟨hgo.1.mem, hgo.1.regs, hgo.1.cores, hgo.1.counters, hgo.1.parts⟩⟩
  next hdone =>
    split
    next h hsrc =>
      rcases hmore with hmore | hmore
      · simp [hmore] at hdone
      · exact absurd hsrc (hmore h)
    · exact ⟨_, rfl, hnext.2, hframe.trans hnext.1⟩

theorem nvmAt_congr {s t : State} (h : t.nvm = s.nvm) (a : Nat) : t.nvmAt a = s.nvmAt a := by
  rw [State.nvmAt, State.nvmAt, h]

theorem job_of_parts {s t : State} (h : t.parts = s.parts) (p : PartId) : t.job p = s.job p := by
  rw [State.job, State.job, h]

/-- The last page of a write that no operation asked for programs what is left of its data. -/
theorem nvmPageComplete_programs {w : NvmWork} {s : State} (hbusy : s.mc.nvmBusy = true) (hhead : s.nvmHead = some w)
    (hsrc : ∀ h, w.src ≠ .op h) (herased : w.blocks ≤ w.erased) (hlast : w.data.length ≤ w.pos + pageBytes) :
    ∃ t : State, exec .nvmPageComplete s = .next t ∧ t.nvm = (s.nvmPut (w.base + w.pos) (w.data.drop w.pos)).nvm ∧
      FlashFrame s t := by
  have htake : (w.data.drop w.pos).take pageBytes = w.data.drop w.pos :=
    List.take_of_length_le (by rw [List.length_drop]; omega)
  refine nvmPageComplete_frame hbusy hhead
    (u := (s.nvmPut (w.base + w.pos) (w.data.drop w.pos)).updHead fun w' => { w' with pos := w'.pos + (w.data.drop w.pos).length })
    ?_ (nvmHead_updHead _ hhead) (.inr hsrc) ⟨rfl, rfl, rfl, rfl, rfl⟩
  unfold State.nvmPage
  rw [if_neg (by omega)]
  dsimp only
  rw [htake]
  split
  next h he => exact absurd he (hsrc h)
  · rfl

/-- A block erased, while more of the write is to come. -/
theorem nvmPageComplete_erases {w : NvmWork} {s : State} (hbusy : s.mc.nvmBusy = true) (hhead : s.nvmHead = some w)
    (herased : w.erased < w.blocks) (hmore : w.erased + 1 < w.blocks ∨ w.pos < w.data.length) :
    ∃ t : State, exec .nvmPageComplete s = .next t ∧
      t.nvm = (s.nvmErase (w.base + w.erased * eraseBytes) eraseBytes).nvm ∧ FlashFrame s t := by
  refine nvmPageComplete_frame hbusy hhead
    (u := (s.nvmErase (w.base + w.erased * eraseBytes) eraseBytes).updHead fun w => { w with erased := w.erased + 1 })
    ?_ (nvmHead_updHead _ hhead) (.inl ?_)
    ⟨rfl, rfl, rfl, rfl, rfl⟩
  · unfold State.nvmPage
    rw [if_pos herased]
  · simp only [NvmWork.complete, Bool.and_eq_false_iff, decide_eq_false_iff_not]
    omega

/-- Settles O48: what the page does to the flash, read byte by byte. -/
theorem pagesAreProgrammed : Obligations.PagesAreProgrammed := by
  refine ⟨fun s hidle => ?_, fun w s hbusy hhead hsrc herased hlast => ?_, fun w s hbusy hhead herased hmore => ?_⟩
  · show execNvmPageComplete s = _
    unfold execNvmPageComplete
    split
    next hbusy hhead => rcases hidle with h | h <;> simp_all
    · rfl
  · obtain ⟨t, hexec, hnvm, hframe⟩ := nvmPageComplete_programs hbusy hhead hsrc herased hlast
    have hlen : (w.data.drop w.pos).length = w.data.length - w.pos := List.length_drop
    refine ⟨t, hexec, fun i hlo hhi => ?_, fun a ha => ?_, hframe.mem, hframe.regs, hframe.cores, hframe.counters,
      job_of_parts hframe.parts⟩
    · rw [nvmAt_congr hnvm, nvmAt_nvmPut, if_pos (by omega), List.getD_eq_getElem?_getD, List.getElem?_drop,
        List.getD_eq_getElem?_getD]
      congr 2
      omega
    · rw [nvmAt_congr hnvm, nvmAt_nvmPut, if_neg (by omega)]
  · obtain ⟨t, hexec, hnvm, hframe⟩ := nvmPageComplete_erases hbusy hhead herased hmore
    have hend : (w.erased + 1) * eraseBytes = w.erased * eraseBytes + eraseBytes := Nat.succ_mul _ _
    refine ⟨t, hexec, fun a hlo hhi => ?_, fun a ha => ?_, hframe.mem, hframe.regs, hframe.cores, hframe.counters,
      job_of_parts hframe.parts⟩
    · rw [nvmAt_congr hnvm, nvmAt_nvmErase, if_pos (by omega)]
    · rw [nvmAt_congr hnvm, nvmAt_nvmErase, if_neg (by omega)]

end Sys2Proof.Machine

namespace Sys2Proof.Machine
/-! ### What an event leaves alone, field by field -/

section
variable (s : State) (src : Src) (part : Option PartId) (code : Nat) (ds : List Nat)

@[simp] theorem raise_job (p : PartId) : (s.raise src part code ds).job p = s.job p := (eventFrame_raise s src part code ds).job p
@[simp] theorem raise_handles : (s.raise src part code ds).handles = s.handles := (eventFrame_raise s src part code ds).handles
@[simp] theorem raise_lastHandle : (s.raise src part code ds).lastHandle = s.lastHandle :=
  (eventFrame_raise s src part code ds).lastHandle
@[simp] theorem raise_nvm : (s.raise src part code ds).nvm = s.nvm := (eventFrame_raise s src part code ds).nvm
@[simp] theorem raise_counters : (s.raise src part code ds).counters = s.counters := (eventFrame_raise s src part code ds).counters
@[simp] theorem raise_paired : (s.raise src part code ds).paired = s.paired := (eventFrame_raise s src part code ds).paired
@[simp] theorem raise_ports : (s.raise src part code ds).ports = s.ports := (eventFrame_raise s src part code ds).ports
@[simp] theorem raise_diag : (s.raise src part code ds).diag = s.diag := (eventFrame_raise s src part code ds).diag
@[simp] theorem raise_staging : (s.raise src part code ds).staging = s.staging := (eventFrame_raise s src part code ds).staging
@[simp] theorem raise_latches : (s.raise src part code ds).latches = s.latches := (eventFrame_raise s src part code ds).latches
@[simp] theorem raise_pending : (s.raise src part code ds).pending = s.pending := (eventFrame_raise s src part code ds).pending
@[simp] theorem raise_freeCtr : (s.raise src part code ds).freeCtr = s.freeCtr := (eventFrame_raise s src part code ds).freeCtr
@[simp] theorem raise_hctx (p : PartId) : (s.raise src part code ds).hctx p = s.hctx p := (eventFrame_raise s src part code ds).hctx p
@[simp] theorem raise_inRings (a : Nat) : (s.raise src part code ds).inRings a = s.inRings a :=
  (eventFrame_raise s src part code ds).inRings a
@[simp] theorem raise_counter (n : Nat) : (s.raise src part code ds).counter n = s.counter n := by
  rw [State.counter, State.counter, raise_counters]

theorem raise_reg {o : Nat} (h : isEventReg o = false) : (s.raise src part code ds).reg o = s.reg o :=
  (eventFrame_raise s src part code ds).reg o h

theorem raise_rd {a : Nat} (h : s.inRings a = false) : (s.raise src part code ds).rd a = s.rd a :=
  (eventFrame_raise s src part code ds).rd a h

/-- A field of the MC that events leave alone. -/
theorem raise_mc_field {α : Type} (f : MC → α)
    (hf : ∀ m cnt wait q, f { m with evtCount := cnt, logWait := wait, nvmQueue := q } = f m) :
    f (s.raise src part code ds).mc = f s.mc := by
  rw [(eventFrame_raise s src part code ds).mc]
  exact hf ..

end

/-! ### The decision of a step -/

/-- A fold whose steps leave a job alone leaves it alone. -/
theorem foldl_job {α : Type} {p : PartId} {f : State → α → State} (hf : ∀ s a, (f s a).job p = s.job p) (l : List α) (s : State) :
    (l.foldl f s).job p = s.job p := by
  induction l generalizing s with
  | nil => rfl
  | cons a l ih => exact (ih _).trans (hf s a)

theorem writeConsts_job (s : State) (p q : PartId) (clip : Nat) : (s.writeConsts p clip).job q = s.job q := by
  unfold State.writeConsts
  split
  · rfl
  · dsimp only
    rw [foldl_job fun s r => foldl_job (fun s i => ?_) _ s, foldl_job fun s l => lputBytes_job ..]
    split
    · rw [lputBytes_job, lputBytes_job]
    · rfl

theorem writeShadowBank_job (s : State) (p q : PartId) (n : NumState) (go : Bool) (norm : Nat) :
    (s.writeShadowBank p n go norm).job q = s.job q := by
  unfold State.writeShadowBank
  split
  · rfl
  · exact putBytes_job ..

theorem decisionSequence_decides {p : PartId} {env : MemEnv} {j : Job} {u s : State} (hjob : s.job p = some j)
    (hdue : s.decisionDue p j = true)
    (hu : u = (s.takeReads env (j.normAddrs.map (j.phys false) ++ span j.jstateLive 0x40)).touchAll (j.normAddrs.map (j.phys false)))
    (hnorm : u.lbad j j.normAddrs = none) (hlive : u.firstBad (span j.jstateLive 0x40) = none) :
    exec (.decisionSequence p env) s =
      .next (if j.step.overflow || j.step.redNonfin then u.decideSkip p j else u.decideProceed p j) := by
  show execDecisionSequence p env s = _
  simp only [execDecisionSequence, hjob, hdue, Bool.not_true, Bool.false_eq_true, if_false, ← hu, hnorm, hlive,
    Option.orElse_none]

theorem decideProceed_job {p : PartId} {j : Job} {s : State} (hjob : s.job p = some j) :
    (s.decideProceed p j).job p = some { j with step := { j.step with
      decision := .proceed, norm := s.normOf j, clip := clipOf (j.upd.getD {}).maxNorm (s.normOf j)
      shadow := some j.proceeded.1, silent := j.proceeded.2, updating := true } } := by
  unfold State.decideProceed
  dsimp only
  rw [foldl_job fun s l => ?_, job_updJob_same, writeShadowBank_job, writeConsts_job]
  · split
    · rw [raise_job, hjob, Option.map_some]
    · rw [hjob, Option.map_some]
  · split
    · rfl
    · exact updLCtx_job ..

/-! ### Remapping after a fence -/

/-- The lowest spare core of a partition. -/
theorem spareFor_eq_some {s : State} {p : PartId} {m : List (Option Serve)} {d : CoreId} (h : s.spareFor p m = some d) :
    s.cores[d].part = some p ∧ s.cores[d].inService = true ∧ (servedBy m d).1 = 0 ∧
      ∀ x : CoreId, x < d → s.cores[x].part = some p → s.cores[x].inService = true → (servedBy m x).1 ≠ 0 := by
  unfold State.spareFor State.liveCores allCores at h
  rw [List.find?_filter] at h
  obtain ⟨hd, i, hi, hget, hbefore⟩ := List.find?_eq_some_iff_getElem.1 h
  simp only [decide_eq_true_eq, Bool.and_eq_true, Bool.decide_and] at hd
  obtain ⟨⟨hpart, hin⟩, hfree⟩ := hd
  refine ⟨by simpa using hpart, by simpa using hin, by simpa using hfree, fun x hx hxpart hxin => ?_⟩
  rw [List.getElem_finRange] at hget
  have hval : i = d.val := by rw [← hget]; rfl
  have hxi : x.val < i := by rw [hval]; exact hx
  rw [Fin.getElem_fin] at hxpart hxin
  simpa [hxpart, hxin] using hbefore x.val hxi

section
variable {p : PartId} {j : Job} {l : Nat} {c : CoreId} {r : List (Nat × CoreId)} {s : State}

theorem coreRemap_remaps (hjob : s.job p = some j) (horphans : s.orphans j = (l, c) :: r) (hissued : s.issuedOf p = [])
    (hpaused : j.paused = false) (hawaits : j.awaitsAbort = false) (hganged : (List.range j.lcores).any j.ganged = false) {k : Job}
    (hk : ((State.remapAll p ((l, c) :: r) s).checkUnits p).job p = some k) :
    exec (.coreRemap p) s = .next (if k.kind ≠ .train ∧ !k.paused ∧ k.stop = .abort then
      ((State.remapAll p ((l, c) :: r) s).checkUnits p).updJob p fun j => { j with cmt := { j.cmt with restart := true } }
      else (State.remapAll p ((l, c) :: r) s).checkUnits p) := by
  show execCoreRemap p s = _
  simp only [execCoreRemap, hjob, horphans, hissued, hpaused, hawaits, hganged, hk, ne_eq, not_true_eq_false, Bool.false_eq_true,
    or_self, if_false]
  split <;> rfl

theorem coreRemap_ganged (hjob : s.job p = some j) (horphans : s.orphans j = (l, c) :: r) (hissued : s.issuedOf p = [])
    (hpaused : j.paused = false) (hawaits : j.awaitsAbort = false) (hganged : (List.range j.lcores).any j.ganged = true) :
    exec (.coreRemap p) s = .next (s.remapFailed p l) := by
  show execCoreRemap p s = _
  simp only [execCoreRemap, hjob, horphans, hissued, hpaused, hawaits, hganged, ne_eq, not_true_eq_false, Bool.false_eq_true,
    or_self, if_false, if_true]

theorem coreRemap_waits (hjob : s.job p = some j) (hwait : j.awaitsAbort = true ∨ s.issuedOf p ≠ [] ∨ j.paused = true) :
    exec (.coreRemap p) s = .next s := by
  show execCoreRemap p s = _
  simp only [execCoreRemap, hjob]
  split
  · rfl
  · rw [if_pos (by tauto)]

end

/-- Settles O26: the command's two outcomes, the job that a decision leaves, the numerics of a skip and of a commit, and the
branches of a remapping. -/
theorem decisionsAreTaken : Obligations.DecisionsAreTaken := by
  refine ⟨fun p env j u s hjob hdue hu hnorm hlive hover => ?_, fun p env j u s hjob hdue hu hnorm hlive hover => ?_,
    fun p j s hjob => ⟨_, decideProceed_job hjob, rfl, rfl, rfl, rfl, rfl, rfl, rfl⟩, fun n => ⟨rfl, rfl, rfl⟩,
    fun j n hdec => ?_, fun j n hdec => ?_, fun p j l c r k s hjob hor hiss hpaused haw hgang hk hkind => ?_,
    fun p j l c r k s hjob hor hiss hpaused haw hgang hk hkind hkpaused hkstop => ?_,
    fun p j l c r s => coreRemap_ganged, fun p j s => coreRemap_waits,
    fun p j l old d r s hjob hspare => ?_, fun p j l old d r s hjob hspare hguest hhost => ?_, fun p m d s => spareFor_eq_some⟩
  · rw [decisionSequence_decides hjob hdue hu hnorm hlive, hover, if_pos rfl]
  · rw [decisionSequence_decides hjob hdue hu hnorm hlive, hover, if_neg Bool.false_ne_true]
  · simp [Job.committed, hdec]
  · simp [Job.committed, hdec]
  · rw [coreRemap_remaps hjob hor hiss hpaused haw hgang hk, if_neg fun h => h.1 hkind]
  · rw [coreRemap_remaps hjob hor hiss hpaused haw hgang hk, if_pos ⟨hkind, by rw [hkpaused]; rfl, hkstop⟩]
  · simp only [State.remapAll, hjob, hspare]
  · simp only [State.remapAll, hjob, hspare, hguest, if_true, hhost]

end Sys2Proof.Machine

namespace Sys2Proof.Machine
/-! ### Cores and partitions after an update -/

theorem updCore_same (s : State) (c : CoreId) (f : CoreS → CoreS) : (s.updCore c f).cores[c] = f s.cores[c] := by
  simp [State.updCore]

theorem updCore_other (s : State) {c d : CoreId} (f : CoreS → CoreS) (h : d ≠ c) : (s.updCore c f).cores[d] = s.cores[d] := by
  have hval : c.val ≠ d.val := fun he => h (Fin.ext he.symm)
  simp [State.updCore, Vector.getElem_set_ne _ _ hval]

theorem updPart_same (s : State) (p : PartId) (f : Part → Part) : (s.updPart p f).parts[p] = f s.parts[p] := by
  simp [State.updPart]

theorem updPart_other (s : State) {p q : PartId} (f : Part → Part) (h : q ≠ p) : (s.updPart p f).parts[q] = s.parts[q] := by
  have hval : p.val ≠ q.val := fun he => h (Fin.ext he.symm)
  simp [State.updPart, Vector.getElem_set_ne _ _ hval]

/-! ### What a run of an engine leaves alone -/

namespace EngineFrame

variable {c : CoreId} {s t u : State}

theorem refl (c : CoreId) (s : State) : EngineFrame c s s :=
  ⟨rfl, rfl, rfl, rfl, rfl, rfl, rfl, rfl, rfl, rfl, rfl, rfl, fun _ => rfl, fun _ _ => rfl, rfl⟩

theorem trans (h : EngineFrame c s t) (k : EngineFrame c t u) : EngineFrame c s u where
  pending := k.pending.trans h.pending
  latches := k.latches.trans h.latches
  handles := k.handles.trans h.handles
  lastHandle := k.lastHandle.trans h.lastHandle
  staging := k.staging.trans h.staging
  diag := k.diag.trans h.diag
  ports := k.ports.trans h.ports
  nvm := k.nvm.trans h.nvm
  counters := k.counters.trans h.counters
  paired := k.paired.trans h.paired
  usb := by rw [k.usb, h.usb]
  mc := by rw [k.mc, h.mc]
  parts p := by rw [k.parts p, h.parts p]
  others d hd := by rw [k.others d hd, h.others d hd]
  own := by rw [k.own, h.own]

/-- Events reach none of what the frame keeps. -/
theorem of_event (c : CoreId) (h : EventFrame s t) : EngineFrame c s t where
  pending := h.pending
  latches := h.latches
  handles := h.handles
  lastHandle := h.lastHandle
  staging := h.staging
  diag := h.diag
  ports := h.ports
  nvm := h.nvm
  counters := h.counters
  paired := h.paired
  usb := h.usb
  mc := by rw [h.mc]
  parts p := by rw [h.parts p]
  others d _ := by rw [h.cores]
  own := by rw [h.cores]

theorem raise (c : CoreId) (s : State) (src : Src) (part : Option PartId) (code : Nat) (ds : List Nat) :
    EngineFrame c s (s.raise src part code ds) :=
  of_event c (eventFrame_raise s src part code ds)

/-- Registers, memory and free values are outside the frame. -/
theorem of_rest {freeCtr : Nat} {mem : List Host.Cell} {badUnits weakUnits : List Nat} {regs : List (Nat × Word)} :
    EngineFrame c s { s with freeCtr, mem, badUnits, weakUnits, regs } :=
  ⟨rfl, rfl, rfl, rfl, rfl, rfl, rfl, rfl, rfl, rfl, rfl, rfl, fun _ => rfl, fun _ _ => rfl, rfl⟩

theorem setReg (c : CoreId) (s : State) (o : Nat) (v : Word) : EngineFrame c s (s.setReg o v) := of_rest

theorem count (c : CoreId) (s : State) (o k : Nat) : EngineFrame c s (s.count o k) := of_rest

theorem countFld (c : CoreId) (s : State) (o hi lo k : Nat) : EngineFrame c s (s.countFld o hi lo k) := of_rest

theorem count64 (c : CoreId) (s : State) (lo hi k : Nat) : EngineFrame c s (s.count64 lo hi k) := by
  unfold State.count64
  exact (setReg ..).trans (setReg ..)

theorem put (c : CoreId) (s : State) (w : List (Nat × Byte)) : EngineFrame c s (s.put w) := of_rest

theorem lput (c : CoreId) (s : State) (j : Job) (w : List (Nat × Byte)) : EngineFrame c s (s.lput j w) := of_rest

/-- An update of the engine's own core. -/
theorem updCore_own {f : CoreS → CoreS}
    (hf : ∀ k, f k = { k with
      ret := (f k).ret, knead := (f k).knead, issued := (f k).issued, first := (f k).first, guest := (f k).guest
      arrays := (f k).arrays }) : EngineFrame c s (s.updCore c f) :=
  ⟨rfl, rfl, rfl, rfl, rfl, rfl, rfl, rfl, rfl, rfl, rfl, rfl, fun _ => rfl,
    fun d hd => by rw [updCore_other s f hd], by rw [updCore_same]; exact hf _⟩

/-- The wake of a core, or a kneading order on it. -/
theorem updCore_wake {d : CoreId} {f : CoreS → CoreS}
    (hf : ∀ k, f k = { k with ret := (f k).ret, knead := (f k).knead }) : EngineFrame c s (s.updCore d f) := by
  have hcore (x : CoreId) : (s.updCore d f).cores[x] =
      { s.cores[x] with ret := (s.updCore d f).cores[x].ret, knead := (s.updCore d f).cores[x].knead } := by
    by_cases hx : x = d
    · subst hx
      rw [updCore_same]
      exact hf _
    · rw [updCore_other s f hx]
  exact ⟨rfl, rfl, rfl, rfl, rfl, rfl, rfl, rfl, rfl, rfl, rfl, rfl, fun _ => rfl, fun x _ => hcore x, by rw [hcore c]⟩

theorem updIssued (c : CoreId) (s : State) (seq : Nat) (f : Issued → Issued) : EngineFrame c s (s.updIssued c seq f) :=
  updCore_own fun _ => rfl

theorem finish (c : CoreId) (s : State) (e : Issued) : EngineFrame c s (s.finish c e) := updIssued ..

theorem updJob (c : CoreId) (s : State) (p : PartId) (f : Job → Job) : EngineFrame c s (s.updJob p f) := by
  refine ⟨rfl, rfl, rfl, rfl, rfl, rfl, rfl, rfl, rfl, rfl, rfl, rfl, fun q => ?_, fun _ _ => rfl, rfl⟩
  unfold State.updJob
  by_cases hq : q = p
  · subst hq
    rw [updPart_same]
  · rw [updPart_other s _ hq]

end EngineFrame

end Sys2Proof.Machine

namespace Sys2Proof.Machine
/-! ### What reads and checks of memory consult -/

/-- Two states that reads of memory and the checks of accesses do not tell apart. -/
structure State.SameView (s t : State) : Prop where
  mem : t.mem = s.mem
  badUnits : t.badUnits = s.badUnits
  inService : ∀ c : CoreId, t.cores[c].inService = s.cores[c].inService
  stacksUp : t.mc.stacksUp = s.mc.stacksUp
  hubRailOn : t.mc.hubRailOn = s.mc.hubRailOn

namespace State.SameView

variable {s t u : State}

theorem refl (s : State) : s.SameView s := ⟨rfl, rfl, fun _ => rfl, rfl, rfl⟩

theorem trans (h : s.SameView t) (k : t.SameView u) : s.SameView u :=
  ⟨k.mem.trans h.mem, k.badUnits.trans h.badUnits, fun c => (k.inService c).trans (h.inService c), k.stacksUp.trans h.stacksUp,
    k.hubRailOn.trans h.hubRailOn⟩

theorem rd (h : s.SameView t) (a : Nat) : t.rd a = s.rd a := by rw [State.rd, State.rd, h.mem]

theorem lrd (h : s.SameView t) (j : Job) : t.lrd j = s.lrd j := funext fun a => h.rd (j.phys false a)

theorem bad (h : s.SameView t) : t.bad = s.bad := funext fun a => by rw [State.bad, State.bad, h.badUnits]

theorem lbad (h : s.SameView t) (j : Job) (as : List Nat) : t.lbad j as = s.lbad j as := by
  rw [State.lbad, State.lbad, State.firstBad, State.firstBad, h.bad]

theorem unusable (h : s.SameView t) : t.unusable = s.unusable := by
  funext a
  simp only [State.unusable, h.inService, h.stacksUp, h.hubRailOn]

theorem checkUsable (h : s.SameView t) (j : Job) (write : Bool) (as : List Nat) : t.checkUsable j write as = s.checkUsable j write as := by
  rw [State.checkUsable, State.checkUsable, h.unusable]

end State.SameView

/-- What accesses to memory leave alone besides its contents: `t` is `s` but for the wakes of cores. -/
structure TouchFrame (s t : State) : Prop where
  rest : t = { s with regs := t.regs, cores := t.cores }
  cores : ∀ c : CoreId, t.cores[c] = { s.cores[c] with ret := t.cores[c].ret }
  reg : ∀ o, isMemReg o = false → t.reg o = s.reg o

namespace TouchFrame

variable {s t u : State}

theorem refl (s : State) : TouchFrame s s := ⟨rfl, fun _ => rfl, fun _ _ => rfl⟩

theorem trans (h : TouchFrame s t) (k : TouchFrame t u) : TouchFrame s u where
  rest := by rw [k.rest, h.rest]
  cores c := by rw [k.cores c, h.cores c]
  reg o ho := (k.reg o ho).trans (h.reg o ho)

theorem view (h : TouchFrame s t) : s.SameView t := by
  refine ⟨?_, ?_, fun c => ?_, ?_, ?_⟩
  · rw [h.rest]
  · rw [h.rest]
  · rw [h.cores c]
  · rw [h.rest]
  · rw [h.rest]

theorem engine (c : CoreId) (h : TouchFrame s t) : EngineFrame c s t := by
  have hrest := h.rest
  constructor
  case parts => intro p; rw [hrest]
  case others => intro d _; rw [h.cores d]
  case own => rw [h.cores c]
  all_goals rw [hrest]

theorem isMemReg_wakes (c : CoreId) : isMemReg (coreMemWakes c.val) = true :=
  List.any_eq_true.2 ⟨c.val, List.mem_range.2 c.isLt, by simp⟩

theorem setReg (s : State) {o : Nat} (v : Word) (ho : isMemReg o = true) : TouchFrame s (s.setReg o v) :=
  ⟨rfl, fun _ => rfl, fun x hx => reg_setReg_other s v fun he => by rw [he, ho] at hx; exact Bool.noConfusion hx⟩

theorem touch (s : State) (c : CoreId) : TouchFrame s (s.touch c) := by
  have hcount (t : State) (hi lo k : Nat) : TouchFrame t (t.countFld (coreMemWakes c.val) hi lo k) :=
    setReg t _ (isMemReg_wakes c)
  have hwake : TouchFrame s (s.updCore c fun k => { k with ret := .waking }) := by
    refine ⟨rfl, fun d => ?_, fun _ _ => rfl⟩
    by_cases hd : d = c
    · subst hd
      rw [updCore_same]
    · rw [updCore_other s _ hd]
  unfold State.touch
  split
  · exact (hwake.trans (hcount ..)).trans (hcount ..)
  · exact (hwake.trans (hcount ..)).trans (hcount ..)
  · exact hcount ..
  · exact refl s

theorem touchAll (s : State) (as : List Nat) : TouchFrame s (s.touchAll as) := by
  unfold State.touchAll
  generalize sramCores as = cs
  induction cs generalizing s with
  | nil => exact refl s
  | cons c cs ih => exact (touch s c).trans (ih _)

end TouchFrame

end Sys2Proof.Machine

namespace Sys2Proof.Machine
/-! ### Moves -/

/-- Storing cells heals units and breaks none. -/
theorem bad_put {s : State} {w : List (Nat × Byte)} {a : Nat} (h : s.bad a = false) : (s.put w).bad a = false := by
  simp only [State.bad, State.put, Bool.and_eq_false_iff, Bool.not_eq_false', List.isEmpty_iff] at h ⊢
  split
  · exact .inl rfl
  · rcases h with h | h
    · exact absurd h (by simp_all)
    · right
      simp only [List.contains_eq_mem, decide_eq_false_iff_not] at h ⊢
      exact fun hmem => h (List.mem_of_mem_filter hmem)

theorem bad_lput {s : State} {j : Job} {w : List (Nat × Byte)} {a : Nat} (h : s.bad a = false) : (s.lput j w).bad a = false :=
  bad_put h

theorem option_orElse_eq_none {α : Type} {o : Option α} {f : Unit → Option α} : o.orElse f = none ↔ o = none ∧ f () = none := by
  cases o <;> simp [Option.orElse]

/-- A cell that a move may take stays so while units of memory only heal. -/
theorem cellStop_mono {s t : State} {j : Job} {x : MovCell} (husable : t.unusable = s.unusable)
    (hbad : ∀ a, s.bad a = false → t.bad a = false) (h : s.cellStop j x = none) : t.cellStop j x = none := by
  unfold State.cellStop at h ⊢
  simp only [option_orElse_eq_none, husable] at h ⊢
  obtain ⟨⟨hread, hgood⟩, hwrite⟩ := h
  refine ⟨⟨hread, ?_⟩, hwrite⟩
  cases hx : x.src with
  | none => rfl
  | some a =>
    rw [hx, Option.bind_some] at hgood
    have hs : s.bad (j.phys false a) = false := by
      by_contra hb
      rw [if_pos (by simpa using hb)] at hgood
      cases hgood
    rw [Option.bind_some, hbad _ hs]
    rfl

/-- One row of a move stored, and row after row. -/
def State.movRow (j : Job) (s : State) (row : List MovCell) : State := s.lput j (row.map fun x => (x.dst, s.cellVal j x))

theorem cellsUntil_of_free {s : State} {j : Job} {row : List MovCell} (h : ∀ x ∈ row, s.cellStop j x = none) :
    s.cellsUntil j row = (row, none) := by
  rw [State.cellsUntil, List.findSome?_eq_none_iff.2 h]

theorem movRows_of_free {j : Job} {rows : List (List MovCell)} {s : State} (h : ∀ row ∈ rows, ∀ x ∈ row, s.cellStop j x = none) :
    s.movRows j rows = (rows.foldl (State.movRow j) s, none) := by
  induction rows generalizing s with
  | nil => rfl
  | cons row rows ih =>
    simp only [State.movRows, cellsUntil_of_free (h row List.mem_cons_self)]
    exact ih fun r hr x hx => cellStop_mono (s := s) rfl (fun a => bad_lput) (h r (List.mem_cons_of_mem _ hr) x hx)

/-- The bytes that rows leave depend on those that were there alone. -/
theorem foldl_movRow_mem {j : Job} {rows : List (List MovCell)} {s t : State} (h : t.mem = s.mem) :
    (rows.foldl (State.movRow j) t).mem = (rows.foldl (State.movRow j) s).mem := by
  induction rows generalizing s t with
  | nil => exact h
  | cons row rows ih =>
    refine ih ?_
    have hrd : t.lrd j = s.lrd j := funext fun a => by rw [State.lrd, State.lrd, State.rd, State.rd, h]
    have hval : t.cellVal j = s.cellVal j := funext fun x => by rw [State.cellVal, State.cellVal, hrd]
    simp only [State.movRow, State.lput, State.put, h, hval]

/-- Rows of a move change memory alone. -/
theorem foldl_movRow_rest (j : Job) (rows : List (List MovCell)) (s : State) :
    ∃ m b w, rows.foldl (State.movRow j) s = { s with mem := m, badUnits := b, weakUnits := w } := by
  induction rows generalizing s with
  | nil => exact ⟨_, _, _, rfl⟩
  | cons row rows ih =>
    obtain ⟨m, b, w, h⟩ := ih (State.movRow j s row)
    exact ⟨m, b, w, h⟩

theorem finish_issued (s : State) (c : CoreId) (e : Issued) :
    ∀ x ∈ (s.finish c e).cores[c].issued, x.seq = e.seq → x.phase = .finished := by
  intro x hx hseq
  rw [State.finish, State.updIssued, updCore_same] at hx
  obtain ⟨y, _, rfl⟩ := List.mem_map.1 hx
  split at hseq
  · rw [if_pos ‹_›]
  next hne => exact absurd hseq hne

theorem runMov_finishes (c : CoreId) (e : Issued) (j : Job) (s : State)
    (h : ∀ n, n < (movD e.words).rows → ∀ x ∈ (movD e.words).cells n, s.cellStop j x = none) :
    ∃ u : State, TouchFrame s u ∧ s.runMov c e j = (((List.range (movD e.words).rows).map (movD e.words).cells).foldl
      (State.movRow j) u).finish c e := by
  have hrows : ∀ row ∈ (List.range (movD e.words).rows).map (movD e.words).cells, ∀ x ∈ row, s.cellStop j x = none := by
    intro row hrow x hx
    obtain ⟨n, hn, rfl⟩ := List.mem_map.1 hrow
    exact h n (List.mem_range.1 hn) x hx
  unfold State.runMov
  dsimp only
  generalize ((List.range (movD e.words).rows).map (movD e.words).cells) = rows at hrows ⊢
  have htouch := TouchFrame.touchAll s
    ((rows.flatten.filterMap MovCell.src).map (j.phys false) ++ (rows.flatten.map MovCell.dst).map (j.phys true))
  refine ⟨_, htouch, ?_⟩
  have hfree := fun row hrow x hx => cellStop_mono htouch.view.unusable (fun a ha => by rw [htouch.view.bad]; exact ha)
    (hrows row hrow x hx)
  rw [movRows_of_free hfree]

/-- Settles O23: the commands run the move that starts; a move that nothing stops stores its rows one by one and finishes. -/
theorem movesRunAndFinish : Obligations.MovesRunAndFinish := by
  refine ⟨?_, fun c e j s hfree => ?_⟩
  · simp only [List.forall_mem_cons]
    refine ⟨?_, ?_, ?_, List.forall_mem_nil _⟩ <;> intro c slot env e j s hstart
    all_goals simp only [exec, execMovCopy, execCopyRect, execMovFill, hstart]
  · obtain ⟨u, htouch, hrun⟩ := runMov_finishes c e j s hfree
    have hmem := foldl_movRow_mem (j := j) (rows := (List.range (movD e.words).rows).map (movD e.words).cells) htouch.view.mem
    obtain ⟨m, b, w, hrest⟩ := foldl_movRow_rest j ((List.range (movD e.words).rows).map (movD e.words).cells) u
    have hframe : EngineFrame c u { u with mem := m, badUnits := b, weakUnits := w } := EngineFrame.of_rest
    rw [hrest] at hrun hmem
    have hu := htouch.rest
    refine ⟨_, hrun, hmem, finish_issued _ c e, ?_, ?_, ?_, ?_, htouch.reg, ((htouch.engine c).trans hframe).trans (.finish ..)⟩
    · rw [State.finish, updIssued_parts, hu]
    · rw [State.finish, updIssued_mc, hu]
    · rw [State.finish, updIssued_handles, hu]
    · rw [State.finish, State.updIssued, updCore_same, htouch.cores c]

end Sys2Proof.Machine


namespace Sys2Proof.Machine
/-! ### Registers of a core are none of those that events and accesses write -/

theorem isEventReg_core (c : Nat) (hc : c < 8) {k : Nat} (hk : k < 0x100000) : isEventReg (coreBase c + k) = false := by
  have hbase : coreBase c = 0x1000000 + c * 0x100000 := rfl
  have hmc : mcBase = 0 := rfl
  have husb : usbBase = 0x3000000 := rfl
  rw [← Bool.not_eq_true]
  intro h
  simp only [isEventReg, Bool.or_eq_true, List.any_eq_true, decide_eq_true_eq, List.mem_range, List.mem_finRange, true_and] at h
  unfold mcEvtCnt usbMgmtEvlost mcLogStat mcAlert usbJobLost at h
  rcases h with (((⟨v, hv, h⟩ | h) | h) | h) | ⟨p, h⟩ <;> omega

theorem isMemReg_core (c : Nat) (hc : c < 8) {k : Nat} (hk : k < 0x100000) (h₁ : k ≠ 0x6004) (h₂ : k ≠ 0x600C) (h₃ : k ≠ 0x6010) :
    isMemReg (coreBase c + k) = false := by
  have hbase (d : Nat) : coreBase d = 0x1000000 + d * 0x100000 := rfl
  have hhub (d : Nat) : hubBase d = 0x100000 + d * 0x10000 := rfl
  rw [← Bool.not_eq_true]
  intro h
  simp only [isMemReg, Bool.or_eq_true, List.any_eq_true, decide_eq_true_eq, List.mem_range] at h
  unfold coreMemWakes coreMemCeSram coreMemCeCrumb hubHbmCe at h
  obtain ⟨d, hd, ((h | h) | h) | h⟩ := h <;> rw [hbase] at h
  · rw [hbase] at h
    omega
  · rw [hbase] at h
    omega
  · rw [hbase] at h
    omega
  · rw [hhub] at h
    omega

/-! ### What an engine counts and reports -/

theorem EngineFrame.hctx {c : CoreId} {s t : State} (h : EngineFrame c s t) (p : PartId) : t.hctx p = s.hctx p := by
  unfold State.hctx; rw [h.mc]

theorem EngineFrame.inRings {c : CoreId} {s t : State} (h : EngineFrame c s t) (a : Nat) : t.inRings a = s.inRings a := by
  simp only [State.inRings, h.hctx]

/-- What counting and reporting at core `c` leave alone, the registers of `rs` apart: everything but their registers, the
places that events reach, and jobs. -/
structure CountFrame (c : CoreId) (rs : List Nat) (s t : State) : Prop where
  engine : EngineFrame c s t
  cores : t.cores = s.cores
  rd : ∀ a, s.inRings a = false → t.rd a = s.rd a
  reg : ∀ o, isEventReg o = false → o ∉ rs → t.reg o = s.reg o

namespace CountFrame

variable {c : CoreId} {rs : List Nat} {s t u : State}

theorem refl (c : CoreId) (rs : List Nat) (s : State) : CountFrame c rs s s := ⟨.refl c s, rfl, fun _ _ => rfl, fun _ _ _ => rfl⟩

theorem trans (h : CountFrame c rs s t) (k : CountFrame c rs t u) : CountFrame c rs s u where
  engine := h.engine.trans k.engine
  cores := k.cores.trans h.cores
  rd a ha := (k.rd a ((h.engine.inRings a).trans ha)).trans (h.rd a ha)
  reg o he ho := (k.reg o he ho).trans (h.reg o he ho)

theorem mono {rs' : List Nat} (h : CountFrame c rs s t) (hsub : rs ⊆ rs') : CountFrame c rs' s t :=
  { h with reg := fun o he ho => h.reg o he fun hr => ho (hsub hr) }

theorem setReg {o : Nat} {v : Word} (ho : o ∈ rs) : CountFrame c rs s (s.setReg o v) :=
  ⟨.setReg .., rfl, fun _ _ => rfl, fun _ _ hx => reg_setReg_other s v fun he => hx (he ▸ ho)⟩

theorem count {o k : Nat} (ho : o ∈ rs) : CountFrame c rs s (s.count o k) := setReg ho

theorem count64 {lo hi k : Nat} (hlo : lo ∈ rs) (hhi : hi ∈ rs) : CountFrame c rs s (s.count64 lo hi k) := by
  unfold State.count64
  exact (setReg hlo).trans (setReg hhi)

theorem raise {src : Src} {part : Option PartId} {code : Nat} {ds : List Nat} : CountFrame c rs s (s.raise src part code ds) :=
  ⟨.raise .., raise_cores .., fun _ ha => raise_rd _ _ _ _ _ ha, fun _ he _ => raise_reg _ _ _ _ _ he⟩

theorem updJob {p : PartId} {f : Job → Job} : CountFrame c rs s (s.updJob p f) := ⟨.updJob .., rfl, fun _ _ => rfl, fun _ _ _ => rfl⟩

theorem outCounts {p : PartId} {tensor sat nonfin : Nat} (hsat : coreNumOutsat c.val ∈ rs) (hnonfin : coreNumNonfin c.val ∈ rs) :
    CountFrame c rs s (s.outCounts c p tensor sat nonfin) := by
  have hcount : CountFrame c rs s ((s.count (coreNumOutsat c.val) sat).count (coreNumNonfin c.val) nonfin) :=
    (count hsat).trans (count hnonfin)
  unfold State.outCounts
  dsimp only
  split
  · exact hcount
  · split
    · exact hcount
    · exact (hcount.trans raise).trans updJob

theorem redCounts {e : Issued} {d : VecD} {p : VecP} {o : EngineOut} : CountFrame c rs s (s.redCounts e d p o) := by
  unfold State.redCounts
  split
  · exact refl ..
  · exact updJob

end CountFrame

theorem satAdd_lt (w k : Nat) : satAdd 64 w k < 2 ^ 64 := by
  unfold satAdd
  exact (Nat.min_le_right (w + k) (2 ^ 64 - 1)).trans_lt (by decide)

/-- A 64-bit counter holds its count in two registers. -/
theorem count64_value (s : State) {lo hi : Nat} (k : Nat) (h : lo ≠ hi) :
    ((s.count64 lo hi k).reg hi).toNat * 2 ^ 32 + ((s.count64 lo hi k).reg lo).toNat =
      satAdd 64 ((s.reg hi).toNat * 2 ^ 32 + (s.reg lo).toNat) k := by
  have hlt := satAdd_lt ((s.reg hi).toNat * 2 ^ 32 + (s.reg lo).toNat) k
  unfold State.count64
  dsimp only
  generalize satAdd 64 ((s.reg hi).toNat * 2 ^ 32 + (s.reg lo).toNat) k = v at hlt ⊢
  rw [reg_setReg_same, reg_setReg_other _ _ h, reg_setReg_same, BitVec.toNat_ofNat, BitVec.toNat_ofNat]
  omega

end Sys2Proof.Machine

namespace Sys2Proof.Machine
/-! ### Runs of the vector engine -/

/-- The registers in which a VEC descriptor counts. -/
def vecRegs (c : CoreId) : List Nat := [coreVecLstepsLo c.val, coreVecLstepsHi c.val, coreNumOutsat c.val, coreNumNonfin c.val]

theorem rd_lput_congr {s t : State} (j : Job) (w : List (Nat × Byte)) (h : t.mem = s.mem) (a : Nat) :
    (t.lput j w).rd a = (s.lput j w).rd a := by
  simp only [State.rd, State.lput, State.put, h]

theorem SameView.vecStop {s t : State} (h : s.SameView t) (j : Job) (l : Nat) (guest : Bool) (d : VecD) (p : VecP) (en : VecEnv)
    (tab : Option Tab) (v : Nat) : t.vecStop j l guest d p en tab v = s.vecStop j l guest d p en tab v := by
  simp only [State.vecStop, h.lrd, h.checkUsable, h.lbad]

theorem findSome?_map_eq_none {α β : Type} {n : Nat} {f : Nat → Option α} {g : Nat → α → β} (h : ∀ i, i < n → f i = none) :
    ((List.range n).findSome? fun i => (f i).map (g i)) = none := by
  rw [List.findSome?_eq_none_iff]
  intro i hi
  rw [h i (List.mem_range.1 hi), Option.map_none]

theorem finish_others {s : State} {c : CoreId} {e : Issued} :
    ∀ x ∈ (s.finish c e).cores[c].issued, x.seq ≠ e.seq → x ∈ s.cores[c].issued := by
  intro x hx hseq
  rw [State.finish, State.updIssued, updCore_same] at hx
  obtain ⟨y, hy, rfl⟩ := List.mem_map.1 hx
  split at hseq
  next heq => exact absurd heq hseq
  · rw [if_neg ‹_›]
    exact hy

/-- What a run of a row of an engine's work leaves before it reports: its accesses made, its steps counted in the pair of
registers `lo` and `hi`, and its results `w` stored. -/
structure EngineStep (c : CoreId) (lo hi k : Nat) (j : Job) (w : List (Nat × Byte)) (s v : State) : Prop where
  engine : EngineFrame c s v
  core : v.cores[c] = { s.cores[c] with ret := v.cores[c].ret }
  rd : ∀ a, v.rd a = (s.lput j w).rd a
  steps : (v.reg hi).toNat * 2 ^ 32 + (v.reg lo).toNat = satAdd 64 ((s.reg hi).toNat * 2 ^ 32 + (s.reg lo).toNat) k
  reg : ∀ o, isEventReg o = false → isMemReg o = false → o ∉ [lo, hi] → v.reg o = s.reg o

theorem engineStep_of_touch {c : CoreId} {lo hi : Nat} {s u : State} (h : TouchFrame s u) (hne : lo ≠ hi)
    (hlo : isMemReg lo = false) (hhi : isMemReg hi = false) (k : Nat) (j : Job) (w : List (Nat × Byte)) :
    EngineStep c lo hi k j w s ((u.count64 lo hi k).lput j w) where
  engine := ((h.engine c).trans (.count64 ..)).trans (.lput ..)
  core := by rw [lput_cores, count64_cores, h.cores c]
  rd a := rd_lput_congr j w (by rw [count64_mem, h.view.mem]) a
  steps := by rw [lput_reg, lput_reg, count64_value u k hne, h.reg _ hlo, h.reg _ hhi]
  reg o he hm ho := by
    have hcount : CountFrame c [lo, hi] u (u.count64 lo hi k) := .count64 (by simp) (by simp)
    rw [lput_reg, hcount.reg o he ho, h.reg o hm]

/-- A VEC descriptor that nothing stops: its accesses, its lane steps, its results, its counts, and its end. -/
theorem runVec_finishes {c : CoreId} {e : Issued} {j : Job} {g : Bool} {tab : Option Tab} {s : State}
    (hfree : ∀ n, n < (vecD e.words).vectors →
      s.vecStop j e.lcore g (vecD e.words) (vecP e.param) (j.vecEnv (vecD e.words).dA) tab n = none) :
    ∃ v : State, EngineStep c (coreVecLstepsLo c.val) (coreVecLstepsHi c.val)
        ((vecD e.words).vectors * laneSteps (vecD e.words).op) j
        ((vecD e.words).run (vecP e.param) (j.vecEnv (vecD e.words).dA) tab (s.lrd j) (vecD e.words).vectors).stores s v ∧
      ∃ w, CountFrame c [coreNumOutsat c.val, coreNumNonfin c.val] v w ∧ s.runVec c e j g tab = w.finish c e := by
  have htouch := TouchFrame.touchAll s ((namedBytes ((vecD e.words).names (vecP e.param))).map (j.phys false))
  have hstop := findSome?_map_eq_none (g := fun v x => (v, x)) fun n hn =>
    (SameView.vecStop htouch.view j e.lcore g (vecD e.words) (vecP e.param) (j.vecEnv (vecD e.words).dA) tab n).trans (hfree n hn)
  have hstep := engineStep_of_touch (c := c) (lo := coreVecLstepsLo c.val) (hi := coreVecLstepsHi c.val) htouch
    (by unfold coreVecLstepsLo coreVecLstepsHi; omega)
    (isMemReg_core c.val c.isLt (by decide) (by decide) (by decide) (by decide))
    (isMemReg_core c.val c.isLt (by decide) (by decide) (by decide) (by decide))
    ((vecD e.words).vectors * laneSteps (vecD e.words).op) j
    ((vecD e.words).run (vecP e.param) (j.vecEnv (vecD e.words).dA) tab (s.lrd j) (vecD e.words).vectors).stores
  refine ⟨_, hstep, ?_⟩
  unfold State.runVec
  dsimp only
  rw [hstop]
  dsimp only
  rw [htouch.view.lrd]
  exact ⟨_, (CountFrame.outCounts (by simp) (by simp)).trans .redCounts, rfl⟩

theorem vec_outcome {c : CoreId} {e : Issued} {j : Job} {g : Bool} {tab : Option Tab} {s : State}
    (hfree : ∀ n, n < (vecD e.words).vectors →
      s.vecStop j e.lcore g (vecD e.words) (vecP e.param) (j.vecEnv (vecD e.words).dA) tab n = none) :
    ∃ t : State, s.runVec c e j g tab = t ∧
      (∀ a, s.inRings a = false → t.rd a =
        (s.lput j ((vecD e.words).run (vecP e.param) (j.vecEnv (vecD e.words).dA) tab (s.lrd j) (vecD e.words).vectors).stores).rd a) ∧
      (t.reg (coreVecLstepsHi c.val)).toNat * 2 ^ 32 + (t.reg (coreVecLstepsLo c.val)).toNat =
        satAdd 64 ((s.reg (coreVecLstepsHi c.val)).toNat * 2 ^ 32 + (s.reg (coreVecLstepsLo c.val)).toNat)
          ((vecD e.words).vectors * laneSteps (vecD e.words).op) ∧
      (∀ x ∈ t.cores[c].issued, x.seq = e.seq → x.phase = .finished) ∧
      (∀ x ∈ t.cores[c].issued, x.seq ≠ e.seq → x ∈ s.cores[c].issued) ∧
      t.cores[c].first = s.cores[c].first ∧ t.cores[c].guest = s.cores[c].guest ∧ t.cores[c].arrays = s.cores[c].arrays ∧
      (∀ o, isEventReg o = false → isMemReg o = false →
        o ∉ [coreVecLstepsLo c.val, coreVecLstepsHi c.val, coreNumOutsat c.val, coreNumNonfin c.val] → t.reg o = s.reg o) ∧
      EngineFrame c s t := by
  obtain ⟨v, hv, w, hw, hrun⟩ := runVec_finishes (c := c) hfree
  have hlo : isEventReg (coreVecLstepsLo c.val) = false := isEventReg_core c.val c.isLt (by decide)
  have hhi : isEventReg (coreVecLstepsHi c.val) = false := isEventReg_core c.val c.isLt (by decide)
  refine ⟨_, hrun, fun a ha => ?_, ?_, finish_issued _ c e, fun x hx hseq => ?_, ?_, ?_, ?_, fun o he hm ho => ?_,
    (hv.engine.trans hw.engine).trans (.finish ..)⟩
  · rw [State.finish, updIssued_rd, hw.rd a ((hv.engine.inRings a).trans ha), hv.rd]
  · rw [State.finish, updIssued_reg, updIssued_reg, hw.reg _ hlo, hw.reg _ hhi, hv.steps]
    · simp [coreVecLstepsHi, coreNumOutsat, coreNumNonfin]
    · simp [coreVecLstepsLo, coreNumOutsat, coreNumNonfin]
  · have hold := finish_others x hx hseq
    rwa [hw.cores, hv.core] at hold
  · rw [State.finish, State.updIssued, updCore_same, hw.cores, hv.core]
  · rw [State.finish, State.updIssued, updCore_same, hw.cores, hv.core]
  · rw [State.finish, State.updIssued, updCore_same, hw.cores, hv.core]
  · simp only [List.mem_cons, not_or] at ho
    obtain ⟨h₁, h₂, h₃, h₄, _⟩ := ho
    rw [State.finish, updIssued_reg, hw.reg o he (by simp [h₃, h₄]), hv.reg o he hm (by simp [h₁, h₂])]

/-! ### Runs of the row engine -/

theorem SameView.rowStop {s t : State} (h : s.SameView t) (j : Job) (l : Nat) (d : RowD) (p : RowP) (tab : Option Tab) (i : Nat) :
    t.rowStop j l d p tab i = s.rowStop j l d p tab i := by
  simp only [State.rowStop, h.lrd, h.checkUsable, h.lbad]

theorem SameView.tagStop {s t : State} (h : s.SameView t) (c : CoreId) (j : Job) (l : Nat) (d : RowD) :
    t.tagStop c j l d = s.tagStop c j l d := by
  simp only [State.tagStop, h.lrd, h.checkUsable, h.lbad]

/-- The column sums that a ROW descriptor leaves for the gradient buffer: those of a NORM_BWD with AFFINE before a stop. -/
def rowAdds (e : Issued) (j : Job) (m : Nat → Byte) : List PendingAdd :=
  if (rowD e.words).op = 0x02 ∧ (rowD e.words).affine ∧ !e.mute then
    [⟨(rowP e.param).tensorW, (rowD e.words).contributions (rowP e.param) e.lcore m (j.prescale (rowP e.param).tensorW), false⟩]
  else []

/-- A ROW descriptor that nothing stops: its accesses, its lane steps, its results, and its end or its column sums. -/
theorem runRow_finishes {c : CoreId} {e : Issued} {j : Job} {tab : Option Tab} {s : State}
    (htag : s.tagStop c j e.lcore (rowD e.words) = none)
    (hfree : ∀ n, n < (rowD e.words).rows → s.rowStop j e.lcore (rowD e.words) (rowP e.param) tab n = none) :
    ∃ v : State, EngineStep c (coreRowLstepsLo c.val) (coreRowLstepsHi c.val) ((rowD e.words).rows * (rowD e.words).rowSteps) j
        ((rowD e.words).run (rowP e.param) e.lcore j.commitUnder tab (s.lrd j) (rowD e.words).rows).stores s v ∧
      s.runRow c e j tab = if rowAdds e j (s.lrd j) = [] then v.finish c e
        else v.updIssued c e.seq fun x => { x with phase := .running, adds := rowAdds e j (s.lrd j), prog := [2] } := by
  have htouch := TouchFrame.touchAll s
    (((rowD e.words).slot e.lcore :: namedBytes ((rowD e.words).names (rowP e.param))).map (j.phys false))
  have hstop := findSome?_map_eq_none (g := fun i x => (i, x)) fun n hn =>
    (SameView.rowStop htouch.view j e.lcore (rowD e.words) (rowP e.param) tab n).trans (hfree n hn)
  have hstep := engineStep_of_touch (c := c) (lo := coreRowLstepsLo c.val) (hi := coreRowLstepsHi c.val) htouch
    (by unfold coreRowLstepsLo coreRowLstepsHi; omega)
    (isMemReg_core c.val c.isLt (by decide) (by decide) (by decide) (by decide))
    (isMemReg_core c.val c.isLt (by decide) (by decide) (by decide) (by decide))
    ((rowD e.words).rows * (rowD e.words).rowSteps) j
    ((rowD e.words).run (rowP e.param) e.lcore j.commitUnder tab (s.lrd j) (rowD e.words).rows).stores
  refine ⟨_, hstep, ?_⟩
  unfold State.runRow
  dsimp only
  rw [(SameView.tagStop htouch.view c j e.lcore (rowD e.words)).trans htag, hstop]
  dsimp only
  rw [htouch.view.lrd]
  rfl

theorem row_outcome {c : CoreId} {e : Issued} {j : Job} {tab : Option Tab} {s : State}
    (htag : s.tagStop c j e.lcore (rowD e.words) = none)
    (hfree : ∀ n, n < (rowD e.words).rows → s.rowStop j e.lcore (rowD e.words) (rowP e.param) tab n = none) :
    ∃ t : State, s.runRow c e j tab = t ∧
      (∀ a, s.inRings a = false → t.rd a = (s.lput j
        ((rowD e.words).run (rowP e.param) e.lcore j.commitUnder tab (s.lrd j) (rowD e.words).rows).stores).rd a) ∧
      (t.reg (coreRowLstepsHi c.val)).toNat * 2 ^ 32 + (t.reg (coreRowLstepsLo c.val)).toNat =
        satAdd 64 ((s.reg (coreRowLstepsHi c.val)).toNat * 2 ^ 32 + (s.reg (coreRowLstepsLo c.val)).toNat)
          ((rowD e.words).rows * (rowD e.words).rowSteps) ∧
      ((rowD e.words).op ≠ 0x02 ∨ (rowD e.words).affine = false ∨ e.mute = true →
        ∀ x ∈ t.cores[c].issued, x.seq = e.seq → x.phase = .finished) ∧
      ((rowD e.words).op = 0x02 → (rowD e.words).affine = true → e.mute = false →
        ∀ x ∈ t.cores[c].issued, x.seq = e.seq → x.phase = .running ∧ x.adds = [⟨(rowP e.param).tensorW,
          (rowD e.words).contributions (rowP e.param) e.lcore (s.lrd j) (j.prescale (rowP e.param).tensorW), false⟩]) ∧
      t.cores[c].first = s.cores[c].first ∧ t.cores[c].guest = s.cores[c].guest ∧ t.cores[c].arrays = s.cores[c].arrays ∧
      EngineFrame c s t := by
  obtain ⟨v, hv, hrun⟩ := runRow_finishes htag hfree
  by_cases hadds : (rowD e.words).op = 0x02 ∧ (rowD e.words).affine ∧ !e.mute
  · have hsome : rowAdds e j (s.lrd j) = [⟨(rowP e.param).tensorW,
        (rowD e.words).contributions (rowP e.param) e.lcore (s.lrd j) (j.prescale (rowP e.param).tensorW), false⟩] := if_pos hadds
    rw [hsome, if_neg (List.cons_ne_nil _ _)] at hrun
    obtain ⟨hop, haffine, hmute⟩ := hadds
    refine ⟨_, hrun, fun a _ => ?_, ?_, fun hor => ?_, fun _ _ _ x hx hseq => ?_, ?_, ?_, ?_, hv.engine.trans (.updIssued ..)⟩
    · rw [updIssued_rd, hv.rd]
    · rw [updIssued_reg, updIssued_reg, hv.steps]
    · rcases hor with h | h | h
      · exact absurd hop h
      · rw [h] at haffine
        exact absurd haffine Bool.false_ne_true
      · rw [h] at hmute
        exact absurd hmute Bool.false_ne_true
    · rw [State.updIssued, updCore_same] at hx
      obtain ⟨y, _, rfl⟩ := List.mem_map.1 hx
      split at hseq
      next heq => rw [if_pos heq]; exact ⟨rfl, rfl⟩
      next hne => exact absurd hseq hne
    · rw [State.updIssued, updCore_same, hv.core]
    · rw [State.updIssued, updCore_same, hv.core]
    · rw [State.updIssued, updCore_same, hv.core]
  · have hnil : rowAdds e j (s.lrd j) = [] := if_neg hadds
    rw [if_pos hnil] at hrun
    refine ⟨_, hrun, fun a _ => ?_, ?_, fun _ => finish_issued _ c e, fun hop haffine hmute => ?_, ?_, ?_, ?_,
      hv.engine.trans (.finish ..)⟩
    · rw [State.finish, updIssued_rd, hv.rd]
    · rw [State.finish, updIssued_reg, updIssued_reg, hv.steps]
    · exact absurd ⟨hop, haffine, by rw [hmute]; rfl⟩ hadds
    · rw [State.finish, State.updIssued, updCore_same, hv.core]
    · rw [State.finish, State.updIssued, updCore_same, hv.core]
    · rw [State.finish, State.updIssued, updCore_same, hv.core]

/-- Settles O21. -/
theorem vecAndRowRunsFinish : Obligations.VecAndRowRunsFinish :=
  ⟨fun _ _ _ _ _ _ _ => vec_outcome, fun _ _ _ _ _ _ => row_outcome⟩

end Sys2Proof.Machine



namespace Sys2Proof.Machine

/-! ### Clear commands -/

theorem clearRegs_rest (s : State) (os : List Nat) : s.clearRegs os = { s with regs := (s.clearRegs os).regs } := by
  induction os generalizing s with
  | nil => rfl
  | cons o os ih => exact ih (s.setReg o (resetReg o))

theorem reg_clearRegs_other (s : State) {os : List Nat} {r : Nat} (h : r ∉ os) : (s.clearRegs os).reg r = s.reg r := by
  induction os generalizing s with
  | nil => rfl
  | cons o os ih =>
    obtain ⟨hro, hros⟩ := not_or.mp (mt List.mem_cons.mpr h)
    exact (ih (s.setReg o (resetReg o)) hros).trans (reg_setReg_other s _ hro)

theorem reg_clearRegs_mem (s : State) {os : List Nat} {r : Nat} (h : r ∈ os) : (s.clearRegs os).reg r = resetReg r := by
  induction os generalizing s with
  | nil => exact absurd h List.not_mem_nil
  | cons o os ih =>
    by_cases hr : r ∈ os
    · exact ih (s.setReg o (resetReg o)) hr
    · obtain rfl : r = o := (List.mem_cons.mp h).resolve_right hr
      exact (reg_clearRegs_other (s.setReg r (resetReg r)) hr).trans (reg_setReg_same s r _)

/-- The clear commands of a core, each with the registers that it clears. -/
noncomputable def coreClears (c : CoreId) : List (Instr × List Nat) :=
  [(.coreNumClrWtrunc c, [coreNumWtruncLo c, coreNumWtruncHi c]), (.coreNumClrOutsat c, [coreNumOutsat c]),
   (.coreNumClrNonfin c, [coreNumNonfin c]), (.coreNumClrSumviol c, [coreNumSumviol c]),
   (.coreArrClrBeats c, eachArray (coreArrBeatsLo c) ++ eachArray (coreArrBeatsHi c)),
   (.coreArrClrStalls c, eachArray (coreArrShstall c) ++ eachArray (coreArrLdwait c) ++ eachArray (coreArrFdstall c)),
   (.coreArrClrMismatches c, eachArray (coreArrMismatch c)),
   (.coreVrClrLsteps c, [coreVecLstepsLo c, coreVecLstepsHi c, coreRowLstepsLo c, coreRowLstepsHi c]),
   (.coreVrClrStalls c, [coreVecMstall c, coreRowMstall c]), (.coreVrClrTagfail c, [coreRowTagfail c]),
   (.coreGbClrOps c, [coreGbSpills c, coreGbRefills c, coreGbTieadds c]),
   (.coreGbClrBytes c, [coreGbBytesLo c, coreGbBytesHi c]),
   (.coreGbClrWaits c, [coreGbWaits c]), (.coreMemClrWaits c, [coreMemBankwait c, coreMemWakes c]),
   (.coreMemClrCe c, [coreMemCeSram c, coreMemCeCrumb c]), (.coreNetClrOps c, [coreNetDone c, coreNetCancel c]),
   (.coreNetClrStalls c, [coreNetPstall c, coreNetGheld c]), (.coreNetClrBubble c, [coreNetBubbleLo c, coreNetBubbleHi c])]

/-- The clear commands of a port, each with the registers that it clears. -/
noncomputable def portClears (o : PortId) : List (Instr × List Nat) :=
  [(.portCntClrAll o, (List.range 32).map (portCnt o)), (.portOtClrAll o, (List.range 32).map (portOtCnt o))]

theorem exec_coreClears (c : CoreId) : ∀ x ∈ coreClears c, ∀ s : State, exec x.1 s = .next (s.clearRegs x.2) := by
  simp only [coreClears, List.forall_mem_cons]
  exact ⟨fun _ => rfl, fun _ => rfl, fun _ => rfl, fun _ => rfl, fun _ => rfl, fun _ => rfl, fun _ => rfl, fun _ => rfl,
    fun _ => rfl, fun _ => rfl, fun _ => rfl, fun _ => rfl, fun _ => rfl, fun _ => rfl, fun _ => rfl, fun _ => rfl,
    fun _ => rfl, fun _ => rfl, fun _ h => absurd h List.not_mem_nil⟩

theorem exec_portClears (o : PortId) : ∀ x ∈ portClears o, ∀ s : State, exec x.1 s = .next (s.clearRegs x.2) := by
  simp only [portClears, List.forall_mem_cons]
  exact ⟨fun _ => rfl, fun _ => rfl, fun _ h => absurd h List.not_mem_nil⟩

/-- Every counter of a core reads 0 at reset. -/
theorem resetReg_coreClears : ∀ c : CoreId, ∀ x ∈ coreClears c, ∀ r ∈ x.2, resetReg r = 0 := by decide

/-- Every counter of a port reads 0 at reset. -/
theorem resetReg_portCounters : ∀ (o : PortId) (n : Fin 32), resetReg (portCnt o n) = 0 ∧ resetReg (portOtCnt o n) = 0 := by
  decide

theorem resetReg_portClears (o : PortId) : ∀ x ∈ portClears o, ∀ r ∈ x.2, resetReg r = 0 := by
  simp only [portClears, List.forall_mem_cons, List.forall_mem_map, List.mem_range]
  exact ⟨fun n hn => (resetReg_portCounters o ⟨n, hn⟩).1, fun n hn => (resetReg_portCounters o ⟨n, hn⟩).2,
    fun _ h => absurd h List.not_mem_nil⟩

/-- Clearing registers that read 0 at reset leaves 0 there and all else as it was. -/
theorem clearRegs_clears (s : State) {os : List Nat} (h : ∀ r ∈ os, resetReg r = 0) :
    (∀ r ∈ os, (s.clearRegs os).reg r = 0) ∧ (∀ r, r ∉ os → (s.clearRegs os).reg r = s.reg r) ∧
      s.clearRegs os = { s with regs := (s.clearRegs os).regs } :=
  ⟨fun r hr => (reg_clearRegs_mem s hr).trans (h r hr), fun _ hr => reg_clearRegs_other s hr, clearRegs_rest s os⟩

theorem exec_coreMemClrUe (c : CoreId) (s : State) : exec (.coreMemClrUe c) s = .next (s.setFld (coreMemUe c) 15 0 0) := rfl

/-- CORE_MEM_CLR.UE clears the count and keeps the address. -/
theorem coreMemClrUe_clears (c : CoreId) (s : State) : ∃ t : State, exec (.coreMemClrUe c) s = .next t ∧
    t.regFld (coreMemUe c) 15 0 = 0 ∧ t.regFld (coreMemUe c) 31 16 = s.regFld (coreMemUe c) 31 16 ∧
    (∀ r, r ≠ coreMemUe c → t.reg r = s.reg r) ∧ t = { s with regs := t.regs } := by
  refine ⟨_, exec_coreMemClrUe c s, ?_, ?_, fun r hr => reg_setFld_other s _ _ _ hr, by rw [State.setFld, State.setReg]⟩
  · rw [regFld_setFld_same _ _ _ (by decide)]
    decide
  · exact regFld_setFld_disjoint _ _ _ (by decide) (by decide)

/-- A half of a core whose streams count nothing. -/
def LCtx.clearCounts (l : LCtx) : LCtx := { l with streams := l.streams.map fun t => { t with issued := 0, qstall := 0 } }

theorem exec_coreStrClrCounts (c : CoreId) (s : State) : exec (.coreStrClrCounts c) s =
    .next (s.updCore c fun k => { k with first := k.first.clearCounts, guest := k.guest.clearCounts }) := rfl

theorem half_clearCounts (k : CoreS) (g : Bool) :
    ({ k with first := k.first.clearCounts, guest := k.guest.clearCounts } : CoreS).half g = (k.half g).clearCounts := by
  cases g <;> rfl

theorem stream_clearCounts (l : LCtx) (i : Fin 4) :
    l.clearCounts.streams[i] = { l.streams[i] with issued := 0, qstall := 0 } := by
  simp [LCtx.clearCounts]

/-- CORE_STR_CLR.COUNTS clears the counts of the core's streams. -/
theorem coreStrClrCounts_clears (c : CoreId) (s : State) : ∃ t : State, exec (.coreStrClrCounts c) s = .next t ∧
    (∀ x : CtxId, (t.stream c x).issued = 0 ∧ (t.stream c x).qstall = 0 ∧ (t.stream c x).state = (s.stream c x).state ∧
      (t.stream c x).index = (s.stream c x).index) ∧ (∀ d : CoreId, d ≠ c → t.cores[d] = s.cores[d]) ∧
    t.cores[c].issued = s.cores[c].issued ∧ t = { s with cores := t.cores } := by
  refine ⟨_, exec_coreStrClrCounts c s, fun x => ?_, fun d hd => updCore_other s _ hd, ?_, rfl⟩
  · have hx : ((s.updCore c fun k => { k with first := k.first.clearCounts, guest := k.guest.clearCounts }).stream c x) =
        { s.stream c x with issued := 0, qstall := 0 } := by
      rw [State.stream, updCore_same, half_clearCounts, stream_clearCounts]
      rfl
    rw [hx]
    exact ⟨rfl, rfl, rfl, rfl⟩
  · rw [updCore_same]

/-- Settles O56: a clear command writes the reset value, 0, to its own registers, and nothing else. -/
theorem countersAreCleared : Obligations.CountersAreCleared := by
  refine ⟨fun c o x hx s => ?_, coreMemClrUe_clears, coreStrClrCounts_clears⟩
  obtain hx | hx : x ∈ coreClears c ∨ x ∈ portClears o := List.mem_append.mp hx
  · exact ⟨_, exec_coreClears c x hx s, clearRegs_clears s (resetReg_coreClears c x hx)⟩
  · exact ⟨_, exec_portClears o x hx s, clearRegs_clears s (resetReg_portClears o x hx)⟩

end Sys2Proof.Machine


namespace Sys2Proof.Machine

/-! ### Runs of a matrix array -/

theorem memGet_memPut_congr {w : List (Nat × Byte)} {m n : List Host.Cell} {a : Nat} (h : memGet n a = memGet m a) :
    memGet (memPut n w) a = memGet (memPut m w) a := by
  induction w generalizing m n with
  | nil => exact h
  | cons x w ih =>
    refine ih ?_
    by_cases hx : a = x.1
    · subst hx
      rw [memGet_memSet_same, memGet_memSet_same]
    · rw [memGet_memSet_other _ _ hx, memGet_memSet_other _ _ hx, h]

/-- A byte after stores depends on what it held before and on the stores alone. -/
theorem rd_put_congr {s t : State} {w : List (Nat × Byte)} {a : Nat} (h : t.rd a = s.rd a) : (t.put w).rd a = (s.put w).rd a :=
  memGet_memPut_congr h

/-- An access touches what it names, and changes nothing else. -/
theorem access_fst {s v : State} {j : Job} {reads writes : List Nat} {o : Option (DErr ⊕ Nat)}
    (h : s.access j reads writes = (v, o)) : v = s.touchAll (reads.map (j.phys false) ++ writes.map (j.phys true)) := by
  unfold State.access at h
  dsimp only at h
  split at h <;> exact (Prod.mk.inj h).1.symm

/-- What a MAT's bookkeeping leaves alone: memory outside the rings, and what is issued on its core. -/
structure QuietFrame (c : CoreId) (s t : State) : Prop where
  engine : EngineFrame c s t
  issued : t.cores[c].issued = s.cores[c].issued
  rd : ∀ a, s.inRings a = false → t.rd a = s.rd a

namespace QuietFrame

variable {c : CoreId} {s t u : State}

theorem refl (c : CoreId) (s : State) : QuietFrame c s s := ⟨.refl c s, rfl, fun _ _ => rfl⟩

theorem trans (h : QuietFrame c s t) (k : QuietFrame c t u) : QuietFrame c s u where
  engine := h.engine.trans k.engine
  issued := k.issued.trans h.issued
  rd a ha := (k.rd a ((h.engine.inRings a).trans ha)).trans (h.rd a ha)

theorem of_count {rs : List Nat} (h : CountFrame c rs s t) : QuietFrame c s t := ⟨h.engine, by rw [h.cores], h.rd⟩

theorem of_touch (h : TouchFrame s t) : QuietFrame c s t := ⟨h.engine c, by rw [h.cores c], fun a _ => h.view.rd a⟩

theorem count {o k : Nat} : QuietFrame c s (s.count o k) := of_count (.count (rs := [o]) (by simp))

theorem count64 {lo hi k : Nat} : QuietFrame c s (s.count64 lo hi k) := of_count (.count64 (rs := [lo, hi]) (by simp) (by simp))

theorem countStalls {u : MatUnit} {m : MatD} {w feed drain : Nat} : QuietFrame c s (s.countStalls c u m w feed drain) := by
  unfold State.countStalls
  dsimp only
  split
  · exact count.trans count
  · exact count

theorem foldl {α : Type} {f : State → α → State} (hf : ∀ t x, QuietFrame c t (f t x)) (xs : List α) :
    QuietFrame c s (xs.foldl f s) := by
  induction xs generalizing s with
  | nil => exact refl c s
  | cons x xs ih => exact (hf s x).trans ih

theorem countBeats {u : MatUnit} {ganged : Bool} {cols n : Nat} : QuietFrame c s (s.countBeats c u ganged cols n) :=
  foldl (fun _ _ => count64) _

theorem outCounts {p : PartId} {tensor sat nonfin : Nat} : QuietFrame c s (s.outCounts c p tensor sat nonfin) :=
  of_count (.outCounts (rs := [coreNumOutsat c.val, coreNumNonfin c.val]) (by simp) (by simp))

theorem updGrid {u : MatUnit} {f : Grid → Grid} : QuietFrame c s (s.updGrid c u f) := by
  unfold State.updGrid State.updUnit
  exact ⟨.updCore_own fun _ => rfl, by rw [updCore_same], fun _ _ => rfl⟩

theorem loadShadow {u : MatUnit} {x : Option (Issued × Nat)} : QuietFrame c s (s.loadShadow c u x) := by
  unfold State.loadShadow
  split <;> exact updGrid

theorem setGrids {u : MatUnit} {m : MatD} {mem : Nat → Byte} {fl : List Flaw} {n : Nat} :
    QuietFrame c s (s.setGrids c u m mem fl n) :=
  foldl (fun _ _ => updGrid) _

theorem endGrids {u : MatUnit} {e : Issued} {mem : Nat → Byte} {fl : List Flaw} : QuietFrame c s (s.endGrids c u e mem fl) :=
  setGrids.trans (foldl (fun _ _ => updGrid.trans loadShadow) _)

theorem access {j : Job} {reads writes : List Nat} {v : State} {o : Option (DErr ⊕ Nat)} (h : s.access j reads writes = (v, o)) :
    QuietFrame c s v := by
  rw [access_fst h]
  exact of_touch (.touchAll ..)

end QuietFrame

theorem lrd_access {s v : State} {j : Job} {reads writes : List Nat} {o : Option (DErr ⊕ Nat)}
    (h : s.access j reads writes = (v, o)) : v.lrd j = s.lrd j := by
  rw [access_fst h]
  exact (TouchFrame.touchAll ..).view.lrd j

theorem countStalls_mem (s : State) (c : CoreId) (u : MatUnit) (m : MatD) (w feed drain : Nat) :
    (s.countStalls c u m w feed drain).mem = s.mem := by
  unfold State.countStalls
  dsimp only
  split
  · rw [count_mem, count_mem]
  · rw [count_mem]

theorem access_mem {s v : State} {j : Job} {reads writes : List Nat} {o : Option (DErr ⊕ Nat)}
    (h : s.access j reads writes = (v, o)) : v.mem = s.mem := by
  rw [access_fst h]
  exact (TouchFrame.touchAll ..).view.mem

theorem countBeats_mem (s : State) (c : CoreId) (u : MatUnit) (ganged : Bool) (cols n : Nat) :
    (s.countBeats c u ganged cols n).mem = s.mem := by
  unfold State.countBeats
  dsimp only
  generalize (if ganged = true then (List.range 4).filter fun a => decide (256 * a < cols) else [u.array.val]) = as
  induction as generalizing s with
  | nil => rfl
  | cons a as ih => exact (ih _).trans (count64_mem ..)

/-- An issued descriptor after an update is the updated one of before. -/
theorem mem_updIssued {s : State} {c : CoreId} {seq : Nat} {f : Issued → Issued} {x : Issued}
    (h : x ∈ (s.updIssued c seq f).cores[c].issued) : ∃ y ∈ s.cores[c].issued, (if y.seq = seq then f y else y) = x := by
  rw [State.updIssued, updCore_same] at h
  exact List.mem_map.1 h

theorem map_issued_finish (s : State) (c : CoreId) (e : Issued) :
    ((s.finish c e).cores[c].issued.map fun x => (x.seq, x.words, x.queue)) =
      (s.cores[c].issued.map fun x => (x.seq, x.words, x.queue)) := by
  rw [State.finish, State.updIssued, updCore_same, List.map_map]
  refine List.map_congr_left fun x _ => ?_
  simp only [Function.comp]
  split <;> rfl

/-- What rests of partial sums in a gang's gradient buffer, with its addresses. -/
def restStores (c : CoreId) (m : MatD) (mem : Nat → Byte) (w lim : Nat) : List (Nat × Byte) :=
  (m.rests mem w lim).map fun x => (gbBase c.val + x.1, x.2)

theorem rd_putRests (s : State) (c : CoreId) (m : MatD) (mem : Nat → Byte) (w lim a : Nat) :
    (s.putRests c m mem w lim).rd a = (s.put (restStores c m mem w lim)).rd a := by
  unfold State.putRests
  dsimp only
  split
  next h => rw [restStores, h]; rfl
  · rfl

theorem cores_putRests (s : State) (c : CoreId) (m : MatD) (mem : Nat → Byte) (w lim : Nat) :
    (s.putRests c m mem w lim).cores = s.cores := by
  unfold State.putRests
  dsimp only
  split <;> rfl

theorem engineFrame_putRests (s : State) (c : CoreId) (m : MatD) (mem : Nat → Byte) (w lim : Nat) :
    EngineFrame c s (s.putRests c m mem w lim) := by
  unfold State.putRests
  dsimp only
  split
  · exact .refl c s
  · exact .put ..

/-- The registers of the report of a stream's MAT, and the counter of truncations. -/
def matDoneRegs (c : CoreId) (x : CtxId) : List Nat :=
  [coreNumWtruncLo c.val, coreNumWtruncHi c.val, coreMatRptWt c.val x.val, coreMatRptInfo c.val x.val]

/-- A MAT's report, once its registers are written, only raises an event and notes it at the job. -/
theorem matDone_after_report (s : State) (c : CoreId) (e : Issued) (u : MatUnit) (n : Nat) (failed retried : Bool) :
    CountFrame c [] ((s.count64 (coreNumWtruncLo c.val) (coreNumWtruncHi c.val) n).matReport c e.ctx u n failed retried)
      (s.matDone c e u n failed retried) := by
  unfold State.matDone
  dsimp only
  split
  · exact .refl ..
  · split
    · exact .refl ..
    · exact CountFrame.raise.trans .updJob

theorem matReport_frame (s : State) (c : CoreId) (x : CtxId) (u : MatUnit) (n : Nat) (failed retried : Bool) :
    CountFrame c (matDoneRegs c x) s (s.matReport c x u n failed retried) :=
  (CountFrame.setReg (by simp [matDoneRegs])).trans (.setReg (by simp [matDoneRegs]))

theorem matDone_quiet (s : State) (c : CoreId) (e : Issued) (u : MatUnit) (n : Nat) (failed retried : Bool) :
    QuietFrame c s (s.matDone c e u n failed retried) :=
  (QuietFrame.count64.trans (.of_count (matReport_frame ..))).trans (.of_count (matDone_after_report ..))

theorem isEventReg_matRptWt (c : CoreId) (x : CtxId) : isEventReg (coreMatRptWt c.val x.val) = false := by
  have hx := x.isLt
  rw [coreMatRptWt, Nat.add_assoc]
  exact isEventReg_core c.val c.isLt (by omega)

theorem isEventReg_matRptInfo (c : CoreId) (x : CtxId) : isEventReg (coreMatRptInfo c.val x.val) = false := by
  have hx := x.isLt
  rw [coreMatRptInfo, Nat.add_assoc]
  exact isEventReg_core c.val c.isLt (by omega)

theorem matDone_reports (s : State) (c : CoreId) (e : Issued) (u : MatUnit) (n : Nat) (failed retried : Bool) :
    (s.matDone c e u n failed retried).reg (coreMatRptWt c.val e.ctx.val) = BitVec.ofNat 32 (satAdd 32 0 n) ∧
      (s.matDone c e u n failed retried).reg (coreMatRptInfo c.val e.ctx.val) =
        BitVec.ofNat 32 (512 * b2n failed + 256 * b2n retried + 16 * u.half.val + u.array.val) := by
  have hdone := matDone_after_report s c e u n failed retried
  constructor
  · rw [hdone.reg _ (isEventReg_matRptWt c e.ctx) List.not_mem_nil, State.matReport,
      reg_setReg_other _ _ (by unfold coreMatRptWt coreMatRptInfo; omega), reg_setReg_same]
  · rw [hdone.reg _ (isEventReg_matRptInfo c e.ctx) List.not_mem_nil, State.matReport, reg_setReg_same]

/-- A MAT that reads, checks and passes: what it leaves to be done once its outputs are known. -/
theorem runMat_passes {c : CoreId} {u : MatUnit} {e : Issued} {first : Option MatUnit} {lo : Nat} {flaws : List Flaw}
    {feed drain : Nat} {j : Job} {v s : State} {writes : List Nat} (hjob : s.job e.part = some j)
    (hwrites : writes = if (matD e.words).acc then (matD e.words).accAddrs else (matD e.words).rO.addrs (matD e.words).fO true)
    (haccess : (s.countStalls c u (matD e.words) (s.width c u) feed drain).access j (matD e.words).readAddrs writes = (v, none))
    (hbreach : (matD e.words).breaches (v.lrd j) = [])
    (hstrict : (matD e.words).strict = true → (matD e.words).trunc (v.lrd j) = 0)
    (hverdict : (matD e.words).verdict (v.lrd j) flaws (s.width c u) = none) :
    ∃ b, QuietFrame c s b ∧ b.mem = s.mem ∧ ∃ d,
      QuietFrame c ((b.matOutputs c e j (matD e.words) (v.lrd j) flaws (s.width c u) lo
        ((matD e.words).groups (s.width c u))).putRests c (matD e.words) (v.lrd j) (s.width c u)
        ((matD e.words).groups (s.width c u))) d ∧
      s.runMat c u e first lo flaws feed drain =
        if (matD e.words).acc ∧ !e.mute then
          d.updIssued c e.seq fun x => { x with
            phase := .running
            prog := [2, (matD e.words).trunc (v.lrd j), u.array.val, u.half.val, b2n first.isSome] }
        else (d.matDone c e u ((matD e.words).trunc (v.lrd j)) false first.isSome).finish c e := by
  have hread : QuietFrame c s v := QuietFrame.countStalls.trans (.access haccess)
  have hbeats : QuietFrame c v (v.countBeats c u v.cores[c].ganged (matD e.words).cols ((matD e.words).wavefronts (s.width c u))) :=
    .countBeats
  refine ⟨_, hread.trans hbeats, ?_, _, .endGrids (u := u) (e := e) (mem := v.lrd j) (fl := flaws), ?_⟩
  · rw [countBeats_mem, access_mem haccess, countStalls_mem]
  · unfold State.runMat
    rw [hjob]
    dsimp only
    rw [← hwrites, haccess]
    dsimp only
    rw [if_neg (not_not_intro hbreach), if_neg fun h => h.2 (hstrict h.1), hverdict]

/-- The first clause of O18. -/
theorem runMat_stores (c : CoreId) (u : MatUnit) (e : Issued) (first : Option MatUnit) (lo : Nat) (flaws : List Flaw)
    (feed drain : Nat) (j : Job) (v s : State) (hjob : s.job e.part = some j) (hacc : (matD e.words).acc = false)
    (haccess : (s.countStalls c u (matD e.words) (s.width c u) feed drain).access j (matD e.words).readAddrs
      ((matD e.words).rO.addrs (matD e.words).fO true) = (v, none))
    (hbreach : (matD e.words).breaches (v.lrd j) = [])
    (hstrict : (matD e.words).strict = true → (matD e.words).trunc (v.lrd j) = 0)
    (hverdict : (matD e.words).verdict (v.lrd j) flaws (s.width c u) = none) :
    ∃ t : State, s.runMat c u e first lo flaws feed drain = t ∧
      (∀ a, s.inRings a = false → t.rd a =
        ((s.lput j ((matD e.words).stores (v.lrd j) flaws (s.width c u) ((matD e.words).groups (s.width c u)))).put
          (((matD e.words).rests (v.lrd j) (s.width c u) ((matD e.words).groups (s.width c u))).map fun x =>
            (gbBase c.val + x.1, x.2))).rd a) ∧
      (∀ a, v.lrd j a = s.lrd j a) ∧
      t.reg (coreMatRptWt c.val e.ctx.val) = BitVec.ofNat 32 (satAdd 32 0 ((matD e.words).trunc (v.lrd j))) ∧
      t.reg (coreMatRptInfo c.val e.ctx.val) = BitVec.ofNat 32 (256 * b2n first.isSome + 16 * u.half.val + u.array.val) ∧
      (∀ x ∈ t.cores[c].issued, x.seq = e.seq → x.phase = .finished) ∧
      (t.cores[c].issued.map fun x => (x.seq, x.words, x.queue)) = (s.cores[c].issued.map fun x => (x.seq, x.words, x.queue)) ∧
      EngineFrame c s t := by
  obtain ⟨b, hb, hmem, d, hd, hrun⟩ := runMat_passes (first := first) (lo := lo) hjob (by rw [hacc]; rfl) haccess hbreach hstrict hverdict
  rw [if_neg (by rw [hacc]; exact fun h => Bool.noConfusion h.1)] at hrun
  have hout : QuietFrame c (b.lput j ((matD e.words).stores (v.lrd j) flaws (s.width c u) ((matD e.words).groups (s.width c u))))
      (b.matOutputs c e j (matD e.words) (v.lrd j) flaws (s.width c u) lo ((matD e.words).groups (s.width c u))) := by
    unfold State.matOutputs
    rw [if_neg (by rw [hacc]; exact Bool.false_ne_true)]
    exact .outCounts
  have hdone := matDone_quiet d c e u ((matD e.words).trunc (v.lrd j)) false first.isSome
  obtain ⟨hwt, hinfo⟩ := matDone_reports d c e u ((matD e.words).trunc (v.lrd j)) false first.isSome
  have hstored := (hb.engine.trans (.lput c b j _)).trans hout.engine
  have hrests := hstored.trans (engineFrame_putRests _ c (matD e.words) (v.lrd j) (s.width c u) ((matD e.words).groups (s.width c u)))
  refine ⟨_, hrun, fun a ha => ?_, fun a => ?_, ?_, ?_, finish_issued _ c e, ?_,
    ((hrests.trans hd.engine).trans hdone.engine).trans (.finish ..)⟩
  · rw [State.finish, updIssued_rd, hdone.rd a (((hrests.trans hd.engine).inRings a).trans ha),
      hd.rd a ((hrests.inRings a).trans ha), rd_putRests]
    refine rd_put_congr ((hout.rd a (((hb.engine.trans (.lput c b j _)).inRings a).trans ha)).trans ?_)
    exact rd_lput_congr j _ hmem a
  · rw [lrd_access haccess, State.lrd, State.lrd, State.rd, State.rd, countStalls_mem]
  · rw [State.finish, updIssued_reg, hwt]
  · rw [State.finish, updIssued_reg, hinfo]
    simp [b2n]
  · rw [map_issued_finish, hdone.issued, hd.issued, cores_putRests, hout.issued, lput_cores, hb.issued]

/-- The second clause of O18. -/
theorem runMat_adds (c : CoreId) (u : MatUnit) (e : Issued) (first : Option MatUnit) (lo : Nat) (flaws : List Flaw)
    (feed drain : Nat) (j : Job) (v s : State) (hjob : s.job e.part = some j) (hacc : (matD e.words).acc = true)
    (hmute : e.mute = false)
    (haccess : (s.countStalls c u (matD e.words) (s.width c u) feed drain).access j (matD e.words).readAddrs
      (matD e.words).accAddrs = (v, none))
    (hbreach : (matD e.words).breaches (v.lrd j) = [])
    (hstrict : (matD e.words).strict = true → (matD e.words).trunc (v.lrd j) = 0)
    (hverdict : (matD e.words).verdict (v.lrd j) flaws (s.width c u) = none) :
    ∃ t : State, s.runMat c u e first lo flaws feed drain = t ∧
      (∀ a, s.inRings a = false → t.rd a =
        (s.put (((matD e.words).rests (v.lrd j) (s.width c u) ((matD e.words).groups (s.width c u))).map fun x =>
            (gbBase c.val + x.1, x.2))).rd a) ∧
      (∀ x ∈ t.cores[c].issued, x.seq = e.seq → x.phase = .running ∧ ∃ y ∈ s.cores[c].issued, y.seq = e.seq ∧
        x.adds = y.adds ++ [⟨(matD e.words).tensorW, (matD e.words).contributions (v.lrd j) flaws (s.width c u) lo
          ((matD e.words).groups (s.width c u)) (j.prescale (matD e.words).tensorW), false⟩]) ∧
      EngineFrame c s t := by
  obtain ⟨b, hb, hmem, d, hd, hrun⟩ := runMat_passes (first := first) (lo := lo) hjob (by rw [hacc]; rfl) haccess hbreach hstrict hverdict
  rw [if_pos (by rw [hacc, hmute]; exact ⟨rfl, rfl⟩)] at hrun
  have hout : b.matOutputs c e j (matD e.words) (v.lrd j) flaws (s.width c u) lo ((matD e.words).groups (s.width c u)) =
      b.updIssued c e.seq fun x => { x with adds := x.adds ++ [⟨(matD e.words).tensorW,
        (matD e.words).contributions (v.lrd j) flaws (s.width c u) lo ((matD e.words).groups (s.width c u))
          (j.prescale (matD e.words).tensorW), false⟩] } := by
    unfold State.matOutputs
    rw [if_pos hacc, hmute]
    rfl
  have hadds : EngineFrame c b (b.matOutputs c e j (matD e.words) (v.lrd j) flaws (s.width c u) lo
      ((matD e.words).groups (s.width c u))) := by
    rw [hout]
    exact .updIssued ..
  have hrests := (hb.engine.trans hadds).trans
    (engineFrame_putRests _ c (matD e.words) (v.lrd j) (s.width c u) ((matD e.words).groups (s.width c u)))
  refine ⟨_, hrun, fun a ha => ?_, fun x hx hseq => ?_, (hrests.trans hd.engine).trans (.updIssued ..)⟩
  · rw [updIssued_rd, hd.rd a ((hrests.inRings a).trans ha), rd_putRests]
    refine rd_put_congr ?_
    rw [hout, updIssued_rd, State.rd, State.rd, hmem]
  · obtain ⟨y, hy, rfl⟩ := mem_updIssued hx
    rw [hd.issued, cores_putRests, hout] at hy
    obtain ⟨z, hz, rfl⟩ := mem_updIssued hy
    rw [hb.issued] at hz
    by_cases hzseq : z.seq = e.seq
    · simp only [hzseq, if_true]
      exact ⟨trivial, z, hz, hzseq, rfl⟩
    · simp only [hzseq, if_false] at hseq

/-- Settles O18. -/
theorem matRunFinishes : Obligations.MatRunFinishes := ⟨runMat_stores, runMat_adds⟩

end Sys2Proof.Machine


namespace Sys2Proof.Machine

/-! ### Whole registers as counters -/

theorem putFld_whole (w : Word) (v : Nat) : putFld w 31 0 v = BitVec.ofNat 32 v := by
  refine BitVec.eq_of_getLsbD_eq fun i hi => ?_
  rw [getLsbD_putFld w 31 0 v i hi, if_pos (by omega), Nat.sub_zero, BitVec.getLsbD_ofNat, decide_eq_true hi, Bool.true_and]

theorem fld_whole (w : Word) : fld w 31 0 = w.toNat := Nat.mod_eq_of_lt w.isLt

theorem reg_count_same (s : State) (o k : Nat) : (s.count o k).reg o = BitVec.ofNat 32 (satAdd 32 (s.reg o).toNat k) := by
  rw [State.count, State.countFld, reg_setFld_same, putFld_whole, State.regFld, fld_whole]

/-! ### Additions to the gradient buffer -/

theorem QuietFrame.kneadFirst {c d : CoreId} {s : State} {u : Fin 3} {rs : List Nat} : QuietFrame c s (s.kneadFirst d u rs) := by
  unfold State.kneadFirst
  refine ⟨.updCore_wake fun _ => rfl, ?_, fun _ _ => rfl⟩
  by_cases hd : c = d
  · subst hd
    rw [updCore_same]
  · rw [updCore_other s _ hd]

theorem QuietFrame.raise {c : CoreId} {s : State} {src : Src} {part : Option PartId} {code : Nat} {ds : List Nat} :
    QuietFrame c s (s.raise src part code ds) :=
  .of_count (.raise (rs := []))

/-- What the MC notes of correctable errors. -/
theorem QuietFrame.updCe {c : CoreId} {s : State} {log : List CeEntry} {raised : List (Nat × Nat)} :
    QuietFrame c s { s with mc := { s.mc with ceLog := log, ceRaised := raised } } :=
  ⟨⟨rfl, rfl, rfl, rfl, rfl, rfl, rfl, rfl, rfl, rfl, rfl, rfl, fun _ => rfl, fun _ _ => rfl, rfl⟩, rfl, fun _ _ => rfl⟩

theorem QuietFrame.correctedAt {c : CoreId} {s : State} {level idx bank region : Nat} :
    QuietFrame c s (s.correctedAt level idx bank region) := by
  unfold State.correctedAt
  dsimp only
  split
  · split
    · exact ((QuietFrame.count.trans .updCe).trans .raise).trans .kneadFirst
    · exact (QuietFrame.count.trans .updCe).trans .raise
  · exact QuietFrame.count.trans .updCe

/-- Which units still have a correctable error. -/
theorem QuietFrame.updWeak {c : CoreId} {s : State} {w : List Nat} : QuietFrame c s { s with weakUnits := w } :=
  ⟨.of_rest, rfl, fun _ _ => rfl⟩

theorem QuietFrame.meetUnits {c : CoreId} {s : State} {f : Nat → Bool} : QuietFrame c s (s.meetUnits f) := by
  refine foldl (fun t x => ?_) _
  dsimp only
  split
  · exact QuietFrame.trans .correctedAt .updWeak
  · exact .correctedAt

theorem QuietFrame.meetReads {c : CoreId} {s : State} {as : List Nat} : QuietFrame c s (s.meetReads as) := meetUnits

/-- What an addition meets at a target slot, or where there is none. -/
def State.slotFate (j : Job) (h : LCtx) (e : Issued) : Option Nat → AddFate
  | none => .absent
  | some k => State.addFate j h e k

/-- The fates of an addition's targets. -/
def State.fates (j : Job) (h : LCtx) (e : Issued) : List (Option Nat × AddFate) :=
  (h.targetSlots e.lcore e.gbRuns).map fun o => (o, State.slotFate j h e o)

/-- An addition that may be made now, as far as its stream goes: of a descriptor issued at place `k`, not stopped, with sums to
add and no earlier addition to the same elements left. -/
structure State.AdditionDue (s : State) (c : CoreId) (k : Nat) (e : Issued) (j : Job) (v : Serve) : Prop where
  issued : s.cores[c].issued[k]? = some e
  job : s.job e.part = some j
  adds : e.addsToGb = true
  mute : e.mute = false
  some_adds : e.adds ≠ []
  free : s.addBlocked c e = false
  serve : j.serve e.lcore = some v

theorem exec_gbAddition_due {s : State} {c : CoreId} {k : Nat} {e : Issued} {j : Job} {v : Serve} (h : s.AdditionDue c k e j v) :
    exec (.gbAddition c k) s =
      match (State.fates j (s.lctx v) e).find? fun f => f.2 = .absent with
      | some (o, _) => .next (s.addFails c e (.inl ⟨0x4401, [c.val, o.getD 0xFF, e.tensorW]⟩))
      | none =>
        if (State.fates j (s.lctx v) e).any fun f => f.2 = .waits then
          if e.adds.any PendingAdd.waited then .next s
          else .next ((s.count (coreGbWaits c.val) 1).updIssued c e.seq fun x => { x with
            adds := x.adds.map fun a => { a with waited := true } })
        else
          match (s.meetReads (((e.adds.flatMap PendingAdd.elems).flatMap fun x => span x.1 8).map (j.phys false))).access j
              ((e.adds.flatMap PendingAdd.elems).flatMap fun x => span x.1 8)
              ((e.adds.flatMap PendingAdd.elems).flatMap fun x => span x.1 8) with
          | (s, some err) => .next (s.addFails c e err)
          | (s, none) => .next ((s.putSums c e.part j e.tensorW (s.sums j (e.adds.flatMap PendingAdd.elems))).addsMade c e) := by
  have hblocked : ¬ (e.adds = [] ∨ s.addBlocked c e = true) := by simp [h.some_adds, h.free]
  show execGbAddition c k s = _
  unfold execGbAddition
  simp only [h.issued, h.job, h.adds, h.mute, if_neg hblocked, h.serve]
  rfl

theorem find?_fates_eq_none {j : Job} {h : LCtx} {e : Issued}
    (hne : ∀ o ∈ h.targetSlots e.lcore e.gbRuns, State.slotFate j h e o ≠ .absent) :
    ((State.fates j h e).find? fun f => f.2 = .absent) = none := by
  simpa [State.fates] using hne

theorem find?_fates_eq_some {j : Job} {h : LCtx} {e : Issued} {o : Option Nat} (ho : o ∈ h.targetSlots e.lcore e.gbRuns)
    (habsent : State.slotFate j h e o = .absent) :
    ∃ f, ((State.fates j h e).find? fun f => f.2 = .absent) = some f := by
  rw [← Option.isSome_iff_exists, List.find?_isSome]
  exact ⟨(o, State.slotFate j h e o), List.mem_map_of_mem ho, decide_eq_true habsent⟩

theorem any_fates_waits {j : Job} {h : LCtx} {e : Issued} :
    ((State.fates j h e).any fun f => f.2 = .waits) = true ↔
      ∃ o ∈ h.targetSlots e.lcore e.gbRuns, State.slotFate j h e o = .waits := by
  simp [State.fates]

theorem lrdBytes_congr {s t : State} {j : Job} (h : t.lrd j = s.lrd j) (a n : Nat) : t.lrdBytes j a n = s.lrdBytes j a n := by
  simp only [State.lrdBytes, h]

theorem sums_congr {s t : State} {j : Job} (h : t.lrd j = s.lrd j) (els : List (Nat × XNum)) : t.sums j els = s.sums j els := by
  simp only [State.sums, lrdBytes_congr h]

/-- The stores of sums. -/
theorem rd_putSums (s : State) (c : CoreId) (p : PartId) (j : Job) (tensor : Nat) (ws : List (Nat × Nat)) {a : Nat}
    (ha : s.inRings a = false) : (s.putSums c p j tensor ws).rd a =
      (s.lput j (ws.flatMap fun w => (indexed (leBytes 8 w.2)).map fun b => (w.1 + b.1, b.2))).rd a :=
  (QuietFrame.outCounts (c := c)).rd a (((EngineFrame.lput c s j _).inRings a).trans ha)

/-- An addition all of whose slots take it is made. -/
theorem gbAddition_made {s q u : State} {c : CoreId} {k : Nat} {e : Issued} {j : Job} {v : Serve} (h : s.AdditionDue c k e j v)
    (hmade : ∀ o ∈ (s.lctx v).targetSlots e.lcore e.gbRuns, ∃ i, o = some i ∧ State.addFate j (s.lctx v) e i = .made)
    (hq : q = s.meetReads (((e.adds.flatMap PendingAdd.elems).flatMap fun x => span x.1 8).map (j.phys false)))
    (haccess : q.access j ((e.adds.flatMap PendingAdd.elems).flatMap fun x => span x.1 8)
      ((e.adds.flatMap PendingAdd.elems).flatMap fun x => span x.1 8) = (u, none)) :
    exec (.gbAddition c k) s =
      .next ((u.putSums c e.part j e.tensorW (u.sums j (e.adds.flatMap PendingAdd.elems))).addsMade c e) := by
  have hfate : ∀ o ∈ (s.lctx v).targetSlots e.lcore e.gbRuns, State.slotFate j (s.lctx v) e o = .made := by
    intro o ho
    obtain ⟨i, rfl, hi⟩ := hmade o ho
    exact hi
  have hfind := find?_fates_eq_none fun o ho => by rw [hfate o ho]; exact AddFate.noConfusion
  have hany : ¬ ((State.fates j (s.lctx v) e).any fun f => f.2 = .waits) = true := by
    rw [any_fates_waits]
    rintro ⟨o, ho, hwaits⟩
    rw [hfate o ho] at hwaits
    cases hwaits
  rw [exec_gbAddition_due h, hfind]
  dsimp only
  rw [if_neg hany, ← hq, haccess]

/-- Memory about an addition: its reads change none, and its sums are those of what they found. -/
theorem gbAddition_memory {s q u : State} {c : CoreId} {e : Issued} {j : Job}
    (hq : q = s.meetReads (((e.adds.flatMap PendingAdd.elems).flatMap fun x => span x.1 8).map (j.phys false)))
    (haccess : q.access j ((e.adds.flatMap PendingAdd.elems).flatMap fun x => span x.1 8)
      ((e.adds.flatMap PendingAdd.elems).flatMap fun x => span x.1 8) = (u, none)) :
    (∀ a, u.lrd j a = q.lrd j a) ∧ (∀ a, s.inRings a = false → q.rd a = s.rd a) ∧
    (∀ a, s.inRings a = false → (u.putSums c e.part j e.tensorW (u.sums j (e.adds.flatMap PendingAdd.elems))).rd a =
      (q.lput j ((q.sums j (e.adds.flatMap PendingAdd.elems)).flatMap fun w =>
        (indexed (leBytes 8 w.2)).map fun b => (w.1 + b.1, b.2))).rd a) := by
  have hmeet : QuietFrame c s q := hq ▸ .meetReads
  have htouch : QuietFrame c q u := .access haccess
  refine ⟨fun a => by rw [lrd_access haccess], hmeet.rd, fun a ha => ?_⟩
  rw [rd_putSums u c _ _ _ _ (((hmeet.engine.trans htouch.engine).inRings a).trans ha), sums_congr (lrd_access haccess)]
  exact rd_lput_congr j _ (access_mem haccess) a

theorem gbAddition_waits {s : State} {c : CoreId} {k : Nat} {e : Issued} {j : Job} {v : Serve} (h : s.AdditionDue c k e j v)
    (hpresent : ∀ o ∈ (s.lctx v).targetSlots e.lcore e.gbRuns, ∃ i, o = some i ∧ State.addFate j (s.lctx v) e i ≠ .absent)
    (hwaits : ∃ i, some i ∈ (s.lctx v).targetSlots e.lcore e.gbRuns ∧ State.addFate j (s.lctx v) e i = .waits) :
    ∃ t : State, exec (.gbAddition c k) s = .next t ∧ t.mem = s.mem ∧ t.parts = s.parts ∧
      (e.adds.any PendingAdd.waited = true → t = s) ∧
      (e.adds.any PendingAdd.waited = false →
        t.reg (coreGbWaits c.val) = BitVec.ofNat 32 (satAdd 32 (s.reg (coreGbWaits c.val)).toNat 1) ∧
        ∀ x ∈ t.cores[c].issued, x.seq = e.seq → ∀ a ∈ x.adds, a.waited = true) := by
  have hfind := find?_fates_eq_none fun o ho => by
    obtain ⟨i, rfl, hi⟩ := hpresent o ho
    exact hi
  obtain ⟨i, hi, hfate⟩ := hwaits
  have hexec := exec_gbAddition_due h
  rw [hfind] at hexec
  dsimp only at hexec
  rw [if_pos (any_fates_waits.2 ⟨some i, hi, hfate⟩)] at hexec
  cases hw : e.adds.any PendingAdd.waited with
  | true =>
    rw [hw, if_pos rfl] at hexec
    exact ⟨s, hexec, rfl, rfl, fun _ => rfl, fun hf => Bool.noConfusion hf⟩
  | false =>
    rw [hw, if_neg Bool.false_ne_true] at hexec
    refine ⟨_, hexec, ?_, ?_, fun ht => Bool.noConfusion ht, fun _ => ⟨?_, fun x hx hseq a ha => ?_⟩⟩
    · rw [updIssued_mem, count_mem]
    · rw [updIssued_parts, count_parts]
    · rw [updIssued_reg, reg_count_same]
    · obtain ⟨y, _, rfl⟩ := mem_updIssued hx
      split at hseq
      · rw [if_pos ‹_›] at ha
        obtain ⟨b, _, rfl⟩ := List.mem_map.1 ha
        rfl
      next hne => exact absurd hseq hne

theorem gbAddition_absent {s : State} {c : CoreId} {k : Nat} {e : Issued} {j : Job} {v : Serve} (h : s.AdditionDue c k e j v)
    (habsent : none ∈ (s.lctx v).targetSlots e.lcore e.gbRuns ∨
      ∃ i, some i ∈ (s.lctx v).targetSlots e.lcore e.gbRuns ∧ State.addFate j (s.lctx v) e i = .absent) :
    ∃ o, exec (.gbAddition c k) s = .next (s.addFails c e (.inl ⟨0x4401, [c.val, o, e.tensorW]⟩)) := by
  have hfind : ∃ f, ((State.fates j (s.lctx v) e).find? fun f => f.2 = .absent) = some f := by
    rcases habsent with hnone | ⟨i, hi, hfate⟩
    · exact find?_fates_eq_some hnone rfl
    · exact find?_fates_eq_some hi hfate
  obtain ⟨f, hf⟩ := hfind
  exact ⟨f.1.getD 0xFF, by rw [exec_gbAddition_due h, hf]⟩

/-- Settles O24. -/
theorem gbAdditionsAreMade : Obligations.GbAdditionsAreMade :=
  ⟨fun _ _ _ _ _ _ _ _ hissued hjob hadds hmute hsome hfree hserve hmade hq haccess =>
      ⟨gbAddition_made ⟨hissued, hjob, hadds, hmute, hsome, hfree, hserve⟩ hmade hq haccess, gbAddition_memory hq haccess⟩,
    fun _ _ _ _ _ _ hissued hjob hadds hmute hsome hfree hserve =>
      gbAddition_waits ⟨hissued, hjob, hadds, hmute, hsome, hfree, hserve⟩,
    fun _ _ _ _ _ _ hissued hjob hadds hmute hsome hfree hserve =>
      gbAddition_absent ⟨hissued, hjob, hadds, hmute, hsome, hfree, hserve⟩⟩

end Sys2Proof.Machine


namespace Sys2Proof.Machine

/-! ### Fields of a register that is written whole -/

theorem fld_ofNat {n hi lo : Nat} (h : n < 2 ^ 32) : fld (BitVec.ofNat 32 n) hi lo = n / 2 ^ lo % 2 ^ (hi + 1 - lo) := by
  rw [fld, nbits, BitVec.toNat_ofNat, Nat.mod_eq_of_lt h, Nat.shiftRight_eq_div_pow]

/-! ### A change at one core -/

/-- `t` is `s` but for core `c`, registers, and where events go. -/
structure AtCore (c : CoreId) (s t : State) : Prop where
  others : ∀ d : CoreId, d ≠ c → t.cores[d] = s.cores[d]
  nvm : t.nvm = s.nvm
  counters : t.counters = s.counters
  job : ∀ p, t.job p = s.job p
  time : t.mc.time = s.mc.time
  hctx : ∀ p, t.hctx p = s.hctx p
  rd : ∀ a, s.inRings a = false → t.rd a = s.rd a

namespace AtCore

variable {c : CoreId} {s t u : State}

theorem refl (c : CoreId) (s : State) : AtCore c s s :=
  ⟨fun _ _ => rfl, rfl, rfl, fun _ => rfl, rfl, fun _ => rfl, fun _ _ => rfl⟩

theorem inRings (h : AtCore c s t) (a : Nat) : t.inRings a = s.inRings a := by
  simp only [State.inRings, h.hctx]

theorem trans (h : AtCore c s t) (k : AtCore c t u) : AtCore c s u where
  others d hd := (k.others d hd).trans (h.others d hd)
  nvm := k.nvm.trans h.nvm
  counters := k.counters.trans h.counters
  job p := (k.job p).trans (h.job p)
  time := k.time.trans h.time
  hctx p := (k.hctx p).trans (h.hctx p)
  rd a ha := (k.rd a ((h.inRings a).trans ha)).trans (h.rd a ha)

theorem raise {src : Src} {part : Option PartId} {code : Nat} {ds : List Nat} : AtCore c s (s.raise src part code ds) :=
  ⟨fun _ _ => by rw [raise_cores], raise_nvm .., raise_counters .., fun _ => raise_job .., raise_mc_field _ _ _ _ _ _ (fun _ _ _ _ => rfl),
    fun _ => raise_hctx .., fun _ ha => raise_rd _ _ _ _ _ ha⟩

theorem setReg {o : Nat} {v : Word} : AtCore c s (s.setReg o v) :=
  ⟨fun _ _ => rfl, rfl, rfl, fun _ => rfl, rfl, fun _ => rfl, fun _ _ => rfl⟩

theorem updCore {f : CoreS → CoreS} : AtCore c s (s.updCore c f) :=
  ⟨fun _ hd => updCore_other s f hd, rfl, rfl, fun _ => rfl, rfl, fun _ => rfl, fun _ _ => rfl⟩

theorem updUnit {a : ArrayId} {h : Fin 2} {f : HalfS → HalfS} : AtCore c s (s.updUnit c a h f) := updCore

theorem foldl {α : Type} {f : State → α → State} (hf : ∀ t x, AtCore c t (f t x)) (xs : List α) : AtCore c s (xs.foldl f s) := by
  induction xs generalizing s with
  | nil => exact refl c s
  | cons x xs ih => exact (hf s x).trans ih

end AtCore

/-! ### Records of a unit -/

theorem unit_updUnit_same (s : State) (c : CoreId) (u : MatUnit) (f : HalfS → HalfS) :
    (s.updUnit c u.array (unitIdx u) f).cores[c].unit u = f (s.cores[c].unit u) := by
  rw [State.updUnit, updCore_same]
  simp [CoreS.unit]

theorem unit_of_arrays {k l : CoreS} (h : l.arrays = k.arrays) (u : MatUnit) : l.unit u = k.unit u := by
  rw [CoreS.unit, CoreS.unit, h]

theorem serviceable_of_arrays {k l : CoreS} (h : l.arrays = k.arrays) (u : MatUnit) : l.serviceable u = k.serviceable u := by
  unfold CoreS.serviceable
  rw [h]

/-- What decides whether a unit is serviceable. -/
theorem serviceable_congr {k l : CoreS} {v : MatUnit} (hsplit : l.arrays[v.array].split = k.arrays[v.array].split)
    (hfirst : v.half ≠ 2 → (l.arrays[v.array].halves[0]).service = (k.arrays[v.array].halves[0]).service)
    (hsecond : v.half ≠ 1 → (l.arrays[v.array].halves[1]).service = (k.arrays[v.array].halves[1]).service) :
    l.serviceable v = k.serviceable v := by
  unfold CoreS.serviceable
  dsimp only
  rw [hsplit]
  by_cases h0 : v.half = 0
  · rw [if_pos h0, if_pos h0, hfirst (by rw [h0]; decide), hsecond (by rw [h0]; decide)]
  · rw [if_neg h0, if_neg h0]
    by_cases h1 : v.half = 1
    · rw [if_pos h1, if_pos h1, hfirst (by rw [h1]; decide)]
    · rw [if_neg h1, if_neg h1, hsecond h1]

/-- A core with the record of one half of an array changed. -/
def CoreS.setHalf (k : CoreS) (a : ArrayId) (h : Fin 2) (f : HalfS → HalfS) : CoreS :=
  { k with arrays := k.arrays.set a { k.arrays[a] with halves := k.arrays[a].halves.set h (f (k.arrays[a].halves[h])) } }

theorem updUnit_eq (s : State) (c : CoreId) (a : ArrayId) (h : Fin 2) (f : HalfS → HalfS) :
    s.updUnit c a h f = s.updCore c fun k => k.setHalf a h f := rfl

theorem split_setHalf (k : CoreS) (a b : ArrayId) (h : Fin 2) (f : HalfS → HalfS) :
    (k.setHalf a h f).arrays[b].split = k.arrays[b].split := by
  by_cases hb : a.val = b.val
  · obtain rfl := Fin.ext hb
    simp [CoreS.setHalf]
  · simp [CoreS.setHalf, Vector.getElem_set_ne _ _ hb]

theorem halves_setHalf_same (k : CoreS) (a : ArrayId) (h : Fin 2) (f : HalfS → HalfS) :
    (k.setHalf a h f).arrays[a].halves[h] = f k.arrays[a].halves[h] := by
  simp [CoreS.setHalf]

theorem halves_setHalf_other (k : CoreS) {a b : ArrayId} {h i : Fin 2} (f : HalfS → HalfS) (hne : b ≠ a ∨ i ≠ h) :
    (k.setHalf a h f).arrays[b].halves[i] = k.arrays[b].halves[i] := by
  by_cases hb : a.val = b.val
  · obtain rfl := Fin.ext hb
    have hi : h.val ≠ i.val := fun he => hne.elim (fun hn => hn rfl) fun hn => hn (Fin.ext he.symm)
    simp [CoreS.setHalf, Vector.getElem_set_ne _ _ hi]
  · simp [CoreS.setHalf, Vector.getElem_set_ne _ _ hb]

theorem unit_eq_half (k : CoreS) (u : MatUnit) : k.unit u = k.arrays[u.array].halves[unitIdx u] := rfl

/-- A unit whose service stays is as serviceable as before. -/
theorem serviceable_setHalf_of_service (k : CoreS) (a : ArrayId) (h : Fin 2) (v : MatUnit) {f : HalfS → HalfS}
    (hf : ∀ x, (f x).service = x.service) : (k.setHalf a h f).serviceable v = k.serviceable v := by
  have hservice (i : Fin 2) : ((k.setHalf a h f).arrays[v.array].halves[i]).service = (k.arrays[v.array].halves[i]).service := by
    by_cases hsame : v.array = a ∧ i = h
    · obtain ⟨rfl, rfl⟩ := hsame
      rw [halves_setHalf_same, hf]
    · rw [halves_setHalf_other]
      exact not_and_or.1 hsame
  exact serviceable_congr (split_setHalf ..) (fun _ => hservice 0) fun _ => hservice 1

@[simp] theorem updUnit_reg (s : State) (c : CoreId) (a : ArrayId) (h : Fin 2) (f : HalfS → HalfS) (o : Nat) :
    (s.updUnit c a h f).reg o = s.reg o := rfl

/-! ### Mismatches -/

/-- What the place register shows of a mismatch (R104). -/
def faultPlace (u : MatUnit) (m : MatD) (w : Nat) (f : ScoreFault) : Nat :=
  2 ^ 31 + (unitIdx u).val * 2 ^ 29 + b2n (f.col.map (cellColumn u w)).isSome * 2 ^ 28 + m.groupField w f.group % 256 * 65536 +
    (f.col.map (cellColumn u w)).getD 0

theorem cellColumn_lt (u : MatUnit) (w j : Nat) : cellColumn u w j < 65536 := by
  unfold cellColumn
  split <;> omega

theorem faultPlace_fields (u : MatUnit) (m : MatD) (w : Nat) (f : ScoreFault) :
    fld (BitVec.ofNat 32 (faultPlace u m w f)) 31 31 = 1 ∧ fld (BitVec.ofNat 32 (faultPlace u m w f)) 29 29 = (unitIdx u).val ∧
      fld (BitVec.ofNat 32 (faultPlace u m w f)) 28 28 = b2n f.col.isSome ∧
      fld (BitVec.ofNat 32 (faultPlace u m w f)) 23 16 = m.groupField w f.group % 256 ∧
      fld (BitVec.ofNat 32 (faultPlace u m w f)) 15 0 = (f.col.map (cellColumn u w)).getD 0 := by
  have hi : (unitIdx u).val < 2 := (unitIdx u).isLt
  have hb : b2n f.col.isSome < 2 := by unfold b2n; split <;> omega
  have hcol : (f.col.map (cellColumn u w)).getD 0 < 65536 := by
    cases f.col with
    | none => exact Nat.zero_lt_succ _
    | some j => exact cellColumn_lt u w j
  have hplace : faultPlace u m w f = 2147483648 + (unitIdx u).val * 536870912 + b2n f.col.isSome * 268435456 +
      m.groupField w f.group % 256 * 65536 + (f.col.map (cellColumn u w)).getD 0 := by
    rw [faultPlace, Option.isSome_map]
    norm_num
  generalize (unitIdx u).val = i at *
  generalize b2n f.col.isSome = b at *
  generalize (f.col.map (cellColumn u w)).getD 0 = x at *
  generalize m.groupField w f.group = g at *
  have hlt : faultPlace u m w f < 2 ^ 32 := by omega
  simp only [fld_ofNat hlt]
  omega

/-- A mismatch reported, counted and placed. -/
def State.placeMismatch (s : State) (c : CoreId) (u : MatUnit) (m : MatD) (w : Nat) (f : ScoreFault) : State :=
  ((s.raise (.core c.val) s.cores[c].part 0x4101
    [c.val, u.array.val, (unitIdx u).val, (f.col.map (cellColumn u w)).getD 0xFFFF, m.groupField w f.group]).count
    (coreArrMismatch c.val u.array.val) 1).setReg (coreArrFaultloc c.val u.array.val) (BitVec.ofNat 32 (faultPlace u m w f))

/-- A mismatch counted, placed and noted at its unit. -/
def State.noteMismatch (s : State) (c : CoreId) (u : MatUnit) (m : MatD) (w : Nat) (f : ScoreFault) : State :=
  (s.placeMismatch c u m w f).updUnit c u.array (unitIdx u) fun h =>
    { h with mismatches := (s.placeMismatch c u m w f).within24 h.mismatches ++ [(s.placeMismatch c u m w f).mc.time] }

theorem mismatch_eq (s : State) (c : CoreId) (u : MatUnit) (m : MatD) (w : Nat) (f : ScoreFault) :
    s.mismatch c u m w f =
      if 2 ≤ ((s.noteMismatch c u m w f).cores[c].unit u).mismatches.length ∧
          ((s.noteMismatch c u m w f).cores[c].unit u).service = .inService then
        (s.noteMismatch c u m w f).suspect c u
      else s.noteMismatch c u m w f := rfl

theorem within24_congr {s t : State} (h : t.mc.time = s.mc.time) (ts : List Nat) : t.within24 ts = s.within24 ts := by
  rw [State.within24, State.within24, h]

theorem placeMismatch_atCore (s : State) (c : CoreId) (u : MatUnit) (m : MatD) (w : Nat) (f : ScoreFault) :
    AtCore c s (s.placeMismatch c u m w f) :=
  (AtCore.raise.trans .setReg).trans .setReg

theorem noteMismatch_atCore (s : State) (c : CoreId) (u : MatUnit) (m : MatD) (w : Nat) (f : ScoreFault) :
    AtCore c s (s.noteMismatch c u m w f) :=
  (placeMismatch_atCore ..).trans .updUnit

theorem placeMismatch_cores (s : State) (c : CoreId) (u : MatUnit) (m : MatD) (w : Nat) (f : ScoreFault) :
    (s.placeMismatch c u m w f).cores = s.cores := by
  rw [State.placeMismatch, setReg_cores, count_cores, raise_cores]

/-- Of its core, a mismatch changes the unit's record alone. -/
theorem noteMismatch_core (s : State) (c : CoreId) (u : MatUnit) (m : MatD) (w : Nat) (f : ScoreFault) :
    (s.noteMismatch c u m w f).cores[c] = s.cores[c].setHalf u.array (unitIdx u) fun h =>
      { h with mismatches := s.within24 h.mismatches ++ [s.mc.time] } := by
  have htime := (placeMismatch_atCore s c u m w f).time
  have hwithin := within24_congr htime
  rw [State.noteMismatch, updUnit_eq, updCore_same, placeMismatch_cores]
  simp only [hwithin, htime]

theorem noteMismatch_unit (s : State) (c : CoreId) (u : MatUnit) (m : MatD) (w : Nat) (f : ScoreFault) :
    (s.noteMismatch c u m w f).cores[c].unit u = { s.cores[c].unit u with
      mismatches := s.within24 (s.cores[c].unit u).mismatches ++ [s.mc.time] } := by
  rw [unit_eq_half, noteMismatch_core, halves_setHalf_same]
  rfl

theorem isEventReg_arrMismatch (c : CoreId) (a : ArrayId) : isEventReg (coreArrMismatch c.val a.val) = false := by
  have ha := a.isLt
  rw [coreArrMismatch, Nat.add_assoc]
  exact isEventReg_core c.val c.isLt (by omega)

theorem noteMismatch_count (s : State) (c : CoreId) (u : MatUnit) (m : MatD) (w : Nat) (f : ScoreFault) :
    (s.noteMismatch c u m w f).reg (coreArrMismatch c.val u.array.val) =
      BitVec.ofNat 32 (satAdd 32 (s.reg (coreArrMismatch c.val u.array.val)).toNat 1) := by
  rw [State.noteMismatch, updUnit_reg, State.placeMismatch, reg_setReg_other _ _ (by unfold coreArrMismatch coreArrFaultloc; omega), reg_count_same, raise_reg _ _ _ _ _ (isEventReg_arrMismatch c u.array)]

theorem noteMismatch_place (s : State) (c : CoreId) (u : MatUnit) (m : MatD) (w : Nat) (f : ScoreFault) :
    (s.noteMismatch c u m w f).reg (coreArrFaultloc c.val u.array.val) = BitVec.ofNat 32 (faultPlace u m w f) := by
  rw [State.noteMismatch, updUnit_reg, State.placeMismatch, reg_setReg_same]

/-- The first clause of O19. -/
theorem mismatch_noted (c : CoreId) (u : MatUnit) (m : MatD) (w : Nat) (f : ScoreFault) (s : State)
    (h : ¬ (2 ≤ (s.within24 (s.cores[c].unit u).mismatches ++ [s.mc.time]).length ∧ (s.cores[c].unit u).service = .inService)) :
    ∃ t : State, s.mismatch c u m w f = t ∧
      t.reg (coreArrMismatch c.val u.array.val) = BitVec.ofNat 32 (satAdd 32 (s.reg (coreArrMismatch c.val u.array.val)).toNat 1) ∧
      t.regFld (coreArrFaultloc c.val u.array.val) 31 31 = 1 ∧ t.regFld (coreArrFaultloc c.val u.array.val) 29 29 = (unitIdx u).val ∧
      t.regFld (coreArrFaultloc c.val u.array.val) 28 28 = b2n f.col.isSome ∧
      t.regFld (coreArrFaultloc c.val u.array.val) 23 16 = m.groupField w f.group % 256 ∧
      t.regFld (coreArrFaultloc c.val u.array.val) 15 0 = (f.col.map (cellColumn u w)).getD 0 ∧
      (t.cores[c].unit u).mismatches = s.within24 (s.cores[c].unit u).mismatches ++ [s.mc.time] ∧
      (t.cores[c].unit u).service = (s.cores[c].unit u).service ∧ t.cores[c].issued = s.cores[c].issued ∧
      (∀ d : CoreId, d ≠ c → t.cores[d] = s.cores[d]) ∧ t.nvm = s.nvm ∧ t.counters = s.counters ∧
      (∀ p, t.job p = s.job p) ∧ ∀ a, s.inRings a = false → t.rd a = s.rd a := by
  have hcore := noteMismatch_atCore s c u m w f
  obtain ⟨hvalid, hhalf, hcolKnown, hgroup, hcol⟩ := faultPlace_fields u m w f
  refine ⟨s.noteMismatch c u m w f, ?_, noteMismatch_count s c u m w f, ?_, ?_, ?_, ?_, ?_, ?_, ?_, ?_, hcore.others, hcore.nvm,
    hcore.counters, hcore.job, hcore.rd⟩
  · rw [mismatch_eq, noteMismatch_unit, if_neg h]
  all_goals try rw [State.regFld, noteMismatch_place]
  · exact hvalid
  · exact hhalf
  · exact hcolKnown
  · exact hgroup
  · exact hcol
  · rw [noteMismatch_unit]
  · rw [noteMismatch_unit]
  · rw [noteMismatch_core]
    rfl

/-! ### Units under suspicion -/

/-- A core whose unit `u` is suspect. -/
def CoreS.suspectUnit (k : CoreS) (u : MatUnit) : CoreS :=
  let k := k.setHalf u.array (unitIdx u) fun h => { h with service := .suspect }
  if u.half = 0 then k.setHalf u.array 1 fun h => { h with service := .suspect } else k

theorem setService_suspect (s : State) (c : CoreId) (u : MatUnit) :
    (s.setService c u .suspect).cores[c] = s.cores[c].suspectUnit u := by
  unfold State.setService CoreS.suspectUnit
  dsimp only
  split
  · rw [updUnit_eq, updCore_same, updUnit_eq, updCore_same]
  · rw [updUnit_eq, updCore_same]

theorem suspectUnit_rest (k : CoreS) (u : MatUnit) : k.suspectUnit u = { k with arrays := (k.suspectUnit u).arrays } := by
  unfold CoreS.suspectUnit
  dsimp only
  split <;> rfl

theorem service_suspectUnit (k : CoreS) (u : MatUnit) : ((k.suspectUnit u).unit u).service = .suspect := by
  unfold CoreS.suspectUnit
  dsimp only
  split
  next h =>
    have hidx : unitIdx u = 0 := by unfold unitIdx; rw [h]; rfl
    rw [unit_eq_half, halves_setHalf_other _ _ (.inr (by rw [hidx]; decide)), halves_setHalf_same]
  · rw [unit_eq_half, halves_setHalf_same]

/-- Another array's unit, or the other half of the array, stays as it was. -/
theorem serviceable_suspectUnit_other (k : CoreS) {u v : MatUnit}
    (hv : v.array ≠ u.array ∨ (u.half ≠ 0 ∧ v.half ≠ 0 ∧ v.half ≠ u.half)) : (k.suspectUnit u).serviceable v = k.serviceable v := by
  unfold CoreS.suspectUnit
  dsimp only
  split
  next h =>
    have hne : v.array ≠ u.array := hv.resolve_right fun hn => hn.1 h
    refine serviceable_congr ?_ (fun _ => ?_) fun _ => ?_
    · rw [split_setHalf, split_setHalf]
    · exact congrArg HalfS.service
        ((halves_setHalf_other (i := 0) _ _ (.inl hne)).trans (halves_setHalf_other (i := 0) _ _ (.inl hne)))
    · exact congrArg HalfS.service
        ((halves_setHalf_other (i := 1) _ _ (.inl hne)).trans (halves_setHalf_other (i := 1) _ _ (.inl hne)))
  next h =>
    refine serviceable_congr (split_setHalf ..) (fun h2 => ?_) fun h1 => ?_
    · refine congrArg HalfS.service (halves_setHalf_other (i := 0) _ _ ?_)
      refine hv.imp_right fun ⟨_, hv0, hvu⟩ hidx => ?_
      have hu : u.half ≠ 2 := fun hu => by rw [unitIdx, if_pos hu] at hidx; exact absurd hidx (by decide)
      omega
    · refine congrArg HalfS.service (halves_setHalf_other (i := 1) _ _ ?_)
      refine hv.imp_right fun ⟨_, hv0, hvu⟩ hidx => ?_
      have hu : u.half = 2 := by
        by_contra hu
        rw [unitIdx, if_neg hu] at hidx
        exact absurd hidx (by decide)
      omega

theorem not_serviceable_suspectUnit (k : CoreS) (u : MatUnit) : (k.suspectUnit u).serviceable u = false := by
  have hsuspect := service_suspectUnit k u
  rw [unit_eq_half] at hsuspect
  unfold CoreS.serviceable
  dsimp only
  by_cases h0 : u.half = 0
  · have hidx : unitIdx u = 0 := by unfold unitIdx; rw [h0]; rfl
    simp only [hidx] at hsuspect
    have hs : ((k.suspectUnit u).arrays[u.array].halves[0]).service = .suspect := hsuspect
    rw [if_pos h0, hs]
    simp
  · rw [if_neg h0]
    by_cases h1 : u.half = 1
    · have hidx : unitIdx u = 0 := by unfold unitIdx; rw [h1]; rfl
      simp only [hidx] at hsuspect
      have hs : ((k.suspectUnit u).arrays[u.array].halves[0]).service = .suspect := hsuspect
      rw [if_pos h1, hs]
      simp
    · have hidx : unitIdx u = 1 := by unfold unitIdx; rw [if_pos (by omega)]
      simp only [hidx] at hsuspect
      have hs : ((k.suspectUnit u).arrays[u.array].halves[1]).service = .suspect := hsuspect
      rw [if_neg h1, hs]
      simp

/-- Every unit is a whole array or a half. -/
theorem mem_unitsUp {k : CoreS} {v : MatUnit} (h : k.serviceable v = true) : v ∈ k.unitsUp := by
  refine List.mem_filter.2 ⟨?_, h⟩
  obtain ⟨a, half⟩ := v
  simp only [wholeUnits, halfUnits, List.mem_append, List.mem_map, List.mem_flatMap, List.mem_finRange, true_and, MatUnit.mk.injEq,
    List.mem_cons, List.not_mem_nil, or_false]
  have hhalf : half = 0 ∨ half = 1 ∨ half = 2 := by omega
  obtain rfl | rfl | rfl := hhalf
  · exact .inl ⟨a, rfl, rfl⟩
  · exact .inr ⟨a, .inl ⟨rfl, rfl⟩⟩
  · exact .inr ⟨a, .inr ⟨rfl, rfl⟩⟩

theorem shortest_mem {s : State} {c : CoreId} {us : List MatUnit} {v : MatUnit} (h : s.shortest c us = some v) : v ∈ us := by
  induction us generalizing v with
  | nil => cases h
  | cons u us ih =>
    rw [State.shortest] at h
    split at h
    · cases h
      exact List.mem_cons_self
    next w hw =>
      split at h
      · cases h
        exact List.mem_cons_of_mem _ (ih hw)
      · cases h
        exact List.mem_cons_self

theorem shortest_eq_none {s : State} {c : CoreId} {us : List MatUnit} (h : s.shortest c us = none) : us = [] := by
  cases us with
  | nil => rfl
  | cons u us =>
    rw [State.shortest] at h
    split at h
    · cases h
    · split at h <;> cases h

/-- A unit chosen from two lists, the first by its queues, lies in one of them if either has any. -/
theorem placed_mem {s : State} {c : CoreId} {own other : List MatUnit} (h : own ++ other ≠ []) :
    (s.shortest c own).getD (other.headD ⟨0, 0⟩) ∈ own ++ other := by
  cases hs : s.shortest c own with
  | some v => exact List.mem_append_left _ (shortest_mem hs)
  | none =>
    rw [shortest_eq_none hs] at h ⊢
    cases other with
    | nil => exact absurd rfl h
    | cons v other => exact List.mem_cons_self

theorem headD_mem {l : List MatUnit} {v : MatUnit} (h : l ≠ []) : l.headD v ∈ l := by
  cases l with
  | nil => exact absurd rfl h
  | cons u l => exact List.mem_cons_self

/-- While a unit is left, a MAT is placed on one that is serviceable. -/
theorem serviceable_placeMat {s : State} {c : CoreId} {m : MatD} (hgang : s.cores[c].ganged = false)
    (hup : s.cores[c].unitsUp ≠ []) : s.cores[c].serviceable (s.placeMat c m) = true := by
  have happend : wholeUnits.filter s.cores[c].serviceable ++ halfUnits.filter s.cores[c].serviceable ≠ [] := by
    rwa [← List.filter_append]
  have hserve {l r : List MatUnit} {v : MatUnit} (hv : v ∈ l.filter s.cores[c].serviceable ++ r.filter s.cores[c].serviceable) :
      s.cores[c].serviceable v = true := by
    rw [← List.filter_append] at hv
    exact List.of_mem_filter hv
  have hswap : halfUnits.filter s.cores[c].serviceable ++ wholeUnits.filter s.cores[c].serviceable ≠ [] := fun h =>
    happend (by rw [List.append_eq_nil_iff] at h ⊢; exact h.symm)
  unfold State.placeMat
  dsimp only
  rw [hgang, if_neg Bool.false_ne_true]
  by_cases hwhole : m.half = 0
  · simp only [if_pos hwhole]
    split
    · exact hserve (placed_mem happend)
    · split
      next h => exact h
      · exact hserve (headD_mem happend)
  · simp only [if_neg hwhole]
    split
    · exact hserve (placed_mem hswap)
    · split
      next h => exact h
      · exact hserve (headD_mem hswap)

/-- A queued instruction taken from a unit's queue and put into the queue where it goes now. -/
def State.moveOne (c : CoreId) (u : MatUnit) (s : State) (e : Issued) : State :=
  (s.dropIssued c e.seq).updCore c fun k => { k with issued := k.issued ++
    [{ e with queue := .mat (if e.isRetry then (s.dropIssued c e.seq).retryUnit c u else (s.dropIssued c e.seq).placeMat c (matD e.words)) }] }

theorem moveQueued_eq (s : State) (c : CoreId) (u : MatUnit) : s.moveQueued c u =
    (s.cores[c].issued.filter fun e => decide (e.queue = .mat u ∧ e.phase = .queued)).foldl (State.moveOne c u) s := rfl

theorem moveOne_atCore (s : State) (c : CoreId) (u : MatUnit) (e : Issued) : AtCore c s (State.moveOne c u s e) := by
  unfold State.moveOne State.dropIssued
  exact AtCore.updCore.trans .updCore

theorem dropIssued_core (s : State) (c : CoreId) (seq : Nat) :
    (s.dropIssued c seq).cores[c] = { s.cores[c] with issued := s.cores[c].issued.filter fun e => decide (e.seq ≠ seq) } := by
  rw [State.dropIssued, updCore_same]

theorem moveOne_core (s : State) (c : CoreId) (u : MatUnit) (e : Issued) :
    (State.moveOne c u s e).cores[c] = { s.cores[c] with issued := (State.moveOne c u s e).cores[c].issued } := by
  rw [State.moveOne, updCore_same, dropIssued_core]

theorem moveOne_reg (s : State) (c : CoreId) (u : MatUnit) (e : Issued) (o : Nat) : (State.moveOne c u s e).reg o = s.reg o := rfl

theorem moveQueued_atCore (s : State) (c : CoreId) (u : MatUnit) : AtCore c s (s.moveQueued c u) := by
  rw [moveQueued_eq]
  exact .foldl (fun t x => moveOne_atCore t c u x) _

theorem foldl_moveOne_core (s : State) (c : CoreId) (u : MatUnit) (es : List Issued) :
    (es.foldl (State.moveOne c u) s).cores[c] = { s.cores[c] with issued := (es.foldl (State.moveOne c u) s).cores[c].issued } := by
  induction es generalizing s with
  | nil => rfl
  | cons e es ih => rw [List.foldl_cons, ih, moveOne_core]

theorem moveQueued_core (s : State) (c : CoreId) (u : MatUnit) :
    (s.moveQueued c u).cores[c] = { s.cores[c] with issued := (s.moveQueued c u).cores[c].issued } := by
  rw [moveQueued_eq]
  exact foldl_moveOne_core ..

theorem moveQueued_reg (s : State) (c : CoreId) (u : MatUnit) (o : Nat) : (s.moveQueued c u).reg o = s.reg o := by
  rw [moveQueued_eq]
  generalize s.cores[c].issued.filter (fun e => decide (e.queue = .mat u ∧ e.phase = .queued)) = es
  induction es generalizing s with
  | nil => rfl
  | cons e es ih => exact (ih _).trans (moveOne_reg s c u e o)

/-- An instruction that is no longer to be moved away from a unit, or whose turn is yet to come. -/
def Issued.Settled (u : MatUnit) (es : List Issued) (x : Issued) : Prop :=
  x.queue = .mat u → x.isRetry = true ∨ x.phase ≠ .queued ∨ ∃ e ∈ es, e.seq = x.seq

/-- Where a unit is out of service, moving its queue one by one leaves only retries there. -/
theorem settled_foldl_moveOne {c : CoreId} {u : MatUnit} {es : List Issued} {s : State} (hgang : s.cores[c].ganged = false)
    (hup : s.cores[c].unitsUp ≠ []) (hout : s.cores[c].serviceable u = false)
    (h : ∀ x ∈ s.cores[c].issued, x.Settled u es) :
    ∀ x ∈ (es.foldl (State.moveOne c u) s).cores[c].issued, x.Settled u [] := by
  induction es generalizing s with
  | nil => exact h
  | cons e es ih =>
    have hcore := moveOne_core s c u e
    refine ih (by rw [hcore]; exact hgang) (by rw [hcore]; exact hup) (by rw [hcore]; exact hout) fun x hx hqueue => ?_
    rw [State.moveOne, updCore_same, dropIssued_core] at hx
    rcases List.mem_append.1 hx with hold | hnew
    · obtain ⟨hmem, hseq⟩ := List.mem_filter.1 hold
      rcases h x hmem hqueue with hretry | hphase | ⟨d, hd, hdx⟩
      · exact .inl hretry
      · exact .inr (.inl hphase)
      · rcases List.mem_cons.1 hd with rfl | hd
        · exact absurd hdx.symm (of_decide_eq_true hseq)
        · exact .inr (.inr ⟨d, hd, hdx⟩)
    · obtain rfl := List.mem_singleton.1 hnew
      cases hretry : e.isRetry with
      | true => exact .inl hretry
      | false =>
        have hgang' : (s.dropIssued c e.seq).cores[c].ganged = false := by rw [dropIssued_core]; exact hgang
        have hup' : (s.dropIssued c e.seq).cores[c].unitsUp ≠ [] := by rw [dropIssued_core]; exact hup
        have hplaced := serviceable_placeMat (m := matD e.words) hgang' hup'
        rw [hretry, if_neg Bool.false_ne_true, QueueId.mat.injEq] at hqueue
        rw [hqueue, dropIssued_core] at hplaced
        exact absurd (hout.symm.trans hplaced) Bool.false_ne_true

theorem moveQueued_settles {c : CoreId} {u : MatUnit} {s : State} (hgang : s.cores[c].ganged = false)
    (hup : s.cores[c].unitsUp ≠ []) (hout : s.cores[c].serviceable u = false) :
    ∀ x ∈ (s.moveQueued c u).cores[c].issued, x.queue = .mat u → x.isRetry = true ∨ x.phase ≠ .queued := by
  intro x hx hqueue
  rw [moveQueued_eq] at hx
  have hsettled := settled_foldl_moveOne hgang hup hout (fun y hy hq => by
    by_cases hphase : y.phase = .queued
    · exact .inr (.inr ⟨y, List.mem_filter.2 ⟨hy, decide_eq_true ⟨hq, hphase⟩⟩, rfl⟩)
    · exact .inr (.inl hphase)) x hx hqueue
  rcases hsettled with hretry | hphase | ⟨_, hnil, _⟩
  · exact .inl hretry
  · exact .inr hphase
  · exact absurd hnil List.not_mem_nil

/-- A unit marked as suspect, with the mark noted at its core and reported. -/
def State.markSuspect (s : State) (c : CoreId) (u : MatUnit) : State :=
  let s := (s.setService c u .suspect).updCore c fun k => { k with marks := (s.setService c u .suspect).within24 k.marks ++ [(s.setService c u .suspect).mc.time] }
  s.raise (.core c.val) s.cores[c].part 0x4102 [c.val, u.array.val, (unitIdx u).val, s.cores[c].marks.length]

theorem setService_atCore (s : State) (c : CoreId) (u : MatUnit) (v : Service) : AtCore c s (s.setService c u v) := by
  unfold State.setService
  dsimp only
  split
  · exact AtCore.updUnit.trans .updUnit
  · exact .updUnit

theorem setService_reg (s : State) (c : CoreId) (u : MatUnit) (v : Service) (o : Nat) : (s.setService c u v).reg o = s.reg o := by
  unfold State.setService
  dsimp only
  split <;> rfl

theorem markSuspect_atCore (s : State) (c : CoreId) (u : MatUnit) : AtCore c s (s.markSuspect c u) := by
  unfold State.markSuspect
  exact ((setService_atCore ..).trans .updCore).trans .raise

theorem markSuspect_reg (s : State) (c : CoreId) (u : MatUnit) {o : Nat} (h : isEventReg o = false) :
    (s.markSuspect c u).reg o = s.reg o := by
  unfold State.markSuspect
  dsimp only
  rw [raise_reg _ _ _ _ _ h]
  exact setService_reg ..

theorem markSuspect_core (s : State) (c : CoreId) (u : MatUnit) : (s.markSuspect c u).cores[c] =
    { s.cores[c].suspectUnit u with marks := s.within24 s.cores[c].marks ++ [s.mc.time] } := by
  have htime := (setService_atCore s c u .suspect).time
  unfold State.markSuspect
  dsimp only
  rw [raise_cores, updCore_same, within24_congr htime, htime, setService_suspect, suspectUnit_rest]

theorem suspect_eq (s : State) (c : CoreId) (u : MatUnit) : s.suspect c u =
    if 3 ≤ (s.markSuspect c u).cores[c].marks.length then (s.markSuspect c u).fenceCore c 0x4102 false
    else if (s.markSuspect c u).cores[c].unitsUp = [] then (s.markSuspect c u).fenceCore c 0x4104 false
    else if (s.markSuspect c u).cores[c].ganged then s.markSuspect c u
    else (s.markSuspect c u).moveQueued c u := by
  unfold State.suspect State.markSuspect
  dsimp only
  rw [raise_cores]

theorem serviceable_markSuspect_self (s : State) (c : CoreId) (u : MatUnit) :
    (s.markSuspect c u).cores[c].serviceable u = false := by
  rw [markSuspect_core]
  exact not_serviceable_suspectUnit ..

/-- A second mismatch of the day makes a unit in service suspect. -/
theorem mismatch_suspects {c : CoreId} {u : MatUnit} {m : MatD} {w : Nat} {f : ScoreFault} {s : State}
    (hsecond : 2 ≤ (s.within24 (s.cores[c].unit u).mismatches ++ [s.mc.time]).length)
    (hin : (s.cores[c].unit u).service = .inService) :
    s.mismatch c u m w f = (s.noteMismatch c u m w f).suspect c u := by
  rw [mismatch_eq, noteMismatch_unit, if_pos ⟨hsecond, hin⟩]

/-- What stands of the core once a second mismatch has marked it. -/
theorem suspected_core (s : State) (c : CoreId) (u : MatUnit) (m : MatD) (w : Nat) (f : ScoreFault) :
    ((s.noteMismatch c u m w f).markSuspect c u).cores[c] =
      { (s.noteMismatch c u m w f).cores[c].suspectUnit u with marks := s.within24 s.cores[c].marks ++ [s.mc.time] } := by
  have htime := (noteMismatch_atCore s c u m w f).time
  rw [markSuspect_core, within24_congr htime, htime, noteMismatch_core]
  rfl

/-- What the second clause of O19 asks of a state `t` after a mismatch in `s`. -/
structure Suspected (c : CoreId) (u v : MatUnit) (s t : State) : Prop where
  counted : t.reg (coreArrMismatch c.val u.array.val) = BitVec.ofNat 32 (satAdd 32 (s.reg (coreArrMismatch c.val u.array.val)).toNat 1)
  service : (t.cores[c].unit u).service = .suspect
  marks : t.cores[c].marks = s.within24 s.cores[c].marks ++ [s.mc.time]
  inService : t.cores[c].inService = s.cores[c].inService
  other : t.cores[c].serviceable v = true
  ganged : t.cores[c].ganged = s.cores[c].ganged
  frame : AtCore c s t

theorem suspected_markSuspect {c : CoreId} {u v : MatUnit} {m : MatD} {w : Nat} {f : ScoreFault} {s : State}
    (hup : s.cores[c].serviceable v = true) (hv : v.array ≠ u.array ∨ (u.half ≠ 0 ∧ v.half ≠ 0 ∧ v.half ≠ u.half)) :
    Suspected c u v s ((s.noteMismatch c u m w f).markSuspect c u) where
  counted := by rw [markSuspect_reg _ _ _ (isEventReg_arrMismatch c u.array), noteMismatch_count]
  service := by
    rw [suspected_core]
    exact service_suspectUnit ..
  marks := by rw [suspected_core]
  inService := by rw [suspected_core, suspectUnit_rest, noteMismatch_core]; rfl
  other := by
    rw [suspected_core, ← hup]
    refine (serviceable_suspectUnit_other _ hv).trans ?_
    rw [noteMismatch_core]
    exact serviceable_setHalf_of_service _ _ _ _ fun _ => rfl
  ganged := by rw [suspected_core, suspectUnit_rest, noteMismatch_core]; rfl
  frame := (noteMismatch_atCore ..).trans (markSuspect_atCore ..)

theorem Suspected.moveQueued {c : CoreId} {u v : MatUnit} {s t : State} (h : Suspected c u v s t) :
    Suspected c u v s (t.moveQueued c u) where
  counted := by rw [moveQueued_reg]; exact h.counted
  service := by rw [moveQueued_core]; exact h.service
  marks := by rw [moveQueued_core]; exact h.marks
  inService := by rw [moveQueued_core]; exact h.inService
  other := by rw [moveQueued_core]; exact h.other
  ganged := by rw [moveQueued_core]; exact h.ganged
  frame := h.frame.trans (moveQueued_atCore ..)

/-- The second clause of O19. -/
theorem mismatch_makesSuspect (c : CoreId) (u v : MatUnit) (m : MatD) (w : Nat) (f : ScoreFault) (s : State)
    (hsecond : 2 ≤ (s.within24 (s.cores[c].unit u).mismatches ++ [s.mc.time]).length)
    (hin : (s.cores[c].unit u).service = .inService) (hmarks : (s.within24 s.cores[c].marks).length < 2)
    (hup : s.cores[c].serviceable v = true) (hv : v.array ≠ u.array ∨ (u.half ≠ 0 ∧ v.half ≠ 0 ∧ v.half ≠ u.half)) :
    ∃ t : State, s.mismatch c u m w f = t ∧
      t.reg (coreArrMismatch c.val u.array.val) = BitVec.ofNat 32 (satAdd 32 (s.reg (coreArrMismatch c.val u.array.val)).toNat 1) ∧
      (t.cores[c].unit u).service = .suspect ∧ t.cores[c].marks = s.within24 s.cores[c].marks ++ [s.mc.time] ∧
      t.cores[c].inService = s.cores[c].inService ∧ t.cores[c].serviceable v = true ∧
      (s.cores[c].ganged = false → ∀ e ∈ t.cores[c].issued, e.queue = .mat u → e.isRetry = true ∨ e.phase ≠ .queued) ∧
      (∀ d : CoreId, d ≠ c → t.cores[d] = s.cores[d]) ∧ t.nvm = s.nvm ∧ (∀ p, t.job p = s.job p) ∧
      ∀ a, s.inRings a = false → t.rd a = s.rd a := by
  have hq := suspected_markSuspect (m := m) (w := w) (f := f) hup hv
  have hout := serviceable_markSuspect_self (s.noteMismatch c u m w f) c u
  have hleft : ((s.noteMismatch c u m w f).markSuspect c u).cores[c].unitsUp ≠ [] := List.ne_nil_of_mem (mem_unitsUp hq.other)
  have hcount : ¬ 3 ≤ ((s.noteMismatch c u m w f).markSuspect c u).cores[c].marks.length := by
    rw [hq.marks, List.length_append, List.length_singleton]
    omega
  have heq := mismatch_suspects (m := m) (w := w) (f := f) hsecond hin
  rw [suspect_eq, if_neg hcount, if_neg hleft, hq.ganged] at heq
  generalize (s.noteMismatch c u m w f).markSuspect c u = q at *
  cases hgang : s.cores[c].ganged with
  | true =>
    rw [hgang, if_pos rfl] at heq
    exact ⟨q, heq, hq.counted, hq.service, hq.marks, hq.inService, hq.other, fun hf => Bool.noConfusion hf, hq.frame.others,
      hq.frame.nvm, hq.frame.job, hq.frame.rd⟩
  | false =>
    rw [hgang, if_neg Bool.false_ne_true] at heq
    have ht := hq.moveQueued
    exact ⟨_, heq, ht.counted, ht.service, ht.marks, ht.inService, ht.other,
      fun _ => moveQueued_settles (hq.ganged.trans hgang) hleft hout, ht.frame.others, ht.frame.nvm, ht.frame.job, ht.frame.rd⟩

/-- The third clause of O19. -/
theorem mismatch_fences (c : CoreId) (u : MatUnit) (m : MatD) (w : Nat) (f : ScoreFault) (s : State)
    (hsecond : 2 ≤ (s.within24 (s.cores[c].unit u).mismatches ++ [s.mc.time]).length)
    (hin : (s.cores[c].unit u).service = .inService) (hmarks : 2 ≤ (s.within24 s.cores[c].marks).length)
    (hservice : s.cores[c].inService = true) :
    ∃ t : State, s.mismatch c u m w f = t ∧ t.cores[c].inService = false ∧ t.cores[c].issued = [] := by
  have hcore := suspected_core s c u m w f
  have hcount : 3 ≤ ((s.noteMismatch c u m w f).markSuspect c u).cores[c].marks.length := by
    rw [hcore, List.length_append, List.length_singleton]
    omega
  have hstill : ((s.noteMismatch c u m w f).markSuspect c u).cores[c].inService = true := by
    rw [hcore, suspectUnit_rest, noteMismatch_core]
    exact hservice
  have heq := mismatch_suspects (m := m) (w := w) (f := f) hsecond hin
  rw [suspect_eq, if_pos hcount] at heq
  have hfence := fenceHolds_fenceCore _ c (cause := 0x4102) false hstill (by decide)
  exact ⟨_, heq, hfence.outOfService, hfence.idle⟩

/-- Settles O19. -/
theorem mismatchIsCounted : Obligations.MismatchIsCounted :=
  ⟨mismatch_noted, mismatch_makesSuspect, mismatch_fences⟩

end Sys2Proof.Machine


namespace Sys2Proof.Machine

/-! ### What a fence sets going, and what that leaves alone (R22, R402) -/

/-- The registers that tell of the fence of core `c`: its fence register and its rates. -/
def FenceReg (c : CoreId) (o : Nat) : Prop := o = coreFence c.val ∨ ∃ n, n < 4 ∧ o = coreRateArr c.val + 4 * n

theorem FenceReg.core {c : CoreId} {o : Nat} (h : FenceReg c o) :
    ∃ k, o = coreBase c.val + k ∧ (k = 0xA01C ∨ 0xA000 ≤ k ∧ k < 0xA010) := by
  rcases h with rfl | ⟨n, hn, rfl⟩
  · exact ⟨_, rfl, .inl rfl⟩
  · exact ⟨0xA000 + 4 * n, Nat.add_assoc .., .inr ⟨by omega, by omega⟩⟩

theorem FenceReg.not_event {c : CoreId} {o : Nat} (h : FenceReg c o) : isEventReg o = false := by
  obtain ⟨k, rfl, hk⟩ := h.core
  exact isEventReg_core c.val c.isLt (by omega)

theorem FenceReg.ne_core {c : CoreId} {o : Nat} (h : FenceReg c o) (d : Nat) {k : Nat} (hk : k < 0x100000) (hne : k ≠ 0xA01C)
    (hrate : k < 0xA000 ∨ 0xA010 ≤ k) : o ≠ coreBase d + k := by
  obtain ⟨k', rfl, hk'⟩ := h.core
  unfold coreBase
  omega

theorem FenceReg.ne_of_lt {c : CoreId} {o x : Nat} (h : FenceReg c o) (hx : x < 0x1000000) : o ≠ x := by
  obtain ⟨k, rfl, -⟩ := h.core
  unfold coreBase
  omega

theorem FenceReg.ne_of_ge {c : CoreId} {o x : Nat} (h : FenceReg c o) (hx : 0x2000000 ≤ x) : o ≠ x := by
  obtain ⟨k, rfl, hk⟩ := h.core
  unfold coreBase
  omega

/-- Which blocks of the device are up, and the stack of the host context. -/
def MC.blocks (m : MC) := (m.stacksUp, m.hubsUp, m.portsUp, m.meshUp, m.regsUp, m.hubRailOn, m.hctx)

/-- The frame and the requests that an interface holds. -/
def Iface.holds (i : Iface) := (i.heldFrame, i.held)

/-- What a fence of core `c` sets going leaves of `s` in `t`: the registers of the fence, memory outside the host's rings but for
what is lost, the blocks, which cores are in service, flash and counters, and what the interfaces hold; and a job alone stays
alone. -/
structure AfterFence (c : CoreId) (s t : State) : Prop where
  reg : ∀ o, FenceReg c o → t.reg o = s.reg o
  rd : ∀ a, s.inRings a = false → t.rd a = s.rd a ∨ t.rd a = 0
  blocks : t.mc.blocks = s.mc.blocks
  inService : ∀ d : CoreId, t.cores[d].inService = s.cores[d].inService
  nvm : t.nvm = s.nvm
  counters : t.counters = s.counters
  alone : ∀ p, s.cluster p = none → t.cluster p = none
  holds : ∀ p : PartId, t.parts[p].iface.holds = s.parts[p].iface.holds

namespace AfterFence

variable {c : CoreId} {s₀ s t : State}

theorem refl (c : CoreId) (s : State) : AfterFence c s s :=
  ⟨fun _ _ => rfl, fun _ _ => .inl rfl, rfl, fun _ => rfl, rfl, rfl, fun _ h => h, fun _ => rfl⟩

theorem hctx (h : AfterFence c s t) (p : PartId) : t.hctx p = s.hctx p := by
  have hb := h.blocks
  simp only [MC.blocks, Prod.mk.injEq] at hb
  obtain ⟨-, -, -, -, -, -, hctx⟩ := hb
  rw [State.hctx, State.hctx, hctx]

theorem inRings (h : AfterFence c s t) (a : Nat) : t.inRings a = s.inRings a := by
  simp only [State.inRings, h.hctx]

theorem trans (h : AfterFence c s₀ s) (k : AfterFence c s t) : AfterFence c s₀ t where
  reg o ho := (k.reg o ho).trans (h.reg o ho)
  rd a ha := by
    rcases k.rd a ((h.inRings a).trans ha) with hk | hk
    · rw [hk]; exact h.rd a ha
    · exact .inr hk
  blocks := k.blocks.trans h.blocks
  inService d := (k.inService d).trans (h.inService d)
  nvm := k.nvm.trans h.nvm
  counters := k.counters.trans h.counters
  alone p hp := k.alone p (h.alone p hp)
  holds p := (k.holds p).trans (h.holds p)

/-! #### The state's own updates -/

/-- A change of what the frame does not speak of. -/
theorem congr (h : AfterFence c s₀ s) (hregs : t.regs = s.regs) (hmem : t.mem = s.mem) (hblocks : t.mc.blocks = s.mc.blocks)
    (hcores : t.cores = s.cores) (hnvm : t.nvm = s.nvm) (hcounters : t.counters = s.counters) (hparts : t.parts = s.parts) :
    AfterFence c s₀ t :=
  h.trans ⟨fun _ _ => by rw [State.reg, State.reg, hregs], fun _ _ => .inl (by rw [State.rd, State.rd, hmem]), hblocks,
    fun _ => by rw [hcores], hnvm, hcounters, fun p hp => by rwa [State.cluster, State.job, hparts], fun p => by rw [hparts]⟩

theorem of_event (h : EventFrame s t) : AfterFence c s t where
  reg o ho := h.reg o ho.not_event
  rd a ha := .inl (h.rd a ha)
  blocks := by rw [h.mc]; rfl
  inService d := by rw [h.cores]
  nvm := h.nvm
  counters := h.counters
  alone p hp := by
    have hjob : t.job p = s.job p := h.job p
    rwa [State.cluster, hjob]
  holds p := by rw [h.parts p]; rfl

theorem event (h : AfterFence c s₀ s) (ht : EventFrame s t) : AfterFence c s₀ t := h.trans (of_event ht)

theorem setReg {o : Nat} {v : Word} (ho : ∀ x, FenceReg c x → x ≠ o) (h : AfterFence c s₀ s) : AfterFence c s₀ (s.setReg o v) :=
  h.trans ⟨fun x hx => reg_setReg_other s v (ho x hx), fun _ _ => .inl rfl, rfl, fun _ => rfl, rfl, rfl, fun _ hp => hp, fun _ => rfl⟩

theorem countFld {o hi lo k : Nat} (ho : ∀ x, FenceReg c x → x ≠ o) (h : AfterFence c s₀ s) : AfterFence c s₀ (s.countFld o hi lo k) :=
  h.setReg ho

theorem count {o k : Nat} (ho : ∀ x, FenceReg c x → x ≠ o) (h : AfterFence c s₀ s) : AfterFence c s₀ (s.count o k) := h.countFld ho

theorem mapCores {f : CoreS → CoreS} (hf : ∀ k, (f k).inService = k.inService) (h : AfterFence c s₀ s) :
    AfterFence c s₀ (s.mapCores f) :=
  h.trans ⟨fun _ _ => rfl, fun _ _ => .inl rfl, rfl, fun d => by simp [State.mapCores, hf], rfl, rfl, fun _ hp => hp,
    fun _ => rfl⟩

theorem updCore {d : CoreId} {f : CoreS → CoreS} (hf : ∀ k, (f k).inService = k.inService) (h : AfterFence c s₀ s) :
    AfterFence c s₀ (s.updCore d f) := by
  refine h.trans ⟨fun _ _ => rfl, fun _ _ => .inl rfl, rfl, fun x => ?_, rfl, rfl, fun _ hp => hp, fun _ => rfl⟩
  by_cases hx : x = d
  · subst hx
    rw [updCore_same, hf]
  · rw [updCore_other s f hx]

theorem ifThenElse {p : Prop} [Decidable p] (ht : AfterFence c s₀ t) (hs : AfterFence c s₀ s) : AfterFence c s₀ (if p then t else s) := by
  split
  · exact ht
  · exact hs

theorem foldl {α : Type} {f : State → α → State} (hf : ∀ s a, AfterFence c s₀ s → AfterFence c s₀ (f s a)) (l : List α)
    (h : AfterFence c s₀ s) : AfterFence c s₀ (l.foldl f s) := by
  induction l generalizing s with
  | nil => exact h
  | cons a r ih => exact ih (hf s a h)

theorem updPart {p : PartId} {f : Part → Part} (hf : ∀ q, q.job.bind Job.cluster = none → (f q).job.bind Job.cluster = none)
    (hi : ∀ q, (f q).iface.holds = q.iface.holds) (h : AfterFence c s₀ s) : AfterFence c s₀ (s.updPart p f) := by
  refine h.trans ⟨fun _ _ => rfl, fun _ _ => .inl rfl, rfl, fun _ => rfl, rfl, rfl, fun q hq => ?_, fun q => ?_⟩
  · rw [State.cluster, State.job] at hq ⊢
    by_cases hqp : q = p
    · subst hqp
      rw [updPart_same]
      exact hf _ hq
    · rw [updPart_other s f hqp]
      exact hq
  · by_cases hqp : q = p
    · subst hqp
      rw [updPart_same]
      exact hi _
    · rw [updPart_other s f hqp]

theorem updJob {p : PartId} {f : Job → Job} (hf : ∀ j, j.cluster = none → (f j).cluster = none) (h : AfterFence c s₀ s) :
    AfterFence c s₀ (s.updJob p f) := by
  refine h.updPart (fun q hq => ?_) fun _ => rfl
  dsimp only
  cases hj : q.job with
  | none => rfl
  | some j =>
    rw [hj] at hq
    exact hf j hq

theorem updCluster {p : PartId} {f : Cluster → Cluster} (h : AfterFence c s₀ s) : AfterFence c s₀ (s.updCluster p f) :=
  h.updJob fun j hj => by rw [hj]; rfl

theorem updIface {p : PartId} {f : Iface → Iface} (hf : ∀ i, (f i).holds = i.holds) (h : AfterFence c s₀ s) :
    AfterFence c s₀ (s.updIface p f) :=
  h.updPart (fun _ hq => hq) fun q => hf q.iface

theorem updHandle {n : Nat} {f : Handle → Handle} (h : AfterFence c s₀ s) : AfterFence c s₀ (s.updHandle n f) :=
  h.congr rfl rfl rfl rfl rfl rfl rfl

theorem updPort {n : PortId} {f : Port → Port} (h : AfterFence c s₀ s) : AfterFence c s₀ (s.updPort n f) :=
  h.congr rfl rfl rfl rfl rfl rfl rfl

theorem updRail {d : CoreId} {f : CoreRail → CoreRail} (h : AfterFence c s₀ s) : AfterFence c s₀ (s.updRail d f) :=
  h.congr rfl rfl rfl rfl rfl rfl rfl

/-- What is lost reads 0. -/
theorem zeroRange {a n : Nat} (h : AfterFence c s₀ s) : AfterFence c s₀ (s.zeroRange a n) := by
  refine h.trans ⟨fun _ _ => rfl, fun x _ => ?_, rfl, fun _ => rfl, rfl, rfl, fun _ hp => hp, fun _ => rfl⟩
  rw [rd_zeroRange]
  split
  · exact .inr rfl
  · exact .inl rfl

theorem raise {src : Src} {part : Option PartId} {code : Nat} {ds : List Nat} (h : AfterFence c s₀ s) :
    AfterFence c s₀ (s.raise src part code ds) :=
  h.event (eventFrame_raise s src part code ds)

theorem fixedLog (h : AfterFence c s₀ s) : AfterFence c s₀ s.fixedLog := by
  unfold State.fixedLog
  split
  · exact h
  · exact h.congr rfl rfl rfl rfl rfl rfl rfl

/-! #### Completion records (R189, R249, R254, R259) -/

theorem correctedAt {level idx bank region : Nat} (hidx : idx < 8) (h : AfterFence c s₀ s) : AfterFence c s₀ (s.correctedAt level idx bank region) := by
  have hcount : AfterFence c s₀ (s.count (ceCounter level idx) 1) := by
    refine h.count fun x hx => ?_
    unfold ceCounter
    split_ifs
    · exact hx.ne_of_lt (by unfold hubHbmCe hubBase; omega)
    · exact hx.ne_core idx (by decide) (by decide) (by decide)
    · exact hx.ne_core idx (by decide) (by decide) (by decide)
  unfold State.correctedAt
  dsimp only
  split
  · split
    · exact updCore (fun _ => rfl) (raise (hcount.congr rfl rfl rfl rfl rfl rfl rfl))
    · exact raise (hcount.congr rfl rfl rfl rfl rfl rfl rfl)
  · exact hcount.congr rfl rfl rfl rfl rfl rfl rfl

theorem corrected {a : Nat} (h : AfterFence c s₀ s) : AfterFence c s₀ (s.corrected a) := h.correctedAt (errorPlace_idx_lt a)

theorem meetUnits {f : Nat → Bool} (h : AfterFence c s₀ s) : AfterFence c s₀ (s.meetUnits f) := by
  refine h.foldl (fun s u hs => ?_) _
  dsimp only
  split
  · exact hs.corrected.congr rfl rfl rfl rfl rfl rfl rfl
  · exact hs.corrected

theorem length_slice (bs : List Byte) (o k : Nat) : (slice bs o k).length = k := by
  have htake : ((bs.drop o).take k).length ≤ k := List.length_take_le ..
  simp only [slice, List.length_append, List.length_replicate]
  omega

theorem writeCpl {p : PartId} {rec : List Byte} (h : AfterFence c s₀ s) : AfterFence c s₀ (s.writeCpl p rec) := by
  unfold State.writeCpl
  extract_lets met tail ph w0 put moved
  have hput : AfterFence c s₀ put := by
    refine h.meetUnits.event (eventFrame_putBytes met p _ _ ⟨by omega, ?_⟩)
    have htail : tail < 4096 := Nat.mod_lt _ (by decide)
    rw [List.length_append, length_leBytes, length_slice]
    omega
  have hmoved : AfterFence c s₀ moved := hput.event (eventFrame_updHdr ..)
  exact ifThenElse (hmoved.updIface fun _ => rfl) hmoved

theorem reservedRecord {p : PartId} {rec : List Byte} (h : AfterFence c s₀ s) : AfterFence c s₀ (s.reservedRecord p rec) := by
  unfold State.reservedRecord
  split
  · exact updIface (fun _ => rfl) (h.countFld fun x hx => hx.ne_of_ge (by unfold usbJobLost usbBase; omega))
  · split
    · exact h.writeCpl.updIface fun _ => rfl
    · exact updIface (fun _ => rfl) (h.count fun x hx => hx.ne_of_ge (by unfold usbJobCplwait usbBase; omega))

theorem opDone {n status event d0 : Nat} (h : AfterFence c s₀ s) : AfterFence c s₀ (s.opDone n status event d0) := by
  unfold State.opDone
  split
  · exact h
  · split
    · exact h
    · split
      · exact (h.updHandle.updIface (by exact fun _ => rfl)).reservedRecord
      · exact ifThenElse h.updHandle.raise h.updHandle

/-! #### Re-plans, and the end of a job (R26, R219, R220) -/

theorem replan {d : CoreId} {plan : Plan} (h : AfterFence c s₀ s) : AfterFence c s₀ (s.replan d plan) := by
  unfold State.replan
  extract_lets old planned counted logged
  have hcounted : AfterFence c s₀ counted :=
    h.updRail.countFld fun x hx => hx.ne_core d.val (k := 0xA018) (by decide) (by decide) (by decide)
  have hlogged : AfterFence c s₀ logged := ifThenElse hcounted.fixedLog hcounted
  exact ifThenElse hlogged hlogged.raise

theorem quiesceDone (h : AfterFence c s₀ s) : AfterFence c s₀ s.quiesceDone := by
  refine h.foldl (fun s d hs => ?_) _
  split
  · exact ifThenElse hs.replan hs
  · exact hs

theorem finishJob {p : PartId} (h : AfterFence c s₀ s) : AfterFence c s₀ (s.finishJob p) := by
  unfold State.finishJob
  split
  · exact h
  · extract_lets rested left done
    have hrested : AfterFence c s₀ rested := h.mapCores fun k => by split <;> rfl
    have hdone : AfterFence c s₀ done := (hrested.updPart (by exact fun _ _ => rfl) (by exact fun _ => rfl)).opDone
    split
    · exact ifThenElse hdone (hdone.congr rfl rfl rfl rfl rfl rfl rfl)
    · exact hdone

theorem settle {p : PartId} (h : AfterFence c s₀ s) : AfterFence c s₀ (s.settle p) := by
  unfold State.settle
  extract_lets quiet
  have hquiet : AfterFence c s₀ quiet := h.quiesceDone
  split
  · exact hquiet
  · exact ifThenElse hquiet.finishJob hquiet

theorem stopStreams {p : PartId} (h : AfterFence c s₀ s) : AfterFence c s₀ (s.stopStreams p) :=
  h.mapCores fun k => by split <;> rfl

theorem freeGheld {d : CoreId} (h : AfterFence c s₀ s) : AfterFence c s₀ (s.freeGheld d) := by
  have hfresh : AfterFence c s₀ s.fresh.2 := h.congr rfl rfl rfl rfl rfl rfl rfl
  exact ifThenElse (hfresh.count fun x hx => hx.ne_core d.val (k := 0x9014) (by decide) (by decide) (by decide)) hfresh

theorem cancelNet {p : PartId} (h : AfterFence c s₀ s) : AfterFence c s₀ (s.cancelNet p) := by
  unfold State.cancelNet
  extract_lets mine asks held counted dropped
  have hheld : AfterFence c s₀ held := h.foldl (fun s d hs => hs.foldl (fun s _ hs => hs.freeGheld) _) _
  have hcounted : AfterFence c s₀ counted :=
    hheld.foldl (fun s d hs => hs.count fun x hx => hx.ne_core d.val (k := 0x9004) (by decide) (by decide) (by decide)) _
  have hdropped : AfterFence c s₀ dropped := hcounted.mapCores fun _ => rfl
  exact hdropped.updCluster.quiesceDone

theorem endJob {p : PartId} {why : StopWhy} {status event : Nat} (h : AfterFence c s₀ s) :
    AfterFence c s₀ (s.endJob p why status event) := by
  unfold State.endJob
  extract_lets stopped left
  have hleft : AfterFence c s₀ left := (h.updJob (by exact fun _ hj => hj)).updCluster
  exact hleft.stopStreams.cancelNet.settle

theorem suspendJob {p : PartId} (h : AfterFence c s₀ s) : AfterFence c s₀ (s.suspendJob p) := by
  unfold State.suspendJob
  split
  · exact h
  · exact h.updHandle.updJob (by exact fun _ hj => hj)

theorem pauseJob {p : PartId} (h : AfterFence c s₀ s) : AfterFence c s₀ (s.pauseJob p) := (h.updJob (by exact fun _ hj => hj)).updCluster

theorem clearSlots {j : Job} {l : Nat} (h : AfterFence c s₀ s) : AfterFence c s₀ (s.clearSlots j l) := by
  unfold State.clearSlots
  split
  · exact h
  · extract_lets slots cleared
    have hcleared : AfterFence c s₀ cleared := h.foldl (fun s g hs => ifThenElse hs.zeroRange hs) _
    refine hcleared.updCore fun k => ?_
    unfold CoreS.updHalf
    split <;> rfl

theorem changeStep {p : PartId} (h : AfterFence c s₀ s) : AfterFence c s₀ (s.changeStep p) := by
  unfold State.changeStep
  split
  · exact h
  · exact mapCores (fun _ => rfl) (h.foldl (fun _ _ hs => hs.clearSlots) _)

/-! #### The ABORT of a step, and the request for one (R23, R351-R353) -/

theorem otSend {p : PartId} {cl : Cluster} {i vc : Nat} {bytes : List Byte} (h : AfterFence c s₀ s) :
    AfterFence c s₀ (s.otSend p cl i vc bytes) := by
  unfold State.otSend
  split
  · exact h
  · exact h.updPort

theorem pumpGo {p : PartId} {i vc : Nat} (fs : List OtFrame) (h : AfterFence c s₀ s) :
    AfterFence c s₀ (State.pumpGo p i vc fs s) := by
  induction fs generalizing s with
  | nil => exact h
  | cons f rest ih =>
    unfold State.pumpGo
    split
    · exact h
    · extract_lets r v sent sentS n counted
      split
      · exact h
      · split
        · exact ih h.otSend.updCluster
        · have hcounted : AfterFence c s₀ counted := by
            unfold counted
            split
            · exact h.count fun x hx => hx.ne_of_ge (by unfold portOtCnt portBase; omega)
            · exact h
          exact hcounted.updCluster

theorem sendOn {p : PartId} {i vc : Nat} {bytes : List Byte} (h : AfterFence c s₀ s) : AfterFence c s₀ (s.sendOn p i vc bytes) := by
  unfold State.sendOn State.pump
  split
  · exact h
  · extract_lets msg fs
    split
    · exact h.updCluster
    · exact h.updCluster.pumpGo _

theorem sendTo {p : PartId} {e vc : Nat} {bytes : List Byte} (h : AfterFence c s₀ s) : AfterFence c s₀ (s.sendTo p e vc bytes) := by
  unfold State.sendTo
  split
  · exact h
  · split
    · exact h.updCluster
    · split
      · exact h.sendOn
      · exact h

theorem sendAbortReq {p : PartId} {code entry : Nat} (h : AfterFence c s₀ s) : AfterFence c s₀ (s.sendAbortReq p code entry) := by
  have hspoke (q : State) (hq : AfterFence c s₀ q) (e type : Nat) (body : List Byte) : AfterFence c s₀ (q.sendCtl p e type body) := by
    unfold State.sendCtl
    split
    · exact hq.sendTo
    · exact hq
  unfold State.sendAbortReq
  split
  · exact hspoke _ (h.updJob (by exact fun _ hj => hj)) _ _ _
  · exact h

/-- The ABORT of a job alone: no roster is due to it. -/
theorem applyAbort_alone {p : PartId} {a flags cause entry epoch : Nat} (halone : s.cluster p = none) :
    AfterFence c s (s.applyAbort p a flags cause entry epoch) := by
  unfold State.applyAbort
  split
  · exact refl c s
  · extract_lets raised toPause marked changed renewed recounted held
    have hrenewed : AfterFence c s renewed :=
      (((refl c s).raise.updJob (by exact fun _ hj => hj)).stopStreams.cancelNet.changeStep.updCluster).updCluster
    split
    · exact hrenewed.endJob
    · rw [hrenewed.alone p halone]
      exact ifThenElse (ifThenElse hrenewed.pauseJob hrenewed.suspendJob) (hrenewed.updJob (by exact fun _ hj => hj))

theorem abortAlone {p : PartId} {code : Nat} (halone : s.cluster p = none) (h : AfterFence c s₀ s) :
    AfterFence c s₀ (s.abortAlone p code) := by
  unfold State.abortAlone
  split
  · exact h
  · extract_lets a last stop held told
    have htold : AfterFence c s told := ifThenElse (refl c s).raise (refl c s)
    exact (h.trans htold).trans (applyAbort_alone (htold.alone p halone))

theorem reportAbort {p : PartId} {code : Nat} {entry : Option Nat} (h : AfterFence c s₀ s) :
    AfterFence c s₀ (s.reportAbort p code entry) := by
  unfold State.reportAbort
  split
  · exact h
  next j hj =>
    split
    · exact h
    · split
      next hcluster => exact h.abortAlone (by rw [State.cluster, hj]; exact hcluster)
      · exact ifThenElse (h.updJob (by exact fun _ hj => hj)) (ifThenElse h h.sendAbortReq)

theorem jobFenced {p : PartId} (h : AfterFence c s₀ s) : AfterFence c s₀ (s.jobFenced p) := by
  unfold State.jobFenced
  split
  · exact h
  · split
    · exact h.settle
    · split
      · exact ifThenElse h (ifThenElse (h.reportAbort.stopStreams.cancelNet.mapCores fun _ => rfl) h.reportAbort)
      · exact (h.updJob (by exact fun _ hj => hj)).stopStreams.cancelNet

end AfterFence

/-! ### The fence of one core (R22, R402, R403, R405) -/

/-- Clearing a core's rates changes registers alone. -/
theorem clearRates_fields (base : Nat) (l : List Nat) (s : State) :
    (l.foldl (fun s n => s.setReg (base + 4 * n) 0) s).mem = s.mem ∧ (l.foldl (fun s n => s.setReg (base + 4 * n) 0) s).mc = s.mc ∧
      (l.foldl (fun s n => s.setReg (base + 4 * n) 0) s).cores = s.cores ∧
      (l.foldl (fun s n => s.setReg (base + 4 * n) 0) s).nvm = s.nvm ∧
      (l.foldl (fun s n => s.setReg (base + 4 * n) 0) s).counters = s.counters := by
  induction l generalizing s with
  | nil => exact ⟨rfl, rfl, rfl, rfl, rfl⟩
  | cons n l ih =>
    obtain ⟨hmem, hmc, hcores, hnvm, hcounters⟩ := ih (s.setReg (base + 4 * n) 0)
    exact ⟨hmem.trans (setReg_mem ..), hmc.trans (setReg_mc ..), hcores.trans (setReg_cores ..), hnvm.trans (setReg_nvm ..),
      hcounters.trans (setReg_counters ..)⟩

theorem clearRates_other {base x : Nat} {l : List Nat} (s : State) (h : ∀ n ∈ l, x ≠ base + 4 * n) :
    (l.foldl (fun s n => s.setReg (base + 4 * n) 0) s).reg x = s.reg x := by
  induction l generalizing s with
  | nil => rfl
  | cons n l ih =>
    exact (ih (s.setReg (base + 4 * n) 0) fun m hm => h m (List.mem_cons_of_mem _ hm)).trans
      (reg_setReg_other s 0 (h n List.mem_cons_self))

theorem clearRates_zero {base n : Nat} {l : List Nat} (s : State) (h : n ∈ l) :
    (l.foldl (fun s n => s.setReg (base + 4 * n) 0) s).reg (base + 4 * n) = 0 := by
  induction l generalizing s with
  | nil => exact absurd h List.not_mem_nil
  | cons m l ih =>
    by_cases hl : n ∈ l
    · exact ih (s.setReg (base + 4 * m) 0) hl
    · obtain rfl : n = m := (List.mem_cons.1 h).resolve_right hl
      refine (clearRates_other (s.setReg (base + 4 * n) 0) fun m hm he => hl ?_).trans (reg_setReg_same s _ 0)
      rwa [show n = m by omega]

/-- Where core `c` keeps what its fence loses. -/
def coreHolds (c : CoreId) (a : Nat) : Prop :=
  (wmBase c.val ≤ a ∧ a < wmBase c.val + 0x10000000) ∨ (crumbBase c.val ≤ a ∧ a < crumbBase c.val + 0x100000000)

theorem rd_loseCore (s : State) {c : CoreId} {a : Nat} (h : coreHolds c a) : (s.loseCore c).rd a = 0 := by
  rw [State.loseCore, rd_zeroRange, rd_zeroRange]
  rcases h with hwm | hcrumb
  · rw [if_pos hwm, ite_self]
  · exact if_pos hcrumb

/-- What a forced fence of core `c` in `s` has made of it in `t`, and what it takes with it of nothing else. -/
structure ForcedFence (c : CoreId) (s t : State) : Prop where
  key : t.regFld (coreFence c.val) 25 18 = 0xA5
  byProof : t.regFld (coreFence c.val) 29 29 = 0
  rates : ∀ n, n < 4 → t.reg (coreRateArr c.val + 4 * n) = 0
  lost : ∀ a, s.inRings a = false → coreHolds c a → t.rd a = 0
  hctx : ∀ p, t.hctx p = s.hctx p
  blocks : t.mc.blocks = s.mc.blocks
  others : ∀ d : CoreId, d ≠ c → t.cores[d].inService = s.cores[d].inService
  nvm : t.nvm = s.nvm
  counters : t.counters = s.counters

namespace ForcedFence

variable {c : CoreId} {s t u : State}

theorem after (h : ForcedFence c s t) (k : AfterFence c t u) : ForcedFence c s u where
  key := by rw [State.regFld, k.reg _ (.inl rfl)]; exact h.key
  byProof := by rw [State.regFld, k.reg _ (.inl rfl)]; exact h.byProof
  rates n hn := (k.reg _ (.inr ⟨n, hn, rfl⟩)).trans (h.rates n hn)
  lost a ha hc := by
    have hrings : t.inRings a = false := by simpa only [State.inRings, h.hctx] using ha
    rcases k.rd a hrings with hsame | hzero
    · exact hsame.trans (h.lost a ha hc)
    · exact hzero
  hctx p := (k.hctx p).trans (h.hctx p)
  blocks := k.blocks.trans h.blocks
  others d hd := (k.inService d).trans (h.others d hd)
  nvm := k.nvm.trans h.nvm
  counters := k.counters.trans h.counters

/-- RETIRED stands apart from the key and BY_PROOF. -/
theorem setRetired (h : ForcedFence c s t) : ForcedFence c s (t.setFld (coreFence c.val) 30 30 1) :=
  { key := (regFld_setFld_disjoint t _ _ (by omega) (by omega)).trans h.key
    byProof := (regFld_setFld_disjoint t _ _ (by omega) (by omega)).trans h.byProof
    rates := fun n hn => (reg_setFld_other t _ _ _ (by unfold coreRateArr coreFence; omega)).trans (h.rates n hn)
    lost := fun a ha hc => (setFld_rd ..).trans (h.lost a ha hc)
    hctx := fun p => by rw [State.hctx, setFld_mc]; exact h.hctx p
    blocks := by rw [setFld_mc]; exact h.blocks
    others := fun d hd => by rw [setFld_cores]; exact h.others d hd
    nvm := (setFld_nvm ..).trans h.nvm
    counters := (setFld_counters ..).trans h.counters }

theorem ifThenElse {p : Prop} [Decidable p] (ht : ForcedFence c s t) (hu : ForcedFence c s u) : ForcedFence c s (if p then t else u) := by
  split
  · exact ht
  · exact hu

end ForcedFence

/-- The writes of a fence, on a state whose core has lost its memories and whose fence register holds the key. -/
theorem forcedFence_of_writes {c : CoreId} {s u : State} (hkey : u.regFld (coreFence c.val) 25 18 = 0xA5)
    (hlost : ∀ a, s.inRings a = false → coreHolds c a → u.rd a = 0) (hblocks : u.mc.blocks = s.mc.blocks)
    (hhctx : ∀ p, u.hctx p = s.hctx p) (hothers : ∀ d : CoreId, d ≠ c → u.cores[d].inService = s.cores[d].inService)
    (hnvm : u.nvm = s.nvm) (hcounters : u.counters = s.counters) (cause : Nat) :
    ForcedFence c s (((((List.range 4).foldl (fun s n => s.setReg (coreRateArr c.val + 4 * n) 0) u).setFld
      (coreFence c.val) 31 31 1).setFld (coreFence c.val) 29 29 0).setFld (coreFence c.val) 15 0 cause) := by
  obtain ⟨hmem, hmc, hcores, hflash, hcount⟩ := clearRates_fields (coreRateArr c.val) (List.range 4) u
  have hfence := clearRates_other (base := coreRateArr c.val) (x := coreFence c.val) (l := List.range 4) u fun n hn => by
    unfold coreRateArr coreFence
    have := List.mem_range.1 hn
    omega
  have hrates := fun n hn => clearRates_zero (base := coreRateArr c.val) (l := List.range 4) u (n := n) (List.mem_range.2 hn)
  generalize (List.range 4).foldl (fun s n => s.setReg (coreRateArr c.val + 4 * n) 0) u = w at *
  have hne (n : Nat) (hn : n < 4) : coreRateArr c.val + 4 * n ≠ coreFence c.val := by unfold coreRateArr coreFence; omega
  constructor
  case key =>
    rw [regFld_setFld_disjoint _ _ _ (by omega) (by omega), regFld_setFld_disjoint _ _ _ (by omega) (by omega),
      regFld_setFld_disjoint _ _ _ (by omega) (by omega), State.regFld, hfence]
    exact hkey
  case byProof =>
    rw [regFld_setFld_disjoint _ _ _ (by omega) (by omega)]
    exact regFld_setFld_same _ _ 0 (by omega)
  case rates =>
    intro n hn
    rw [reg_setFld_other _ _ _ _ (hne n hn), reg_setFld_other _ _ _ _ (hne n hn), reg_setFld_other _ _ _ _ (hne n hn)]
    exact hrates n hn
  case lost =>
    intro a ha hc
    rw [setFld_rd, setFld_rd, setFld_rd, State.rd, hmem]
    exact hlost a ha hc
  case hctx =>
    intro p
    rw [State.hctx, setFld_mc, setFld_mc, setFld_mc, hmc]
    exact hhctx p
  case blocks =>
    rw [setFld_mc, setFld_mc, setFld_mc, hmc]
    exact hblocks
  case others =>
    intro d hd
    rw [setFld_cores, setFld_cores, setFld_cores, hcores]
    exact hothers d hd
  case nvm =>
    rw [setFld_nvm, setFld_nvm, setFld_nvm, hflash]
    exact hnvm
  case counters =>
    rw [setFld_counters, setFld_counters, setFld_counters, hcount]
    exact hcounters

theorem loseCore_regs (s : State) (c : CoreId) : (s.loseCore c).regs = s.regs := by
  rw [State.loseCore, zeroRange_regs, zeroRange_regs]

theorem loseCore_mc (s : State) (c : CoreId) : (s.loseCore c).mc = s.mc := by
  rw [State.loseCore, zeroRange_mc, zeroRange_mc]

theorem loseCore_nvm (s : State) (c : CoreId) : (s.loseCore c).nvm = s.nvm := by
  rw [State.loseCore, zeroRange_nvm, zeroRange_nvm]

theorem loseCore_counters (s : State) (c : CoreId) : (s.loseCore c).counters = s.counters := by
  rw [State.loseCore, zeroRange_counters, zeroRange_counters]

/-- What decides the blocks and the host context is not a rail's. -/
theorem updRail_blocks (s : State) (c : CoreId) (f : CoreRail → CoreRail) : (s.updRail c f).mc.blocks = s.mc.blocks := rfl

theorem updRail_hctx (s : State) (c : CoreId) (f : CoreRail → CoreRail) (p : PartId) : (s.updRail c f).hctx p = s.hctx p := rfl

theorem forcedFence_fenceCore {c : CoreId} {s : State} (cause : Nat) (hin : s.cores[c].inService = true)
    (hkey : s.regFld (coreFence c.val) 25 18 = 0xA5) : ForcedFence c s (s.fenceCore c cause false) := by
  unfold State.fenceCore
  rw [if_neg (by simpa using hin)]
  extract_lets part id taken dropped lost hour off unrated flagged forced mc counted raised recent retired logged
  clear_value part
  have hdropped : dropped.cores = taken.cores ∧ dropped.mem = s.mem ∧ dropped.regs = s.regs ∧ dropped.mc = s.mc ∧
      dropped.nvm = s.nvm ∧ dropped.counters = s.counters := by
    unfold dropped
    split
    · exact ⟨rfl, rfl, rfl, rfl, rfl, rfl⟩
    · exact ⟨rfl, rfl, rfl, rfl, rfl, rfl⟩
  obtain ⟨hcores, hmem, hregs, hmc, hnvm, hcounters⟩ := hdropped
  have hforced : ForcedFence c s forced := by
    refine forcedFence_of_writes (u := off) ?_ (fun a _ hc => ?_) ?_ (fun p => ?_) (fun d hd => ?_) ?_ ?_ cause
    · rw [State.regFld, updRail_reg, State.reg, loseCore_regs, hregs]
      exact hkey
    · rw [updRail_rd]
      exact rd_loseCore dropped hc
    · rw [updRail_blocks, loseCore_mc, hmc]
    · rw [updRail_hctx, State.hctx, loseCore_mc, hmc, State.hctx]
    · rw [updRail_cores, loseCore_cores, hcores, updCore_other s _ hd]
    · rw [updRail_nvm, loseCore_nvm, hnvm]
    · rw [updRail_counters, loseCore_counters, hcounters]
  clear_value forced
  have hraised : ForcedFence c s raised := hforced.after (.raise (.congr (.refl c forced) rfl rfl rfl rfl rfl rfl rfl))
  clear_value raised
  have hretired : ForcedFence c s retired := by
    refine .ifThenElse ?_ hraised
    exact (hraised.after (.updRail (.refl c raised))).setRetired.after (.raise (.refl c _))
  split
  · exact hretired.after (.jobFenced (.fixedLog (.refl c retired)))
  · exact hretired.after (.fixedLog (.refl c retired))

theorem setFld_inRings (s : State) (o hi lo v a : Nat) : (s.setFld o hi lo v).inRings a = s.inRings a := by
  have hctx (p : PartId) : (s.setFld o hi lo v).hctx p = s.hctx p := by rw [State.hctx, State.hctx, setFld_mc]
  simp only [State.inRings, hctx]

theorem exec_coreFenceForce (c : CoreId) (s : State) :
    exec (.coreFenceForce c) s = .next ((s.setFld (coreFence c.val) 25 18 0xA5).fenceCore c 0x4001 false) := rfl

/-- A core in service that is fenced by force, with the key of the force. -/
theorem forcedFence_of_key (c : CoreId) (s : State) (hin : s.cores[c].inService = true) :
    ForcedFence c s ((s.setFld (coreFence c.val) 25 18 0xA5).fenceCore c 0x4001 false) := by
  have hcores : (s.setFld (coreFence c.val) 25 18 0xA5).cores = s.cores := setFld_cores ..
  have hforced := forcedFence_fenceCore 0x4001 (by rw [hcores]; exact hin) (regFld_setFld_same s (coreFence c.val) 0xA5 (by omega))
  have hrings (a : Nat) : (s.setFld (coreFence c.val) 25 18 0xA5).inRings a = s.inRings a := setFld_inRings ..
  have hctx (p : PartId) : (s.setFld (coreFence c.val) 25 18 0xA5).hctx p = s.hctx p := by rw [State.hctx, State.hctx, setFld_mc]
  have hmc : (s.setFld (coreFence c.val) 25 18 0xA5).mc = s.mc := setFld_mc ..
  have hnvm : (s.setFld (coreFence c.val) 25 18 0xA5).nvm = s.nvm := setFld_nvm ..
  have hcounters : (s.setFld (coreFence c.val) 25 18 0xA5).counters = s.counters := setFld_counters ..
  generalize s.setFld (coreFence c.val) 25 18 0xA5 = q at *
  exact {
    key := hforced.key
    byProof := hforced.byProof
    rates := hforced.rates
    lost := fun a ha => hforced.lost a ((hrings a).trans ha)
    hctx := fun p => (hforced.hctx p).trans (hctx p)
    blocks := hforced.blocks.trans (by rw [hmc])
    others := fun d hd => by rw [hforced.others d hd, hcores]
    nvm := hforced.nvm.trans hnvm
    counters := hforced.counters.trans hcounters }

/-- Settles O10. -/
theorem fencedCoreLosesItselfOnly : Obligations.FencedCoreLosesItselfOnly := by
  intro c s hin
  have hfence := fenceHolds_fenceCore (s.setFld (coreFence c.val) 25 18 0xA5) c (cause := 0x4001) false
    (by rw [setFld_cores]; exact hin) (by decide)
  have hforced := forcedFence_of_key c s hin
  have hexec := exec_coreFenceForce c s
  generalize (s.setFld (coreFence c.val) 25 18 0xA5).fenceCore c 0x4001 false = t at *
  have hblocks := hforced.blocks
  simp only [MC.blocks, Prod.mk.injEq] at hblocks
  obtain ⟨hstacks, hhubs, hports, hmesh, hregs, hrail, -⟩ := hblocks
  exact ⟨t, hexec, hfence.outOfService, hfence.idle, hfence.railOff, hfence.flagged, hfence.caused, hforced.key, hforced.byProof,
    hforced.rates, fun a hlo hhi ha => hforced.lost a ha (.inl ⟨hlo, hhi⟩), fun a hlo hhi ha => hforced.lost a ha (.inr ⟨hlo, hhi⟩),
    hstacks, hhubs, hports, hmesh, hregs, hrail, hforced.others, hforced.nvm, hforced.counters⟩

end Sys2Proof.Machine


namespace Sys2Proof.Machine

/-! ### Runs of registers -/

/-- Words written into the registers `f 0`, `f 1`, … -/
def State.setRegs (f : Nat → Nat) (s : State) (ws : List Word) : State := (indexed ws).foldl (fun s e => s.setReg (f e.1) e.2) s

theorem setRegs_range' (f : Nat → Nat) (s : State) (ws : List Word) (k : Nat) :
    ∃ r, ((List.range' k ws.length).zip ws).foldl (fun s e => s.setReg (f e.1) e.2) s = { s with regs := r } := by
  induction ws generalizing s k with
  | nil => exact ⟨s.regs, rfl⟩
  | cons w ws ih => exact ih (s.setReg (f k) w) (k + 1)

/-- Words written into registers change registers alone. -/
theorem setRegs_rest (f : Nat → Nat) (s : State) (ws : List Word) : ∃ r, s.setRegs f ws = { s with regs := r } := by
  rw [State.setRegs, indexed, List.range_eq_range']
  exact setRegs_range' f s ws 0

theorem reg_setRegs_range'_other {f : Nat → Nat} {o : Nat} (s : State) (ws : List Word) (k : Nat)
    (h : ∀ i, k ≤ i → i < k + ws.length → o ≠ f i) :
    (((List.range' k ws.length).zip ws).foldl (fun s e => s.setReg (f e.1) e.2) s).reg o = s.reg o := by
  induction ws generalizing s k with
  | nil => rfl
  | cons w ws ih =>
    have hlen : (w :: ws).length = ws.length + 1 := rfl
    refine (ih (s.setReg (f k) w) (k + 1) fun i hi hlt => h i (by omega) (by omega)).trans ?_
    exact reg_setReg_other s w (h k (Nat.le_refl k) (by omega))

theorem reg_setRegs_other {f : Nat → Nat} {o : Nat} (s : State) (ws : List Word) (h : ∀ i, i < ws.length → o ≠ f i) :
    (s.setRegs f ws).reg o = s.reg o := by
  rw [State.setRegs, indexed, List.range_eq_range']
  exact reg_setRegs_range'_other s ws 0 fun i _ hi => h i (by omega)

theorem reg_setRegs_range'_same {f : Nat → Nat} (hf : ∀ i j, f i = f j → i = j) (s : State) (ws : List Word) (k : Nat) {i : Nat}
    (hi : i < ws.length) :
    (((List.range' k ws.length).zip ws).foldl (fun s e => s.setReg (f e.1) e.2) s).reg (f (k + i)) = ws.getD i 0 := by
  induction ws generalizing s k i with
  | nil => exact absurd hi (Nat.not_lt_zero i)
  | cons w ws ih =>
    cases i with
    | zero =>
      refine (reg_setRegs_range'_other (s.setReg (f k) w) ws (k + 1) fun j hj _ he => ?_).trans (reg_setReg_same s (f k) w)
      have := hf _ _ he
      omega
    | succ i =>
      have hshift : k + (i + 1) = k + 1 + i := by omega
      rw [hshift]
      exact ih (s.setReg (f k) w) (k + 1) (Nat.lt_of_succ_lt_succ hi)

theorem reg_setRegs_same {f : Nat → Nat} (hf : ∀ i j, f i = f j → i = j) (s : State) (ws : List Word) {i : Nat}
    (hi : i < ws.length) : (s.setRegs f ws).reg (f i) = ws.getD i 0 := by
  have h := reg_setRegs_range'_same hf s ws 0 hi
  rwa [Nat.zero_add, ← List.range_eq_range'] at h

theorem length_toWords (n : Nat) (bs : List Byte) : (toWords n bs).length = n := by
  induction n generalizing bs with
  | zero => rfl
  | succ n ih => exact congrArg Nat.succ (ih _)

/-! ### Attestation (R390) -/

theorem exec_attGo_key {s : State} (hon : s.mc.on = true) (hbusy : s.mc.attBusy = false) (hkey : s.mc.identityKey = true) :
    exec .attGo s = .next (({ s with mc := { s.mc with attBusy := true } } : State).setFld secAttCtl 7 0 1) := by
  show execAttGo s = _
  rw [execAttGo, hon, hbusy, hkey]
  rfl

theorem exec_attGo_noKey {s : State} (hon : s.mc.on = true) (hbusy : s.mc.attBusy = false) (hkey : s.mc.identityKey = false) :
    exec .attGo s = .next (s.setFld secAttCtl 7 0 2) := by
  show execAttGo s = _
  rw [execAttGo, hon, hbusy, hkey]
  rfl

/-- The report that an attestation answers, as words. -/
def State.attWords (s : State) : List Word :=
  toWords 1301 (s.attBody ++
    slice (Config.mldsaSign (identitySeed (s.counter 3)) (ascii "T840-ATT") (sha3_512 s.attBody) s.fresh.1) 0 4627 ++ [0])

theorem exec_attReportDone_busy {s : State} (hbusy : s.mc.attBusy = true) : ∃ ws : List Word, ws.length = 1301 ∧
    exec .attReportDone s = .next (if s.mc.identityKey then
      ((({ s with mc := { s.mc with attBusy := false } } : State).fresh.2).setRegs secAttData ws).setFld secAttCtl 7 0 0
    else ({ s with mc := { s.mc with attBusy := false } } : State).setFld secAttCtl 7 0 2) := by
  refine ⟨({ s with mc := { s.mc with attBusy := false } } : State).attWords, length_toWords .., ?_⟩
  show execAttReportDone s = _
  unfold execAttReportDone
  rw [hbusy]
  cases hkey : s.mc.identityKey with
  | true => simp only [hkey, Bool.not_true, Bool.false_eq_true, if_false, if_true]; rfl
  | false => simp only [hkey, Bool.not_true, Bool.not_false, Bool.false_eq_true, if_false, if_true]

theorem attData_injective (i j : Nat) (h : secAttData i = secAttData j) : i = j := by
  unfold secAttData at h
  omega

/-- The third clause of O55. -/
theorem attReportDone_ends (s : State) (hbusy : s.mc.attBusy = true) : ∃ t : State, exec .attReportDone s = .next t ∧
    t.mc = { s.mc with attBusy := false } ∧ t.regFld secAttCtl 7 0 = (if s.mc.identityKey then 0 else 2) ∧
    (∀ o, o ≠ secAttCtl → (∀ i, i < 1301 → o ≠ secAttData i) → t.reg o = s.reg o) ∧ t.mem = s.mem ∧ t.cores = s.cores ∧
    t.parts = s.parts ∧ t.handles = s.handles ∧ t.nvm = s.nvm ∧ t.counters = s.counters := by
  obtain ⟨ws, hlen, hexec⟩ := exec_attReportDone_busy hbusy
  cases hkey : s.mc.identityKey with
  | true =>
    rw [hkey, if_pos rfl] at hexec
    have hother (o : Nat) (ho : ∀ i, i < 1301 → o ≠ secAttData i) :=
      reg_setRegs_other (f := secAttData) (({ s with mc := { s.mc with attBusy := false } } : State).fresh.2) ws fun i hi =>
        ho i (hlen ▸ hi)
    obtain ⟨r, hr⟩ := setRegs_rest secAttData (({ s with mc := { s.mc with attBusy := false } } : State).fresh.2) ws
    rw [hr] at hexec hother
    refine ⟨_, hexec, ?_, ?_, fun o ho hdata => ?_, ?_, ?_, ?_, ?_, ?_, ?_⟩
    · rw [setFld_mc]; rfl
    · rw [regFld_setFld_same _ _ _ (by decide)]; rfl
    · rw [reg_setFld_other _ _ _ _ ho, hother o hdata]; rfl
    · rw [setFld_mem]; rfl
    · rw [setFld_cores]; rfl
    · rw [setFld_parts]; rfl
    · rw [setFld_handles]; rfl
    · rw [setFld_nvm]; rfl
    · rw [setFld_counters]; rfl
  | false =>
    rw [hkey, if_neg Bool.false_ne_true] at hexec
    refine ⟨_, hexec, ?_, ?_, fun o ho _ => ?_, ?_, ?_, ?_, ?_, ?_, ?_⟩
    · rw [setFld_mc]
    · rw [regFld_setFld_same _ _ _ (by decide)]; rfl
    · rw [reg_setFld_other _ _ _ _ ho]; rfl
    · rw [setFld_mem]
    · rw [setFld_cores]
    · rw [setFld_parts]
    · rw [setFld_handles]
    · rw [setFld_nvm]
    · rw [setFld_counters]

/-! ### The log window (R423) -/

theorem exec_mcLogSelWrite_entry {v : Word} {s : State} (h : fld v 23 0 < logEntries) : exec (.mcLogSelWrite v) s =
    .next ((s.setReg mcLogSel (BitVec.ofNat 32 (fld v 23 0))).setRegs mcLogData (toWords 8 (s.nvmRd (logAddr (fld v 23 0)) 32))) := by
  show execMcLogSelWrite v s = _
  unfold execMcLogSelWrite
  simp only [if_pos h]
  rfl

theorem logData_injective (i j : Nat) (h : mcLogData i = mcLogData j) : i = j := by
  unfold mcLogData at h
  omega

theorem logSel_ne_logData (i : Nat) : mcLogSel ≠ mcLogData i := by
  unfold mcLogSel mcLogData
  omega

/-- The fourth clause of O55. -/
theorem mcLogSelWrite_shows (v : Word) (s : State) (h : fld v 23 0 < logEntries) : ∃ t : State, exec (.mcLogSelWrite v) s = .next t ∧
    t.reg mcLogSel = BitVec.ofNat 32 (fld v 23 0) ∧
    (∀ i, i < 8 → t.reg (mcLogData i) = (toWords 8 (s.nvmRd (logAddr (fld v 23 0)) 32)).getD i 0) ∧
    (∀ o, o ≠ mcLogSel → (∀ i, i < 8 → o ≠ mcLogData i) → t.reg o = s.reg o) ∧ t.freeCtr = s.freeCtr ∧ t.mem = s.mem ∧
    t.cores = s.cores ∧ t.parts = s.parts ∧ t.handles = s.handles ∧ t.nvm = s.nvm ∧ t.mc = s.mc := by
  have hlen := length_toWords 8 (s.nvmRd (logAddr (fld v 23 0)) 32)
  have hexec := exec_mcLogSelWrite_entry (s := s) h
  generalize toWords 8 (s.nvmRd (logAddr (fld v 23 0)) 32) = ws at *
  generalize BitVec.ofNat 32 (fld v 23 0) = n at *
  have hsame (i : Nat) (hi : i < 8) := reg_setRegs_same logData_injective (s.setReg mcLogSel n) ws (hlen ▸ hi)
  have hother (o : Nat) (ho : ∀ i, i < 8 → o ≠ mcLogData i) :=
    reg_setRegs_other (f := mcLogData) (s.setReg mcLogSel n) ws fun i hi => ho i (hlen ▸ hi)
  obtain ⟨r, hr⟩ := setRegs_rest mcLogData (s.setReg mcLogSel n) ws
  refine ⟨_, hexec, ?_, hsame, fun o ho hdata => ?_, ?_, ?_, ?_, ?_, ?_, ?_, ?_⟩
  · rw [hother mcLogSel fun i _ => logSel_ne_logData i, reg_setReg_same]
  · rw [hother o hdata, reg_setReg_other s n ho]
  all_goals rw [hr]; rfl

/-- Settles O55. -/
theorem serviceRegistersAct : Obligations.ServiceRegistersAct :=
  ⟨fun _ => exec_attGo_key, fun _ => exec_attGo_noKey, attReportDone_ends, mcLogSelWrite_shows, fun _ _ => rfl⟩

end Sys2Proof.Machine


namespace Sys2Proof.Machine

/-! ### Logical cores -/

theorem half_updHalf_same (k : CoreS) (g : Bool) (f : LCtx → LCtx) : (k.updHalf g f).half g = f (k.half g) := by
  cases g <;> rfl

theorem lctx_updLCtx_same (s : State) (v : Serve) (f : LCtx → LCtx) : (s.updLCtx v f).lctx v = f (s.lctx v) := by
  rw [State.lctx, State.updLCtx, updCore_same, half_updHalf_same, State.lctx]

theorem counter_setCounter_same (h : LCtx) (n : Nat) (v : Word) : (h.setCounter n v).counter n = v :=
  getD_mapPut_same 0 h.cnt n v

theorem counter_setCounter_other (h : LCtx) {n m : Nat} (v : Word) (hm : m ≠ n) : (h.setCounter n v).counter m = h.counter m := by
  rw [LCtx.counter, LCtx.setCounter, mapGet_mapPut_other 0 h.cnt v hm, LCtx.counter]

/-! ### SYN (R216, R219, R345, R346) -/

section
variable {c : CoreId} {x : CtxId} {e : Issued} {s : State}

theorem exec_synNop (h : s.synEntry c x (synIs 0x00) = some e) : exec (.synNop c x) s = .next (s.synDone c e) := by
  simp only [exec, execSynNop, h]

theorem exec_synSet (h : s.synEntry c x (synIs 0x01) = some e) : exec (.synSet c x) s =
    .next ((s.synAct e fun l => l.setCounter (sCnt e.words) (wordAt e.words 5)).synDone c e) := by
  simp only [exec, execSynSet, h]

theorem exec_synAdd (h : s.synEntry c x (synIs 0x02) = some e) : exec (.synAdd c x) s =
    .next ((s.synAct e fun l => l.addCounter (sCnt e.words) (wordAt e.words 5)).synDone c e) := by
  simp only [exec, execSynAdd, h]

theorem synAct_of_serve {j : Job} {v : Serve} {f : LCtx → LCtx} (hj : s.job e.part = some j) (hv : j.serve e.lcore = some v) :
    s.synAct e f = s.updLCtx v f := by
  rw [State.synAct, hj, Option.bind_some, hv]

theorem exec_fenceStream (h : s.synEntry c x (synIs 0x10) = some e) :
    exec (.fenceStream c x) s = if s.streamClear c e then .next (s.synDone c e) else .next s := by
  simp only [exec, execFenceStream, h]

theorem exec_fenceCore (h : s.synEntry c x (synIs 0x11) = some e) :
    exec (.fenceCore c x) s = if s.coreClear c e then .next (s.synDone c e) else .next s := by
  simp only [exec, execFenceCore, h]

theorem exec_stepEnd (h : s.synEntry c x (synIs 0x20) = some e) (hclear : s.streamClear c e = true) :
    exec (.stepEnd c x) s = .next ((s.park c e).settle e.part) := by
  simp only [exec, execStepEnd, h, if_pos hclear]

theorem exec_endRun (h : s.synEntry c x (synIs 0x21) = some e) (hclear : s.streamClear c e = true) :
    exec (.endRun c x) s = .next (((s.park c e).settle e.part).allEnded e.part) := by
  simp only [exec, execEndRun, h, if_pos hclear]

theorem exec_unitMap (h : (s.synEntry c x fun d => decide (hClass d = 5 ∧ nOp d = 8)) = some e) :
    exec (.unitMap c x) s = .next (s.synDone c e) := by
  simp only [exec, execUnitMap, h]

theorem exec_unitBegin (h : (s.synEntry c x fun d => decide (hClass d = 5 ∧ nOp d = 9)) = some e) :
    exec (.unitBegin c x) s = .next ((if (s.cluster e.part).any fun k => (k.slotOf (nId e.words)).isSome then s
      else s.updStream c x fun t => { t with index := t.index + nPa e.words }).synDone c e) := by
  simp only [exec, execUnitBegin, h]

end

/-- Settles O16. -/
theorem synOperationsAct : Obligations.SynOperationsAct := by
  refine ⟨fun _ _ _ _ => exec_synNop, fun _ _ _ _ => exec_synSet, fun _ _ _ _ => exec_synAdd, fun e j v f s hj hv => ?_,
    fun c x e s h hclear => ?_, fun c x e s h hclear => ?_, fun c x e s h hclear => ?_, fun c x e s h hclear => ?_,
    fun _ _ _ _ => exec_stepEnd, fun _ _ _ _ => exec_endRun, fun _ _ _ _ => exec_unitMap, fun c x e s h hheld => ?_,
    fun c x e s h hheld => ?_⟩
  · rw [synAct_of_serve hj hv]
    exact ⟨lctx_updLCtx_same s v f, updLCtx_mem .., updLCtx_parts .., updLCtx_regs .., fun d hd => updCore_other s _ hd⟩
  · rw [exec_fenceStream h, if_pos hclear]
  · rw [exec_fenceCore h, if_pos hclear]
  · rw [exec_fenceStream h, hclear, if_neg Bool.false_ne_true]
  · rw [exec_fenceCore h, hclear, if_neg Bool.false_ne_true]
  · rw [exec_unitBegin h, hheld, if_pos rfl]
  · rw [exec_unitBegin h, hheld, if_neg Bool.false_ne_true]

/-! ### Signals and completions (R207, R209, R212, R220, R221) -/

theorem signal_of_serve {s : State} {p : PartId} {j : Job} {l n inc : Nat} {v : Serve} (hj : s.job p = some j)
    (hv : j.serve l = some v) : s.signal p l n inc = s.updLCtx v fun c => c.addCounter n (BitVec.ofNat 32 inc) := by
  rw [State.signal, hj, Option.bind_some, hv]

theorem exec_counterSignalRemote {s : State} {p : PartId} {k l n inc : Nat} (h : s.parts[p].flying[k]? = some (l, n, inc)) :
    exec (.counterSignalRemote p k) s = .next ((s.updPart p fun q => { q with flying := q.flying.eraseIdx k }).signal p l n inc) := by
  simp only [exec, execCounterSignalRemote, h]

theorem exec_descriptorComplete {s : State} {c : CoreId} {k : Nat} {e : Issued} (h : s.cores[c].issued[k]? = some e) :
    exec (.descriptorComplete c k) s = if e.phase = .finished then .next ((s.complete c e).settle e.part) else .next s := by
  simp only [exec, execDescriptorComplete, h]

/-- A descriptor whose partition's job is stopped, or that the step's end muted, signals nothing. -/
theorem perform_of_stopped {s : State} {e : Issued} (h : e.mute = true ∨ ∃ j, s.job e.part = some j ∧ j.stop ≠ .none) :
    s.perform e = s := by
  unfold State.perform
  split
  · rfl
  next j hj =>
    rw [if_pos]
    rcases h with hmute | ⟨i, hi, hstop⟩
    · rw [hmute, Bool.true_or]
    · obtain rfl : i = j := Option.some.inj (hi.symm.trans hj)
      rw [decide_eq_true hstop, Bool.or_true]

theorem perform_of_running {s : State} {e : Issued} {j : Job} (hj : s.job e.part = some j) (hstop : j.stop = .none)
    (hmute : e.mute = false) (hnotify : hNotify e.words = false) : s.perform e =
      let t := if dbit e.words 0 2 then s.signal e.part e.lcore (dfld e.words 4 15 8) (hInc e.words) else s
      if dbit e.words 0 3 then
        if hRemote e.words then
          t.updPart e.part fun q => { q with flying := q.flying ++ [(hS1Core e.words, dfld e.words 4 7 0, hInc e.words)] }
        else t.signal e.part e.lcore (dfld e.words 4 7 0) (hInc e.words)
      else t := by
  unfold State.perform
  rw [hj]
  simp only [hstop, hmute, hnotify, ne_eq, not_true_eq_false, decide_false, Bool.or_self, Bool.false_eq_true, if_false]

theorem exec_streamWaitLong_raised {s : State} {c : CoreId} {x : CtxId} (h : (s.stream c x).longRaised = true) :
    exec (.streamWaitLong c x) s = .next s := by
  show execStreamWaitLong c x s = _
  unfold execStreamWaitLong
  dsimp only
  split
  · rw [if_neg (by simp [h])]
  · rfl

theorem exec_streamWaitLong {s : State} {c : CoreId} {x : CtxId} {p : PartId} {l : Nat} (hp : s.cores[c].part = some p)
    (hl : (s.cores[c].half (ctxGuest x)).lcore = some l) (hstate : (s.stream c x).state = .waitCounter)
    (hlong : (s.stream c x).longRaised = false) : exec (.streamWaitLong c x) s =
      .next ((s.raise (.core c.val) (some p) 0x4504 [l, (ctxStream x).val,
        (s.stream c x).waitCnt.toNat, ((s.cores[c].half (ctxGuest x)).counter (s.stream c x).waitCnt.toNat).toNat,
        (s.stream c x).waitTgt.toNat]).updStream c x fun t => { t with longRaised := true }) := by
  show execStreamWaitLong c x s = _
  unfold execStreamWaitLong
  simp only [hp, hl, hstate, hlong]
  rfl

/-- Settles O15. -/
theorem signalsReachCounters : Obligations.SignalsReachCounters := by
  refine ⟨fun h n k => ⟨counter_setCounter_same .., fun m hm => counter_setCounter_other h _ hm⟩,
    fun h n v => ⟨counter_setCounter_same .., fun m hm => counter_setCounter_other h _ hm⟩,
    fun _ _ _ _ _ _ => exec_counterSignalRemote, fun p j l v n inc s hj hv => ?_, fun c k e s h hphase => ?_,
    fun c k e s h hphase => ?_, fun e s hmute => perform_of_stopped (.inl hmute),
    fun e j s hj hstop => perform_of_stopped (.inr ⟨j, hj, hstop⟩), fun e j s hj hstop hmute hnotify hsecond => ?_,
    fun e j s hj hstop hmute hnotify hfirst hsecond hremote => ?_, fun _ _ _ => exec_streamWaitLong_raised,
    fun _ _ _ _ _ => exec_streamWaitLong⟩
  · rw [signal_of_serve hj hv]
    exact ⟨by rw [lctx_updLCtx_same, LCtx.addCounter, counter_setCounter_same], updLCtx_mem .., updLCtx_regs .., updLCtx_parts ..⟩
  · rw [exec_descriptorComplete h, if_pos hphase]
  · rw [exec_descriptorComplete h, if_neg hphase]
  · rw [perform_of_running hj hstop hmute hnotify, hsecond]
    rfl
  · rw [perform_of_running hj hstop hmute hnotify, hfirst, hsecond, hremote]
    rfl

end Sys2Proof.Machine


namespace Sys2Proof.Machine

/-! ### Cores of which only wakes and kneading orders change -/

/-- Of the cores, `t` changes no more than the kneading orders of `s`. -/
def OnlyKneads (s t : State) : Prop := ∀ c : CoreId, t.cores[c] = { s.cores[c] with knead := t.cores[c].knead }

namespace OnlyKneads

variable {s t u : State}

theorem of_cores (h : t.cores = s.cores) : OnlyKneads s t := fun c => by rw [h]

theorem trans (h : OnlyKneads s t) (k : OnlyKneads t u) : OnlyKneads s u := fun c => by rw [k c, h c]

theorem kneadFirst {d : CoreId} {k : Fin 3} {rs : List Nat} : OnlyKneads s (s.kneadFirst d k rs) := fun c => by
  unfold State.kneadFirst
  by_cases hc : c = d
  · subst hc
    rw [updCore_same]
  · rw [updCore_other s _ hc]

theorem raise {src : Src} {part : Option PartId} {code : Nat} {ds : List Nat} : OnlyKneads s (s.raise src part code ds) :=
  of_cores (raise_cores ..)

theorem updCe {log : List CeEntry} {raised : List (Nat × Nat)} :
    OnlyKneads s { s with mc := { s.mc with ceLog := log, ceRaised := raised } } := of_cores rfl

theorem correctedAt {level idx bank region : Nat} : OnlyKneads s (s.correctedAt level idx bank region) := by
  have hcount : OnlyKneads s (s.count (ceCounter level idx) 1) := of_cores (count_cores ..)
  unfold State.correctedAt
  dsimp only
  split
  · split
    · exact ((hcount.trans updCe).trans raise).trans .kneadFirst
    · exact (hcount.trans updCe).trans raise
  · exact hcount.trans updCe

theorem meetUnits {f : Nat → Bool} : OnlyKneads s (s.meetUnits f) := by
  unfold State.meetUnits
  generalize s.weakUnits.filter f = us
  induction us generalizing s with
  | nil => exact of_cores rfl
  | cons a us ih =>
    refine trans ?_ ih
    dsimp only
    split <;> exact correctedAt

theorem meetReads {as : List Nat} : OnlyKneads s (s.meetReads as) := meetUnits

end OnlyKneads

theorem meetReads_nil (s : State) : s.meetReads [] = s := by
  unfold State.meetReads State.meetUnits
  simp

theorem access_nil (s : State) (j : Job) : s.access j [] [] = (s, none) := rfl

theorem fetchDesc_cores {s : State} {j : Job} {r : ListRec} {i : Nat} : (s.fetchDesc j r i).2.cores = s.cores := by
  unfold State.fetchDesc
  dsimp only
  split <;> rfl

/-! ### Streams -/

theorem stream_updStream_same (s : State) (c : CoreId) (x : CtxId) (f : Stream → Stream) :
    (s.updStream c x f).stream c x = f (s.stream c x) := by
  rw [State.stream, State.updStream, updCore_same, half_updHalf_same]
  simp [State.stream]

theorem updHalf_issued_eq (k : CoreS) (g : Bool) (f : LCtx → LCtx) : (k.updHalf g f).issued = k.issued := by
  cases g <;> rfl

theorem updStream_issued (s : State) (c : CoreId) (x : CtxId) (f : Stream → Stream) :
    (s.updStream c x f).cores[c].issued = s.cores[c].issued := by
  rw [State.updStream, updCore_same, updHalf_issued_eq]

theorem stream_of_halves {s t : State} {c : CoreId} (x : CtxId) (hfirst : t.cores[c].first = s.cores[c].first)
    (hguest : t.cores[c].guest = s.cores[c].guest) : t.stream c x = s.stream c x := by
  unfold State.stream CoreS.half
  rw [hfirst, hguest]

theorem turn_of_atDescriptor {s : State} {c : CoreId} {x : CtxId} {p : PartId} {l : Nat} {j : Job} {r : ListRec}
    (h : s.AtDescriptor c x p l j r) : s.turn c x = some (p, j, l, r) := by
  unfold State.turn
  dsimp only
  rw [h.part, h.lcore]
  dsimp only
  rw [h.job, Option.bind_some, decide_eq_true h.active, h.free, h.may, h.stop, h.paused]
  rw [if_neg (by simp), h.list, Option.bind_some, if_neg (Nat.not_le.2 h.more)]

section
variable {s v u : State} {c : CoreId} {x : CtxId} {p : PartId} {l : Nat} {j : Job} {r : ListRec} {d : List Word}

/-- A descriptor at its turn, read and brought. -/
theorem exec_descriptorIssue (h : s.AtDescriptor c x p l j r)
    (haccess : s.access j (span (r.addr + 64 * (s.stream c x).index) 64) [] = (v, none))
    (hfetch : (v.meetReads ((span (r.addr + 64 * (s.stream c x).index) 64).map (j.phys false))).fetchDesc j r (s.stream c x).index =
      (d, u)) : exec (.descriptorIssue c x) s = match unmet (u.cores[c].half (ctxGuest x)) d with
      | some (w, n, tgt) => .next (u.updStream c x fun t => { t with
          state := .waitCounter, waitWhich := w, waitCnt := BitVec.ofNat 8 n, waitTgt := tgt })
      | none => .next (if u.yields c x then u else u.tryIssue c x p j l r (s.stream c x).index d) := by
  show execDescriptorIssue c x s = _
  unfold execDescriptorIssue
  rw [turn_of_atDescriptor h]
  dsimp only
  rw [haccess]
  dsimp only
  rw [hfetch] <;> rfl

/-- Bringing a descriptor changes no more of its core than wakes and kneading. -/
theorem fetched_core (haccess : s.access j (span (r.addr + 64 * (s.stream c x).index) 64) [] = (v, none))
    (hfetch : (v.meetReads ((span (r.addr + 64 * (s.stream c x).index) 64).map (j.phys false))).fetchDesc j r (s.stream c x).index =
      (d, u)) : u.cores[c] = { s.cores[c] with ret := u.cores[c].ret, knead := u.cores[c].knead } := by
  have hu : u.cores = _ := (congrArg (fun y => y.2.cores) hfetch).symm.trans fetchDesc_cores
  have hv : v.cores[c] = { s.cores[c] with ret := v.cores[c].ret } := by
    rw [access_fst haccess]
    exact (TouchFrame.touchAll ..).cores c
  rw [hu, OnlyKneads.meetReads c, hv]

/-- The first clause of O14. -/
theorem descriptorIssue_waits {w : Bool} {n : Nat} {tgt : Word} (h : s.AtDescriptor c x p l j r)
    (haccess : s.access j (span (r.addr + 64 * (s.stream c x).index) 64) [] = (v, none))
    (hfetch : (v.meetReads ((span (r.addr + 64 * (s.stream c x).index) 64).map (j.phys false))).fetchDesc j r (s.stream c x).index =
      (d, u)) (hunmet : unmet (s.cores[c].half (ctxGuest x)) d = some (w, n, tgt)) :
    ∃ t : State, exec (.descriptorIssue c x) s = .next t ∧
      t.cores[c].issued = s.cores[c].issued ∧ (t.stream c x).state = .waitCounter ∧ (t.stream c x).waitTgt = tgt ∧
      (t.stream c x).index = (s.stream c x).index := by
  have hcore := fetched_core haccess hfetch
  have hhalf : u.cores[c].half (ctxGuest x) = s.cores[c].half (ctxGuest x) := by rw [hcore]; rfl
  have hstream : u.stream c x = s.stream c x := stream_of_halves x (by rw [hcore]) (by rw [hcore])
  have hexec := exec_descriptorIssue h haccess hfetch
  rw [hhalf, hunmet] at hexec
  refine ⟨_, hexec, ?_, ?_, ?_, ?_⟩
  · rw [updStream_issued, hcore]
  · rw [stream_updStream_same]
  · rw [stream_updStream_same]
  · rw [stream_updStream_same, hstream]

/-- The second clause of O14. -/
theorem descriptorIssue_tries (h : s.AtDescriptor c x p l j r)
    (haccess : s.access j (span (r.addr + 64 * (s.stream c x).index) 64) [] = (v, none))
    (hfetch : (v.meetReads ((span (r.addr + 64 * (s.stream c x).index) 64).map (j.phys false))).fetchDesc j r (s.stream c x).index =
      (d, u)) (hmet : unmet (s.cores[c].half (ctxGuest x)) d = none) : exec (.descriptorIssue c x) s =
      .next (if u.yields c x then u else u.tryIssue c x p j l r (s.stream c x).index d) := by
  have hcore := fetched_core haccess hfetch
  have hhalf : u.cores[c].half (ctxGuest x) = s.cores[c].half (ctxGuest x) := by rw [hcore]; rfl
  rw [exec_descriptorIssue h haccess hfetch, hhalf, hmet]

end

/-! ### Descriptors of a section keep their header (R346) -/

theorem wordAt_zero_moveAddr (f : Nat → Nat) (d : List Word) {lo hi : Nat} (hlo : 4 ≤ lo) (hhi : 4 ≤ hi) :
    wordAt (moveAddr f d lo hi) 0 = wordAt d 0 := by
  have hlo' : lo / 4 ≠ 0 := by omega
  have hhi' : hi / 4 ≠ 0 := by omega
  simp [moveAddr, wordAt, hlo', hhi']

theorem vecD_bases_ge (d : VecD) (p : VecP) : ∀ y ∈ d.bases p, 4 ≤ y.1 := by
  unfold VecD.bases
  dsimp only
  simp only [List.forall_mem_append]
  refine ⟨⟨⟨⟨⟨?_, ?_⟩, ?_⟩, ?_⟩, ?_⟩, ?_⟩
  · simp
  all_goals split <;> simp

theorem addressFields_ge (d : List Word) : ∀ o ∈ addressFields d, 4 ≤ o := by
  unfold addressFields
  split
  · simp only [List.mem_append, List.mem_filter, List.mem_map, List.mem_singleton]
    rintro o (⟨⟨y, hy, rfl⟩, -⟩ | rfl)
    · exact vecD_bases_ge _ _ y hy
    · decide
  · split <;> simp
  · simp

theorem wordAt_zero_relocate (f : Nat → Nat) (d : List Word) : wordAt (relocate f d) 0 = wordAt d 0 := by
  unfold relocate
  have hge := addressFields_ge d
  generalize addressFields d = os at hge
  induction os generalizing d with
  | nil => rfl
  | cons o os ih =>
    have ho := hge o List.mem_cons_self
    exact (ih _ fun x hx => hge x (List.mem_cons_of_mem _ hx)).trans (wordAt_zero_moveAddr f d ho (by omega))

theorem hClass_relocate (f : Nat → Nat) (d : List Word) : hClass (relocate f d) = hClass d :=
  congrArg (fun w => fld w 31 28) (wordAt_zero_relocate f d)

/-- Only VEC and MOV descriptors have addresses to relocate. -/
theorem relocate_of_class {f : Nat → Nat} {d : List Word} (h2 : hClass d ≠ 2) (h4 : hClass d ≠ 4) : relocate f d = d := by
  have hnone : addressFields d = [] := by
    unfold addressFields
    split
    next h => exact absurd h h2
    next h => exact absurd h h4
    · rfl
  rw [relocate, hnone]
  rfl

/-! ### Issuing (R208, R210, R211) -/

/-- A descriptor of an engine goes to a queue of its own. -/
theorem queueOf_ne_syn (s : State) (c : CoreId) {d : List Word} (hlo : 1 ≤ hClass d) (hhi : hClass d ≤ 6) (h6 : hClass d ≠ 6)
    (h5 : hClass d = 5 → nOp d ≠ 8 ∧ nOp d ≠ 9) : s.queueOf c d ≠ .syn := by
  unfold State.queueOf
  split
  · exact QueueId.noConfusion
  · exact QueueId.noConfusion
  · exact QueueId.noConfusion
  · exact QueueId.noConfusion
  next h =>
    obtain ⟨h8, h9⟩ := h5 h
    rw [if_neg (by rintro (hn | hn) <;> contradiction)]
    exact QueueId.noConfusion
  next h1 h2 h3 h4 h5' =>
    simp only [imp_false] at h1 h2 h3 h4 h5'
    omega

/-- The fourth clause of O14. -/
theorem tryIssue_queueFull (c : CoreId) (x : CtxId) (p : PartId) (j : Job) (l : Nat) (r : ListRec) (i : Nat) (d : List Word) (s : State)
    (hmv : j.relocation r i = none) (h6 : hClass d ≠ 6) (h5 : hClass d = 5 → nOp d ≠ 8 ∧ nOp d ≠ 9) (hlo : 1 ≤ hClass d)
    (hhi : hClass d ≤ 6) (hfull : queueDepth (s.queueOf c (relocate id d)) ≤ s.queued c (s.queueOf c (relocate id d))) :
    ∃ t : State, s.tryIssue c x p j l r i d = t ∧ t.cores[c].issued = s.cores[c].issued ∧ (t.stream c x).state = .waitQueue ∧
      (t.stream c x).index = (s.stream c x).index := by
  have hsyn : s.queueOf c (relocate id d) ≠ .syn := by
    have hclass := hClass_relocate id d
    refine queueOf_ne_syn s c (by omega) (by omega) (by omega) fun hnet => ?_
    rw [hclass] at hnet
    rw [relocate_of_class (by omega) (by omega)]
    exact h5 hnet
  refine ⟨_, rfl, ?_⟩
  unfold State.tryIssue
  simp only [hmv, hsyn, hfull, ne_eq, not_false_eq_true, decide_true, Bool.and_self, if_true]
  rw [updStream_issued, stream_updStream_same]
  exact ⟨rfl, rfl, rfl⟩

theorem paramAddrs_eq_nil {d : List Word} (h : paramBytes d = 0) : paramAddrs d = [] := by
  rw [paramAddrs, h]
  rfl

theorem endFault_of_ends {s : State} {c : CoreId} {x : CtxId} {p : PartId} {j : Job} {l : Nat} {r : ListRec} {d : List Word} {i : Nat}
    (h : i + 1 = r.count → endsAs (j.endingOf r) d = true) : s.endFault c x p j l r d i = s := by
  unfold State.endFault
  rw [if_neg]
  rintro ⟨hlast, hends⟩
  rw [h hlast] at hends
  exact absurd hends (by decide)

theorem paramErr_of_syn {s : State} {p : PartId} {j : Job} {l i : Nat} {d : List Word} (hclass : hClass d = 6)
    (hparam : paramBytes d = 0) : s.paramErr p j l i d = none := by
  unfold State.paramErr State.checkNames
  rw [hclass, paramAddrs_eq_nil hparam]
  rfl

/-- Only a SPILL turns its slot SPILLING as it issues. -/
theorem spillIssues_of_class {s : State} {j : Job} {e : Issued} (h : hClass e.words ≠ 4) : s.spillIssues j e = s := by
  unfold State.spillIssues
  exact if_neg fun hs => h hs.1

theorem stream_updCore_issued (s : State) (c : CoreId) (x : CtxId) (es : List Issued) :
    (s.updCore c fun k => { k with issued := k.issued ++ es, nextSeq := k.nextSeq + 1 }).stream c x = s.stream c x :=
  stream_of_halves x (by rw [updCore_same]) (by rw [updCore_same])

theorem mapCores_core (s : State) (f : CoreS → CoreS) (c : CoreId) : (s.mapCores f).cores[c] = f s.cores[c] := by
  simp [State.mapCores]

/-- A SYN descriptor that passes its checks is issued. -/
theorem tryIssue_syn {c : CoreId} {x : CtxId} {p : PartId} {j : Job} {l : Nat} {r : ListRec} {i : Nat} {d : List Word} {s : State}
    (hmv : j.relocation r i = none) (hclass : hClass d = 6) (hparam : paramBytes d = 0) (hheader : headerError j.lcores d = none)
    (hcheck : s.descCheck p j l r.list i d [] = none) (hends : i + 1 = r.count → endsAs (j.endingOf r) d = true) :
    s.tryIssue c x p j l r i d =
      s.issueInto c x { mkIssued s.cores[c].nextSeq x p l r.list i d .syn [] with stamp := (j.commitUnder, j.step.attempt) } := by
  have hsame : relocate id d = d := relocate_of_class (by omega) (by omega)
  have hqueue : s.queueOf c d = .syn := by unfold State.queueOf; rw [hclass]; rfl
  have hreads : paramReads l d = [] := by rw [paramReads, paramAddrs_eq_nil hparam]; rfl
  have h2 : ¬ hClass d = 2 := by omega
  have h3 : ¬ hClass d = 3 := by omega
  have h5 : ¬ hClass d = 5 := by omega
  unfold State.tryIssue
  simp only [hmv, hsame, hqueue, ne_eq, not_true_eq_false, decide_false, Bool.false_and, Bool.false_eq_true, if_false, h5,
    not_false_eq_true, decide_true, Bool.true_or, Bool.not_true, hheader, paramErr_of_syn hclass hparam, hreads, access_nil, List.map_nil, meetReads_nil,
    paramAddrs_eq_nil hparam, h2, h3, hcheck, false_and, Option.orElse_none]
  rw [spillIssues_of_class (by exact ne_of_eq_of_ne hclass (by decide)), endFault_of_ends hends]

/-- The third clause of O14. -/
theorem tryIssue_issues (c : CoreId) (x : CtxId) (p : PartId) (j : Job) (l : Nat) (r : ListRec) (i : Nat) (d : List Word) (s : State)
    (hmv : j.relocation r i = none) (hclass : hClass d = 6) (hparam : paramBytes d = 0) (hheader : headerError j.lcores d = none)
    (hcheck : s.descCheck p j l r.list i d [] = none) (hends : i + 1 = r.count → endsAs (j.endingOf r) d = true) :
    ∃ t : State, s.tryIssue c x p j l r i d = t ∧
      t.cores[c].issued = s.cores[c].issued ++ [{ mkIssued s.cores[c].nextSeq x p l r.list i d .syn [] with stamp := (j.commitUnder, j.step.attempt) }] ∧
      (t.stream c x).index = (s.stream c x).index + 1 ∧ (t.stream c x).state = (if 0x10 ≤ sOp d then .waitFence else .issuing) ∧
      (∀ d : CoreId, d ≠ c → t.cores[d] = s.cores[d]) ∧ t = { s with cores := t.cores } := by
  refine ⟨_, tryIssue_syn hmv hclass hparam hheader hcheck hends, ?_, ?_, ?_, fun k hk => ?_, rfl⟩
  · rw [State.issueInto, updStream_issued, updCore_same]
  · rw [State.issueInto, stream_updStream_same, stream_updCore_issued]
  · rw [State.issueInto, stream_updStream_same]
    simp only [mkIssued, hclass, decide_true, Bool.true_and]
    exact if_congr decide_eq_true_iff rfl rfl
  · rw [State.issueInto, State.updStream, updCore_other _ _ hk, updCore_other _ _ hk]

/-! ### Ends and restarts of lists (R219, R364) -/

theorem allEnded_of_parked {s : State} {p : PartId} {j : Job} (hj : s.job p = some j) (hparked : s.allParked j = true)
    (hstop : j.stop = .none) : s.allEnded p = match j.kind with
      | .run => s.finishJob p
      | .loop => if (s.handleOf j.handle).any fun x => x.suspendPending then s.suspendJob p else s.startStreams p
      | .train => if j.step.updating then (s.stepDone p).fenceDue else s := by
  unfold State.allEnded
  simp only [hj, hparked, hstop]
  rfl

theorem exec_streamsRestart {s : State} {p : PartId} {j : Job} (hj : s.job p = some j) (hrestart : j.cmt.restart = true)
    (hmay : s.mayRestart p = true) : exec (.streamsRestart p) s = .next (s.startStreams p) := by
  simp only [exec, execStreamsRestart, hj, hrestart, hmay, Bool.and_self, if_true]

/-- A half of a core whose streams start. -/
def LCtx.restarted (l : LCtx) : LCtx :=
  if l.lcore.isSome then { l with cnt := [], streams := l.streams.map fun t => { t.rest with state := .issuing } } else l

theorem startStreams_first {s : State} {p : PartId} {c : CoreId} (hp : s.cores[c].part = some p) :
    (s.startStreams p).cores[c].first = s.cores[c].first.restarted := by
  have hcores : (s.startStreams p).cores = (s.mapCores fun k =>
      if k.part = some p then { k with first := k.first.restarted, guest := k.guest.restarted } else k).cores := rfl
  rw [hcores, mapCores_core, if_pos hp]

theorem startStreams_mem (s : State) (p : PartId) : (s.startStreams p).mem = s.mem := rfl

theorem cluster_startStreams {s : State} {p : PartId} {k : Cluster} (h : (s.startStreams p).cluster p = some k) :
    k.sendNext = [] ∧ k.recvDone = [] := by
  unfold State.startStreams State.updCluster State.cluster at h
  dsimp only at h
  rw [job_updJob_same, job_updJob_same] at h
  generalize State.job _ p = o at h
  cases o with
  | none => exact absurd h (by simp)
  | some j =>
    simp only [Option.map_some, Option.bind_some] at h
    cases hk : j.cluster with
    | none => rw [hk] at h; exact absurd h (by simp)
    | some k' =>
      rw [hk, Option.map_some, Option.some.injEq] at h
      rw [← h]
      exact ⟨rfl, rfl⟩

/-- The eighth clause of O14. -/
theorem startStreams_starts (p : PartId) (c : CoreId) (l : Nat) (s : State) (hp : s.cores[c].part = some p)
    (hl : s.cores[c].first.lcore = some l) :
    (s.startStreams p).cores[c].first.cnt = [] ∧
    (∀ k : Fin 4, (s.startStreams p).cores[c].first.streams[k].state = .issuing ∧
      (s.startStreams p).cores[c].first.streams[k].index = 0) ∧
    (s.startStreams p).mem = s.mem ∧ (s.startStreams p).cores[c].first.slots = s.cores[c].first.slots := by
  have hrestarted : s.cores[c].first.restarted =
      { s.cores[c].first with cnt := [], streams := s.cores[c].first.streams.map fun t => { t.rest with state := .issuing } } :=
    if_pos (by rw [hl]; rfl)
  rw [startStreams_first hp, hrestarted]
  refine ⟨rfl, fun k => ?_, startStreams_mem s p, rfl⟩
  simp [Stream.rest]

/-- Settles O14. -/
theorem streamsIssueInOrder : Obligations.StreamsIssueInOrder := by
  refine ⟨fun _ _ _ _ _ _ _ _ _ _ _ _ _ => descriptorIssue_waits, fun _ _ _ _ _ _ _ _ _ _ => descriptorIssue_tries, tryIssue_issues,
    tryIssue_queueFull, fun p j s hj hparked hstop hkind => ?_, fun p j s hj hparked hstop hkind hpending => ?_,
    fun _ _ _ => exec_streamsRestart, startStreams_starts, fun _ _ _ => cluster_startStreams⟩
  · rw [allEnded_of_parked hj hparked hstop, hkind]
  · rw [allEnded_of_parked hj hparked hstop, hkind]
    dsimp only
    rw [hpending, if_neg Bool.false_ne_true]

end Sys2Proof.Machine


namespace Sys2Proof.Machine

/-! ### VEC at the head of its queue (R107, R110, R135) -/

theorem exec_vecCommands : ∀ x ∈ vecCommands, ∀ (c : CoreId) (env : MemEnv) (s : State),
    exec (x.2 c env) s = .next (s.vec c x.1 env) := by
  simp only [vecCommands, List.forall_mem_cons]
  exact ⟨fun _ _ _ => rfl, fun _ _ _ => rfl, fun _ _ _ => rfl, fun _ _ _ => rfl, fun _ _ _ => rfl, fun _ _ _ => rfl, fun _ _ _ => rfl,
    fun _ _ _ => rfl, fun _ _ _ => rfl, fun _ _ _ => rfl, fun _ _ _ => rfl, fun _ _ _ => rfl, fun _ _ _ => rfl, fun _ _ _ => rfl,
    fun _ _ _ => rfl, fun _ _ _ => rfl, fun _ _ _ => rfl, fun _ _ _ => rfl, fun _ _ _ => rfl, fun _ _ _ => rfl, fun _ _ _ => rfl,
    fun _ h => absurd h List.not_mem_nil⟩

theorem exec_tableCommands : ∀ x ∈ tableCommands, ∀ (c : CoreId) (env : MemEnv) (s : State),
    exec (x.2 c env) s = .next (s.vec c x.1 env) := by
  simp only [tableCommands, List.forall_mem_cons]
  exact ⟨fun _ _ _ => rfl, fun _ _ _ => rfl, fun _ h => absurd h List.not_mem_nil⟩

theorem vecCommands_noTable : ∀ x ∈ vecCommands, ¬ (x.1 = 0x20 ∨ x.1 = 0x21) := by decide

theorem tableCommands_table : ∀ x ∈ tableCommands, x.1 = 0x20 ∨ x.1 = 0x21 := by decide

section
variable {c : CoreId} {env : MemEnv} {e : Issued} {j : Job} {v : Serve} {s : State} {op : Nat}

theorem vec_of_plain (hhead : s.headOf c .vec = some e) (hop : (vecD e.words).op = op) (hphase : e.phase = .queued)
    (hj : s.job e.part = some j) (hv : j.serve e.lcore = some v) (hplain : ¬ (op = 0x20 ∨ op = 0x21)) : s.vec c op env =
      match (s.vecStart c e j env none).untied j e.lcore (vecD e.words) with
      | some tile => (s.vecStart c e j env none).failDescriptor c e ⟨0x4404, [c.val, tile, 0]⟩
      | none => (s.vecStart c e j env none).runVec c e j v.guest none := by
  unfold State.vec
  simp only [hhead, hop, hphase, ne_eq, not_true_eq_false, or_self, if_false, hj, hv, hplain, decide_false, Bool.false_and,
    Bool.false_eq_true] <;> rfl

theorem vec_of_table (hhead : s.headOf c .vec = some e) (hop : (vecD e.words).op = op) (hphase : e.phase = .queued)
    (hj : s.job e.part = some j) (hv : j.serve e.lcore = some v) (htable : op = 0x20 ∨ op = 0x21) : s.vec c op env =
      if s.loadBefore c e (vecP e.param).tbl then s
      else
        let t := s.tableAt j e.lcore (vecP e.param).tbl
        let u := (s.vecStart c e j env t).meetHead c v.guest (vecP e.param).tbl
        if t.isNone then u.failDescriptor c e ⟨0x4303, [c.val, (vecP e.param).tbl]⟩
        else if u.headFails c v.guest (vecP e.param).tbl then u.failHead c e
        else match u.untied j e.lcore (vecD e.words) with
          | some tile => u.failDescriptor c e ⟨0x4404, [c.val, tile, 0]⟩
          | none => u.runVec c e j v.guest t := by
  unfold State.vec
  simp only [hhead, hop, hphase, ne_eq, not_true_eq_false, or_self, if_false, hj, hv, htable, decide_true, Bool.true_and, if_true] <;> rfl

/-- Only a CVT is held back for tiles that are not tied. -/
theorem untied_of_table {u : State} {l : Nat} {d : VecD} (h : d.op = 0x20 ∨ d.op = 0x21) : u.untied j l d = none := by
  unfold State.untied
  exact if_pos (.inl (by omega))

end

/-! ### ROW at the head of its queue (R121-R126, R135, R136) -/

theorem exec_normFwd {c : CoreId} {env : MemEnv} {e : Issued} {j : Job} {v : Serve} {s : State}
    (h : s.rowHead c 0x01 = some (e, j, v)) : exec (.normFwd c env) s = .next ((s.rowStart c e j env none).runRow c e j none) := by
  simp only [exec, execNormFwd, State.normRow, h]

theorem exec_normBwd {c : CoreId} {env : MemEnv} {e : Issued} {j : Job} {v : Serve} {s : State}
    (h : s.rowHead c 0x02 = some (e, j, v)) : exec (.normBwd c env) s = .next ((s.rowStart c e j env none).runRow c e j none) := by
  simp only [exec, execNormBwd, State.normRow, h]

theorem exec_smaxCommands : ∀ x ∈ ([(0x03, .smaxFwd), (0x04, .smaxBwd)] : List (Nat × (CoreId → MemEnv → Instr))),
    ∀ (c : CoreId) (env : MemEnv) (s : State), exec (x.2 c env) s = .next (s.smaxRowOp c x.1 env) := by
  simp only [List.forall_mem_cons]
  exact ⟨fun _ _ _ => rfl, fun _ _ _ => rfl, fun _ h => absurd h List.not_mem_nil⟩

theorem smaxRowOp_of_head {c : CoreId} {op : Nat} {env : MemEnv} {e : Issued} {j : Job} {v : Serve} {s : State}
    (h : s.rowHead c op = some (e, j, v)) : s.smaxRowOp c op env =
      let u := (s.rowStart c e j env (s.tableAt j e.lcore (rowD e.words).tbl)).meetHead c v.guest (rowD e.words).tbl
      match s.tableAt j e.lcore (rowD e.words).tbl with
      | none => u.failDescriptor c e ⟨0x4303, [c.val, (rowD e.words).tbl]⟩
      | some t => if u.headFails c v.guest (rowD e.words).tbl then u.failHead c e
        else if t.hdr.func ≠ 5 then u.failDescriptor c e (fieldErr 0x4301 e.index 0x10 5) else u.runRow c e j (some t) := by
  unfold State.smaxRowOp
  simp only [h] <;> rfl

/-- Settles O20. -/
theorem vecAndRowDescriptorsRun : Obligations.VecAndRowDescriptorsRun := by
  refine ⟨fun x hx c env e j v s hhead hop hphase hj hv huntied => ?_,
    fun x hx c env e j v t u s hhead hop hphase hj hv hload ht hu hfails => ?_,
    fun x hx c env e j v s hhead hop hphase hj hv hload ht => ?_, fun x hx c env e j v s hhead hop hphase hj hv hload => ?_,
    fun _ _ _ _ _ _ => exec_normFwd, fun _ _ _ _ _ _ => exec_normBwd,
    fun x hx c env e j v t u s hhead ht hfunc hu hfails => ?_, fun x hx c env e j v s hhead ht => ?_⟩
  · rw [exec_vecCommands x hx, vec_of_plain hhead hop hphase hj hv (vecCommands_noTable x hx), huntied]
  · have htable := tableCommands_table x hx
    rw [exec_tableCommands x hx, vec_of_table hhead hop hphase hj hv htable, hload, ht]
    dsimp only
    rw [← hu, hfails, untied_of_table (hop ▸ htable)]
    rfl
  · rw [exec_tableCommands x hx, vec_of_table hhead hop hphase hj hv (tableCommands_table x hx), hload, ht]
    rfl
  · rw [exec_tableCommands x hx, vec_of_table hhead hop hphase hj hv (tableCommands_table x hx), hload, if_pos rfl]
  · rw [exec_smaxCommands x hx, smaxRowOp_of_head hhead, ht]
    dsimp only
    rw [← hu, hfails, if_neg Bool.false_ne_true, if_neg (not_not_intro hfunc)]
  · rw [exec_smaxCommands x hx, smaxRowOp_of_head hhead, ht]

/-! ### Table loads (R132-R136) -/

theorem exec_tblLoad {c : CoreId} {env : MemEnv} {e : Issued} {j : Job} {v : Serve} {u s : State}
    (h : s.rowHead c 0x10 = some (e, j, v))
    (haccess : (s.rowStart c e j env none).access j
      (if (rowD e.words).fw then [] else span (rowD e.words).xA imageBytes) [] = (u, none)) : exec (.tblLoad c env) s =
      match tableImage (rowD e.words).fw ((rowD e.words).xA % 65536)
        (if (rowD e.words).fw then [] else u.lrdBytes j (rowD e.words).xA imageBytes) with
      | .error f => .next (u.failDescriptor c e ⟨0x4304, [c.val, (rowD e.words).tbl, f]⟩)
      | .ok img => .next (u.updIssued c e.seq fun x => { x with phase := .running, param := img }) := by
  show execTblLoad c env s = _
  unfold execTblLoad
  rw [h]
  dsimp only
  rw [haccess] <;> rfl

theorem exec_tblLoadApply {c : CoreId} {e : Issued} {j : Job} {u s : State} (hhead : s.headOf c .row = some e)
    (hop : (rowD e.words).op = 0x10) (hphase : e.phase = .running) (hused : s.usedBefore c e (rowD e.words).tbl = false)
    (hj : s.job e.part = some j) (haccess : s.access j [] (span (tablePlace e.lcore (rowD e.words).tbl) 0x2000) = (u, none)) :
    exec (.tblLoadApply c) s = .next ((u.fillTable j e.lcore (rowD e.words).tbl e.param).finish c e) := by
  show execTblLoadApply c s = _
  unfold execTblLoadApply
  rw [hhead]
  dsimp only
  rw [if_neg (by simp [hop, hphase, hused]), hj]
  dsimp only
  rw [haccess]

theorem exec_tblLoadApply_used {c : CoreId} {e : Issued} {s : State} (hhead : s.headOf c .row = some e)
    (hused : s.usedBefore c e (rowD e.words).tbl = true) : exec (.tblLoadApply c) s = .next s := by
  show execTblLoadApply c s = _
  unfold execTblLoadApply
  rw [hhead]
  dsimp only
  rw [if_pos (.inr (.inr hused))]

theorem lctx_updCore_of_halves {s : State} {d : CoreId} {f : CoreS → CoreS} (v : Serve) (hfirst : ∀ k, (f k).first = k.first)
    (hguest : ∀ k, (f k).guest = k.guest) : (s.updCore d f).lctx v = s.lctx v := by
  have hhalf (k : CoreS) : (f k).half v.guest = k.half v.guest := by unfold CoreS.half; rw [hfirst, hguest]
  unfold State.lctx
  by_cases hd : v.core = d
  · subst hd
    rw [updCore_same, hhalf]
  · rw [updCore_other s f hd]

theorem lctx_finish (s : State) (c : CoreId) (e : Issued) (v : Serve) : (s.finish c e).lctx v = s.lctx v :=
  lctx_updCore_of_halves v (fun _ => rfl) fun _ => rfl

theorem lctx_of_touch {s t : State} (h : TouchFrame s t) (v : Serve) : t.lctx v = s.lctx v := by
  unfold State.lctx
  rw [h.cores v.core]
  rfl

/-- The stores of a table's segments. -/
def tableStores (j : Job) (l n : Nat) (img : List Byte) : List (Nat × Byte) :=
  (indexed (slice img 0x40 0x2000)).map fun x => (translate j.serves j.guests (tablePlace l n + x.1), x.2)

/-- A table's slot filled: its segments stored, its errors gone, its header noted. -/
theorem fillTable_of_serve {s : State} {j : Job} {l n : Nat} {img : List Byte} {v : Serve} (hv : j.serve l = some v) :
    s.fillTable j l n img = (if v.guest then s.put (tableStores j l n img)
      else (s.put (tableStores j l n img)).updCore v.core fun k => { k with
        headWeak := k.headWeak.filter (· ≠ n), headBad := k.headBad.filter (· ≠ n) }).updLCtx v fun c =>
      { c with tables := mapSet c.tables n (slice img 0 64) } := by
  unfold State.fillTable
  rw [hv]
  rfl

theorem fillTable_outcome {s : State} {j : Job} {l n : Nat} {img : List Byte} {v : Serve} (hv : j.serve l = some v) :
    (s.fillTable j l n img).lctx v = { s.lctx v with tables := mapSet (s.lctx v).tables n (slice img 0 64) } ∧
      (∀ a, (s.fillTable j l n img).rd a = (s.put (tableStores j l n img)).rd a) ∧
      (s.fillTable j l n img).parts = s.parts ∧ (s.fillTable j l n img).handles = s.handles ∧
      (s.fillTable j l n img).nvm = s.nvm := by
  have hstored : (s.put (tableStores j l n img)).lctx v = s.lctx v := rfl
  have hparts : (s.put (tableStores j l n img)).parts = s.parts := rfl
  have hhandles : (s.put (tableStores j l n img)).handles = s.handles := rfl
  have hnvm : (s.put (tableStores j l n img)).nvm = s.nvm := rfl
  rw [fillTable_of_serve hv, lctx_updLCtx_same]
  generalize s.put (tableStores j l n img) = q at *
  split
  · exact ⟨by rw [hstored], fun _ => rfl, hparts, hhandles, hnvm⟩
  · refine ⟨?_, fun _ => rfl, hparts, hhandles, hnvm⟩
    rw [lctx_updCore_of_halves v (by exact fun _ => rfl) (by exact fun _ => rfl), hstored]

/-- The third clause of O22. -/
theorem tblLoadApply_fills (c : CoreId) (e : Issued) (j : Job) (v : Serve) (u s : State) (hhead : s.headOf c .row = some e)
    (hop : (rowD e.words).op = 0x10) (hphase : e.phase = .running) (hused : s.usedBefore c e (rowD e.words).tbl = false)
    (hj : s.job e.part = some j) (hv : j.serve e.lcore = some v)
    (haccess : s.access j [] (span (tablePlace e.lcore (rowD e.words).tbl) 0x2000) = (u, none)) :
    ∃ t : State, exec (.tblLoadApply c) s = .next t ∧ mapGet (t.lctx v).tables (rowD e.words).tbl = some (slice e.param 0 64) ∧
      (∀ n, n ≠ (rowD e.words).tbl → mapGet (t.lctx v).tables n = mapGet (s.lctx v).tables n) ∧
      (∀ a, t.rd a = (s.put ((indexed (slice e.param 0x40 0x2000)).map fun x =>
        (translate j.serves j.guests (tablePlace e.lcore (rowD e.words).tbl + x.1), x.2))).rd a) ∧
      (∀ x ∈ t.cores[c].issued, x.seq = e.seq → x.phase = .finished) ∧
      t.parts = s.parts ∧ t.handles = s.handles ∧ t.nvm = s.nvm := by
  have htouch : TouchFrame s u := by rw [access_fst haccess]; exact .touchAll ..
  obtain ⟨htables, hrd, hparts, hhandles, hnvm⟩ :=
    fillTable_outcome (s := u) (j := j) (l := e.lcore) (n := (rowD e.words).tbl) (img := e.param) hv
  refine ⟨_, exec_tblLoadApply hhead hop hphase hused hj haccess, ?_, fun n hn => ?_, fun a => ?_, finish_issued _ c e, ?_, ?_, ?_⟩
  · rw [lctx_finish, htables, mapGet_mapSet_same]
  · rw [lctx_finish, htables, mapGet_mapSet_other _ _ hn, lctx_of_touch htouch]
  · rw [State.finish, updIssued_rd, hrd]
    exact rd_put_congr (htouch.view.rd a)
  · rw [State.finish, updIssued_parts, hparts, htouch.rest]
  · rw [State.finish, updIssued_handles, hhandles, htouch.rest]
  · rw [State.finish, updIssued_nvm, hnvm, htouch.rest]

/-- Settles O22. -/
theorem tableLoadsFillSlots : Obligations.TableLoadsFillSlots := by
  refine ⟨fun c env e j v img u s hhead haccess himg => ?_, fun c env e j v f u s hhead haccess himg => ?_, tblLoadApply_fills,
    fun _ _ _ => exec_tblLoadApply_used⟩
  · rw [exec_tblLoad hhead haccess, himg]
  · rw [exec_tblLoad hhead haccess, himg]

end Sys2Proof.Machine


namespace Sys2Proof.Machine

/-! ### What a command's own reads do to the cores -/

/-- Of the cores, `t` changes no more than the kneading orders and the errors of table headers of `s`. -/
def OnlyTakes (s t : State) : Prop :=
  ∀ c : CoreId, t.cores[c] = { s.cores[c] with
    knead := t.cores[c].knead, headWeak := t.cores[c].headWeak, headBad := t.cores[c].headBad }

namespace OnlyTakes

variable {s t u : State}

theorem refl (s : State) : OnlyTakes s s := fun _ => rfl

theorem trans (h : OnlyTakes s t) (k : OnlyTakes t u) : OnlyTakes s u := fun c => by rw [k c, h c]

theorem of_cores (h : t.cores = s.cores) : OnlyTakes s t := fun c => by rw [h]

theorem of_kneads (h : OnlyKneads s t) : OnlyTakes s t := fun c => by rw [h c]

theorem updCore {d : CoreId} {f : CoreS → CoreS} (hf : ∀ k, f k = { k with headWeak := (f k).headWeak, headBad := (f k).headBad }) :
    OnlyTakes s (s.updCore d f) := fun c => by
  by_cases hc : c = d
  · subst hc
    rw [updCore_same, hf]
  · rw [updCore_other s f hc]

theorem foldl {α : Type} {f : State → α → State} (hf : ∀ t a, OnlyTakes t (f t a)) (l : List α) : OnlyTakes s (l.foldl f s) := by
  induction l generalizing s with
  | nil => exact refl s
  | cons a l ih => exact (hf s a).trans ih

theorem takeEnv {env : MemEnv} : OnlyTakes s (s.takeEnv env) := by
  unfold State.takeEnv
  extract_lets waited weak bad
  have hwaited : OnlyTakes s waited := foldl (fun t a => of_cores (count_cores ..)) _
  have hweak : OnlyTakes waited weak := foldl (fun t a => updCore fun _ => rfl) _
  have hbad : OnlyTakes weak bad := foldl (fun t a => updCore fun _ => rfl) _
  exact ((hwaited.trans hweak).trans hbad).trans (of_cores rfl)

theorem takeFor {env : MemEnv} {p : PartId} {as : List Nat} : OnlyTakes s (s.takeFor env p as) :=
  takeEnv.trans (of_kneads .meetReads)

end OnlyTakes

theorem gangOut_of_arrays {k l : CoreS} (h : l.arrays = k.arrays) : l.gangOut = k.gangOut := by
  unfold CoreS.gangOut CoreS.serviceable
  rw [h]

/-! ### MAT and its retry at the head of a queue (R87, R96) -/

section
variable {c : CoreId} {u : MatUnit} {e : Issued} {flaws : List Flaw} {feed drain : Nat} {env : MemEnv} {s : State}

theorem exec_matRun (hhead : s.headOf c (s.matQueue c u) = some e) (hphase : e.phase = .queued) (hretry : e.isRetry = false) :
    exec (.matRun c u flaws feed drain env) s =
      let t := s.takeFor env e.part (matD e.words).readAddrs
      let u : MatUnit := if s.cores[c].ganged then ⟨u.array, 0⟩ else u
      match (if s.cores[c].ganged then s.cores[c].gangOut else none) with
      | some a => .next ((t.matDone c e u 0 true false).failDescriptor c e ⟨0x4106, [c.val, a]⟩)
      | none => .next (t.runMat c u e none 0 flaws feed drain) := by
  have htake := OnlyTakes.takeFor (s := s) (env := env) (p := e.part) (as := (matD e.words).readAddrs) c
  have hgang : (s.takeFor env e.part (matD e.words).readAddrs).cores[c].ganged = s.cores[c].ganged := by rw [htake]
  have hout : (s.takeFor env e.part (matD e.words).readAddrs).cores[c].gangOut = s.cores[c].gangOut :=
    gangOut_of_arrays (by rw [htake])
  show execMatRun c u flaws feed drain env s = _
  unfold execMatRun
  rw [hhead]
  dsimp only
  rw [if_neg (by simp [hphase, hretry]), hgang, hout] <;> rfl

theorem exec_matRetry {k : Nat} (hk : s.cores[c].issued[k]? = some e) (hqueue : e.queue = .mat u) (hretry : e.isRetry = true)
    (hphase : e.phase = .queued) (hhead : (s.headOf c e.queue).map Issued.seq = some e.seq) :
    exec (.matRetry c k flaws feed drain env) s =
      .next ((s.takeFor env e.part (matD e.words).readAddrs).runMat c
        (if s.cores[c].ganged then ⟨Fin.ofNat 4 (e.prog.getD 2 0), Fin.ofNat 3 (e.prog.getD 3 0)⟩ else u) e
        (some ⟨Fin.ofNat 4 (e.prog.getD 2 0), Fin.ofNat 3 (e.prog.getD 3 0)⟩) (e.prog.getD 1 0) flaws feed drain) := by
  have htake := OnlyTakes.takeFor (s := s) (env := env) (p := e.part) (as := (matD e.words).readAddrs) c
  have hgang : (s.takeFor env e.part (matD e.words).readAddrs).cores[c].ganged = s.cores[c].ganged := by rw [htake]
  show execMatRetry c k flaws feed drain env s = _
  unfold execMatRetry
  rw [hk]
  dsimp only
  rw [hqueue] at hhead ⊢
  dsimp only
  rw [if_neg (by simp [hphase, hretry, hhead]), hgang]

end

/-! ### Diagnostics of a unit (R98) -/

theorem unit_updRecords (s : State) (c : CoreId) (u : MatUnit) (f : HalfS → HalfS) :
    (s.updRecords c u f).cores[c].unit u = f (s.cores[c].unit u) := by
  unfold State.updRecords
  dsimp only
  split
  next h =>
    have hidx : unitIdx u = 0 := by unfold unitIdx; rw [h]; rfl
    rw [updUnit_eq, updCore_same, unit_eq_half, halves_setHalf_other _ _ (.inr (by rw [hidx]; decide)), ← unit_eq_half, unit_updUnit_same]
  · rw [unit_updUnit_same]

theorem setService_eq (s : State) (c : CoreId) (u : MatUnit) (v : Service) :
    s.setService c u v = s.updRecords c u fun h => { h with service := v } := rfl

theorem updRecords_atCore {s : State} {c : CoreId} {u : MatUnit} {f : HalfS → HalfS} : AtCore c s (s.updRecords c u f) := by
  unfold State.updRecords
  dsimp only
  split
  · exact AtCore.updUnit.trans .updUnit
  · exact .updUnit

theorem updRecords_reg (s : State) (c : CoreId) (u : MatUnit) (f : HalfS → HalfS) (o : Nat) : (s.updRecords c u f).reg o = s.reg o := by
  unfold State.updRecords
  dsimp only
  split <;> rfl

theorem isEventReg_arrFaultloc (c : CoreId) (a : ArrayId) : isEventReg (coreArrFaultloc c.val a.val) = false := by
  have ha := a.isLt
  rw [coreArrFaultloc, Nat.add_assoc]
  exact isEventReg_core c.val c.isLt (by omega)

theorem exec_arrayDiagnostic {c : CoreId} {u : MatUnit} {s : State} (hin : s.cores[c].inService = true)
    (hsuspect : (s.cores[c].records u).all (fun h => decide (h.service = .suspect) && !h.diag) = true) :
    exec (.arrayDiagnostic c u) s = .next (s.updRecords c u fun h => { h with diag := true }) := by
  simp only [exec, execArrayDiagnostic, hin, hsuspect, Bool.and_self, if_true]

/-- A unit that has passed its diagnostic. -/
def State.passUnit (s : State) (c : CoreId) (u : MatUnit) : State :=
  ((s.updRecords c u fun h => { h with diag := false }).setService c u .inService).updRecords c u fun h => { h with mismatches := [] }

theorem passUnit_atCore (s : State) (c : CoreId) (u : MatUnit) : AtCore c s (s.passUnit c u) :=
  (updRecords_atCore.trans (setService_atCore ..)).trans updRecords_atCore

theorem unit_passUnit (s : State) (c : CoreId) (u : MatUnit) : (s.passUnit c u).cores[c].unit u =
    { s.cores[c].unit u with service := .inService, mismatches := [], diag := false } := by
  rw [State.passUnit, unit_updRecords, setService_eq, unit_updRecords, unit_updRecords]

theorem arrayDiagnosticDone_clean (c : CoreId) (u : MatUnit) (s : State) (hin : s.cores[c].inService = true)
    (hdiag : (s.cores[c].records u).all (fun h => h.diag) = true) :
    ∃ t : State, exec (.arrayDiagnosticDone c u none) s = .next t ∧ (t.cores[c].unit u).service = .inService ∧
      (t.cores[c].unit u).mismatches = [] ∧ (t.cores[c].unit u).diag = false ∧ t.nvm = s.nvm ∧ (∀ p, t.job p = s.job p) := by
  have hexec : exec (.arrayDiagnosticDone c u none) s = .next
      ((s.passUnit c u).raise (.core c.val) s.cores[c].part 0x4103 [c.val, u.array.val, (unitIdx u).val]) := by
    simp only [exec, execArrayDiagnosticDone, hin, hdiag, Bool.and_self, Bool.not_true, Bool.false_eq_true, if_false]
    rfl
  have hframe := passUnit_atCore s c u
  refine ⟨_, hexec, ?_, ?_, ?_, (raise_nvm ..).trans hframe.nvm, fun p => (raise_job ..).trans (hframe.job p)⟩ <;>
    rw [raise_cores, unit_passUnit]

theorem arrayDiagnosticDone_fails (c : CoreId) (u : MatUnit) (r k : Fin 256) (s : State) (hin : s.cores[c].inService = true)
    (hdiag : (s.cores[c].records u).all (fun h => h.diag) = true) :
    ∃ t : State, exec (.arrayDiagnosticDone c u (some (r, k))) s = .next t ∧ (t.cores[c].unit u).service = .out ∧
      t.regFld (coreArrFaultloc c.val u.array.val) 15 8 = r.val ∧ t.regFld (coreArrFaultloc c.val u.array.val) 7 0 = k.val ∧
      t.regFld (coreArrFaultloc c.val u.array.val) 30 30 = 1 := by
  have hexec : exec (.arrayDiagnosticDone c u (some (r, k))) s = .next
      ((((s.updRecords c u fun h => { h with diag := false }).setService c u .out).setReg (coreArrFaultloc c.val u.array.val)
        (BitVec.ofNat 32 (2 ^ 31 + 2 ^ 30 + (unitIdx u).val * 2 ^ 29 + 2 ^ 28 +
          ((s.updRecords c u fun h => { h with diag := false }).setService c u .out).regFld (coreArrFaultloc c.val u.array.val) 23 16 *
            65536 + r.val * 256 + k.val))).raise (.core c.val) s.cores[c].part 0x4104
        [c.val, u.array.val, (unitIdx u).val, r.val, k.val]) := by
    simp only [exec, execArrayDiagnosticDone, hin, hdiag, Bool.and_self, Bool.not_true, Bool.false_eq_true, if_false]
  have hplace : ((s.updRecords c u fun h => { h with diag := false }).setService c u .out).regFld (coreArrFaultloc c.val u.array.val) 23 16 <
      256 := Nat.mod_lt _ (by decide)
  have hhalf := (unitIdx u).isLt
  have hr := r.isLt
  have hk := k.isLt
  refine ⟨_, hexec, ?_, ?_, ?_, ?_⟩
  · rw [raise_cores, setReg_cores, setService_eq, unit_updRecords]
  all_goals
    rw [State.regFld, raise_reg _ _ _ _ _ (isEventReg_arrFaultloc c u.array), reg_setReg_same, fld_ofNat (by omega)]
    omega

/-! ### The swap token (R81-R83, R104) -/

theorem isSome_mapGet_foldl_mapSet {α : Type} {l : List (Nat × α)} {m : List (Nat × α)} {k : Nat}
    (h : k ∈ l.map Prod.fst ∨ (mapGet m k).isSome = true) :
    (mapGet (l.foldl (fun m e => mapSet m e.1 e.2) m) k).isSome = true := by
  induction l generalizing m with
  | nil => exact h.resolve_left List.not_mem_nil
  | cons e l ih =>
    refine ih ?_
    by_cases hk : k = e.1
    · right
      rw [hk, mapGet_mapSet_same]
      rfl
    · rw [mapGet_mapSet_other _ _ hk]
      exact h.imp_left fun hm => (List.mem_cons.1 hm).resolve_left hk

/-- A cell that a load covers holds a shadow once its line is filled. -/
theorem isSome_fillFrom {g : Grid} {x : Nat × Nat} {ws : List (Nat × List (XNum × Nat))} {cells : Nat → Bool} {cell : Nat}
    {w : List (XNum × Nat)} (hw : (cell, w) ∈ ws) (hcell : cells cell = true) :
    (mapGet (g.fillFrom x ws cells).shadow cell).isSome = true := by
  unfold Grid.fillFrom
  dsimp only
  generalize (if g.filling = some x then g
    else { g with shadow := g.shadow.filter fun e => !g.swapped.contains e.1, filling := some x }) = q
  apply isSome_mapGet_foldl_mapSet
  cases hold : (mapGet q.shadow cell).isSome with
  | true => exact .inr rfl
  | false =>
    have hnone : (mapGet q.shadow cell).isNone = true := by rw [← Option.not_isSome, hold]; rfl
    exact .inl (List.mem_map.2 ⟨(cell, w), List.mem_filter.2 ⟨hw, by rw [hcell, hnone]; rfl⟩, rfl⟩)

theorem topsAt_rest (d : MatD) (m : Nat → Byte) (w a n : Nat) (g : Grid) : ∃ b, d.topsAt m w a n g = { g with banks := b } := by
  unfold MatD.topsAt
  dsimp only
  split
  · exact ⟨g.banks, rfl⟩
  · exact ⟨_, rfl⟩

theorem loadTops_rest (s : State) (c : CoreId) (u : MatUnit) (x : Issued × Nat) (g : Grid) :
    ∃ b, s.loadTops c u x g = { g with banks := b } := by
  unfold State.loadTops
  split
  · exact ⟨g.banks, rfl⟩
  · exact topsAt_rest ..

theorem grid_updGrid (s : State) (c : CoreId) (u : MatUnit) (f : Grid → Grid) :
    ((s.updGrid c u f).cores[c].unit u).grid = f (s.cores[c].unit u).grid := by
  rw [State.updGrid, unit_updUnit_same]

theorem updGrid_core (s : State) (c : CoreId) (u : MatUnit) (f : Grid → Grid) :
    (s.updGrid c u f).cores[c] = { s.cores[c] with arrays := (s.updGrid c u f).cores[c].arrays } := by
  rw [State.updGrid, State.updUnit, updCore_same]

/-- What the token counts at a cell. -/
def State.tokenCounts (s : State) (c : CoreId) (u : MatUnit) (waited : Bool) (lines : Nat) : State :=
  (if waited && !(s.cores[c].unit u).grid.stallCounted then s.count (coreArrShstall c.val u.array.val) 1 else s).count
    (coreArrLdwait c.val u.array.val) lines

/-- The grid once a cell has taken its shadow. -/
def Grid.tokenAt (g : Grid) (cell : Nat) (waited : Bool) (lines : Nat) : Grid :=
  { g.swap cell with stallCounted := g.stallCounted || waited, lineWaits := g.lineWaits + lines }

/-- A cell at the token: its waits counted, its shadow taken. -/
def State.tokenAt (s : State) (c : CoreId) (u : MatUnit) (cell : Nat) (waited : Bool) (lines : Nat) : State :=
  (s.tokenCounts c u waited lines).updGrid c u fun g => g.tokenAt cell waited lines

theorem arrShstall_ne_ldwait (k a : Nat) : coreArrShstall k a ≠ coreArrLdwait k a := by
  unfold coreArrShstall coreArrLdwait
  omega

theorem updGrid_fields (s : State) (c : CoreId) (u : MatUnit) (f : Grid → Grid) :
    (s.updGrid c u f).mem = s.mem ∧ (s.updGrid c u f).parts = s.parts ∧ (s.updGrid c u f).mc = s.mc := ⟨rfl, rfl, rfl⟩

theorem updGrid_reg (s : State) (c : CoreId) (u : MatUnit) (f : Grid → Grid) (o : Nat) : (s.updGrid c u f).reg o = s.reg o := rfl

section
variable {c : CoreId} {u : MatUnit} {cell : Nat} {waited : Bool} {lines : Nat} {s : State}

/-- What a token counts changes registers alone. -/
theorem tokenCounts_fields : (s.tokenCounts c u waited lines).mem = s.mem ∧ (s.tokenCounts c u waited lines).parts = s.parts ∧
    (s.tokenCounts c u waited lines).mc = s.mc ∧ (s.tokenCounts c u waited lines).cores = s.cores := by
  unfold State.tokenCounts
  rw [count_mem, count_parts, count_mc, count_cores]
  split
  · rw [count_mem, count_parts, count_mc, count_cores]
    exact ⟨rfl, rfl, rfl, rfl⟩
  · exact ⟨rfl, rfl, rfl, rfl⟩

theorem tokenAt_grid : ((s.tokenAt c u cell waited lines).cores[c].unit u).grid = (s.cores[c].unit u).grid.tokenAt cell waited lines := by
  obtain ⟨-, -, -, hcores⟩ := tokenCounts_fields (c := c) (u := u) (waited := waited) (lines := lines) (s := s)
  rw [State.tokenAt, grid_updGrid, hcores]

theorem tokenAt_fields : (s.tokenAt c u cell waited lines).mem = s.mem ∧ (s.tokenAt c u cell waited lines).parts = s.parts ∧
    (s.tokenAt c u cell waited lines).mc = s.mc ∧ (s.tokenAt c u cell waited lines).cores[c].issued = s.cores[c].issued ∧
    (s.tokenAt c u cell waited lines).cores[c].ganged = s.cores[c].ganged := by
  obtain ⟨hmem, hparts, hmc, hcores⟩ := tokenCounts_fields (c := c) (u := u) (waited := waited) (lines := lines) (s := s)
  obtain ⟨gmem, gparts, gmc⟩ := updGrid_fields (s.tokenCounts c u waited lines) c u fun g => g.tokenAt cell waited lines
  refine ⟨gmem.trans hmem, gparts.trans hparts, gmc.trans hmc, ?_, ?_⟩
  all_goals rw [State.tokenAt, updGrid_core, hcores]

theorem tokenAt_lines : (s.tokenAt c u cell waited lines).reg (coreArrLdwait c.val u.array.val) =
    BitVec.ofNat 32 (satAdd 32 (s.reg (coreArrLdwait c.val u.array.val)).toNat lines) := by
  rw [State.tokenAt, updGrid_reg, State.tokenCounts, reg_count_same]
  split
  · rw [reg_count_other _ _ (arrShstall_ne_ldwait c.val u.array.val).symm]
  · rfl

theorem tokenAt_stall (h : waited = true ∧ (s.cores[c].unit u).grid.stallCounted = false) :
    (s.tokenAt c u cell waited lines).reg (coreArrShstall c.val u.array.val) =
      BitVec.ofNat 32 (satAdd 32 (s.reg (coreArrShstall c.val u.array.val)).toNat 1) := by
  obtain ⟨hwaited, hcounted⟩ := h
  rw [State.tokenAt, updGrid_reg, State.tokenCounts, reg_count_other _ _ (arrShstall_ne_ldwait c.val u.array.val), hwaited, hcounted,
    if_pos (by rfl), reg_count_same]

theorem tokenAt_noStall (h : waited = false ∨ (s.cores[c].unit u).grid.stallCounted = true) :
    (s.tokenAt c u cell waited lines).reg (coreArrShstall c.val u.array.val) = s.reg (coreArrShstall c.val u.array.val) := by
  rw [State.tokenAt, updGrid_reg, State.tokenCounts, reg_count_other _ _ (arrShstall_ne_ldwait c.val u.array.val), if_neg]
  rcases h with h | h
  · rw [h]
    exact Bool.false_ne_true
  · rw [h, Bool.not_true, Bool.and_false]
    exact Bool.false_ne_true

theorem tokenAt_other {o : Nat} (hld : o ≠ coreArrLdwait c.val u.array.val) (hsh : o ≠ coreArrShstall c.val u.array.val) :
    (s.tokenAt c u cell waited lines).reg o = s.reg o := by
  rw [State.tokenAt, updGrid_reg, State.tokenCounts, reg_count_other _ _ hld]
  split
  · rw [reg_count_other _ _ hsh]
  · rfl

/-- The weights of a load depend on memory, the job and the gang alone. -/
theorem loadCells_congr {t : State} (hmem : t.mem = s.mem) (hparts : t.parts = s.parts) (hgang : t.cores[c].ganged = s.cores[c].ganged)
    (x : Issued × Nat) : t.loadCells c u x = s.loadCells c u x := by
  have hlrd (j : Job) : t.lrd j = s.lrd j := funext fun a => by
    rw [State.lrd, State.lrd, State.rd, State.rd, hmem]
  unfold State.loadCells State.width State.gangPlace State.job
  rw [hgang, hparts]
  simp only [hlrd]

theorem tokenAt_loadCells (x : Issued × Nat) : (s.tokenAt c u cell waited lines).loadCells c u x = s.loadCells c u x := by
  obtain ⟨hmem, hparts, -, -, hgang⟩ := tokenAt_fields (c := c) (u := u) (cell := cell) (waited := waited) (lines := lines) (s := s)
  exact loadCells_congr hmem hparts hgang x

end

/-- The next load takes the row or column whose cells have all swapped, where one follows. -/
def State.fillNext (s : State) (c : CoreId) (u : MatUnit) (row col : Nat) (next : Option (Issued × Nat)) : State :=
  match next with
  | some x => s.fillLine c u row col x
  | none => s

section
variable {c : CoreId} {u : MatUnit} {row col : Nat} {next : Option (Issued × Nat)} {s : State}

/-- Filling a line changes the grid of its unit alone. -/
theorem fillNext_eq (P : State → Prop) (hs : P s) (hgrid : ∀ f, P (s.updGrid c u f)) : P (s.fillNext c u row col next) := by
  cases next with
  | none => exact hs
  | some x =>
    unfold State.fillNext State.fillLine
    dsimp only
    generalize lineCells _ _ _ = line
    split
    · exact hgrid _
    · exact hs

theorem fillNext_fields : (s.fillNext c u row col next).mem = s.mem ∧ (s.fillNext c u row col next).parts = s.parts ∧
    (s.fillNext c u row col next).mc = s.mc ∧ (s.fillNext c u row col next).cores[c].issued = s.cores[c].issued ∧
    (s.fillNext c u row col next).cores[c].ganged = s.cores[c].ganged ∧ (∀ o, (s.fillNext c u row col next).reg o = s.reg o) := by
  refine fillNext_eq (P := fun t => t.mem = s.mem ∧ t.parts = s.parts ∧ t.mc = s.mc ∧ t.cores[c].issued = s.cores[c].issued ∧
    t.cores[c].ganged = s.cores[c].ganged ∧ ∀ o, t.reg o = s.reg o) ⟨rfl, rfl, rfl, rfl, rfl, fun _ => rfl⟩ fun f => ?_
  refine ⟨rfl, rfl, rfl, ?_, ?_, fun _ => rfl⟩
  all_goals rw [updGrid_core]

theorem fillLine_grid (x : Issued × Nat) : ((s.fillNext c u row col (some x)).cores[c].unit u).grid =
    if (lineCells u (matD x.1.words).trB (if (matD x.1.words).trB then col else row)).all (s.cores[c].unit u).grid.swapped.contains
    then (s.cores[c].unit u).grid.fillFrom (x.1.seq, x.2) (s.loadCells c u x)
      (lineCells u (matD x.1.words).trB (if (matD x.1.words).trB then col else row)).contains
    else (s.cores[c].unit u).grid := by
  unfold State.fillNext State.fillLine
  dsimp only
  generalize lineCells _ _ _ = line
  split
  · rw [grid_updGrid]
  · rfl

end

section
variable {c : CoreId} {u : MatUnit} {row col : Fin 256} {waited : Bool} {waits : Nat} {e : Issued} {n : Nat} {s : State}

theorem exec_swapToken (hloading : s.loading c u = some (e, n)) (hloads : (s.cores[c].unit u).grid.loads = some (e.seq, n))
    (hcol : col.val < unitWidth u) (hreach : (s.cores[c].unit u).grid.reaches row.val col.val = true) :
    exec (.swapToken c u row col waited waits) s =
      let q := (s.tokenAt c u (row.val * 256 + col.val) waited
        (lineWaits u (s.nextLoad c u e n) (s.cores[c].unit u).grid.lineWaits waits)).fillNext c u row.val col.val (s.nextLoad c u e n)
      .next (if row.val = 255 ∧ col.val + 1 = unitWidth u then q.endToken c u (s.nextLoad c u e n) else q) := by
  show execSwapToken c u row col waited waits s = _
  unfold execSwapToken
  rw [hloading]
  dsimp only
  rw [if_pos hloads, if_neg (by rw [hreach]; simp [hcol])]
  rfl

theorem exec_swapToken_unreached (hloading : s.loading c u = some (e, n))
    (hloads : (s.cores[c].unit u).grid.loads = some (e.seq, n)) (hreach : (s.cores[c].unit u).grid.reaches row.val col.val = false) :
    exec (.swapToken c u row col waited waits) s = .next s := by
  show execSwapToken c u row col waited waits s = _
  unfold execSwapToken
  rw [hloading]
  dsimp only
  rw [if_pos hloads, if_pos (by rw [hreach]; exact .inr rfl)]

/-- A cell that is not the last of the fold. -/
theorem swapToken_cell (hloading : s.loading c u = some (e, n)) (hloads : (s.cores[c].unit u).grid.loads = some (e.seq, n))
    (hcol : col.val < unitWidth u) (hreach : (s.cores[c].unit u).grid.reaches row.val col.val = true)
    (hlast : ¬ (row.val = 255 ∧ col.val + 1 = unitWidth u)) :
    ∃ t : State, ∃ lines, ∃ g : Grid, exec (.swapToken c u row col waited waits) s = .next t ∧
      lines = lineWaits u (s.nextLoad c u e n) (s.cores[c].unit u).grid.lineWaits waits ∧
      g = (s.cores[c].unit u).grid.tokenAt (row.val * 256 + col.val) waited lines ∧
      (s.nextLoad c u e n = none → (t.cores[c].unit u).grid = g) ∧
      (∀ x, s.nextLoad c u e n = some x → (t.cores[c].unit u).grid =
        if (lineCells u (matD x.1.words).trB (if (matD x.1.words).trB then col.val else row.val)).all g.swapped.contains
        then g.fillFrom (x.1.seq, x.2) (s.loadCells c u x)
          (lineCells u (matD x.1.words).trB (if (matD x.1.words).trB then col.val else row.val)).contains
        else g) ∧
      t.reg (coreArrLdwait c.val u.array.val) = BitVec.ofNat 32 (satAdd 32 (s.reg (coreArrLdwait c.val u.array.val)).toNat lines) ∧
      (waited = true ∧ (s.cores[c].unit u).grid.stallCounted = false → t.reg (coreArrShstall c.val u.array.val) =
        BitVec.ofNat 32 (satAdd 32 (s.reg (coreArrShstall c.val u.array.val)).toNat 1)) ∧
      (waited = false ∨ (s.cores[c].unit u).grid.stallCounted = true →
        t.reg (coreArrShstall c.val u.array.val) = s.reg (coreArrShstall c.val u.array.val)) ∧
      (∀ o, o ≠ coreArrLdwait c.val u.array.val → o ≠ coreArrShstall c.val u.array.val → t.reg o = s.reg o) ∧
      t.mem = s.mem ∧ t.parts = s.parts ∧ t.mc = s.mc ∧ t.cores[c].issued = s.cores[c].issued := by
  refine ⟨_, _, _, (exec_swapToken hloading hloads hcol hreach).trans (congrArg Host.Outcome.next (if_neg hlast)), rfl, rfl, ?_⟩
  obtain ⟨hmem, hparts, hmc, hissued, -⟩ := tokenAt_fields (c := c) (u := u) (cell := row.val * 256 + col.val) (waited := waited)
    (lines := lineWaits u (s.nextLoad c u e n) (s.cores[c].unit u).grid.lineWaits waits) (s := s)
  obtain ⟨fmem, fparts, fmc, fissued, -, freg⟩ := fillNext_fields (c := c) (u := u) (row := row.val) (col := col.val)
    (next := s.nextLoad c u e n) (s := s.tokenAt c u (row.val * 256 + col.val) waited
      (lineWaits u (s.nextLoad c u e n) (s.cores[c].unit u).grid.lineWaits waits))
  refine ⟨fun hnext => ?_, fun x hnext => ?_, (freg _).trans tokenAt_lines, fun h => (freg _).trans (tokenAt_stall h),
    fun h => (freg _).trans (tokenAt_noStall h), fun o hld hsh => (freg o).trans (tokenAt_other hld hsh), fmem.trans hmem,
    fparts.trans hparts, fmc.trans hmc, fissued.trans hissued⟩
  · rw [hnext]
    exact tokenAt_grid
  · rw [hnext, fillLine_grid, tokenAt_grid, tokenAt_loadCells]

theorem exec_swapToken_last (hloading : s.loading c u = some (e, n)) (hloads : (s.cores[c].unit u).grid.loads = some (e.seq, n))
    (hreach : (s.cores[c].unit u).grid.reaches row.val col.val = true) (hrow : row.val = 255) (hcol : col.val + 1 = unitWidth u) :
    exec (.swapToken c u row col waited waits) s =
      .next (((s.tokenAt c u (row.val * 256 + col.val) waited
        (lineWaits u (s.nextLoad c u e n) (s.cores[c].unit u).grid.lineWaits waits)).fillNext c u row.val col.val
          (s.nextLoad c u e n)).endToken c u (s.nextLoad c u e n)) := by
  rw [exec_swapToken hloading hloads (by omega) hreach]
  dsimp only
  rw [if_pos ⟨hrow, hcol⟩]

/-- The last cell of the fold, where no load follows. -/
theorem swapToken_end (hloading : s.loading c u = some (e, n)) (hloads : (s.cores[c].unit u).grid.loads = some (e.seq, n))
    (hreach : (s.cores[c].unit u).grid.reaches row.val col.val = true) (hrow : row.val = 255) (hcol : col.val + 1 = unitWidth u)
    (hnext : s.nextLoad c u e n = none) :
    ∃ t : State, exec (.swapToken c u row col waited waits) s = .next t ∧ (t.cores[c].unit u).grid.swapped = [] ∧
      (t.cores[c].unit u).grid.stallCounted = false ∧ (t.cores[c].unit u).grid.lineWaits = 0 ∧
      (t.cores[c].unit u).grid.loads = none ∧ (t.cores[c].unit u).grid.shadow = [] := by
  refine ⟨_, exec_swapToken_last hloading hloads hreach hrow hcol, ?_⟩
  rw [hnext]
  unfold State.endToken
  dsimp only
  rw [grid_updGrid]
  exact ⟨rfl, rfl, rfl, rfl, rfl⟩

/-- The last cell of the fold, where a load follows: the shadows hold it whole. -/
theorem swapToken_next {x : Issued} {k : Nat} (hloading : s.loading c u = some (e, n))
    (hloads : (s.cores[c].unit u).grid.loads = some (e.seq, n)) (hreach : (s.cores[c].unit u).grid.reaches row.val col.val = true)
    (hrow : row.val = 255) (hcol : col.val + 1 = unitWidth u) (hnext : s.nextLoad c u e n = some (x, k)) :
    ∃ t : State, exec (.swapToken c u row col waited waits) s = .next t ∧ (t.cores[c].unit u).grid.swapped = [] ∧
      (t.cores[c].unit u).grid.stallCounted = false ∧ (t.cores[c].unit u).grid.lineWaits = 0 ∧
      (t.cores[c].unit u).grid.loads = some (x.seq, k) ∧
      ∀ cell w, (cell, w) ∈ s.loadCells c u (x, k) → (mapGet (t.cores[c].unit u).grid.shadow cell).isSome = true := by
  refine ⟨_, exec_swapToken_last hloading hloads hreach hrow hcol, ?_⟩
  rw [hnext]
  obtain ⟨hmem, hparts, -, -, hgang⟩ := tokenAt_fields (c := c) (u := u) (cell := row.val * 256 + col.val) (waited := waited)
    (lines := lineWaits u (some (x, k)) (s.cores[c].unit u).grid.lineWaits waits) (s := s)
  obtain ⟨fmem, fparts, -, -, fgang, -⟩ := fillNext_fields (c := c) (u := u) (row := row.val) (col := col.val)
    (next := some (x, k)) (s := s.tokenAt c u (row.val * 256 + col.val) waited
      (lineWaits u (some (x, k)) (s.cores[c].unit u).grid.lineWaits waits))
  have hcells := loadCells_congr (u := u) (fmem.trans hmem) (fparts.trans hparts) (fgang.trans hgang) (x, k)
  generalize State.fillNext _ c u row.val col.val (some (x, k)) = q at hcells
  unfold State.endToken
  dsimp only
  rw [grid_updGrid, hcells]
  obtain ⟨b, hb⟩ := loadTops_rest q c u (x, k)
    { (q.cores[c].unit u).grid.fillFrom (x.seq, k) (s.loadCells c u (x, k)) fun _ => true with
      swapped := [], stallCounted := false, lineWaits := 0, filling := none, loads := some (x.seq, k) }
  rw [hb]
  exact ⟨rfl, rfl, rfl, rfl, fun cell w hw =>
    isSome_fillFrom (g := (q.cores[c].unit u).grid) (x := (x.seq, k)) (cells := fun _ => true) hw rfl⟩

end

/-- Settles O17: an instruction at the head runs from what its reads leave; the token takes its cell, then the line that has
swapped is filled, then the fold ends; a diagnostic gives its unit back or takes it out. -/
theorem matInstructionsRun : Obligations.MatInstructionsRun := by
  refine ⟨?native, ?gang, ?gangOut, ?retry, ?cell, fun _ _ _ => rfl, fun _ _ _ _ _ _ hw hcell => isSome_fillFrom hw hcell, ?last,
    ?next, ?unreached, fun _ _ _ hin hsuspect => exec_arrayDiagnostic hin hsuspect,
    arrayDiagnosticDone_clean, arrayDiagnosticDone_fails⟩
  case native =>
    intro c u e flaws feed drain env s hhead hphase hretry hgang
    rw [exec_matRun hhead hphase hretry]
    simp only [hgang, Bool.false_eq_true, if_false]
  case gang =>
    intro c u e flaws feed drain env s hhead hphase hretry hgang hout
    rw [exec_matRun hhead hphase hretry]
    simp only [hgang, hout, if_true]
  case gangOut =>
    intro c u a e flaws feed drain env s hhead hphase hretry hgang hout
    rw [exec_matRun hhead hphase hretry]
    simp only [hgang, hout, if_true]
  case retry =>
    intro c k e u flaws feed drain env s hk hqueue hretry hphase hhead
    exact exec_matRetry hk hqueue hretry hphase hhead
  case cell =>
    intro c u row col waited waits e n s hloading hloads hcol hreach hlast
    exact swapToken_cell hloading hloads hcol hreach hlast
  case last =>
    intro c u waited waits e n row col s hloading hloads hreach hrow hcol hnext
    exact swapToken_end hloading hloads hreach hrow hcol hnext
  case next =>
    intro c u waited waits e n x k row col s hloading hloads hreach hrow hcol hnext
    exact swapToken_next hloading hloads hreach hrow hcol hnext
  case unreached =>
    intro c u waited waits e n row col s hloading hloads hreach
    exact exec_swapToken_unreached hloading hloads hreach

end Sys2Proof.Machine


namespace Sys2Proof.Machine

/-! ### Checks of a request (R234, R238, R239, R264) -/

section
variable {s : State} {r : Setup} {b : Nat} {q : ReqForm} {f : Nat → State → State}

theorem request_unlinked (hlink : s.linked = false) : s.request r b q f = s := by
  rw [State.request, hlink, Bool.not_false, if_pos rfl]

theorem request_standard (hlink : s.linked = true) (hvendor : r.vendor = false) : s.request r b q f = s.standardRequest r := by
  rw [State.request, hlink, hvendor, Bool.not_true, if_neg Bool.false_ne_true, Bool.not_false, if_pos rfl]

theorem request_otherCode (hlink : s.linked = true) (hvendor : r.vendor = true) (hcode : r.bRequest ≠ b) :
    s.request r b q f = s.reqFail (if r.recip = .iface then r.wIndex % 256 else 0) r.bRequest stRequest 0 := by
  rw [State.request, hlink, hvendor, Bool.not_true, if_neg Bool.false_ne_true, if_neg Bool.false_ne_true, if_pos hcode]

theorem request_wrongForm (hlink : s.linked = true) (hvendor : r.vendor = true) (hcode : r.bRequest = b)
    (hform : q.ok s.mc.recovery r = false) :
    s.request r b q f = s.reqFail (if r.recip = .iface then r.wIndex % 256 else 0) b stRequest 0 := by
  rw [State.request, hlink, hvendor, hform, Bool.not_true, Bool.not_false, if_neg Bool.false_ne_true, if_neg Bool.false_ne_true,
    if_neg (not_not_intro hcode), if_pos rfl]

theorem request_busy (hlink : s.linked = true) (hvendor : r.vendor = true) (hcode : r.bRequest = b)
    (hform : q.ok s.mc.recovery r = true) (hbusy : s.busy (reqIface r) = true) :
    s.request r b q f = s.reqFail (reqIface r) b stResetBusy 0 := by
  rw [State.request, hlink, hvendor, hform, Bool.not_true, if_neg Bool.false_ne_true, if_neg Bool.false_ne_true,
    if_neg (not_not_intro hcode), if_neg Bool.false_ne_true, if_pos hbusy]

/-- A request that arrives is done. -/
theorem request_of_arrives (h : Arrives s b q r) : s.request r b q f = f (reqIface r) s := by
  obtain ⟨hlink, hvendor, hcode, hform, hbusy⟩ := h
  rw [State.request, hlink, hvendor, hform, hbusy, Bool.not_true, if_neg Bool.false_ne_true, if_neg Bool.false_ne_true,
    if_neg (not_not_intro hcode), if_neg Bool.false_ne_true, if_neg Bool.false_ne_true]

end

/-- Each row of the table performs a request with its code and form. -/
theorem exec_of_requestTable {x : Nat × ReqForm × (Setup → Instr)} (hx : x ∈ requestTable) (r : Setup) :
    ∃ f, ∀ s, exec (x.2.2 r) s = .next (s.request r x.1 x.2.1 f) := by
  unfold requestTable at hx
  repeat
    rcases List.mem_cons.1 hx with rfl | hx
    · exact ⟨_, fun _ => rfl⟩
  exact absurd hx List.not_mem_nil

/-! ### The failure record of a request -/

/-- What a request that fails leaves as it is. -/
structure RefusedRequest (s t : State) : Prop where
  mem : t.mem = s.mem
  regs : t.regs = s.regs
  cores : t.cores = s.cores
  handles : t.handles = s.handles
  mc : t.mc = s.mc
  ports : t.ports = s.ports
  nvm : t.nvm = s.nvm
  counters : t.counters = s.counters
  staging : t.staging = s.staging
  job : ∀ p, t.job p = s.job p

theorem job_updIface (s : State) (p : PartId) (f : Iface → Iface) (q : PartId) : (s.updIface p f).job q = s.job q := by
  unfold State.updIface State.job
  by_cases hq : q = p
  · rw [hq, updPart_same]
  · rw [updPart_other _ _ hq]

theorem setError_refused (s : State) (i : Nat) (e : List Byte) : RefusedRequest s (s.setError i e) := by
  unfold State.setError
  split
  · exact ⟨rfl, rfl, rfl, rfl, rfl, rfl, rfl, rfl, rfl, fun p => job_updIface s _ _ p⟩
  · split <;> exact ⟨rfl, rfl, rfl, rfl, rfl, rfl, rfl, rfl, rfl, fun _ => rfl⟩

theorem errorOf_setError (s : State) (i : Nat) (e : List Byte) : (s.setError i e).errorOf i = e := by
  unfold State.setError State.errorOf
  split
  · rw [State.updIface, updPart_same]
  · split <;> rfl

theorem reqFail_refused (s : State) (i b st d : Nat) : RefusedRequest s (s.reqFail i b st d) := by
  obtain ⟨mem, regs, cores, handles, mc, ports, nvm, counters, staging, job⟩ :=
    setError_refused s i (leBytes 2 b ++ leBytes 2 st ++ leBytes 4 d)
  exact ⟨mem, regs, cores, handles, mc, ports, nvm, counters, staging, job⟩

theorem errorOf_reqFail (s : State) (i b st d : Nat) :
    (s.reqFail i b st d).errorOf i = leBytes 2 b ++ leBytes 2 st ++ leBytes 4 d := by
  rw [← errorOf_setError s i (leBytes 2 b ++ leBytes 2 st ++ leBytes 4 d)]
  unfold State.errorOf
  split
  · rfl
  · split <;> rfl

/-- A refused request stalls, says why, and leaves the rest. -/
theorem reqFail_says {s : State} {i b st : Nat} {o : Result} (h : o = .next (s.reqFail i b st 0)) :
    ∃ t : State, o = .next t ∧ t.usb.stalled = true ∧ t.usb.data = [] ∧
      t.errorOf i = leBytes 2 b ++ leBytes 2 st ++ leBytes 4 0 ∧
      t.mem = s.mem ∧ t.regs = s.regs ∧ t.cores = s.cores ∧ t.handles = s.handles ∧ t.mc = s.mc ∧ t.ports = s.ports ∧
      t.nvm = s.nvm ∧ t.counters = s.counters ∧ t.staging = s.staging ∧ ∀ p, t.job p = s.job p := by
  obtain ⟨mem, regs, cores, handles, mc, ports, nvm, counters, staging, job⟩ := reqFail_refused s i b st 0
  exact ⟨_, h, rfl, rfl, errorOf_reqFail .., mem, regs, cores, handles, mc, ports, nvm, counters, staging, job⟩

/-- Settles O43: every request's command goes through the same checks. -/
theorem requestsAreChecked : Obligations.RequestsAreChecked := by
  intro x hx r s
  obtain ⟨f, hexec⟩ := exec_of_requestTable hx r
  rw [hexec s]
  exact ⟨fun hlink => congrArg _ (request_unlinked hlink), fun hlink hvendor => congrArg _ (request_standard hlink hvendor),
    fun hlink hvendor hcode => congrArg _ (request_otherCode hlink hvendor hcode),
    fun hlink hvendor hcode hform => reqFail_says (congrArg _ (request_wrongForm hlink hvendor hcode hform)),
    fun hlink hvendor hcode hform hbusy => reqFail_says (congrArg _ (request_busy hlink hvendor hcode hform hbusy))⟩

/-! ### Requests on registers (R239, R373) -/

/-- Settles O44. -/
theorem registerRequestsAct : Obligations.RegisterRequestsAct := by
  refine ⟨fun r s harrives halign hspan hrec => ?_, fun n o s => ⟨rfl, rfl, rfl⟩, fun r s harrives halign hspan hrec => ?_,
    fun r s harrives hrec halign hspan hreg => ?_, fun r s harrives => ?_⟩
  · show execRegRead r s = _
    have hlen : r.wLength % 4 = 0 := by
      obtain ⟨-, -, -, hform, -⟩ := harrives
      simp only [ReqForm.ok, Bool.and_eq_true, decide_eq_true_eq] at hform
      omega
    rw [execRegRead, request_of_arrives harrives]
    dsimp only
    rw [if_neg (by omega), hrec, Bool.false_and, if_neg Bool.false_ne_true]
  · show execRegWrite r s = _
    rw [execRegWrite, request_of_arrives harrives]
    dsimp only
    rw [if_neg (by omega), hrec, if_neg (fun h => Bool.false_ne_true h.1)]
  · show execRegWrite r s = _
    rw [execRegWrite, request_of_arrives harrives]
    dsimp only
    rw [if_neg (by omega), if_pos ⟨hrec, hreg⟩]
  · show execGetLastError r s = _
    rw [execGetLastError, request_of_arrives harrives]
    rfl

/-! ### Requests on handles (R267-R271) -/

section
variable {s : State} {r : Setup} {b : Nat} {q : ReqForm} {f : Handle → State → Except Nat State}

theorem onHandle_unknown (h : Arrives s b q r) (hown : s.ownHandle (reqIface r) r.wValue = none) :
    s.onHandle r b q f = s.reqFail (reqIface r) b stUnknown 0 := by
  rw [State.onHandle, request_of_arrives h, hown]

theorem onHandle_ok {x : Handle} {t : State} (h : Arrives s b q r) (hown : s.ownHandle (reqIface r) r.wValue = some x)
    (hf : f x s = .ok t) : s.onHandle r b q f = t := by
  rw [State.onHandle, request_of_arrives h, hown]
  dsimp only
  rw [hf]

theorem onHandle_error {x : Handle} {st : Nat} (h : Arrives s b q r) (hown : s.ownHandle (reqIface r) r.wValue = some x)
    (hf : f x s = .error st) : s.onHandle r b q f = s.reqFail (reqIface r) b st 0 := by
  rw [State.onHandle, request_of_arrives h, hown]
  dsimp only
  rw [hf]

end

section
variable {s : State} {x : Handle}

theorem opSuspendOn_running (hstate : x.state = .running) (hpending : x.suspendPending = false) (hcan : s.canSuspend x = true)
    (hkind : x.kind ≠ 1) : s.opSuspendOn x = .ok (s.updHandle x.num fun x => { x with suspendPending := true }) := by
  unfold State.opSuspendOn
  rw [hstate, hpending, hcan, if_neg (by decide), if_neg (by decide), if_neg (by decide)]
  dsimp only
  split
  next hone _ => exact absurd hone hkind
  · rfl

theorem opResumeOn_suspended (hstate : x.state = .suspended) (hkind : x.kind ≠ 1) : s.opResumeOn x =
    .ok (((s.updHandle x.num fun x => { x with suspendPending := false }).updHandle x.num
      fun x => { x with state := .running }).workOn x) := by
  unfold State.opResumeOn
  rw [hstate]
  dsimp only
  split
  next hone _ => exact absurd hone hkind
  · rfl

theorem opCancelOn_running (hstate : x.state = .running) (hpast : x.pastReturn = false) :
    s.opCancelOn x = .ok (s.cancelOp x) := by
  unfold State.opCancelOn
  rw [hstate, hpast]
  rfl

end

/-- Settles O46. -/
theorem handleRequestsAct : Obligations.HandleRequestsAct := by
  refine ⟨fun x hx r s harrives hown => ?unknown, fun r h s harrives hown => ?status,
    fun r h s harrives hown hstate hpending hcan hkind => ?suspend, fun r h s harrives hown hstate hkind => ?resume,
    fun r h s harrives hown hstate hpast => ?cancel, fun r h s harrives hown hstate => ?release,
    fun r h s harrives hown hstate => ?held, fun r s harrives => ?list, fun h x s hx hpending hstate hpoint => ?point⟩
  case unknown =>
    have hexec : ∃ f, exec (x.2.2 r) s = .next (s.onHandle r x.1 x.2.1 f) := by
      repeat
        rcases List.mem_cons.1 hx with rfl | hx
        · exact ⟨_, rfl⟩
      exact absurd hx List.not_mem_nil
    obtain ⟨f, hexec⟩ := hexec
    rw [hexec, onHandle_unknown harrives hown]
  case status => exact congrArg Host.Outcome.next (onHandle_ok harrives hown rfl)
  case suspend =>
    exact congrArg Host.Outcome.next (onHandle_ok harrives hown (by rw [opSuspendOn_running hstate hpending hcan hkind]; rfl))
  case resume => exact congrArg Host.Outcome.next (onHandle_ok harrives hown (by rw [opResumeOn_suspended hstate hkind]; rfl))
  case cancel => exact congrArg Host.Outcome.next (onHandle_ok harrives hown (by rw [opCancelOn_running hstate hpast]; rfl))
  case release =>
    exact congrArg Host.Outcome.next (onHandle_ok harrives hown (by rw [State.opReleaseOn, if_pos hstate]; rfl))
  case held =>
    exact congrArg Host.Outcome.next (onHandle_error harrives hown (by rw [State.opReleaseOn, if_neg hstate]; rfl))
  case list => exact congrArg Host.Outcome.next (request_of_arrives harrives)
  case point =>
    show execOpSuspendPoint h s = _
    unfold execOpSuspendPoint
    rw [hx]
    dsimp only
    rw [hpending, hstate, hpoint, if_pos (by decide)]

/-! ### Ownership units (R345, R346, R358) -/

/-- Settles O36. -/
theorem unitsAreFollowed : Obligations.UnitsAreFollowed := by
  refine ⟨fun _ _ _ _ => exec_unitMap, fun c x e s h hhere => ?_, fun c x e s h haway => ?_, fun p e vc m j u s hpop hj htag => ?_,
    fun p e vc m j u s hpop hj htag => ?_⟩
  · rw [exec_unitBegin h, if_pos hhere]
  · rw [exec_unitBegin h, if_neg (by rw [haway]; exact Bool.false_ne_true)]
  · simp only [exec, execUnitXfer, hpop, hj]
    rw [if_neg (not_not_intro htag)]
  · simp only [exec, execUnitXfer, hpop, hj]
    rw [if_pos htag]

end Sys2Proof.Machine


namespace Sys2Proof.Machine

/-! ### An interface and its ring header -/

theorem updIface_same (s : State) (p : PartId) (f : Iface → Iface) : (s.updIface p f).parts[p].iface = f s.parts[p].iface := by
  rw [State.updIface, updPart_same]

theorem updPart_updPart (s : State) (p : PartId) (f g : Part → Part) : (s.updPart p f).updPart p g = s.updPart p fun q => g (f q) := by
  rw [State.updPart, updPart_same, State.updPart, State.updPart]
  dsimp only
  rw [Vector.set_set]

theorem updIface_updIface (s : State) (p : PartId) (f g : Iface → Iface) :
    (s.updIface p f).updIface p g = s.updIface p fun i => g (f i) := by
  rw [State.updIface, State.updIface, updPart_updPart]
  rfl

theorem length_hdrBytes (h : RingHdr) : h.bytes.length = 64 := by
  simp only [RingHdr.bytes, List.length_append, List.length_flatMap, List.map_cons, List.map_nil, length_leBytes,
    List.length_replicate, List.sum_cons, List.sum_nil, Nat.reduceAdd]

theorem updHdr_parts (s : State) (p : PartId) (f : RingHdr → RingHdr) :
    (s.updHdr p f).parts = (s.updIface p fun i => { i with hdr := f i.hdr }).parts := by
  unfold State.updHdr
  dsimp only
  split <;> rfl

theorem updHdr_same (s : State) (p : PartId) (f : RingHdr → RingHdr) :
    (s.updHdr p f).parts[p].iface = { s.parts[p].iface with hdr := f s.parts[p].iface.hdr } := by
  rw [updHdr_parts, updIface_same]

theorem updHdr_job (s : State) (p : PartId) (f : RingHdr → RingHdr) (q : PartId) : (s.updHdr p f).job q = s.job q := by
  rw [State.job, updHdr_parts, ← State.job, job_updIface]

theorem updHdr_handles (s : State) (p : PartId) (f : RingHdr → RingHdr) : (s.updHdr p f).handles = s.handles := by
  unfold State.updHdr
  dsimp only
  split
  · rw [putBytes_handles, updIface_handles]
  · rw [updIface_handles]

theorem updHdr_regs (s : State) (p : PartId) (f : RingHdr → RingHdr) : (s.updHdr p f).regs = s.regs := by
  unfold State.updHdr
  dsimp only
  split
  · rw [putBytes_regs, updIface_regs]
  · rw [updIface_regs]

/-- A change of the ring header writes the header alone. -/
theorem rd_updHdr (s : State) (p : PartId) (f : RingHdr → RingHdr) {a : Nat} (h : a < s.hctx p ∨ s.hctx p + 64 ≤ a) :
    (s.updHdr p f).rd a = s.rd a := by
  unfold State.updHdr
  dsimp only
  split
  · rw [rd_putBytes_other _ _ _ (by rw [length_hdrBytes]; exact h)]
    exact updIface_rd ..
  · exact updIface_rd ..

/-! ### Held requests (R250-R252) -/

theorem goOnN_idle {n : Nat} {p : PartId} {s : State} (hframe : s.parts[p].iface.heldFrame = none) (hheld : s.parts[p].iface.held = []) :
    State.goOnN n p s = s := by
  cases n with
  | zero => rfl
  | succ n =>
    rw [State.goOnN]
    simp only [hframe, hheld]

theorem goOnN_landed {n : Nat} {p : PartId} {r : HeldReq} {s : State} (hframe : s.parts[p].iface.heldFrame = none)
    (hheld : s.parts[p].iface.held = [r]) (hlanded : s.parts[p].iface.hasLanded r.e = true) :
    State.goOnN (n + 1) p s = State.goOnN n p ((s.updIface p fun i => { i with held := [] }).applyHeld p r) := by
  rw [State.goOnN]
  simp only [hframe, hheld, hlanded, if_true]

/-- Applying a held request takes no request and no frame. -/
theorem applyHeld_holds (s : State) (p : PartId) (r : HeldReq) : (s.applyHeld p r).parts[p].iface.held = s.parts[p].iface.held ∧
    (s.applyHeld p r).parts[p].iface.heldFrame = s.parts[p].iface.heldFrame := by
  cases r with
  | window b g e =>
    rw [State.applyHeld, updIface_same]
    exact ⟨rfl, rfl⟩
  | doorbell t e =>
    rw [State.applyHeld, updHdr_same]
    exact ⟨rfl, rfl⟩

/-- Where nothing is held and the number has landed, a held request is applied at once. -/
theorem hold_landed {p : PartId} {b : Nat} {r : HeldReq} {s : State} (hheld : s.parts[p].iface.held = [])
    (hframe : s.parts[p].iface.heldFrame = none) (hlanded : s.parts[p].iface.hasLanded r.e = true) :
    s.hold p b r = ((s.reqOk []).updIface p fun i => { i with held := [] }).applyHeld p r := by
  have htaken : ((s.updIface p fun i => { i with held := i.held ++ [r] }).reqOk []).parts[p].iface =
      { s.parts[p].iface with held := [r] } := by
    rw [show ((s.updIface p fun i => { i with held := i.held ++ [r] }).reqOk []).parts =
      (s.updIface p fun i => { i with held := i.held ++ [r] }).parts from rfl, updIface_same, hheld, List.nil_append]
  have happlied : ((s.updIface p fun i => { i with held := i.held ++ [r] }).reqOk []).updIface p (fun i => { i with held := [] }) =
      (s.reqOk []).updIface p fun i => { i with held := [] } :=
    congrArg (fun t : State => t.reqOk []) (updIface_updIface s p (fun i => { i with held := i.held ++ [r] }) fun i => { i with held := [] })
  rw [State.hold]
  rw [hheld, if_neg (by exact (by decide : ¬ 8 ≤ 0)), if_neg (by rw [List.any_nil]; exact Bool.false_ne_true), State.goOn,
    goOnN_landed (r := r) (by rw [htaken]; exact hframe) (by rw [htaken]) (by rw [htaken]; exact hlanded), happlied]
  obtain ⟨hnone, hnoFrame⟩ := applyHeld_holds ((s.reqOk []).updIface p fun i => { i with held := [] }) p r
  rw [updIface_same] at hnone hnoFrame
  exact goOnN_idle (hnoFrame.trans hframe) hnone

/-! ### FUNC_RESET (R264) -/

theorem ifaceOf_val (p : PartId) : (Fin.ofNat 4 (1 + p.val - 1) : PartId) = p := by
  apply Fin.ext
  have hp := p.isLt
  rw [Fin.val_ofNat, Nat.add_sub_cancel_left]
  omega

/-- The state of a job interface whose reset without flags has begun. -/
def State.beginReset (s : State) (p : PartId) : State :=
  ((s.updIface p fun f => { f.reset (s.hctx p) with resetBusy := true, resetFlags := 0, resetHandles := [] }).updHdr p
    fun h => { h with cmdHead := 0, cmdTail := 0, cplTail := 0, evtTail := 0 }).updIface p fun i => { i with phase := true }

theorem exec_funcReset {p : PartId} {r : Setup} {s : State}
    (harrives : Arrives s 0x13 { dev := false, lo := 1, hi := 5, dirIn := false, len := fun n => decide (n = 0) } r)
    (hiface : reqIface r = 1 + p.val) (hvalue : r.wValue = 0) : exec (.funcReset r) s = .next ((s.beginReset p).reqOk []) := by
  have hp := p.isLt
  show execFuncReset r s = _
  rw [execFuncReset, request_of_arrives harrives]
  dsimp only
  rw [hvalue, hiface, if_neg (by decide), if_neg (by omega), ifaceOf_val]
  rfl

section
variable {p : PartId} {s : State}

theorem beginReset_same : (s.beginReset p).parts[p].iface = { s.parts[p].iface.reset (s.hctx p) with
    resetBusy := true, resetFlags := 0, resetHandles := [], phase := true
    hdr := { s.parts[p].iface.hdr with cmdHead := 0, cmdTail := 0, cplTail := 0, evtTail := 0 } } := by
  rw [State.beginReset, updIface_same, updHdr_same, updIface_same, Iface.reset]

theorem beginReset_job (q : PartId) : (s.beginReset p).job q = s.job q := by
  rw [State.beginReset, job_updIface, updHdr_job, job_updIface]

theorem beginReset_other {q : PartId} (hq : q ≠ p) : (s.beginReset p).parts[q] = s.parts[q] := by
  rw [State.beginReset, State.updIface, updPart_other _ _ hq, updHdr_parts, State.updIface, updPart_other _ _ hq, State.updIface,
    updPart_other _ _ hq]

theorem beginReset_handles : (s.beginReset p).handles = s.handles := by
  rw [State.beginReset, updIface_handles, updHdr_handles, updIface_handles]

theorem beginReset_regs : (s.beginReset p).regs = s.regs := by
  rw [State.beginReset, updIface_regs, updHdr_regs, updIface_regs]

theorem rd_beginReset {a : Nat} (ha : a < s.hctx p ∨ s.hctx p + 64 ≤ a) : (s.beginReset p).rd a = s.rd a := by
  rw [State.beginReset, updIface_rd, rd_updHdr _ _ _ (by rw [State.hctx, updIface_mc]; exact ha), updIface_rd]

end

theorem funcReset_begins (p : PartId) (r : Setup) (s : State)
    (harrives : Arrives s 0x13 { dev := false, lo := 1, hi := 5, dirIn := false, len := fun n => decide (n = 0) } r)
    (hiface : reqIface r = 1 + p.val) (hvalue : r.wValue = 0) : ∃ t : State, exec (.funcReset r) s = .next t ∧
      t.parts[p].iface.resetBusy = true ∧ t.parts[p].iface.heldFrame = none ∧ t.parts[p].iface.held = [] ∧
      t.parts[p].iface.responses = [] ∧ t.parts[p].iface.base = s.hctx p ∧ t.parts[p].iface.gen = 0 ∧ t.parts[p].iface.landed = 0 ∧
      t.parts[p].iface.fault = false ∧ t.parts[p].iface.phase = true ∧ t.parts[p].iface.hdr.cmdHead = 0 ∧
      t.parts[p].iface.hdr.cmdTail = 0 ∧ t.parts[p].iface.hdr.cplTail = 0 ∧ t.parts[p].iface.hdr.evtTail = 0 ∧
      t.handles = s.handles ∧ t.regs = s.regs ∧ (∀ q, t.job q = s.job q) ∧ (∀ q, q ≠ p → t.parts[q] = s.parts[q]) ∧
      ∀ a, a < s.hctx p ∨ s.hctx p + 64 ≤ a → t.rd a = s.rd a := by
  refine ⟨_, exec_funcReset harrives hiface hvalue, ?_⟩
  have hown := beginReset_same (p := p) (s := s)
  have hjob := beginReset_job (p := p) (s := s)
  have hother (q : PartId) (hq : q ≠ p) := beginReset_other (s := s) hq
  have hhandles := beginReset_handles (p := p) (s := s)
  have hregs := beginReset_regs (p := p) (s := s)
  have hrd (a : Nat) (ha : a < s.hctx p ∨ s.hctx p + 64 ≤ a) := rd_beginReset ha
  generalize s.beginReset p = t at hown hjob hother hhandles hregs hrd ⊢
  rw [show (t.reqOk []).parts = t.parts from rfl, hown]
  exact ⟨rfl, rfl, rfl, rfl, rfl, rfl, rfl, rfl, rfl, rfl, rfl, rfl, rfl, hhandles, hregs, hjob, hother, hrd⟩

/-- Settles O45. -/
theorem interfaceRequestsAct : Obligations.InterfaceRequestsAct := by
  refine ⟨fun r s harrives hreserved haligned hclear => ?window, fun r s harrives htail hreserved hroom => ?doorbell,
    fun p b q s hheld hframe hlanded => hold_landed hheld hframe hlanded, fun r s harrives => ?status, funcReset_begins,
    fun i p s hi hbusy hdone hflag => ?jobDone, fun i s hi hbusy => ?diagDone⟩
  case window =>
    show execSetWindow r s = _
    rw [execSetWindow, request_of_arrives harrives]
    dsimp only
    rw [if_neg (not_not_intro hreserved), if_neg (by omega)]
  case doorbell =>
    dsimp only at hroom
    show execDoorbell r s = _
    rw [execDoorbell, request_of_arrives harrives]
    dsimp only
    rw [if_neg (by omega), if_neg (not_not_intro hreserved), if_neg (by omega)]
  case status =>
    show execGetIfStatus r s = _
    rw [execGetIfStatus, request_of_arrives harrives]
  case jobDone =>
    have hp := p.isLt
    obtain rfl : (Fin.ofNat 4 i.val : PartId) = p := Fin.ext (by rw [Fin.val_ofNat, hi]; omega)
    have hwaits : (s.parts[(Fin.ofNat 4 i.val : PartId)].iface.resetHandles.any fun h => (s.handleOf h).any fun x => decide (x.state ≠ OpState.done)) = false := by
      rw [List.any_eq_false]
      intro h hh
      rw [Option.any_eq_true]
      rintro ⟨x, hx, hstate⟩
      exact of_decide_eq_true hstate (hdone h hh x hx)
    show execFuncResetDone i s = _
    unfold execFuncResetDone
    dsimp only
    rw [if_neg (by omega), hbusy, hwaits, Bool.not_true, Bool.or_self, if_neg Bool.false_ne_true, hflag, if_neg Bool.false_ne_true]
  case diagDone =>
    show execFuncResetDone i s = _
    rw [execFuncResetDone, if_pos hi, hbusy, if_pos rfl]

end Sys2Proof.Machine


namespace Sys2Proof.Machine

/-! ### Cascade start (R330, R331) -/

/-- Settles O5. -/
theorem cascadeActs : Obligations.CascadeActs := by
  refine ⟨fun s hon => ⟨_, rfl, ?_⟩, fun s hcomplete hsync hheld hpulsed hbegun => ?_, fun s hheld => ?_, fun p s n v hdue hrec hjob => ?_⟩
  · show execCascadePulse s = _
    rw [execCascadePulse, hon, Bool.not_true, if_neg Bool.false_ne_true]
    exact (apply_ite Host.Outcome.next _ _ _).symm
  · show execCascadeDelayExpire s = _
    rw [execCascadeDelayExpire, hcomplete, hsync, hpulsed, hbegun, decide_eq_true hheld, if_pos (by rfl)]
  · show execCascadeTimeout s = _
    rw [execCascadeTimeout, if_pos hheld]
  · show execStandingJobRestart p s = _
    unfold execStandingJobRestart
    rw [hdue, hrec]
    dsimp only
    rw [if_neg]
    rw [show ({ s with mc := { s.mc with restartAt := mapErase s.mc.restartAt p.val } } : State).job p = s.job p from rfl, hjob]
    exact Bool.false_ne_true

/-! ### Test mode, presence and the seal (R391, R392, R394) -/

theorem rd_withMC (s : State) (m : MC) (a : Nat) : ({ s with mc := m } : State).rd a = s.rd a := rfl

/-- What test mode leaves of the device. -/
def State.testErased (s : State) : State :=
  ((({ s with mc := { s.mc with root := false, storageKey := false, identityKey := false, counterKey := false } } : State).mapCores
    fun k => { k with first := { k.first with tables := [] }, guest := { k.guest with tables := [] } }).zeroRange (crumbBase 0)
      0x800000000).zeroRange (wmBase 0) 0x80000000

theorem exec_testModeAssert {s : State} (haux : s.mc.aux = true) :
    exec .testModeAssert s = .next { s.testErased with mc := { s.testErased.mc with testz := true, testSeen := true } } := by
  show execTestModeAssert s = _
  unfold execTestModeAssert
  rw [if_pos haux]
  rfl

theorem testErased_mc (s : State) : s.testErased.mc =
    { s.mc with root := false, storageKey := false, identityKey := false, counterKey := false } := by
  rw [State.testErased, zeroRange_mc, zeroRange_mc, mapCores_mc]

theorem rd_testErased (s : State) (a : Nat) : s.testErased.rd a =
    if (crumbBase 0 ≤ a ∧ a < crumbBase 0 + 0x800000000) ∨ (wmBase 0 ≤ a ∧ a < wmBase 0 + 0x80000000) then 0 else s.rd a := by
  rw [State.testErased, rd_zeroRange, rd_zeroRange, mapCores_rd, rd_withMC]
  by_cases hcrumb : crumbBase 0 ≤ a ∧ a < crumbBase 0 + 0x800000000
  · rw [if_pos hcrumb, ite_self, if_pos (.inl hcrumb)]
  · rw [if_neg hcrumb]
    exact if_congr (or_iff_right hcrumb).symm rfl rfl

theorem testMode_erases (s : State) (haux : s.mc.aux = true) : ∃ t : State, exec .testModeAssert s = .next t ∧ t.mc.testz = true ∧
    t.mc.root = false ∧ t.mc.storageKey = false ∧ t.mc.identityKey = false ∧ t.mc.counterKey = false ∧
    (∀ a, crumbBase 0 ≤ a → a < crumbBase 0 + 0x800000000 → t.rd a = 0) ∧
    (∀ a, wmBase 0 ≤ a → a < wmBase 0 + 0x80000000 → t.rd a = 0) ∧
    (∀ a, a < 0x10000000000 → t.rd a = s.rd a) ∧
    (∀ c : CoreId, t.cores[c] = { s.cores[c] with
      first := { s.cores[c].first with tables := [] }, guest := { s.cores[c].guest with tables := [] } }) ∧
    t.nvm = s.nvm ∧ t.counters = s.counters ∧ t.regs = s.regs ∧ t.parts = s.parts ∧ t.handles = s.handles := by
  refine ⟨_, exec_testModeAssert haux, rfl, ?root, ?storage, ?identity, ?counter, fun a hlo hhi => ?crumb, fun a hlo hhi => ?wm,
    fun a ha => ?low, fun c => ?cores, ?rest⟩
  case root | storage | identity | counter => simp only [testErased_mc]
  case crumb => rw [rd_withMC, rd_testErased, if_pos (.inl ⟨hlo, hhi⟩)]
  case wm => rw [rd_withMC, rd_testErased, if_pos (.inr ⟨hlo, hhi⟩)]
  case low =>
    rw [rd_withMC, rd_testErased, if_neg]
    unfold crumbBase wmBase
    omega
  case cores => exact mapCores_core _ _ c
  case rest =>
    simp only [State.testErased, zeroRange_nvm, zeroRange_counters, zeroRange_regs, zeroRange_parts, zeroRange_handles, mapCores_nvm,
      mapCores_counters, mapCores_regs, mapCores_parts, mapCores_handles, and_self]

theorem sealKept_of_kept {s : State} (hseal : s.mc.sealIntact = true) (hkept : ∀ t, s.mc.sealAt = some t → t + presenceNs ≤ s.mc.time) :
    s.sealKept = true := by
  unfold State.sealKept
  rw [hseal, Bool.true_and, Option.all_eq_true]
  exact fun t ht => decide_eq_true (hkept t ht)

theorem sealKept_of_early {s : State} {t : Nat} (hat : s.mc.sealAt = some t) (hearly : s.mc.time < t + presenceNs) :
    s.sealKept = false := by
  unfold State.sealKept
  rw [hat, Option.all_some, decide_eq_false (by omega), Bool.and_false]

theorem presenceAssert_of_notKept {s : State} (h : s.sealKept = false) : exec .presenceAssert s = .next s := by
  show execPresenceAssert s = _
  rw [execPresenceAssert, h, Bool.and_false, if_neg Bool.false_ne_true]

theorem counter_advance_same {s : State} {n v : Nat} (h : n < s.counters.length) :
    (s.advance n v).counter n = Nat.max (s.counter n) v := by
  rw [State.counter, State.advance, List.getD_eq_getElem?_getD, List.getElem?_set_self h]
  rfl

theorem counter_advance_other (s : State) {m n : Nat} (v : Nat) (h : m ≠ n) : (s.advance n v).counter m = s.counter m := by
  rw [State.counter, State.advance, List.getD_eq_getElem?_getD, List.getElem?_set_ne h.symm, ← List.getD_eq_getElem?_getD]
  rfl

/-- The counts of an opening of the seal. -/
def State.sealBroken (s : State) : State :=
  let t := if s.paired then s.advance 5 (s.counter 5 + 1) else s
  { t with mc := { t.mc with sealIntact := false, armedUntil := none } }

theorem exec_sealOpen {s : State} (haux : s.mc.aux = true) (hseal : s.mc.sealIntact = true) :
    exec .sealOpen s = .next (s.sealBroken.raise .sec none 0x8007 [s.sealBroken.counter 5]) := by
  show execSealOpen s = _
  unfold execSealOpen
  rw [hseal, haux, Bool.not_true, if_neg Bool.false_ne_true]
  rfl

theorem sealOpen_counts (s : State) (haux : s.mc.aux = true) (hseal : s.mc.sealIntact = true) (hlen : s.counters.length = 8) :
    ∃ t : State, exec .sealOpen s = .next (t.raise .sec none 0x8007 [t.counter 5]) ∧
    t.mc = { s.mc with sealIntact := false, armedUntil := none } ∧
    (s.paired = true → t.counter 5 = s.counter 5 + 1 ∧ ∀ n, n ≠ 5 → t.counter n = s.counter n) ∧
    (s.paired = false → t.counters = s.counters) ∧ t.cores = s.cores ∧ t.handles = s.handles ∧ t.nvm = s.nvm ∧ t.parts = s.parts ∧
    t.regs = s.regs ∧ t.mem = s.mem := by
  refine ⟨s.sealBroken, exec_sealOpen haux hseal, ?_⟩
  unfold State.sealBroken
  dsimp only
  cases s.paired with
  | true =>
    rw [if_pos rfl]
    refine ⟨by rw [advance_mc], fun _ => ⟨?_, fun n hn => counter_advance_other s _ hn⟩, fun h => absurd h (by decide), rfl, rfl, rfl,
      rfl, rfl, rfl⟩
    exact (counter_advance_same (by omega)).trans (Nat.max_eq_right (Nat.le_succ _))
  | false =>
    rw [if_neg Bool.false_ne_true]
    exact ⟨rfl, fun h => absurd h (by decide), fun _ => rfl, rfl, rfl, rfl, rfl, rfl, rfl⟩

/-- Settles O6. -/
theorem securityInputsAct : Obligations.SecurityInputsAct := by
  refine ⟨testMode_erases, fun s haux hseal hkept => ?_, fun t s hat hearly => presenceAssert_of_notKept (sealKept_of_early hat hearly),
    fun s hseal => presenceAssert_of_notKept (by rw [State.sealKept, hseal, Bool.false_and]), fun _ => rfl, sealOpen_counts,
    fun s haux => ?_, fun s hseal => ?_⟩
  · show execPresenceAssert s = _
    rw [execPresenceAssert, haux, sealKept_of_kept hseal hkept, if_pos (by rfl)]
  · show execSealOpen s = _
    have hopen (b : Bool) (hb : s.mc.sealIntact = b) : ({ s with mc := { s.mc with sealIntact := b } } : State) = s := by
      subst hb
      rfl
    rw [execSealOpen, haux, Bool.not_false, if_pos rfl]
    cases hseal : s.mc.sealIntact with
    | true => rfl
    | false =>
      rw [Bool.not_false, if_pos rfl, hopen false hseal]
  · show execSealIntact s = _
    rw [execSealIntact, hseal, if_neg Bool.false_ne_true]

/-! ### What the work of ports leaves alone -/

/-- No core, handle, job, flash byte or counter and no memory outside the rings changes, and of the controller the events alone. -/
structure Calm (s t : State) : Prop where
  cores : t.cores = s.cores
  handles : t.handles = s.handles
  nvm : t.nvm = s.nvm
  counters : t.counters = s.counters
  paired : t.paired = s.paired
  mc : t.mc = { s.mc with evtCount := t.mc.evtCount, logWait := t.mc.logWait, nvmQueue := t.mc.nvmQueue }
  job : ∀ p, t.job p = s.job p
  rd : ∀ a, s.inRings a = false → t.rd a = s.rd a

namespace Calm

variable {s t u : State}

theorem refl (s : State) : Calm s s := ⟨rfl, rfl, rfl, rfl, rfl, rfl, fun _ => rfl, fun _ _ => rfl⟩

theorem hctx (h : Calm s t) (p : PartId) : t.hctx p = s.hctx p := by
  unfold State.hctx
  rw [h.mc]

theorem inRings (h : Calm s t) (a : Nat) : t.inRings a = s.inRings a := by
  simp only [State.inRings, h.hctx]

theorem trans (h : Calm s t) (k : Calm t u) : Calm s u where
  cores := k.cores.trans h.cores
  handles := k.handles.trans h.handles
  nvm := k.nvm.trans h.nvm
  counters := k.counters.trans h.counters
  paired := k.paired.trans h.paired
  mc := by rw [k.mc, h.mc]
  job p := (k.job p).trans (h.job p)
  rd a ha := (k.rd a ((h.inRings a).trans ha)).trans (h.rd a ha)

theorem foldl {α : Type} {f : State → α → State} (hf : ∀ t a, Calm t (f t a)) (l : List α) (s : State) : Calm s (l.foldl f s) := by
  induction l generalizing s with
  | nil => exact refl s
  | cons a l ih => exact (hf s a).trans (ih _)

theorem of_event (h : EventFrame s t) : Calm s t :=
  ⟨h.cores, h.handles, h.nvm, h.counters, h.paired, h.mc, h.job, h.rd⟩

theorem raise (src : Src) (part : Option PartId) (code : Nat) (ds : List Nat) : Calm s (s.raise src part code ds) :=
  of_event (eventFrame_raise s src part code ds)

theorem setFld (o hi lo v : Nat) : Calm s (s.setFld o hi lo v) := by
  refine ⟨?_, ?_, ?_, ?_, ?_, ?_, fun p => setFld_job .., fun a _ => setFld_rd ..⟩ <;> simp

theorem count (o k : Nat) : Calm s (s.count o k) := by
  refine ⟨?_, ?_, ?_, ?_, ?_, ?_, fun p => count_job .., fun a _ => count_rd ..⟩ <;> simp

theorem updPort (o : PortId) (f : Port → Port) : Calm s (s.updPort o f) :=
  ⟨rfl, rfl, rfl, rfl, rfl, rfl, fun _ => rfl, fun _ _ => rfl⟩

theorem portCount (o : PortId) (n k : Nat) : Calm s (s.portCount o n k) := count ..

theorem setLink (o : PortId) (q : SubId) (m : LinkMode) : Calm s (s.setLink o q m) := (updPort ..).trans (setFld ..)

theorem subDown (o : PortId) (q : SubId) (cause : Nat) : Calm s (s.subDown o q cause) :=
  ((((updPort ..).trans (setFld ..)).trans (portCount ..)).trans (portCount ..)).trans (raise ..)

theorem portSilent (o : PortId) (cause : Nat) : Calm s (s.portSilent o cause) := by
  unfold State.portSilent
  refine (foldl (fun t q => ?_) _ _).trans ((updPort ..).trans (setFld ..))
  split
  · exact (subDown ..).trans (setLink ..)
  · exact setLink ..

end Calm

/-! ### Thresholds, losses of supply and heat (R407, R416, R417, R429, R437) -/

section
variable {s : State}

theorem railsOff_calm : Calm (s.mapCores fun k => { k with issued := [], headWeak := [], headBad := [] })
    ((List.finRange 8).foldl (fun s t => s.portSilent t (Config.fieldWord 0x6002 1 0))
      (s.mapCores fun k => { k with issued := [], headWeak := [], headBad := [] })) :=
  Calm.foldl (fun _ _ => .portSilent ..) _ _

theorem railsOff_issued (c : CoreId) : s.railsOff.cores[c].issued = [] := by
  have hcores : s.railsOff.cores = (s.mapCores fun k => { k with issued := [], headWeak := [], headBad := [] }).cores :=
    railsOff_calm.cores
  rw [hcores, mapCores_core]

theorem railsOff_nvm : s.railsOff.nvm = s.nvm := railsOff_calm.nvm

theorem railsOff_counters : s.railsOff.counters = s.counters := railsOff_calm.counters

theorem railsOff_mc : s.railsOff.mc = { s.mc with
    evtCount := s.railsOff.mc.evtCount, logWait := s.railsOff.mc.logWait, nvmQueue := s.railsOff.mc.nvmQueue
    hubRailOn := false, portsOn := false, pwrReq := false, rails := s.railsOff.mc.rails } := by
  have hmc := (railsOff_calm (s := s)).mc
  rw [mapCores_mc] at hmc
  unfold State.railsOff
  dsimp only
  rw [hmc]

end

/-- No core may issue where the hub rail is off. -/
theorem mayIssue_of_railOff {s : State} (h : s.mc.hubRailOn = false) (c : CoreId) : s.mayIssue c = false := by
  rw [State.mayIssue, State.coreUp, h, Bool.and_false, Bool.false_and, Bool.false_and, Bool.false_and]

theorem exec_vinThrottle {mv : Nat} {s : State} (hon : s.mc.on = true) : exec (.vinThrottle mv) s =
    .next (({ s.railsToFloor with mc := { s.railsToFloor.mc with
      vinThrottle := true, vinInhibit := true, duty := true } } : State).raise .pwr none 0x9003 [mv]) := by
  show execVinThrottle mv s = _
  rw [execVinThrottle, hon, Bool.not_true, if_neg Bool.false_ne_true]

theorem railsToFloor_rail (s : State) (c : CoreId) : s.railsToFloor.mc.rails[c] =
    if s.mc.rails[c].on then { s.mc.rails[c] with volt := s.mc.rails[c].floor } else s.mc.rails[c] := by
  simp [State.railsToFloor]

theorem vinThrottle_acts (mv : Nat) (s : State) (hon : s.mc.on = true) : ∃ t : State, exec (.vinThrottle mv) s = .next t ∧
    t.mc.vinThrottle = true ∧ t.mc.vinInhibit = true ∧
    t.mc.duty = true ∧ (∀ c : CoreId, t.mc.rails[c].on = s.mc.rails[c].on ∧ t.mc.rails[c].floor = s.mc.rails[c].floor ∧
      t.mc.rails[c].volt = if s.mc.rails[c].on then s.mc.rails[c].floor else s.mc.rails[c].volt) ∧
    t.cores = s.cores ∧ t.handles = s.handles ∧ t.nvm = s.nvm ∧ t.counters = s.counters ∧ (∀ p, t.job p = s.job p) ∧
    ∀ a, s.inRings a = false → t.rd a = s.rd a := by
  obtain ⟨cores, handles, nvm, counters, -, mc, job, rd⟩ := Calm.raise (s := ({ s.railsToFloor with mc := { s.railsToFloor.mc with
    vinThrottle := true, vinInhibit := true, duty := true } } : State)) .pwr none 0x9003 [mv]
  refine ⟨_, exec_vinThrottle hon, by rw [mc], by rw [mc], by rw [mc], fun c => ?_, cores, handles, nvm, counters, job, rd⟩
  rw [mc]
  dsimp only
  rw [railsToFloor_rail]
  split
  · exact ⟨rfl, rfl, rfl⟩
  · exact ⟨rfl, rfl, rfl⟩

theorem isEventReg_pwrPg : isEventReg pwrPg = false := by decide

theorem supplyLost_acts (rail : Fin 6) (mv : Nat) (s : State) (hon : s.mc.on = true) (hreq : s.mc.pwrReq = true) :
    ∃ t : State, exec (.supplyLost rail mv) s = .next t ∧ t.mc.lost = true ∧
    t.mc.lostRail = rail.val ∧ t.mc.pwrReq = false ∧ t.mc.hubRailOn = false ∧ t.regFld pwrPg rail.val rail.val = 0 ∧
    (∀ c : CoreId, t.cores[c].issued = []) ∧
    (∀ (c : CoreId), t.mayIssue c = false) ∧ t.nvm = s.nvm ∧ t.counters = s.counters := by
  have hexec : exec (.supplyLost rail mv) s = .next
      ((({ s.railsOff with mc := { s.railsOff.mc with lost := true, lostRail := rail.val } } : State).setFld pwrPg rail.val rail.val
        0).raise .pwr none 0x9005 [rail.val, mv]) := by
    show execSupplyLost rail mv s = _
    rw [execSupplyLost, hon, hreq, Bool.and_self, if_pos rfl]
  obtain ⟨cores, -, nvm, counters, -, mc, -, -⟩ := (Calm.setFld (s := ({ s.railsOff with mc := { s.railsOff.mc with
    lost := true, lostRail := rail.val } } : State)) pwrPg rail.val rail.val 0).trans (.raise .pwr none 0x9005 [rail.val, mv])
  have hissued := railsOff_issued (s := s)
  have hmc := railsOff_mc (s := s)
  have hrail := rail.isLt
  refine ⟨_, hexec, by rw [mc], by rw [mc], ?_, ?_, ?_, fun c => ?_, fun c => mayIssue_of_railOff ?_ c,
    nvm.trans railsOff_nvm, counters.trans railsOff_counters⟩
  · rw [mc, hmc]
  · rw [mc, hmc]
  · rw [State.regFld, raise_reg _ _ _ _ _ isEventReg_pwrPg, ← State.regFld, regFld_setFld_same _ _ _ (by omega), Nat.zero_mod]
  · rw [cores]
    exact hissued c
  · rw [mc, hmc]

theorem fixedLog_mc (s : State) : s.fixedLog.mc = { s.mc with nvmQueue := s.fixedLog.mc.nvmQueue } := by
  unfold State.fixedLog
  split <;> rfl

theorem fixedLog_rest (s : State) : s.fixedLog.nvm = s.nvm ∧ s.fixedLog.counters = s.counters := by
  unfold State.fixedLog
  split <;> exact ⟨rfl, rfl⟩

/-- A trip is counted, shown and takes the rails away (R407). -/
theorem trip_acts (s : State) (sensor : Sensor) (tj : Nat) : (s.trip sensor tj).mc.therm = .tripped ∧
    (s.trip sensor tj).mc.thermAlert = true ∧ (s.trip sensor tj).mc.pwrReq = false ∧ (s.trip sensor tj).mc.hubRailOn = false ∧
    (s.trip sensor tj).mc.trips = satAdd 16 s.mc.trips 1 ∧ (∀ c : CoreId, (s.trip sensor tj).mayIssue c = false) ∧
    (s.trip sensor tj).nvm = s.nvm ∧ (s.trip sensor tj).counters = s.counters := by
  have hmc := railsOff_mc (s := s)
  have hnvm := railsOff_nvm (s := s)
  have hcounters := railsOff_counters (s := s)
  unfold State.trip
  dsimp only
  generalize s.railsOff = q at hmc hnvm hcounters
  obtain ⟨-, -, nvm, counters, -, mc, -, -⟩ := Calm.raise (s := ({ q with mc := { q.mc with
    therm := .tripped, thermAlert := true, trips := satAdd 16 q.mc.trips 1 } } : State).fixedLog) .mc none 0x9011
      [sensor.kind, sensor.index, tj]
  obtain ⟨hfixedNvm, hfixedCounters⟩ := fixedLog_rest { q with mc := { q.mc with
    therm := .tripped, thermAlert := true, trips := satAdd 16 q.mc.trips 1 } }
  rw [fixedLog_mc] at mc
  refine ⟨by rw [mc], by rw [mc], by rw [mc, hmc], by rw [mc, hmc], by rw [mc, hmc], fun c => mayIssue_of_railOff ?_ c,
    (nvm.trans hfixedNvm).trans hnvm, (counters.trans hfixedCounters).trans hcounters⟩
  rw [mc, hmc]

/-- Settles O7. -/
theorem suppliesAndHeatAct : Obligations.SuppliesAndHeatAct := by
  refine ⟨fun mv s hon => ?vin, fun mv s hon => ?aux, fun _ => rfl, vinThrottle_acts, fun mv s hon => exec_vinThrottle hon, fun _ => rfl,
    fun mv s hon => ?halt, fun _ => rfl, supplyLost_acts, fun sensor tj s hon hrail hhalted htripped => ?thermal, fun s hhalted => ?resume,
    fun sensor tj s hon hrail htripped => ⟨_, ?trip, trip_acts s sensor tj⟩, fun sensor tj s hon hhalted => ⟨_, ?limit, trip_acts s sensor tj⟩⟩
  case vin | aux =>
    show execNvmInhibit _ mv s = _
    rw [execNvmInhibit, hon, Bool.not_true, if_neg Bool.false_ne_true]
    rfl
  case halt =>
    show execVinHalt mv s = _
    rw [execVinHalt, hon, Bool.not_true, if_neg Bool.false_ne_true]
  case thermal =>
    show execThermalHalt sensor tj s = _
    rw [execThermalHalt, hon, hrail, decide_eq_true ⟨hhalted, htripped⟩, if_pos (by rfl)]
  case resume =>
    show Host.Outcome.next _ = _
    rw [if_pos hhalted]
  case trip =>
    show execThermalTrip sensor tj s = _
    rw [execThermalTrip, hon, hrail, decide_eq_true htripped, if_pos (by rfl)]
  case limit =>
    show execThermalHaltLimit sensor tj s = _
    rw [execThermalHaltLimit, hon, decide_eq_true hhalted, if_pos (by rfl)]

end Sys2Proof.Machine


namespace Sys2Proof.Machine

/-! ### Hub 0 takes the links down (R21) -/

/-- Every link of every port shows as down. -/
def State.LinksDown (s : State) : Prop := ∀ p : PortId, s.regFld (portStat p.val) 3 0 = 0

theorem portStat_inj {p q : Nat} (h : portStat p = portStat q) : p = q := by
  unfold portStat portBase at h
  omega

namespace State.LinksDown

variable {s : State}

theorem of_reg {t : State} (hs : s.LinksDown) (h : ∀ o, t.reg o = s.reg o) : t.LinksDown := fun p => by
  rw [State.regFld, h]
  exact hs p

/-- A field of PORT_STAT above the link bits. -/
theorem setFld (hs : s.LinksDown) (o : PortId) {hi lo : Nat} (v : Nat) (hlo : 3 < lo) : (s.setFld (portStat o.val) hi lo v).LinksDown :=
  fun p => by
    by_cases hp : p = o
    · rw [hp, regFld_setFld_disjoint s _ v (by decide) (.inl hlo)]
      exact hs o
    · rw [State.regFld, reg_setFld_other s hi lo v fun h => hp (Fin.ext (portStat_inj h))]
      exact hs p

theorem linkUp (hs : s.LinksDown) (o : PortId) (q : SubId) : s.linkUp o.val q.val = false := by
  have hq := q.isLt
  have hbit := congrArg (fun n => n.testBit q.val) (hs o)
  simp only [State.regFld, testBit_fld, Nat.zero_testBit, Nat.zero_add] at hbit
  rw [decide_eq_true (by omega), Bool.true_and] at hbit
  exact hbit

theorem setLink (hs : s.LinksDown) (o : PortId) (q : SubId) (m : LinkMode) : (s.setLink o q m).LinksDown :=
  setFld (hs.of_reg (by exact fun _ => rfl)) o _ (by omega)

/-- Where no link is up a port falls silent without an event. -/
theorem portSilent (hs : s.LinksDown) (o : PortId) (cause : Nat) : (s.portSilent o cause).LinksDown := by
  unfold State.portSilent
  refine setFld (of_reg ?_ (by exact fun _ => rfl)) o _ (by decide)
  generalize List.finRange 4 = subs
  induction subs generalizing s with
  | nil => exact hs
  | cons q subs ih =>
    refine ih ?_
    show ((if s.linkUp o.val q.val = true then s.subDown o q cause else s).setLink o q .idle).LinksDown
    rw [hs.linkUp o q, if_neg Bool.false_ne_true]
    exact hs.setLink o q .idle

theorem foldl_portSilent (hs : s.LinksDown) (l : List PortId) (cause : Nat) :
    (l.foldl (fun s t => s.portSilent t cause) s).LinksDown := by
  induction l generalizing s with
  | nil => exact hs
  | cons o l ih => exact ih (hs.portSilent o cause)

theorem railsOff (hs : s.LinksDown) : s.railsOff.LinksDown := by
  have hfold := foldl_portSilent (s := s.mapCores fun k => { k with issued := [], headWeak := [], headBad := [] })
    (hs.of_reg (by exact fun _ => rfl)) (List.finRange 8) (Config.fieldWord 0x6002 1 0)
  exact hfold.of_reg (by exact fun _ => rfl)

end State.LinksDown

/-- Clearing the link bits of a port leaves those of the others cleared. -/
theorem regFld_clearLinks (s : State) (l : List PortId) (p : PortId) (h : p ∈ l ∨ s.regFld (portStat p.val) 3 0 = 0) :
    (l.foldl (fun s t => s.setFld (portStat t.val) 3 0 0) s).regFld (portStat p.val) 3 0 = 0 := by
  induction l generalizing s with
  | nil => exact h.resolve_left List.not_mem_nil
  | cons o l ih =>
    refine ih _ ?_
    by_cases hp : p = o
    · right
      rw [hp, regFld_setFld_same s _ _ (by decide), Nat.zero_mod]
    · rw [State.regFld, reg_setFld_other s _ _ _ fun h => hp (Fin.ext (portStat_inj h)), ← State.regFld]
      exact h.imp_left fun hm => (List.mem_cons.1 hm).resolve_left hp

theorem linksDown_clearLinks (s : State) : ((List.finRange 8).foldl (fun s t => s.setFld (portStat t.val) 3 0 0) s).LinksDown :=
  fun p => regFld_clearLinks s _ p (.inl (List.mem_finRange p))

theorem exec_hub0Unusable (code : Nat) {s : State} (hrail : s.mc.hubRailOn = true) :
    exec (.blockUnusable .hub 0 code) s =
      let t := ((List.finRange 8).foldl (fun s t => s.setFld (portStat t.val) 3 0 0) s).railsOff
      .next { t with mc := { t.mc with on := false, complete := false } } := by
  show execBlockUnusable .hub 0 code s = _
  unfold execBlockUnusable
  rw [hrail, if_neg (by decide), if_pos ⟨rfl, rfl⟩]

/-! ### Blocks in service and under proof (R21, R400-R402) -/

theorem getLsbD_clearBit {n : Nat} (m : BitVec n) (i : Nat) : (clearBit m i).getLsbD i = false := by
  unfold clearBit
  by_cases hi : i < n
  · rw [BitVec.getLsbD_and, BitVec.getLsbD_not, BitVec.getLsbD_ofNat, Nat.testBit_two_pow_self, decide_eq_true hi]
    exact Bool.and_false _
  · exact BitVec.getLsbD_of_ge _ _ (Nat.not_lt.1 hi)

theorem rd_stackDown (s : State) {k a : Nat} (hlo : stackBase k ≤ a) (hhi : a < stackBase k + 0x2000000000) :
    (s.stackDown k).rd a = 0 := by
  rw [State.stackDown, rd_withMC, rd_zeroRange, if_pos ⟨hlo, hhi⟩]

theorem loseBlock_stack (k : StackId) (code : Nat) {s : State} (hup : s.mc.stacksUp.getLsbD k.val = true) :
    s.loseBlock .stack k.val code false = (s.raise (.hub (k.val / 2)) none 0x4006 [1, k.val, code]).stackDown k.val := by
  unfold State.loseBlock
  rw [show s.blockUp .stack k.val = s.mc.stacksUp.getLsbD k.val from rfl, hup, Bool.not_true, if_neg Bool.false_ne_true]
  rfl

/-- Settles O11. -/
theorem blocksFailAndAreProved : Obligations.BlocksFailAndAreProved := by
  refine ⟨fun code s hrail => ?hub0, fun kind index code s hrail hindex hhub => ?block, fun k code s hup => loseBlock_stack k code hup,
    fun k s a hlo hhi => ⟨rd_stackDown s hlo hhi, getLsbD_clearBit ..⟩,
    fun r s blocks hlink hvendor hcode hform hbusy hkind hroom hselect => ?proof, fun h x n rest code s hx hkind hstate hrail hwork => ?done⟩
  case hub0 =>
    have hmc := railsOff_mc (s := (List.finRange 8).foldl (fun s t => s.setFld (portStat t.val) 3 0 0) s)
    have hdown := (linksDown_clearLinks s).railsOff
    refine ⟨_, exec_hub0Unusable code hrail, ?_⟩
    generalize ((List.finRange 8).foldl (fun s t => s.setFld (portStat t.val) 3 0 0) s).railsOff = t at hmc hdown
    exact ⟨rfl, rfl, by rw [hmc], hdown.of_reg (by exact fun _ => rfl), mayIssue_of_railOff (by rw [hmc])⟩
  case block =>
    show execBlockUnusable kind index code s = _
    unfold execBlockUnusable
    rw [hrail, if_neg, if_neg fun h => hhub h.1 h.2]
    rw [Bool.not_true, Bool.false_or, decide_eq_true_iff]
    omega
  case proof =>
    show execMgmtProof r s = _
    unfold execMgmtProof State.opStart
    rw [request_of_arrives ⟨hlink, hvendor, hcode, hform, hbusy⟩, if_neg (not_not_intro hkind), hroom, if_neg Bool.false_ne_true]
    dsimp only
    rw [hselect]
  case done =>
    show execProofBlockDone h code s = _
    unfold execProofBlockDone
    rw [hx]
    dsimp only
    rw [if_neg (by rw [hkind, hstate, hrail]; decide), hwork] <;> rfl

end Sys2Proof.Machine


namespace Sys2Proof.Machine

/-! ### What a command's own reads leave alone -/

theorem foldl_eq {α β : Type} (F : State → β) {f : State → α → State} (hf : ∀ t a, F (f t a) = F t) (l : List α) (s : State) :
    F (l.foldl f s) = F s := by
  induction l generalizing s with
  | nil => rfl
  | cons a l ih => exact (ih _).trans (hf s a)

/-- The errors and waits that a command brings touch cores, registers and the lists of units alone. -/
theorem takeEnv_eq {β : Type} (F : State → β) (hcount : ∀ t o k, F (State.count t o k) = F t)
    (hcore : ∀ t c f, F (State.updCore t c f) = F t) (hunits : ∀ t b w, F { t with badUnits := b, weakUnits := w } = F t)
    (s : State) (env : MemEnv) : F (s.takeEnv env) = F s := by
  unfold State.takeEnv
  rw [hunits, foldl_eq F fun t a => hcore .., foldl_eq F fun t a => hcore .., foldl_eq F fun t a => hcount ..]

theorem takeFor_handles (s : State) (env : MemEnv) (p : PartId) (as : List Nat) : (s.takeFor env p as).handles = s.handles :=
  (QuietFrame.meetReads (c := (0 : CoreId))).engine.handles.trans
    (takeEnv_eq State.handles (fun _ _ _ => count_handles ..) (fun _ _ _ => rfl) (fun _ _ _ => rfl) s env)

theorem takeFor_nvm (s : State) (env : MemEnv) (p : PartId) (as : List Nat) : (s.takeFor env p as).nvm = s.nvm :=
  (QuietFrame.meetReads (c := (0 : CoreId))).engine.nvm.trans
    (takeEnv_eq State.nvm (fun _ _ _ => count_nvm ..) (fun _ _ _ => rfl) (fun _ _ _ => rfl) s env)

/-! ### REDUCE and its messages (R336, R339-R343) -/

/-- The blocks that a REDUCE contributes. -/
def ownBlocks (j : Job) (d : List Word) (u : State) : List Byte :=
  if nA0 d = 0 then j.zeroBlocks (nWide d) (nId d) (nLen d) else (span (nA0 d) (nLen d * gwBytes (nWide d))).map (u.lrd j)

theorem ownBlocks_eq (j : Job) (d : List Word) (u : State) :
    (if nA0 d = 0 then j.zeroBlocks (nWide d) (nId d) (nLen d)
      else (if nA0 d = 0 then [] else span (nA0 d) (nLen d * gwBytes (nWide d))).map (u.lrd j)) = ownBlocks j d u := by
  unfold ownBlocks
  by_cases h : nA0 d = 0
  · rw [if_pos h, if_pos h]
  · rw [if_neg h, if_neg h, if_neg h]

/-- The job once a bucket is reduced. -/
def Job.bucketDone (j : Job) (bucket : Nat) (ovf : Bool) : Job :=
  { j with step := { j.step with overflow := j.step.overflow || ovf, reduced := j.step.reduced ++ [bucket] } }

/-- Whether a bucket of REDUCE overflowed. -/
def bucketOver (d : List Word) (own : List Byte) : Bool :=
  (List.range (nLen d)).any fun x => decide (rdLE own (gwBytes (nWide d) * x) 1 = 0xFF)

section
variable {c : CoreId} {slot : Fin 16} {env : MemEnv} {e : Issued} {j : Job} {u s : State}

/-- A job alone: the bucket is copied, its overflow noted. -/
theorem exec_reduce_alone (hstart : s.startNet c slot.val 0x01 = some (e, j)) (halone : j.cluster = none)
    (haccess : (s.takeFor env e.part (netReads e.words)).access j
      (if nA0 e.words = 0 then [] else span (nA0 e.words) (nLen e.words * gwBytes (nWide e.words)))
      (span (nA1 e.words) (nLen e.words * gwBytes (nWide e.words))) = (u, none)) :
    exec (.reduce c slot env) s = .next (((u.lputBytes j (nA1 e.words) (ownBlocks j e.words u)).updJob e.part fun i =>
      i.bucketDone (nId e.words) (bucketOver e.words (ownBlocks j e.words u))).finish c e) := by
  show execReduce c slot env s = _
  unfold execReduce
  obtain ⟨access, hopaque⟩ : ∃ f, State.access = f := ⟨_, rfl⟩
  rw [hopaque] at haccess ⊢
  rw [hstart]
  dsimp only
  rw [haccess]
  dsimp only
  rw [halone]
  dsimp only
  rw [ownBlocks_eq]
  rfl

/-- In a cluster: the segments are opened, stepped, and take the partials that had arrived. -/
theorem exec_reduce_cluster {k : Cluster} {w : State} {own : List Byte} (hstart : s.startNet c slot.val 0x01 = some (e, j))
    (hk : j.cluster = some k)
    (haccess : (s.takeFor env e.part (netReads e.words)).access j
      (if nA0 e.words = 0 then [] else span (nA0 e.words) (nLen e.words * gwBytes (nWide e.words)))
      (span (nA1 e.words) (nLen e.words * gwBytes (nWide e.words))) = (u, none))
    (hown : own = ownBlocks j e.words u)
    (hw : w = ((u.running c e).updCluster e.part fun k => { k with reds := k.reds ++ [{
      core := c, seq := e.seq, lcore := e.lcore, bucket := nId e.words, len := nLen e.words, seg := Nat.max 1 (nPa e.words),
      vc := nVc e.words, wide := nWide e.words, dst := nA1 e.words,
      segs := (List.range (segCount (nLen e.words) (Nat.max 1 (nPa e.words)))).map fun i =>
        { acc := slice own (i * Nat.max 1 (nPa e.words) * gwBytes (nWide e.words))
            (Nat.min (Nat.max 1 (nPa e.words)) (nLen e.words - i * Nat.max 1 (nPa e.words)) * gwBytes (nWide e.words)) } }] })) :
    exec (.reduce c slot env) s = .next ((((w.cluster e.part).map Cluster.heldReds).getD []).foldl (fun s m => s.takeUp e.part m)
      ((List.range (segCount (nLen e.words) (Nat.max 1 (nPa e.words)))).foldl (fun s i => s.redStep e.part (nId e.words) i)
        (w.updCluster e.part fun k => { k with heldReds := [] }))) := by
  subst hw
  show execReduce c slot env s = _
  unfold execReduce
  obtain ⟨access, hopaque⟩ : ∃ f, State.access = f := ⟨_, rfl⟩
  rw [hopaque] at haccess ⊢
  rw [hstart]
  dsimp only
  rw [haccess]
  dsimp only
  rw [hk]
  dsimp only
  rw [ownBlocks_eq, ← hown]

end

theorem differs_eq_none (r : RedRun) (m : List Byte) : r.differs m = none ↔ rdLE m 12 4 < segCount r.len r.seg ∧ rdLE m 16 4 = r.len ∧
    rdLE m 0x14 6 = r.seg ∧ m.length - 32 = r.segBlocks (rdLE m 12 4) * gwBytes r.wide := by
  unfold RedRun.differs
  dsimp only
  split
  next h => exact iff_of_false (by simp) fun ⟨hseg, _⟩ => absurd hseg (by omega)
  next hseg =>
    split
    next h => exact iff_of_false (by simp) fun ⟨_, hlen, _⟩ => h hlen
    next hlen =>
      split
      next h =>
        refine iff_of_false (by simp) fun ⟨_, _, hsize, hblocks⟩ => ?_
        exact h.elim (fun hne => hne hsize) fun hne => hne hblocks
      next h =>
        obtain ⟨hsize, hblocks⟩ := not_or.1 h
        exact iff_of_true rfl ⟨Nat.not_le.1 hseg, not_not.1 hlen, not_not.1 hsize, not_not.1 hblocks⟩

section
variable {p : PartId} {e : EntryId} {vc : VcId} {m : List Byte} {k : Cluster} {r : RedRun} {u s : State}

theorem exec_reduceDown (hpop : s.popMsg p e.val vc.val 2 = some (m, u)) (hk : u.cluster p = some k) (hr : k.red (rdLE m 8 4) = some r) :
    exec (.reduceDown p e vc) s =
      if rdLE m 2 1 = 4 then .next (u.failDescriptor r.core (u.redIssued r) (mismatch (u.redIssued r) 2 r.bucket 0))
      else match r.differs m with
        | some off => .next (u.redMismatch p r ⟨e.val, vc.val, m, none⟩ off)
        | none => .next (u.redResult p r.bucket (rdLE m 12 4) (m.drop 32)) := by
  show execReduceDown p e vc s = _
  unfold execReduceDown
  rw [hpop]
  dsimp only
  rw [hk]
  dsimp only
  rw [hr] <;> rfl

end

/-- Settles O31. -/
theorem reductionsAct : Obligations.ReductionsAct := by
  refine ⟨fun c slot env e j u s hstart halone haccess => ?alone, fun c slot env e j k own u w s hstart hk haccess hown hw =>
      exec_reduce_cluster hstart hk haccess hown hw,
    fun p e vc m u s hpop => ?up, fun p e vc m k r u s hpop hk hr hst hdiff => ?result, fun p e vc m k r u s hpop hk hr hst => ?disagrees,
    fun p e vc m k r off u s hpop hk hr hst hdiff => ?mismatch, differs_eq_none⟩
  case alone =>
    intro own
    have hown : own = ownBlocks j e.words u := rfl
    clear_value own
    subst hown
    have hframe := (QuietFrame.access (c := c) haccess).engine
    refine ⟨_, exec_reduce_alone hstart halone haccess, ?_, fun k hk => ?_, fun x hx => finish_issued _ _ _ x hx, ?_, ?_⟩
    · rw [State.finish, updIssued_mem, updJob_mem]
    · refine ⟨k.bucketDone (nId e.words) (bucketOver e.words (ownBlocks j e.words u)), ?_, rfl, rfl⟩
      have hjob : (u.lputBytes j (nA1 e.words) (ownBlocks j e.words u)).job e.part = some k := (lputBytes_job ..).trans hk
      rw [State.finish, updIssued_job, job_updJob_same, hjob, Option.map_some]
    · rw [State.finish, updIssued_handles, updJob_handles, lputBytes_handles]
      exact hframe.handles.trans (takeFor_handles ..)
    · rw [State.finish, updIssued_nvm, updJob_nvm, lputBytes_nvm]
      exact hframe.nvm.trans (takeFor_nvm ..)
  case up =>
    show execReduceUp p e vc s = _
    unfold execReduceUp
    rw [hpop]
  case result => rw [exec_reduceDown hpop hk hr, if_neg hst, hdiff]
  case disagrees => rw [exec_reduceDown hpop hk hr, if_pos hst]
  case mismatch =>
    rw [exec_reduceDown hpop hk hr, if_neg hst, hdiff]
    rfl

end Sys2Proof.Machine


namespace Sys2Proof.Machine

/-! ### GATHER, its request and its reply (R336, R339, R348) -/

section
variable {c : CoreId} {slot : Fin 16} {env : MemEnv} {e : Issued} {j : Job} {k : Cluster} {m : UnitMap} {u s : State}

theorem exec_gather_asks (hstart : s.startNet c slot.val 0x02 = some (e, j)) (hk : j.cluster = some k) (hm : j.unitMap = some m)
    (howner : ownerOf k.roster (nId e.words) ≠ k.self) : exec (.gather c slot env) s =
      .next (((s.takeFor env e.part (netReads e.words)).running c e).sendGather e.part (ownerOf k.roster (nId e.words)) (nVc e.words) 3 0
        (nId e.words) (nPa e.words) (nLen e.words) []) := by
  show execGather c slot env s = _
  unfold execGather
  obtain ⟨access, hopaque⟩ : ∃ f, State.access = f := ⟨_, rfl⟩
  rw [hopaque, hstart]
  dsimp only
  rw [hk, hm]
  dsimp only
  rw [if_pos howner]

theorem exec_gather_copies (hstart : s.startNet c slot.val 0x02 = some (e, j)) (hk : j.cluster = some k) (hm : j.unitMap = some m)
    (howner : ownerOf k.roster (nId e.words) = k.self) (hfits : nPa e.words + nLen e.words ≤ m.pubBytes)
    (haccess : ((s.takeFor env e.part (netReads e.words)).meetReads
      ((pubAddrs m ((k.slotOf (nId e.words)).getD 0) (nPa e.words) (nLen e.words)).map (j.phys false))).access j
        (pubAddrs m ((k.slotOf (nId e.words)).getD 0) (nPa e.words) (nLen e.words)) (span (nA1 e.words) (nLen e.words)) = (u, none)) :
    exec (.gather c slot env) s = .next ((u.lputBytes j (nA1 e.words)
      ((pubAddrs m ((k.slotOf (nId e.words)).getD 0) (nPa e.words) (nLen e.words)).map (u.lrd j))).finish c e) := by
  show execGather c slot env s = _
  unfold execGather
  obtain ⟨access, hopaque⟩ : ∃ f, State.access = f := ⟨_, rfl⟩
  rw [hopaque] at haccess ⊢
  rw [hstart]
  dsimp only
  rw [hk, hm]
  dsimp only
  rw [if_neg (not_not_intro howner), if_neg (Nat.not_lt.2 hfits), haccess]

end

section
variable {p : PartId} {j : Job} {k : Cluster} {m : InMsg} {st : Nat} {as : List Nat} {s : State}

theorem serveGather_answers (hj : s.job p = some j) (hk : s.cluster p = some k)
    (hanswer : gatherAnswer j k (rdLE m.bytes 8 4) (rdLE m.bytes 12 4) (rdLE m.bytes 16 4) (rdLE m.bytes 4 4) = some (st, as)) :
    s.serveGather p m = match s.lbad j as with
      | some a => ((s.uncorrectable (some p) a).reportAbort p 0x5011 none).fenceByErrors a
      | none => ((s.touchAll (as.map (j.phys false))).meetReads (as.map (j.phys false))).sendGather p m.entry m.vc 4 st
        (rdLE m.bytes 8 4) (rdLE m.bytes 12 4) (rdLE m.bytes 16 4)
        (as.map (((s.touchAll (as.map (j.phys false))).meetReads (as.map (j.phys false))).lrd j)) := by
  unfold State.serveGather
  obtain ⟨bad, hopaque⟩ : ∃ f, State.lbad = f := ⟨_, rfl⟩
  rw [hopaque, hj, hk]
  dsimp only
  rw [hanswer] <;> rfl

theorem serveGather_holds (hj : s.job p = some j) (hk : s.cluster p = some k)
    (hanswer : gatherAnswer j k (rdLE m.bytes 8 4) (rdLE m.bytes 12 4) (rdLE m.bytes 16 4) (rdLE m.bytes 4 4) = none) :
    s.serveGather p m = s.updCluster p fun c => { c with heldGathers := c.heldGathers ++ [m] } := by
  unfold State.serveGather
  obtain ⟨bad, hopaque⟩ : ∃ f, State.lbad = f := ⟨_, rfl⟩
  rw [hopaque, hj, hk]
  dsimp only
  rw [hanswer]

end

/-- The state once a reply has told whether its request was held. -/
def State.replyHeld (s : State) (c : CoreId) (held : Bool) : State := if held then s.freeGheld c else s

section
variable {s : State} {c : CoreId} {held : Bool}

theorem freeGheld_eq {β : Type} (F : State → β) (hcount : ∀ t o k, F (State.count t o k) = F t)
    (hfresh : ∀ t n, F { t with freeCtr := n } = F t) : F (s.replyHeld c held) = F s := by
  unfold State.replyHeld State.freeGheld State.fresh
  dsimp only
  split
  · split
    · rw [hcount, hfresh]
    · rw [hfresh]
  · rfl

theorem replyHeld_view : s.SameView (s.replyHeld c held) where
  mem := freeGheld_eq State.mem (fun _ _ _ => count_mem ..) fun _ _ => rfl
  badUnits := freeGheld_eq State.badUnits (fun _ _ _ => count_badUnits ..) fun _ _ => rfl
  inService d := freeGheld_eq (fun t => t.cores[d].inService) (fun _ _ _ => by rw [count_cores]) fun _ _ => rfl
  stacksUp := freeGheld_eq (fun t => t.mc.stacksUp) (fun _ _ _ => by rw [count_mc]) fun _ _ => rfl
  hubRailOn := freeGheld_eq (fun t => t.mc.hubRailOn) (fun _ _ _ => by rw [count_mc]) fun _ _ => rfl

end

/-- A write of usable memory is served. -/
theorem access_of_usable {j : Job} {as : List Nat} {s : State} (h : ∀ a ∈ as, s.unusable (j.phys true a) = none) :
    s.access j [] as = (s.touchAll (as.map (j.phys true)), none) := by
  have hview := (TouchFrame.touchAll s (as.map (j.phys true))).view
  have hwrites : (s.touchAll (as.map (j.phys true))).checkUsable j true as = none := by
    rw [hview.checkUsable, State.checkUsable, List.findSome?_eq_none_iff]
    intro a ha
    rw [h a ha]
    rfl
  unfold State.access
  dsimp only
  rw [List.map_nil, List.nil_append, hwrites]
  rfl

/-- What a copy leaves in memory depends on memory alone. -/
theorem mem_lputBytes_congr {s t : State} (h : t.mem = s.mem) (j : Job) (a : Nat) (bs : List Byte) :
    (t.lputBytes j a bs).mem = (s.lputBytes j a bs).mem := by
  unfold State.lputBytes State.lput State.put
  rw [h]

section
variable {p : PartId} {e : EntryId} {vc : VcId} {m : List Byte} {j : Job} {c : CoreId} {x : Issued} {u s : State}

theorem exec_gatherReply (hpop : s.popMsg p e.val vc.val 4 = some (m, u)) (hj : u.job p = some j)
    (hx : u.gatherOf p vc.val m = some (c, x)) (hdiff : gatherDiffers x.words m = none) : exec (.gatherReply p e vc) s =
      let v := u.replyHeld c (heldReply (rdLE m 2 1) (rdLE m 4 4) j.step.commit)
      if rdLE m 2 1 = 2 ∨ rdLE m 2 1 = 4 then .next (v.failDescriptor c x (mismatch x 4 (nId x.words) 0))
      else if rdLE m 2 1 = 3 then .next (v.failDescriptor c x (netInvalid x.lcore x.index 0x28 31))
      else if rdLE m 2 1 = 1 ∨ rdLE m 4 4 ≠ j.step.commit then
        .next (v.failDescriptor c x (shardVersion (nId x.words) j.step.commit (rdLE m 4 4) e.val))
      else match v.access j [] (span (nA1 x.words) (nLen x.words)) with
        | (t, some err) => .next (t.failAccess c x err)
        | (t, none) => .next ((t.lputBytes j (nA1 x.words) (slice m 32 (nLen x.words))).finish c x) := by
  show execGatherReply p e vc s = _
  unfold execGatherReply
  obtain ⟨access, hopaque⟩ : ∃ f, State.access = f := ⟨_, rfl⟩
  rw [hopaque, hpop]
  dsimp only
  rw [hj, hx]
  dsimp only
  rw [hdiff] <;> rfl

theorem exec_gatherReply_mismatch {off : Nat} (hpop : s.popMsg p e.val vc.val 4 = some (m, u)) (hj : u.job p = some j)
    (hx : u.gatherOf p vc.val m = some (c, x)) (hdiff : gatherDiffers x.words m = some off) : exec (.gatherReply p e vc) s =
      .next ((u.sendGather p e.val vc.val 4 4 (nId x.words) (nPa x.words) (nLen x.words) []).failDescriptor
        c x (mismatch x 4 (nId x.words) off)) := by
  show execGatherReply p e vc s = _
  unfold execGatherReply
  obtain ⟨access, hopaque⟩ : ∃ f, State.access = f := ⟨_, rfl⟩
  rw [hopaque, hpop]
  dsimp only
  rw [hj, hx]
  dsimp only
  rw [hdiff]

theorem gatherReply_copies (hpop : s.popMsg p e.val vc.val 4 = some (m, u)) (hj : u.job p = some j)
    (hx : u.gatherOf p vc.val m = some (c, x)) (hdiff : gatherDiffers x.words m = none) (hst : rdLE m 2 1 = 0)
    (htag : rdLE m 4 4 = j.step.commit) (husable : ∀ a ∈ span (nA1 x.words) (nLen x.words), u.unusable (j.phys true a) = none) :
    ∃ t : State, exec (.gatherReply p e vc) s = .next t ∧
      t.mem = (u.lputBytes j (nA1 x.words) (slice m 32 (nLen x.words))).mem ∧
      (∀ y ∈ t.cores[c].issued, y.seq = x.seq → y.phase = .finished) ∧ t.handles = s.handles ∧ t.nvm = s.nvm := by
  have hview := replyHeld_view (s := u) (c := c) (held := heldReply (rdLE m 2 1) (rdLE m 4 4) j.step.commit)
  have haccess := access_of_usable (s := u.replyHeld c (heldReply (rdLE m 2 1) (rdLE m 4 4) j.step.commit))
    (as := span (nA1 x.words) (nLen x.words)) (j := j) fun a ha => by rw [hview.unusable]; exact husable a ha
  have htouch := TouchFrame.touchAll (u.replyHeld c (heldReply (rdLE m 2 1) (rdLE m 4 4) j.step.commit))
    ((span (nA1 x.words) (nLen x.words)).map (j.phys true))
  obtain ⟨_, _, -, -, -, hu⟩ := popMsg_eq_some hpop
  have hhandles : u.handles = s.handles := by rw [hu]; exact updJob_handles ..
  have hnvm : u.nvm = s.nvm := by rw [hu]; exact updJob_nvm ..
  refine ⟨_, (exec_gatherReply hpop hj hx hdiff).trans (by
    dsimp only
    rw [if_neg (by omega), if_neg (by omega), if_neg (by omega), haccess]), ?_, fun y hy => finish_issued _ _ _ y hy, ?_, ?_⟩
  · rw [State.finish, updIssued_mem]
    exact mem_lputBytes_congr (htouch.view.mem.trans hview.mem) ..
  · rw [State.finish, updIssued_handles, lputBytes_handles]
    exact ((htouch.engine c).handles.trans (freeGheld_eq State.handles (fun _ _ _ => count_handles ..) fun _ _ => rfl)).trans hhandles
  · rw [State.finish, updIssued_nvm, lputBytes_nvm]
    exact ((htouch.engine c).nvm.trans (freeGheld_eq State.nvm (fun _ _ _ => count_nvm ..) fun _ _ => rfl)).trans hnvm

theorem gatherReply_stale (hpop : s.popMsg p e.val vc.val 4 = some (m, u)) (hj : u.job p = some j)
    (hx : u.gatherOf p vc.val m = some (c, x)) (hdiff : gatherDiffers x.words m = none)
    (hst : rdLE m 2 1 = 1 ∨ (rdLE m 2 1 = 0 ∧ rdLE m 4 4 ≠ j.step.commit)) :
    ∃ v : State, exec (.gatherReply p e vc) s = .next (v.failDescriptor c x (shardVersion (nId x.words) j.step.commit (rdLE m 4 4) e.val)) ∧
      v.mem = u.mem ∧ v.parts = u.parts ∧ (heldReply (rdLE m 2 1) (rdLE m 4 4) j.step.commit = false → v = u) := by
  refine ⟨_, (exec_gatherReply hpop hj hx hdiff).trans (by
    dsimp only
    rw [if_neg (by omega), if_neg (by omega), if_pos (by omega)]), replyHeld_view.mem,
    freeGheld_eq State.parts (fun _ _ _ => count_parts ..) fun _ _ => rfl, fun hheld => ?_⟩
  rw [hheld]
  rfl

end

/-- Settles O33. -/
theorem gathersAct : Obligations.GathersAct := by
  refine ⟨fun c slot env e j k m s hstart hk hm howner => exec_gather_asks hstart hk hm howner,
    fun c slot env e j k m u s hstart hk hm howner hfits haccess => exec_gather_copies hstart hk hm howner hfits haccess,
    fun p e vc m u s hpop => ?request, fun p j k m st as s hj hk hanswer hgood => ?answered,
    fun p j k m s hj hk hanswer => serveGather_holds hj hk hanswer, fun p j k m st as a s hj hk hanswer hbad => ?bad,
    fun p e vc m j c x u s hpop hj hx hdiff hst htag husable => gatherReply_copies hpop hj hx hdiff hst htag husable,
    fun p e vc m j c x u s hpop hj hx hdiff hst => gatherReply_stale hpop hj hx hdiff hst,
    fun p e vc m j c x off u s hpop hj hx hdiff => exec_gatherReply_mismatch hpop hj hx hdiff⟩
  case request =>
    show execGatherReq p e vc s = _
    unfold execGatherReq
    rw [hpop]
  case answered => rw [serveGather_answers hj hk hanswer, hgood]
  case bad => rw [serveGather_answers hj hk hanswer, hbad]

end Sys2Proof.Machine


namespace Sys2Proof.Machine

/-! ### What sending a message leaves alone -/

/-- Sending to a member of partition `p` changes the connections of its cluster, and queues and counters of ports. -/
structure SendFrame (p : PartId) (s t : State) : Prop where
  cores : t.cores = s.cores
  mem : t.mem = s.mem
  handles : t.handles = s.handles
  nvm : t.nvm = s.nvm
  mc : t.mc = s.mc
  reg : ∀ o, o < portBase 0 → t.reg o = s.reg o
  received : (t.cluster p).map Cluster.recvDone = (s.cluster p).map Cluster.recvDone

namespace SendFrame

variable {p : PartId} {s t u : State}

theorem refl (p : PartId) (s : State) : SendFrame p s s := ⟨rfl, rfl, rfl, rfl, rfl, fun _ _ => rfl, rfl⟩

theorem trans (h : SendFrame p s t) (k : SendFrame p t u) : SendFrame p s u :=
  ⟨k.cores.trans h.cores, k.mem.trans h.mem, k.handles.trans h.handles, k.nvm.trans h.nvm, k.mc.trans h.mc,
    fun o ho => (k.reg o ho).trans (h.reg o ho), k.received.trans h.received⟩

theorem updCluster {f : Cluster → Cluster} (hf : ∀ k, (f k).recvDone = k.recvDone) : SendFrame p s (s.updCluster p f) := by
  refine ⟨rfl, rfl, rfl, rfl, rfl, fun _ _ => rfl, ?_⟩
  rw [cluster_updCluster_same, Option.map_map]
  exact congrArg (fun g => (s.cluster p).map g) (funext hf)

theorem updConn {i : Nat} {f : ConnRun → ConnRun} : SendFrame p s (s.updCluster p fun c => c.updConn i f) :=
  updCluster (by exact fun _ => rfl)

theorem otCount {o : PortId} {n k : Nat} : SendFrame p s (s.otCount o n k) := by
  have hreg : portBase 0 ≤ portOtCnt o.val n := by
    unfold portOtCnt portBase
    omega
  exact ⟨count_cores .., count_mem .., count_handles .., count_nvm .., count_mc ..,
    fun x hx => reg_count_other _ _ (by omega), by rw [State.cluster, State.otCount, count_job, State.cluster]⟩

theorem otSend {c : Cluster} {i vc : Nat} {bytes : List Byte} : SendFrame p s (s.otSend p c i vc bytes) := by
  unfold State.otSend
  split
  · exact refl p s
  · exact ⟨rfl, rfl, rfl, rfl, rfl, fun _ _ => rfl, rfl⟩

theorem pumpGo {i vc : Nat} (fs : List OtFrame) : SendFrame p s (State.pumpGo p i vc fs s) := by
  induction fs generalizing s with
  | nil => exact refl p s
  | cons f rest ih =>
    unfold State.pumpGo
    split
    · exact refl p s
    · extract_lets r v sent sentS n counted
      split
      · exact refl p s
      · split
        · exact (otSend.trans updConn).trans ih
        · have hcounted : SendFrame p s counted := by
            unfold counted
            split
            · exact otCount
            · exact refl p s
          exact hcounted.trans updConn

theorem sendOn {i vc : Nat} {bytes : List Byte} : SendFrame p s (s.sendOn p i vc bytes) := by
  unfold State.sendOn State.pump
  split
  · exact refl p s
  · extract_lets msg fs
    split
    · exact updConn
    · exact updConn.trans (pumpGo _)

theorem sendTo {e vc : Nat} {bytes : List Byte} : SendFrame p s (s.sendTo p e vc bytes) := by
  unfold State.sendTo
  split
  · exact refl p s
  · split
    · exact updCluster (by exact fun _ => rfl)
    · split
      · exact sendOn
      · exact refl p s

theorem sendNet {e vc kind status id a b c : Nat} {payload : List Byte} : SendFrame p s (s.sendNet p e vc kind status id a b c payload) := by
  unfold State.sendNet
  split
  · exact sendTo
  · exact refl p s

end SendFrame

/-! ### SEND, RECV and their messages (R337, R364, R365) -/

theorem paramErr_of_class {s : State} {p : PartId} {j : Job} {l i : Nat} {d : List Word} (h2 : hClass d ≠ 2) (h3 : hClass d ≠ 3)
    (hparam : paramBytes d = 0) : s.paramErr p j l i d = none := by
  unfold State.paramErr State.checkNames
  rw [paramAddrs_eq_nil hparam]
  split
  next h => exact absurd h h2
  next h => exact absurd h h3
  · rfl

/-- RECV posts its place when it issues. -/
theorem tryIssue_recv (c : CoreId) (x : CtxId) (p : PartId) (j : Job) (l : Nat) (r : ListRec) (i : Nat) (d : List Word) (s : State)
    (hmv : j.relocation r i = none) (hclass : hClass d = 5) (hop : nOp d = 4) (hparam : paramBytes d = 0)
    (hroom : s.queued c .net < queueDepth .net) (hready : j.recvReady d = true) (hheader : headerError j.lcores d = none)
    (hpeer : j.peerErr l d = none) (hcheck : s.descCheck p j l r.list i d [] = none) (hlast : i + 1 ≠ r.count) :
    ∃ e : Issued, e.words = d ∧ e.queue = .net ∧ e.phase = .queued ∧
      s.tryIssue c x p j l r i d = (s.issueInto c x e).sendNet p (nPeer d) (nVc d) 6 0 (nPa d) (nLen d) 0 (nA1 d) [] := by
  refine ⟨{ mkIssued s.cores[c].nextSeq x p l r.list i d .net [] with stamp := (j.commitUnder, j.step.attempt), prog := [s.mc.time] },
    rfl, rfl, rfl, ?_⟩
  have hsame : relocate id d = d := relocate_of_class (by omega) (by omega)
  have hqueue : s.queueOf c d = .net := by
    unfold State.queueOf
    rw [hclass]
    exact if_neg (by omega)
  have hreads : paramReads l d = [] := by rw [paramReads, paramAddrs_eq_nil hparam]; rfl
  have hfull : ¬ queueDepth .net ≤ s.queued c .net := Nat.not_le.2 hroom
  have h2 : ¬ hClass d = 2 := by omega
  have h3 : ¬ hClass d = 3 := by omega
  unfold State.tryIssue
  simp only [hmv, hsame, hqueue, hfull, decide_false, Bool.and_false, Bool.false_eq_true, if_false, eq_true hclass, hready, Bool.or_true,
    Bool.not_true, hheader, if_true, hpeer, paramErr_of_class h2 h3 hparam, hreads, access_nil, List.map_nil, meetReads_nil,
    paramAddrs_eq_nil hparam, h2, h3, hcheck, Option.orElse_none, hop, and_self]
  rw [spillIssues_of_class (by exact ne_of_eq_of_ne hclass (by decide)), endFault_of_ends fun h => absurd h hlast]

section
variable {p : PartId} {e : EntryId} {vc : VcId} {m : List Byte} {j : Job} {c : CoreId} {x : Issued} {u v s : State}

theorem exec_pipe (hpop : s.popMsg p e.val vc.val 5 = some (m, u)) (hj : u.job p = some j)
    (hfree : u.recvQueued p e.val vc.val (rdLE m 8 4) = false)
    (hx : (u.netRunning p fun d => decide (nOp d = 0x04 ∧ nPeer d = e.val ∧ nVc d = vc.val ∧ nPa d = rdLE m 8 4)) = some (c, x))
    (hst : rdLE m 2 1 ≠ 4) (hlen : rdLE m 12 4 = nLen x.words) (hb : rdLE m 16 4 = 0) (hdst : rdLE m 0x14 6 = nA1 x.words)
    (haccess : u.access j [] (span (nA1 x.words) (nLen x.words)) = (v, none)) :
    let w := (v.lputBytes j (nA1 x.words) (slice m 32 (nLen x.words))).sendNet p e.val vc.val 7 0 (nPa x.words) 0 0 0 []
    exec (.pipe p e vc) s = .next
      (((w.count64 (coreNetBubbleLo c.val) (coreNetBubbleHi c.val) ((w.mc.time - x.prog.headD w.mc.time) / 1000)).updCluster p fun k =>
        { k with recvDone := k.recvDone ++ [(pipeKey e.val vc.val, nPa x.words)] }).finish c x) := by
  dsimp only
  show execPipe p e vc s = _
  unfold execPipe
  obtain ⟨access, hopaque⟩ : ∃ f, State.access = f := ⟨_, rfl⟩
  rw [hopaque] at haccess ⊢
  rw [hpop]
  dsimp only
  rw [hfree, if_neg Bool.false_ne_true, hj, hx]
  dsimp only
  rw [if_neg hst, if_neg (not_not_intro hlen), if_neg (not_not_intro hb), if_neg (not_not_intro hdst)]
  dsimp only
  rw [haccess]

theorem exec_pipeDone (hpop : s.popMsg p e.val vc.val 7 = some (m, u))
    (hx : (u.netRunning p fun d => decide (nOp d = 0x03 ∧ nPeer d = e.val ∧ nVc d = vc.val ∧ nPa d = rdLE m 8 4)) = some (c, x)) :
    exec (.pipeDone p e vc) s = if rdLE m 2 1 = 4 then .next (u.failDescriptor c x (mismatch x 7 (nPa x.words) 0))
      else .next (u.finish c x) := by
  show execPipeDone p e vc s = _
  unfold execPipeDone
  rw [hpop]
  dsimp only
  rw [hx]

theorem netBubble_not_mem (c : CoreId) : isMemReg (coreNetBubbleLo c.val) = false ∧ isMemReg (coreNetBubbleHi c.val) = false :=
  ⟨isMemReg_core c.val c.isLt (by decide) (by decide) (by decide) (by decide),
    isMemReg_core c.val c.isLt (by decide) (by decide) (by decide) (by decide)⟩

theorem netBubble_ne {c : Nat} : coreNetBubbleLo c ≠ coreNetBubbleHi c := by
  unfold coreNetBubbleLo coreNetBubbleHi
  omega

/-- A message that agrees with the RECV it is for. -/
theorem pipe_arrives (hpop : s.popMsg p e.val vc.val 5 = some (m, u)) (hj : u.job p = some j)
    (hfree : u.recvQueued p e.val vc.val (rdLE m 8 4) = false)
    (hx : (u.netRunning p fun d => decide (nOp d = 0x04 ∧ nPeer d = e.val ∧ nVc d = vc.val ∧ nPa d = rdLE m 8 4)) = some (c, x))
    (hst : rdLE m 2 1 ≠ 4) (hlen : rdLE m 12 4 = nLen x.words) (hb : rdLE m 16 4 = 0) (hdst : rdLE m 0x14 6 = nA1 x.words)
    (haccess : u.access j [] (span (nA1 x.words) (nLen x.words)) = (v, none)) :
    ∃ t : State, exec (.pipe p e vc) s = .next t ∧
      t.mem = (v.lputBytes j (nA1 x.words) (slice m 32 (nLen x.words))).mem ∧
      (∀ y ∈ t.cores[c].issued, y.seq = x.seq → y.phase = .finished) ∧
      (t.reg (coreNetBubbleHi c.val)).toNat * 2 ^ 32 + (t.reg (coreNetBubbleLo c.val)).toNat =
        satAdd 64 ((u.reg (coreNetBubbleHi c.val)).toNat * 2 ^ 32 + (u.reg (coreNetBubbleLo c.val)).toNat)
          ((u.mc.time - x.prog.headD u.mc.time) / 1000) ∧
      ∀ k, u.cluster p = some k → ∃ k', t.cluster p = some k' ∧ k'.recvDone = k.recvDone ++ [(pipeKey e.val vc.val, rdLE m 8 4)] := by
  have hm : nPa x.words = rdLE m 8 4 := by
    have hfound := List.find?_some hx
    simp only [Bool.and_eq_true, decide_eq_true_eq] at hfound
    exact hfound.2.2.2.2
  have htouch : TouchFrame u v := by
    rw [access_fst haccess]
    exact .touchAll ..
  obtain ⟨hlo, hhi⟩ := netBubble_not_mem c
  have hsend := SendFrame.sendNet (p := p) (s := v.lputBytes j (nA1 x.words) (slice m 32 (nLen x.words))) (e := e.val) (vc := vc.val)
    (kind := 7) (status := 0) (id := nPa x.words) (a := 0) (b := 0) (c := 0) (payload := [])
  refine ⟨_, exec_pipe hpop hj hfree hx hst hlen hb hdst haccess, ?_, fun y hy => finish_issued _ _ _ y hy, ?_, fun k hk => ?_⟩
  all_goals generalize State.sendNet _ p e.val vc.val 7 0 (nPa x.words) 0 0 0 [] = w at hsend ⊢
  · rw [State.finish, updIssued_mem, State.updCluster, updJob_mem, count64_mem]
    exact hsend.mem
  · have hreg (o : Nat) (ho : o < portBase 0) (hmem : isMemReg o = false) : w.reg o = u.reg o :=
      ((hsend.reg o ho).trans (lputBytes_reg ..)).trans (htouch.reg o hmem)
    have hbelow : coreNetBubbleLo c.val < portBase 0 ∧ coreNetBubbleHi c.val < portBase 0 := by
      have hc := c.isLt
      unfold coreNetBubbleLo coreNetBubbleHi coreBase portBase
      omega
    have hmc : w.mc = u.mc := by rw [hsend.mc, lputBytes_mc, htouch.rest]
    rw [State.finish, updIssued_reg, updIssued_reg, State.updCluster, updJob_reg, updJob_reg, count64_value _ _ netBubble_ne,
      hreg _ hbelow.1 hlo, hreg _ hbelow.2 hhi, hmc]
  · have hcluster : (v.lputBytes j (nA1 x.words) (slice m 32 (nLen x.words))).cluster p = some k := by
      rw [State.cluster, lputBytes_job, State.job, htouch.rest]
      exact hk
    have hreceived := hsend.received
    rw [hcluster] at hreceived
    obtain ⟨k₁, hk₁, hdone⟩ := Option.map_eq_some_iff.1 hreceived
    have hcount (lo hi n : Nat) : (w.count64 lo hi n).cluster p = some k₁ := by
      rw [State.cluster, count64_job]
      exact hk₁
    refine ⟨{ k₁ with recvDone := k₁.recvDone ++ [(pipeKey e.val vc.val, nPa x.words)] }, ?_, congrArg₂ (fun l n => l ++ [(pipeKey e.val vc.val, n)]) hdone hm⟩
    rw [State.finish, State.cluster, updIssued_job, ← State.cluster, cluster_updCluster_same, hcount, Option.map_some]

end

/-- Settles O34. -/
theorem pipelinesAct : Obligations.PipelinesAct := by
  refine ⟨fun c slot env e j k s hstart hk => ?send, fun c slot e j s hstart => ?recv,
    fun c x p j l r i d s hmv hclass hop hparam hroom hready hheader hpeer hcheck hlast =>
      tryIssue_recv c x p j l r i d s hmv hclass hop hparam hroom hready hheader hpeer hcheck hlast,
    fun p e vc m u s hpop => ?post,
    fun p e vc m j c x u v s hpop hj hfree hx hst hlen hb hdst haccess => pipe_arrives hpop hj hfree hx hst hlen hb hdst haccess,
    fun p e vc m u s hpop hwaits => ?waits, fun p e vc m c x u s hpop hx hst => ?done, fun p e vc m c x u s hpop hx hst => ?mismatch⟩
  case send =>
    show execSend c slot env s = _
    unfold execSend
    rw [hstart]
    dsimp only
    rw [hk]
  case recv =>
    show execRecv c slot s = _
    unfold execRecv
    rw [hstart]
  case post =>
    show execPipePost p e vc s = _
    unfold execPipePost
    rw [hpop]
  case waits =>
    show execPipe p e vc s = _
    unfold execPipe
    obtain ⟨access, hopaque⟩ : ∃ f, State.access = f := ⟨_, rfl⟩
    rw [hopaque, hpop]
    dsimp only
    rw [if_pos hwaits]
  case done => rw [exec_pipeDone hpop hx, if_neg hst]
  case mismatch => rw [exec_pipeDone hpop hx, if_pos hst]

end Sys2Proof.Machine

/-! ## A batch that is taken from the event ring

R189: a read corrects the errors that it meets, and the threshold of 64 corrected errors raises an event. The record of that
event goes to the partition's event ring, and a descriptor may name bytes of the ring: MB_ADMIT then copies the record, not
what memory held before the read. -/

namespace Sys2Proof.Machine

/-- The place of the next record in the event ring of partition 0, in the state below. -/
def ringTail : Nat := 0x1FF0070000

/-- A device with core 0 and stack 0 in service, 63 corrected errors in a bank of core 0's working memory and one more
waiting at its first unit. -/
def onTheThreshold : State := { State.reset with
  weakUnits := [wmBase 0]
  cores := State.reset.cores.set 0 { State.reset.cores[0] with part := some 0, inService := true }
  mc := { State.reset.mc with
    hubRailOn := true
    stacksUp := 1
    ceLog := List.replicate 63 ⟨0, 0, 0, 0, 0⟩ } }

/-- A job of one logical core. -/
def loneJob : Job := { lcores := 1 }

/-- An MB_ADMIT over samples of one byte that lie at the tail of the event ring and behind it, with its batch of two bytes in
core 0's working memory. -/
def admitFromRing : Issued := { (default : Issued) with
  words := [0, 0, 0, 0, 0, 0xF0070000#32, 0x2000001F#32, 0x1000#32, 0, 1, 2, 0, 0x2000#32, 0x2000#32, 0, 0] }

/-- The admission of the sample at the tail and of the one at the weak unit. -/
def ringAndWeak : Admission := { takes := [(0, 1), (wmBase 0 - ringTail, 1)], total := 2 }

/-- The bytes that this admission reads. -/
def ringSource : List Nat := [ringTail, wmBase 0]

theorem ringSource_eq : ringAndWeak.takes.flatMap (fun t => span (nA0 admitFromRing.words + (0 + 63) / 64 * 64 +
    t.1 * nLen admitFromRing.words) (t.2 * nLen admitFromRing.words)) = ringSource := by decide

theorem ringSource_named : onTheThreshold.moveNames 0 loneJob admitFromRing.lcore admitFromRing.index
    (admitNames admitFromRing.words 0 ringSource 16) = none := by decide

theorem ringSource_access : onTheThreshold.access loneJob (namedBytes (admitNames admitFromRing.words 0 ringSource 16).1)
    (namedBytes (admitNames admitFromRing.words 0 ringSource 16).2) = (onTheThreshold, none) := by decide

theorem ringTake_first : (onTheThreshold.takeBatch 0 admitFromRing loneJob 0 0 ringAndWeak).rd 0x200000001000 = 0x10#8 := by
  decide +kernel

theorem ringPut_first : ((onTheThreshold.lputBytes loneJob (nA1 admitFromRing.words)
    (ringSource.map (onTheThreshold.lrd loneJob) ++ List.replicate ((nPa admitFromRing.words - 2) * nLen admitFromRing.words) 0)).lputBytes
    loneJob (nExt admitFromRing.words) (leBytes 4 2 ++ leBytes 4 2 ++ leBytes 4 0 ++ leBytes 4 0)).rd 0x200000001000 = 0 := by
  decide

/-- Refutes O35: an MB_ADMIT whose second sample lies at a unit with the 64th corrected error of its bank copies the record of
the event that the read raises, where its first sample names the place of that record in the event ring. -/
theorem not_admissionAndStorageAct : ¬ Obligations.AdmissionAndStorageAct := by
  intro h
  obtain ⟨_, hbatch, _⟩ := h
  obtain ⟨t, ht, hmem, _⟩ := hbatch 0 admitFromRing loneJob 0 0 ringAndWeak ringSource _ onTheThreshold onTheThreshold
    ringSource_eq.symm rfl ringSource_named ringSource_access
  have hfirst := hmem 0x200000001000 (by decide)
  rw [← ht, ringTake_first] at hfirst
  exact absurd (hfirst.trans ringPut_first) (by decide)
end Sys2Proof.Machine


namespace Sys2Proof.Machine

/-! ### The link of the host -/

theorem satAdd_mod (n w k : Nat) : satAdd n w k % 2 ^ n = satAdd n w k :=
  Nat.mod_eq_of_lt (lt_of_le_of_lt (Nat.min_le_right _ _) (Nat.sub_lt (Nat.two_pow_pos n) Nat.one_pos))

/-- A count in a field is read there. -/
theorem regFld_countFld_same (s : State) (o : Nat) {hi lo : Nat} (k : Nat) (h : hi < 32) :
    (s.countFld o hi lo k).regFld o hi lo = satAdd (hi + 1 - lo) (s.regFld o hi lo) k := by
  rw [State.countFld, regFld_setFld_same _ _ _ h, satAdd_mod]

/-- What the fields of USB_LINK read after an attachment at rate n. -/
theorem attachWord_fields (b : Bool) {n : Nat} (h : n < 8) :
    fld (pack [(1, 12), (b2n b, 11), (n, 0)]) 2 0 = n ∧ fld (pack [(1, 12), (b2n b, 11), (n, 0)]) 10 8 = 0 := by
  have hb : b2n b ≤ 1 := by cases b <;> decide
  simp only [fld, nbits, pack, List.foldl_cons, List.foldl_nil, BitVec.toNat_ofNat]
  omega

/-- The state of a link at rate n. -/
def State.linkAt (s : State) (n : Nat) : State :=
  let u := { (s.setReg usbLink (pack [(1, 12), (b2n s.usb.orient, 11), (n, 0)])) with
    usb := { s.usb with suspended := false, stalled := false, data := [] } }
  { u with parts := s.parts.map fun q => { q with iface := { q.iface with
      staleD := false, staleW := false, lastNotice := ({ q.iface with staleD := false, staleW := false } : Iface).notice } } }

section
variable {s : State} {n : Nat}

theorem attach_eq (hvbus : s.usb.vbus = true) (hup : s.mc.usbDown = false)
    (hn : n = if s.mc.recovery = true then 1 else Nat.min s.usb.offered s.mc.usbMax) :
    s.attach = if 4 ≤ n then s.linkAt n else ((s.linkAt n).countFld usbLinkcnt 31 16 1).raise .usb none 0x2001 [n] := by
  subst hn
  rw [State.attach, hvbus, hup]
  rfl

theorem linkAt_reg_other {o : Nat} (h : o ≠ usbLink) : (s.linkAt n).reg o = s.reg o :=
  reg_setReg_other s _ h

theorem linkAt_fields (h : n < 8) : (s.linkAt n).regFld usbLink 2 0 = n ∧ (s.linkAt n).regFld usbLink 10 8 = 0 := by
  have hword : (s.linkAt n).reg usbLink = pack [(1, 12), (b2n s.usb.orient, 11), (n, 0)] := reg_setReg_same s _ _
  rw [State.regFld, State.regFld, hword]
  exact attachWord_fields _ h

theorem linkAt_job (p : PartId) : (s.linkAt n).job p = s.job p := by
  rw [State.job, State.job, State.linkAt]
  dsimp only
  rw [Fin.getElem_fin, Vector.getElem_map]
  rfl

theorem attach_rate (hn : n = if s.mc.recovery = true then 1 else Nat.min s.usb.offered s.mc.usbMax) (h : n < 8)
    (hvbus : s.usb.vbus = true) (hup : s.mc.usbDown = false) :
    s.attach.regFld usbLink 2 0 = n ∧ (4 ≤ n → s.attach.reg usbLinkcnt = s.reg usbLinkcnt) ∧
    (n < 4 → s.attach.regFld usbLinkcnt 31 16 = satAdd 16 (s.regFld usbLinkcnt 31 16) 1) := by
  rw [attach_eq hvbus hup hn]
  split
  next hfull => exact ⟨(linkAt_fields h).1, fun _ => linkAt_reg_other (by decide), fun hslow => by omega⟩
  next hslow =>
    refine ⟨?_, fun hfull => absurd hfull hslow, fun _ => ?_⟩
    · rw [State.regFld, raise_reg _ _ _ _ _ (by decide), reg_countFld_other _ _ _ _ (by decide), ← State.regFld, (linkAt_fields h).1]
    · rw [State.regFld, raise_reg _ _ _ _ _ (by decide), ← State.regFld, regFld_countFld_same _ _ _ (by decide), State.regFld,
        linkAt_reg_other (by decide), ← State.regFld]

/-- A full-rate attachment changes the link alone. -/
theorem attach_full (hvbus : s.usb.vbus = true) (hup : s.mc.usbDown = false) (hrun : s.mc.recovery = false)
    (hoffer : s.usb.offered ≤ 4) (hfull : 4 ≤ Nat.min s.usb.offered s.mc.usbMax) :
    s.attach.linked = (s.mc.on && s.mc.complete) ∧ (∀ o, o ≠ usbLink → s.attach.reg o = s.reg o) ∧ s.attach.mem = s.mem ∧
    s.attach.handles = s.handles ∧ s.attach.cores = s.cores ∧ s.attach.mc = s.mc ∧ ∀ p, s.attach.job p = s.job p := by
  have hrate : Nat.min s.usb.offered s.mc.usbMax < 8 := lt_of_le_of_lt (Nat.min_le_left _ _) (by omega)
  rw [attach_eq hvbus hup rfl, hrun, if_neg Bool.false_ne_true, if_pos hfull]
  refine ⟨?_, fun o ho => linkAt_reg_other ho, rfl, rfl, rfl, rfl, linkAt_job⟩
  rw [State.linked, (linkAt_fields hrate).2, show (s.linkAt (Nat.min s.usb.offered s.mc.usbMax)).mc = s.mc from rfl, hrun]
  show (s.mc.on && (s.mc.complete || false) && true && true) = _
  rw [Bool.or_false, Bool.and_true, Bool.and_true]

end

/-! ### Loss of the host -/

/-- A partition whose interface is reset. -/
def Part.resetIface (q : Part) (base : Nat) : Part := { q with iface := q.iface.reset base }

/-- Steps that each change one interface change every interface of the list. -/
theorem foldl_resetIface {l : List PartId} (hl : l.Nodup) (s : State) (q : PartId) :
    (l.foldl (fun t p => t.updIface p fun i => i.reset (t.hctx p)) s).parts[q] =
      if q ∈ l then s.parts[q].resetIface (s.hctx q) else s.parts[q] := by
  induction l generalizing s with
  | nil => rfl
  | cons p l ih =>
    obtain ⟨hp, hrest⟩ := List.nodup_cons.mp hl
    rw [List.foldl_cons, ih hrest]
    by_cases hq : q = p
    · subst hq
      rw [if_neg hp, if_pos List.mem_cons_self, State.updIface, updPart_same, Part.resetIface]
    · rw [State.updIface, updPart_other _ _ hq]
      simp only [List.mem_cons, hq, false_or]
      rfl

theorem resetIfaces_part (s : State) (p : PartId) :
    s.resetIfaces.parts[p] = s.parts[p].resetIface (s.hctx p) := by
  unfold State.resetIfaces
  dsimp only
  rw [foldl_resetIface (by decide), if_pos (by exact List.mem_finRange p)]

/-- Steps that each change one interface leave the rest of the machine alone. -/
theorem foldl_resetIface_rest (l : List PartId) (s : State) (t : State)
    (ht : t = l.foldl (fun t p => t.updIface p fun i => i.reset (t.hctx p)) s) :
    t.regs = s.regs ∧ t.mem = s.mem ∧ t.handles = s.handles ∧ t.cores = s.cores ∧ t.mc = s.mc ∧ t.diag = s.diag := by
  subst ht
  induction l generalizing s with
  | nil => exact ⟨rfl, rfl, rfl, rfl, rfl, rfl⟩
  | cons p l ih => exact ih (s.updIface p fun i => i.reset (s.hctx p))

theorem resetIfaces_rest (s : State) : s.resetIfaces.regs = s.regs ∧ s.resetIfaces.mem = s.mem ∧ s.resetIfaces.handles = s.handles ∧
    s.resetIfaces.cores = s.cores ∧ s.resetIfaces.mc = s.mc ∧ s.resetIfaces.diag = s.diag.reset 0 := by
  obtain ⟨hregs, hmem, hhandles, hcores, hmc, hdiag⟩ := foldl_resetIface_rest allParts s _ rfl
  unfold State.resetIfaces
  exact ⟨hregs, hmem, hhandles, hcores, hmc, congrArg (Iface.reset · 0) hdiag⟩

theorem resetPart_fields (q : Part) (b : Nat) : (q.resetIface b).iface.heldFrame = none ∧ (q.resetIface b).iface.held = [] ∧
    (q.resetIface b).iface.responses = [] ∧ (q.resetIface b).iface.base = b ∧ (q.resetIface b).iface.gen = 0 ∧
    (q.resetIface b).iface.landed = 0 ∧ (q.resetIface b).iface.fault = false ∧ (q.resetIface b).iface.hdr = q.iface.hdr ∧
    (q.resetIface b).job = q.job := ⟨rfl, rfl, rfl, rfl, rfl, rfl, rfl, rfl, rfl⟩

theorem hostLost_acts (n : Nat) (s : State) : ∃ u, s.hostLost n = (u : State).raise .usb none 0x2009 [Config.fieldWord 0x2009 n 0] ∧
    (∀ p : PartId, u.parts[p].iface.heldFrame = none ∧ u.parts[p].iface.held = [] ∧ u.parts[p].iface.responses = [] ∧
      u.parts[p].iface.base = s.hctx p ∧ u.parts[p].iface.gen = 0 ∧ u.parts[p].iface.landed = 0 ∧ u.parts[p].iface.fault = false ∧
      u.parts[p].iface.hdr = s.parts[p].iface.hdr ∧ u.parts[p].job = s.parts[p].job) ∧ u.diag = s.diag.reset 0 ∧
    u.regFld usbLinkcnt 15 0 = satAdd 16 (s.regFld usbLinkcnt 15 0) 1 ∧ (∀ o, o ≠ usbLinkcnt → u.reg o = s.reg o) ∧
    u.mem = s.mem ∧ u.handles = s.handles ∧ u.cores = s.cores ∧ u.mc = s.mc := by
  obtain ⟨hregs, hmem, hhandles, hcores, hmc, hdiag⟩ := resetIfaces_rest s
  have hpart := resetIfaces_part s
  rw [State.hostLost]
  generalize s.resetIfaces = t at hregs hmem hhandles hcores hmc hdiag hpart ⊢
  have hreg : ∀ o, t.reg o = s.reg o := fun o => by rw [State.reg, hregs, State.reg]
  refine ⟨t.countFld usbLinkcnt 15 0 1, rfl, fun p => ?_, (countFld_diag ..).trans hdiag, ?_,
    fun o ho => ?_, (countFld_mem ..).trans hmem, (countFld_handles ..).trans hhandles, (countFld_cores ..).trans hcores,
    (countFld_mc ..).trans hmc⟩
  · rw [countFld_parts, hpart]
    exact resetPart_fields _ _
  · rw [regFld_countFld_same _ _ _ (by decide), State.regFld, hreg, ← State.regFld]
  · rw [reg_countFld_other _ _ _ _ ho, hreg]

theorem exec_usbDisconnect {s u : State}
    (hu : u = ({ s with usb := { s.usb with vbus := false, suspended := false, stalled := false, data := [] } } : State).setReg usbLink
      (pack [(4, 8)])) : exec .usbDisconnect s = .next (if s.mc.on && s.usb.vbus then u.hostLost 0 else u) := by
  subst hu
  show execUsbDisconnect s = _
  rw [execUsbDisconnect]
  exact (apply_ite Host.Outcome.next ..).symm

theorem linkReset_up {n : Nat} {s : State} (h : s.linked = true ∨ s.usb.suspended = true) : s.linkReset n =
    (({ s with usb := { s.usb with suspended := false, stalled := false, data := [] } } : State).setFld usbLink 10 8 0).hostLost n :=
  if_pos (Bool.or_eq_true_iff.mpr h)

/-- What a change of LSTATE with the link leaves alone. -/
theorem setLinkState_acts {s : State} {i : Instr} {b : Bool} {v : Nat} (hv : v < 8)
    (hexec : exec i s = .next (({ s with usb := { s.usb with suspended := b } } : State).setFld usbLink 10 8 v)) :
    ∃ t : State, exec i s = .next t ∧ t.usb = { s.usb with suspended := b } ∧ t.regFld usbLink 10 8 = v ∧
      (∀ o, o ≠ usbLink → t.reg o = s.reg o) ∧ t.mem = s.mem ∧ t.cores = s.cores ∧ t.parts = s.parts ∧ t.handles = s.handles ∧
      t.mc = s.mc ∧ t.ports = s.ports := by
  refine ⟨_, hexec, rfl, ?_, fun o ho => reg_setFld_other _ _ _ _ ho, rfl, rfl, rfl, rfl, rfl, rfl⟩
  rw [regFld_setFld_same _ _ _ (by decide)]
  omega

/-- Settles O51: attachments by the rate that the link takes, losses by the reset of the interfaces. -/
theorem hostLinkActs : Obligations.HostLinkActs := by
  refine ⟨fun speed o s hon hrun => ?_, fun speed o s hoff => ?_, fun n s hn h hvbus hup => attach_rate hn h hvbus hup, fun s hdown => ?_,
    fun s hvbus hup hrun hoffer hfull => attach_full hvbus hup hrun hoffer hfull, fun u s hu => ⟨fun hon hvbus => ?_, fun hoff => ?_⟩, ?_,
    hostLost_acts, fun s hlinked => ?_, fun s hsuspended => ?_⟩
  · exact if_pos (by rw [hon, Bool.true_and, Bool.or_eq_true_iff]; exact hrun)
  · exact if_neg (by rw [Bool.and_eq_true_iff, Bool.or_eq_true_iff]; exact hoff)
  · exact if_pos (by rw [hdown, Bool.or_true])
  · rw [exec_usbDisconnect hu, hon, hvbus]
    rfl
  · rw [exec_usbDisconnect hu, if_neg (by rw [Bool.and_eq_true_iff]; rintro ⟨hon, hvbus⟩; rcases hoff with h | h <;> simp_all)]
  · intro x hx s hup
    simp only [List.mem_cons, List.not_mem_nil, or_false] at hx
    obtain rfl | rfl := hx
    · exact congrArg Host.Outcome.next (linkReset_up hup)
    · exact congrArg Host.Outcome.next (linkReset_up hup)
  · exact setLinkState_acts (by decide) (if_pos hlinked)
  · exact setLinkState_acts (by decide) (if_pos hsuspended)

end Sys2Proof.Machine


namespace Sys2Proof.Machine

/-! ### What the reading of a ring entry keeps -/

/-- `t` keeps the jobs, the heads of the command rings and the counts of the commands of `s`. -/
structure EntryFrame (s t : State) : Prop where
  job : ∀ q : PartId, t.job q = s.job q
  head : ∀ q : PartId, t.parts[q].iface.hdr.cmdHead = s.parts[q].iface.hdr.cmdHead
  cmds : ∀ q : PartId, t.reg (usbJobCmds q.val) = s.reg (usbJobCmds q.val)

namespace EntryFrame

variable {s t u : State}

theorem refl (s : State) : EntryFrame s s := ⟨fun _ => rfl, fun _ => rfl, fun _ => rfl⟩

theorem trans (h : EntryFrame s t) (k : EntryFrame t u) : EntryFrame s u where
  job q := (k.job q).trans (h.job q)
  head q := (k.head q).trans (h.head q)
  cmds q := (k.cmds q).trans (h.cmds q)

/-- A change outside partitions and registers. -/
theorem of_parts (hparts : t.parts = s.parts) (hregs : t.regs = s.regs) : EntryFrame s t where
  job q := by rw [State.job, hparts, State.job]
  head q := by rw [hparts]
  cmds q := by rw [State.reg, hregs, State.reg]

theorem foldl {α : Type} {f : State → α → State} (hf : ∀ t a, EntryFrame t (f t a)) (l : List α) (s : State) :
    EntryFrame s (l.foldl f s) := by
  induction l generalizing s with
  | nil => exact refl s
  | cons a l ih => exact (hf s a).trans (ih _)

theorem countFld {o hi lo k : Nat} (ho : ∀ q : PartId, usbJobCmds q.val ≠ o) : EntryFrame s (s.countFld o hi lo k) where
  job q := countFld_job ..
  head q := by rw [countFld_parts]
  cmds q := reg_countFld_other _ _ _ _ (ho q)

theorem setFld {o hi lo v : Nat} (ho : ∀ q : PartId, usbJobCmds q.val ≠ o) : EntryFrame s (s.setFld o hi lo v) where
  job _ := rfl
  head _ := rfl
  cmds q := reg_setFld_other _ _ _ _ (ho q)

theorem count {o k : Nat} (ho : ∀ q : PartId, usbJobCmds q.val ≠ o) : EntryFrame s (s.count o k) := countFld ho

theorem putBytes {a : Nat} {bs : List Byte} : EntryFrame s (s.putBytes a bs) := of_parts (putBytes_parts ..) (putBytes_regs ..)

theorem updIface {p : PartId} {f : Iface → Iface} (hf : ∀ i, (f i).hdr.cmdHead = i.hdr.cmdHead) : EntryFrame s (s.updIface p f) where
  job q := job_updIface ..
  head q := by
    by_cases hq : q = p
    · subst hq
      rw [updIface_same, hf]
    · rw [State.updIface, updPart_other _ _ hq]
  cmds q := updIface_reg ..

theorem updHdr {p : PartId} {f : RingHdr → RingHdr} (hf : ∀ h, (f h).cmdHead = h.cmdHead) : EntryFrame s (s.updHdr p f) where
  job q := updHdr_job ..
  head q := by
    rw [updHdr_parts]
    exact (updIface fun i => hf i.hdr).head q
  cmds q := by rw [State.reg, updHdr_regs, State.reg]

theorem dropEvt {p : PartId} : EntryFrame s (s.dropEvt p) := by
  have hlost : EntryFrame s (s.countFld (usbJobLost p.val) 31 16 1) := countFld (by revert p; decide)
  unfold State.dropEvt
  dsimp only
  split
  · exact hlost.trans (updHdr (by exact fun _ => rfl))
  · exact hlost

theorem eventRing {p : PartId} {rec : List Word} : EntryFrame s (s.eventRing p rec) := by
  unfold State.eventRing
  split
  · exact dropEvt
  · dsimp only
    split
    · exact putBytes.trans (updHdr (by exact fun _ => rfl))
    · exact dropEvt

theorem mgmtQueue {rec : List Word} : EntryFrame s (s.mgmtQueue rec) := by
  unfold State.mgmtQueue
  split
  · exact of_parts rfl rfl
  · exact count (by decide)

theorem logQueue {rec : List Word} : EntryFrame s (s.logQueue rec) := by
  unfold State.logQueue
  split
  · exact of_parts rfl rfl
  · exact countFld (by decide)

theorem severityCount {code : Nat} : EntryFrame s (s.count (mcEvtCnt (severity code)) 1) :=
  count fun q => by
    have hfew := severity_le_four code
    unfold mcEvtCnt mcBase usbJobCmds usbBase
    omega

theorem deliver {part : Option PartId} {code : Nat} {rec : List Word} : EntryFrame s (s.deliver part code rec) := by
  have hqueued : EntryFrame s ((s.count (mcEvtCnt (severity code)) 1).mgmtQueue rec) := severityCount.trans mgmtQueue
  have hrung : EntryFrame s (match part with
      | some p => ((s.count (mcEvtCnt (severity code)) 1).mgmtQueue rec).eventRing p rec
      | none => (s.count (mcEvtCnt (severity code)) 1).mgmtQueue rec) := by
    cases part with
    | none => exact hqueued
    | some p => exact hqueued.trans eventRing
  unfold State.deliver
  dsimp only
  split
  · exact (hrung.trans logQueue).trans (setFld (by decide))
  · exact hrung

theorem raise {src : Src} {part : Option PartId} {code : Nat} {ds : List Nat} : EntryFrame s (s.raise src part code ds) := by
  have hcounted (m : MC) : EntryFrame s { s with mc := m } := of_parts rfl rfl
  unfold State.raise
  dsimp only
  split
  · exact (hcounted _).trans (count (by decide))
  · exact (hcounted _).trans deliver

theorem kneadFirst {c : CoreId} {u : Fin 3} {rs : List Nat} : EntryFrame s (s.kneadFirst c u rs) := of_parts rfl rfl

theorem correctedAt {level idx bank region : Nat} : EntryFrame s (s.correctedAt level idx bank region) := by
  have hcount : EntryFrame s (s.count (ceCounter level idx) 1) := count fun q => by
    have := q.isLt
    unfold ceCounter hubHbmCe hubBase coreMemCeCrumb coreMemCeSram coreBase usbJobCmds usbBase
    split_ifs <;> omega
  have hlogged (t : State) (m : MC) : EntryFrame t { t with mc := m } := of_parts rfl rfl
  unfold State.correctedAt
  dsimp only
  split
  · split
    · exact ((hcount.trans (hlogged _ _)).trans raise).trans kneadFirst
    · exact (hcount.trans (hlogged _ _)).trans raise
  · exact hcount.trans (hlogged _ _)

theorem meetUnits {f : Nat → Bool} : EntryFrame s (s.meetUnits f) := by
  refine foldl (fun t a => ?_) _ _
  have hcorrected : EntryFrame t (t.corrected a) := correctedAt
  dsimp only
  split
  · exact hcorrected.trans (of_parts rfl rfl)
  · exact hcorrected

theorem meetRange {a n : Nat} : EntryFrame s (s.meetRange a n) := meetUnits

theorem meetEntry {p : PartId} : EntryFrame s (s.meetEntry p) := meetRange.trans meetRange

theorem writeCpl {p : PartId} {rec : List Byte} : EntryFrame s (s.writeCpl p rec) := by
  unfold State.writeCpl
  dsimp only
  split
  · exact ((meetRange.trans putBytes).trans (updHdr (by exact fun _ => rfl))).trans (updIface (by exact fun _ => rfl))
  · exact (meetRange.trans putBytes).trans (updHdr (by exact fun _ => rfl))

theorem usbJobCmds_ne_cplwait (p q : PartId) : usbJobCmds q.val ≠ usbJobCplwait p.val := by
  revert p q
  decide

theorem reservedRecord {p : PartId} {rec : List Byte} : EntryFrame s (s.reservedRecord p rec) := by
  unfold State.reservedRecord
  split
  · exact (countFld (by revert p; decide)).trans (updIface (by exact fun _ => rfl))
  · split
    · exact writeCpl.trans (updIface (by exact fun _ => rfl))
    · exact (count (usbJobCmds_ne_cplwait p)).trans (updIface (by exact fun _ => rfl))

theorem openHandle {f : Nat → Handle} : EntryFrame s (s.openHandle f) := of_parts rfl rfl

theorem startedRecord {p : PartId} {c : TakenCmd} {h : Nat} : EntryFrame s (s.startedRecord p c h) := reservedRecord

theorem setTaken {p : PartId} {c d : TakenCmd} : EntryFrame s (s.setTaken p c d) := updIface (by exact fun _ => rfl)

theorem beginImage {p : PartId} {b : List Byte} {c : TakenCmd} {kind : Nat} : EntryFrame s (s.beginImage p b c kind) := by
  unfold State.beginImage
  exact (setTaken.trans openHandle).trans startedRecord

end EntryFrame

/-! ### The next command of a ring -/

theorem exec_ringCommand {x : Nat × (PartId → MemEnv → Instr) × (State → PartId → List Byte → TakenCmd → State)} (hx : x ∈ ringCommands)
    (p : PartId) (env : MemEnv) (s : State) : exec (x.2.1 p env) s =
      .next ((if x.1 = 0x21 then s.takeEnv env else s).onCmd p x.1 fun b c s => x.2.2 s p b c) := by
  simp only [ringCommands, List.mem_cons, List.not_mem_nil, or_false] at hx
  obtain rfl | rfl | rfl | rfl | rfl | rfl := hx <;> rfl

section
variable {p : PartId} {op head : Nat} {b : List Byte} {s : State} {f : List Byte → TakenCmd → State → State}

theorem onCmd_taken {v : State} (hfront : (s.skipUnnamed p).frontCmd p = some (head, some b)) (hop : (cmdOf head b).op = op)
    (hwait : (s.skipUnnamed p).mustWait p b = false) (htake : (s.skipUnnamed p).take p (cmdOf head b) = some v) :
    s.onCmd p op f = (f b (cmdOf head b) v).skipUnnamed p := by
  rw [State.onCmd]
  dsimp only
  rw [hfront]
  dsimp only
  rw [hop, hwait, htake]
  simp only [ne_eq, not_true_eq_false, decide_false, Bool.or_self, Bool.false_eq_true, if_false]

theorem onCmd_left (hfront : (s.skipUnnamed p).frontCmd p = some (head, some b))
    (hleft : (cmdOf head b).op ≠ op ∨ (s.skipUnnamed p).mustWait p b = true ∨ (s.skipUnnamed p).take p (cmdOf head b) = none) :
    s.onCmd p op f = s.skipUnnamed p := by
  rw [State.onCmd]
  dsimp only
  rw [hfront]
  dsimp only
  split
  · rfl
  next hdue =>
    rw [Bool.or_eq_true_iff, decide_eq_true_iff] at hdue
    obtain ⟨hop, hwait⟩ := not_or.mp hdue
    obtain h | h | h := hleft
    · exact absurd h hop
    · exact absurd h hwait
    · rw [h]

end

/-- Where nothing has an error to correct, the reading of an entry changes nothing. -/
theorem meetEntry_strong {s : State} (p : PartId) (h : s.weakUnits = []) : s.meetEntry p = s := by
  have hnone (f : Nat → Bool) : s.meetUnits f = s := by rw [State.meetUnits, h]; rfl
  rw [State.meetEntry, State.meetRange, State.meetRange, hnone, hnone]

theorem take_eq {p : PartId} {k : TakenCmd} {s u : State} (h : s.take p k = some u) :
    u = (((s.meetEntry p).count (usbJobCmds p) 1).updHdr p fun h => { h with cmdHead := (h.cmdHead + 1) % 4096 }).updIface p fun i =>
      { i with taken := i.taken ++ [k], reserved := i.reserved + k.records } := by
  unfold State.take at h
  split at h
  · exact absurd h (by simp)
  · exact (Option.some.inj h).symm

theorem updHdr_mc (s : State) (p : PartId) (f : RingHdr → RingHdr) : (s.updHdr p f).mc = s.mc := by
  unfold State.updHdr
  dsimp only
  split
  · rw [putBytes_mc, updIface_mc]
  · rw [updIface_mc]

theorem updHdr_nvm (s : State) (p : PartId) (f : RingHdr → RingHdr) : (s.updHdr p f).nvm = s.nvm := by
  unfold State.updHdr
  dsimp only
  split
  · rw [putBytes_nvm, updIface_nvm]
  · rw [updIface_nvm]

theorem take_acts (p : PartId) (k : TakenCmd) (m u : State) (s : State) (htake : s.take p k = some u) (hm : m = s.meetEntry p) :
    u.parts[p].iface.hdr.cmdHead = (s.parts[p].iface.hdr.cmdHead + 1) % 4096 ∧
    u.parts[p].iface.taken = s.parts[p].iface.taken ++ [k] ∧
    u.parts[p].iface.reserved = s.parts[p].iface.reserved + k.records ∧
    u.reg (usbJobCmds p) = BitVec.ofNat 32 (satAdd 32 (s.reg (usbJobCmds p)).toNat 1) ∧
    (∀ o, o ≠ usbJobCmds p → u.reg o = m.reg o) ∧ (∀ a, a < s.hctx p ∨ s.hctx p + 64 ≤ a → u.rd a = m.rd a) ∧ u.cores = m.cores ∧
    u.handles = s.handles ∧ u.mc = m.mc ∧ u.nvm = m.nvm ∧ (∀ q, u.job q = s.job q) ∧ (s.weakUnits = [] → m = s) ∧
    ∀ a, s.inRings a = false → m.rd a = s.rd a := by
  have hframe : EntryFrame s m := hm ▸ .meetEntry
  have hquiet : QuietFrame 0 s m := by
    rw [hm]
    exact QuietFrame.meetUnits.trans .meetUnits
  have hstrong : s.weakUnits = [] → m = s := fun h => hm.trans (meetEntry_strong p h)
  have hu := take_eq htake
  rw [← hm] at hu
  clear hm htake
  have hiface : u.parts[p].iface = { m.parts[p].iface with
      hdr := { m.parts[p].iface.hdr with cmdHead := (m.parts[p].iface.hdr.cmdHead + 1) % 4096 }
      taken := m.parts[p].iface.taken ++ [k], reserved := m.parts[p].iface.reserved + k.records } := by
    rw [hu, updIface_same, updHdr_same, count_parts]
  have hreg (o : Nat) : u.reg o = (m.count (usbJobCmds p) 1).reg o := by
    rw [hu, updIface_reg, State.reg, updHdr_regs, State.reg]
  have hold := congrArg Part.iface (hquiet.engine.parts p)
  refine ⟨?_, ?_, ?_, ?_, fun o ho => (hreg o).trans (reg_countFld_other _ _ _ _ ho), fun a ha => ?_, ?_, ?_, ?_, ?_, fun q => ?_, hstrong,
    hquiet.rd⟩
  · rw [hiface, hframe.head]
  · rw [hiface, hold]
  · rw [hiface, hold]
  · rw [hreg, reg_count_same, hframe.cmds]
  · have hctx : (m.count (usbJobCmds p) 1).hctx p = s.hctx p := by
      rw [State.hctx, count_mc, ← State.hctx, hquiet.engine.hctx]
    rw [hu, updIface_rd, rd_updHdr _ _ _ (by rw [hctx]; exact ha), count_rd]
  · rw [hu, updIface_cores, updHdr_cores, count_cores]
  · rw [hu, updIface_handles, updHdr_handles, count_handles, hquiet.engine.handles]
  · rw [hu, updIface_mc, updHdr_mc, count_mc]
  · rw [hu, updIface_nvm, updHdr_nvm, count_nvm]
  · rw [hu, job_updIface, updHdr_job, count_job, hframe.job]

/-! ### What the commands do -/

section
variable {p : PartId} {b : List Byte} {k : TakenCmd} {s : State}

theorem jobLoadCmd_loads {j : Job} {u : State} (hform : entryOk b [(0x16, 2), (0x20, 32)] = true) (hhold : rdLE b 0x18 8 ≤ 1)
    (hlevel : k.level = 0) (hphys : s.parts[p].phys ≠ 0) (hfree : s.job p = none) (hroom : s.handlesFull (1 + p.val) = false)
    (hload : s.loadJob p (rdLE b 0x10 6) = .ok (u, j)) : s.jobLoadCmd p b k =
      (u.setTaken p k { k with handle := u.nextHandle }).beginJob p j (rdLE b 0x18 4 = 1) (some { k with handle := u.nextHandle }) none := by
  rw [State.jobLoadCmd]
  dsimp only
  rw [hform, hlevel, hfree, hroom, decide_eq_false (by omega), decide_eq_false (by omega), decide_eq_false hphys, hload]
  rfl

theorem jobLoadCmd_busy (hform : entryOk b [(0x16, 2), (0x20, 32)] = true) (hhold : rdLE b 0x18 8 ≤ 1)
    (hlevel : k.level = 0) (hphys : s.parts[p].phys ≠ 0) (hjob : (s.job p).isSome = true) :
    s.jobLoadCmd p b k = s.failCmd p k stPartBusy 0 := by
  rw [State.jobLoadCmd]
  dsimp only
  rw [hform, hlevel, hjob, decide_eq_false (by omega), decide_eq_false (by omega), decide_eq_false hphys]
  rfl

theorem storeWriteCmd_posts {u : State} (hcheck : s.storeCheck p b k 2 false = none)
    (hu : u = s.touchAll ((spanOf (rdLE b 0x10 6) (rdLE b 0x24 4)).map ((s.windowJob p).phys false)))
    (hread : u.lbad (s.windowJob p) (spanOf (rdLE b 0x10 6) (rdLE b 0x24 4)) = none) (hlevel : k.level ≠ 0) : s.storeWriteCmd p b k =
    ((u.meetReads ((spanOf (rdLE b 0x10 6) (rdLE b 0x24 4)).map ((s.windowJob p).phys false))).setTaken p k (storeRec b k)).postWrite
      (entryQp b).1 (entryQp b).2 (.cmd p.val k.index) (rdLE b 0x18 8)
      (rdLE b 0x20 4) ((spanOf (rdLE b 0x10 6) (rdLE b 0x24 4)).map (u.lrd (s.windowJob p))) := by
  subst hu
  rw [State.storeWriteCmd, hcheck]
  dsimp only
  rw [hread]
  exact if_neg hlevel

theorem checkpointCmd_alone (hcheck : s.imageCheck p b k 1 2 (fun _ _ => none) = none) (halone : s.cluster p = none) :
    s.checkpointCmd p b k = (s.beginImage p b k 2).updJob p fun j => { j with cmt := { j.cmt with ckptPend := true } } := by
  have hstill : ((s.beginImage p b k 2).updJob p fun j => { j with cmt := { j.cmt with ckptPend := true } }).cluster p = none := by
    rw [State.cluster, job_updJob_same, EntryFrame.beginImage.job, ← halone, State.cluster]
    cases s.job p <;> rfl
  rw [State.checkpointCmd, hcheck]
  dsimp only
  rw [hstill]

end

/-- Settles O50: a ring's next command by whether it is taken, then each command by its branch. -/
theorem ringCommandsAct : Obligations.RingCommandsAct := by
  refine ⟨fun x hx p env head b u v s hu hfront hop hwait htake => ?_, fun x hx p env head b u s hu hfront hleft => ?_, take_acts,
    fun p b k s hform hlevel => ?_, fun p b k s hform => ?_, ?_, ?_, fun p b k s hcheck => ?_, ?_, ?_, fun p b k s hcheck => ?_,
    fun p r l s hwaiting hup hroom => ?_, fun p r l s hwaiting hdown => ?_⟩
  · subst hu
    rw [exec_ringCommand hx, onCmd_taken hfront hop hwait htake]
  · subst hu
    rw [exec_ringCommand hx, onCmd_left hfront hleft]
  · rw [State.nopCmd, hform, hlevel]
    rfl
  · rw [State.nopCmd, hform]
    rfl
  · intro p b k j u s hform hhold hlevel hphys hfree hroom hload
    exact jobLoadCmd_loads hform hhold hlevel hphys hfree hroom hload
  · intro p b k s hform hhold hlevel hphys hjob
    exact jobLoadCmd_busy hform hhold hlevel hphys hjob
  · rw [State.storeReadCmd, hcheck]
  · intro p b k u s hcheck hu hread hlevel
    exact storeWriteCmd_posts hcheck hu hread hlevel
  · intro p b k s hcheck halone
    exact checkpointCmd_alone hcheck halone
  · rw [State.modelLoadCmd, hcheck]
  · show execCommandFinalRecord p s = _
    rw [execCommandFinalRecord, hwaiting]
    dsimp only
    rw [hup, if_neg (by decide), if_pos hroom]
  · show execCommandFinalRecord p s = _
    rw [execCommandFinalRecord, hwaiting]
    dsimp only
    rw [hdown, if_pos (by decide)]

end Sys2Proof.Machine


namespace Sys2Proof.Machine

/-! ### Operations that begin under a handle -/

section
variable {r : Setup} {kind st : Nat} {x : Handle} {s t : State} {check : State → Except (Nat × State) (State × Handle)}
  {go : Nat → State → State}

theorem opStart_ok (harrives : Arrives s 0x30 (formOpStart kind) r) (hkind : r.wValue = kind) (hroom : s.handlesFull 0 = false)
    (hcheck : check s = .ok (t, x)) : s.opStart r kind check go =
      (go t.nextHandle (t.openHandle fun h => { x with num := h, kind := kind, owner := 0 })).startOk t.nextHandle := by
  rw [State.opStart, request_of_arrives harrives, if_neg (not_not_intro hkind), hroom, if_neg Bool.false_ne_true, hcheck]

theorem opStart_refused (harrives : Arrives s 0x30 (formOpStart kind) r) (hkind : r.wValue = kind) (hroom : s.handlesFull 0 = false)
    (hcheck : check s = .error (st, t)) : s.opStart r kind check go = t.startNo st := by
  rw [State.opStart, request_of_arrives harrives, if_neg (not_not_intro hkind), hroom, if_neg Bool.false_ne_true, hcheck]

theorem opStart_full (harrives : Arrives s 0x30 (formOpStart kind) r) (hkind : r.wValue = kind) (hfull : s.handlesFull 0 = true) :
    s.opStart r kind check go = s.startNo stHandlesFull := by
  rw [State.opStart, request_of_arrives harrives, if_neg (not_not_intro hkind), hfull, if_pos rfl]

end

/-- A new handle takes its changes at once. -/
theorem updHandle_openHandle {s : State} {f : Nat → Handle} {g : Handle → Handle} (hnew : s.handleOf s.nextHandle = none)
    (hnum : ∀ h, (f h).num = h) : (s.openHandle f).updHandle s.nextHandle g = s.openHandle fun h => g (f h) := by
  have hold : s.handles.map (fun x => if x.num = s.nextHandle then g x else x) = s.handles :=
    List.map_congr_left (fun x hx => if_neg fun hx' => absurd (List.find?_eq_none.mp hnew x hx) (by simp [hx'])) |>.trans (List.map_id _)
  rw [State.openHandle, State.updHandle, State.openHandle]
  dsimp only
  rw [List.map_append, hold, List.map_singleton, hnum, if_pos rfl]

/-! ### Presence -/

/-- The state that has used up its armed presence. -/
def State.presenceUsed (s : State) : State := { s with mc := { s.mc with armedUntil := none } }

section
variable {s : State} {kind target : Nat}

theorem takePresence_armed (harmed : s.mc.armedUntil.isSome = true) (hseal : s.mc.sealIntact = true) :
    s.takePresence kind target = .ok s.presenceUsed := by
  rw [State.takePresence, harmed, hseal]
  rfl

theorem takePresence_denied (h : s.mc.armedUntil = none ∨ s.mc.sealIntact = false) :
    s.takePresence kind target = .error (stPresence, s.raise .sec none 0x8008 [kind, target]) := by
  rw [State.takePresence, if_neg]
  rw [Bool.and_eq_true_iff]
  rintro ⟨harmed, hseal⟩
  rcases h with h | h
  · rw [h] at harmed
    exact absurd harmed (by decide)
  · rw [h] at hseal
    exact absurd hseal (by decide)

end

/-! ### The records of an NVM_WRITE -/

/-- The places of the records of a staged request (R386). -/
def recordPlaces (l : List Staged) : List Nat := (l.foldl (fun (a : List Nat × Nat) x => (a.1 ++ [a.2], a.2 + x.size)) ([], 0)).1

theorem foldl_places (l : List Staged) (ns : List Nat) (k : Nat) : ∃ rest, rest.length = l.length ∧
    (l.foldl (fun (a : List Nat × Nat) x => (a.1 ++ [a.2], a.2 + x.size)) (ns, k)).1 = ns ++ rest := by
  induction l generalizing ns k with
  | nil => exact ⟨[], rfl, (List.append_nil ns).symm⟩
  | cons x l ih =>
    obtain ⟨rest, hlen, heq⟩ := ih (ns ++ [k]) (k + x.size)
    exact ⟨k :: rest, by rw [List.length_cons, hlen, List.length_cons], by rw [List.foldl_cons, heq, List.append_assoc]; rfl⟩

theorem length_recordPlaces (l : List Staged) : (recordPlaces l).length = l.length := by
  obtain ⟨rest, hlen, heq⟩ := foldl_places l [] 0
  rw [recordPlaces, heq, List.nil_append, hlen]

theorem head_recordPlaces {l : List Staged} (h : l ≠ []) : (recordPlaces l).head? = some 0 := by
  cases l with
  | nil => exact absurd rfl h
  | cons x l =>
    obtain ⟨rest, _, heq⟩ := foldl_places l ([] ++ [0]) (0 + x.size)
    rw [recordPlaces, List.foldl_cons, heq]
    rfl

theorem stagedRequest_congr {s t : State} (h : t.staging = s.staging) : t.stagedRequest = s.stagedRequest := by
  have hbytes : t.stagedBytes = s.stagedBytes := by
    funext o n
    rw [State.stagedBytes, h, State.stagedBytes]
  unfold State.stagedRequest
  rw [hbytes]

theorem stagedRequest_openHandle (s : State) (f : Nat → Handle) : (s.openHandle f).stagedRequest = s.stagedRequest :=
  stagedRequest_congr rfl

/-- NVM_WRITE's check of its staged request. -/
def State.stagedCheck (s : State) : Except (Nat × State) (State × Handle) :=
  match s.stagedRequest with
  | none => .error (stField, s)
  | some l =>
    if l.any s.recordBad then .error (stField, s)
    else match l.find? s.privileged with
      | none => .ok (s, { num := 0, kind := 0, owner := 0 })
      | some p => match s.takePresence 0x13 p.target with
        | .error e => .error e
        | .ok s => .ok (s, { num := 0, kind := 0, owner := 0 })

/-- What NVM_WRITE begins under handle `h`. -/
def State.stagedBegin (h : Nat) (s : State) : State :=
  let l := s.stagedRequest.getD []
  match cfgRecordsCheck l s.ownerKey (s.counter 1) with
  | some e => (s.raise .sec none e.1 e.2).opDone h 3 e.1 0
  | none =>
    let total := (l.map Staged.size).foldl (· + ·) 0
    let places := (l.foldl (fun (a : List Nat × Nat) x => (a.1 ++ [a.2], a.2 + x.size)) ([], 0)).1
    let s := s.updHandle h fun x => { x with work := places, blob := s.stagedBytes 16 total }
    if l = [] then s.nvmWriteEnd h
    else ({ s with mc := { s.mc with nvmQueue := s.mc.nvmQueue ++ [{ src := .op h }] } } : State).nvmGo

theorem exec_nvmWrite (r : Setup) (s : State) : exec (.nvmWrite r) s = .next (s.opStart r 0x13 State.stagedCheck State.stagedBegin) := by
  show execNvmWrite r s = _
  unfold execNvmWrite
  refine congrArg₂ (fun check go => Host.Outcome.next (s.opStart r 0x13 check go)) (funext fun s => ?_) (funext fun h => funext fun s => ?_)
  · unfold State.stagedCheck
    cases s.stagedRequest with
    | none => rfl
    | some l => rfl
  · unfold State.stagedBegin
    generalize s.stagedRequest.getD [] = l
    rfl

section
variable {r : Setup} {l : List Staged} {x : Staged} {s : State}

theorem stagedCheck_bad (hstaged : s.stagedRequest = some l) (hbad : ∃ y ∈ l, s.recordBad y = true) :
    s.stagedCheck = .error (stField, s) := by
  rw [State.stagedCheck, hstaged]
  exact if_pos (List.any_eq_true.mpr hbad)

theorem any_recordBad (hsound : ∀ y ∈ l, s.recordBad y = false) : l.any s.recordBad = false :=
  List.any_eq_false.mpr fun y hy => by rw [hsound y hy]; exact Bool.false_ne_true

theorem stagedCheck_free (hstaged : s.stagedRequest = some l) (hsound : ∀ y ∈ l, s.recordBad y = false)
    (hfree : l.find? s.privileged = none) : s.stagedCheck = .ok (s, { num := 0, kind := 0, owner := 0 }) := by
  rw [State.stagedCheck, hstaged]
  dsimp only
  rw [any_recordBad hsound, if_neg Bool.false_ne_true, hfree]

theorem stagedCheck_armed (hstaged : s.stagedRequest = some l) (hsound : ∀ y ∈ l, s.recordBad y = false)
    (hprivileged : l.find? s.privileged = some x) (harmed : s.mc.armedUntil.isSome = true) (hseal : s.mc.sealIntact = true) :
    s.stagedCheck = .ok (s.presenceUsed, { num := 0, kind := 0, owner := 0 }) := by
  rw [State.stagedCheck, hstaged]
  dsimp only
  rw [any_recordBad hsound, if_neg Bool.false_ne_true, hprivileged]
  dsimp only
  rw [takePresence_armed harmed hseal]

theorem stagedCheck_denied (hstaged : s.stagedRequest = some l) (hsound : ∀ y ∈ l, s.recordBad y = false)
    (hprivileged : l.find? s.privileged = some x) (hdenied : s.mc.armedUntil = none ∨ s.mc.sealIntact = false) :
    s.stagedCheck = .error (stPresence, s.raise .sec none 0x8008 [0x13, x.target]) := by
  rw [State.stagedCheck, hstaged]
  dsimp only
  rw [any_recordBad hsound, if_neg Bool.false_ne_true, hprivileged]
  dsimp only
  rw [takePresence_denied hdenied]

/-- A sound staged request waits for its turn with its records' places. -/
theorem stagedBegin_waits {u : State} (hstaged : u.stagedRequest = some l) (hl : l ≠ []) (hnew : u.handleOf u.nextHandle = none)
    (hcfg : cfgRecordsCheck l u.ownerKey (u.counter 1) = none) :
    State.stagedBegin u.nextHandle (u.openHandle fun h => { num := h, kind := 0x13, owner := 0 }) =
      ({ (u.openHandle fun h => { num := h, kind := 0x13, owner := 0, work := recordPlaces l
                                  blob := u.stagedBytes 16 ((l.map Staged.size).foldl (· + ·) 0) }) with
        mc := { u.mc with nvmQueue := u.mc.nvmQueue ++ [{ src := .op u.nextHandle }] } } : State).nvmGo := by
  rw [State.stagedBegin, stagedRequest_openHandle, hstaged]
  dsimp only [Option.getD_some]
  rw [show (u.openHandle fun h => { num := h, kind := 0x13, owner := 0 }).ownerKey = u.ownerKey from rfl,
    show (u.openHandle fun h => { num := h, kind := 0x13, owner := 0 }).counter 1 = u.counter 1 from rfl, hcfg]
  dsimp only
  rw [if_neg hl, updHandle_openHandle hnew (by exact fun _ => rfl)]
  rfl

theorem stagedBegin_refused {u : State} {e : Refused} (hstaged : u.stagedRequest = some l)
    (hcfg : cfgRecordsCheck l u.ownerKey (u.counter 1) = some e) :
    State.stagedBegin u.nextHandle (u.openHandle fun h => { num := h, kind := 0x13, owner := 0 }) =
      ((u.openHandle fun h => { num := h, kind := 0x13, owner := 0 }).raise .sec none e.1 e.2).opDone u.nextHandle 3 e.1 0 := by
  rw [State.stagedBegin, stagedRequest_openHandle, hstaged]
  dsimp only [Option.getD_some]
  rw [show (u.openHandle fun h => { num := h, kind := 0x13, owner := 0 }).ownerKey = u.ownerKey from rfl,
    show (u.openHandle fun h => { num := h, kind := 0x13, owner := 0 }).counter 1 = u.counter 1 from rfl, hcfg]

theorem presenceUsed_nextHandle : s.presenceUsed.nextHandle = s.nextHandle := by
  simp only [State.nextHandle, State.handleOf, State.presenceUsed]

end

theorem nvmWrite_waits {r : Setup} {l : List Staged} {s t : State} (harrives : Arrives s 0x30 (formOpStart 0x13) r) (hkind : r.wValue = 0x13)
    (hroom : s.handlesFull 0 = false) (hcheck : s.stagedCheck = .ok (t, { num := 0, kind := 0, owner := 0 }))
    (hnext : t.nextHandle = s.nextHandle) (hstaged : t.stagedRequest = some l) (hl : l ≠ []) (hnew : t.handleOf t.nextHandle = none)
    (hcfg : cfgRecordsCheck l t.ownerKey (t.counter 1) = none) : exec (.nvmWrite r) s = .next
      ((({ (t.openHandle fun h => { num := h, kind := 0x13, owner := 0, work := recordPlaces l
                                    blob := t.stagedBytes 16 ((l.map Staged.size).foldl (· + ·) 0) }) with
        mc := { t.mc with nvmQueue := t.mc.nvmQueue ++ [{ src := .op s.nextHandle }] } } : State).nvmGo).startOk s.nextHandle) := by
  rw [exec_nvmWrite, opStart_ok harrives hkind hroom hcheck]
  dsimp only
  rw [stagedBegin_waits hstaged hl hnew hcfg, hnext]

/-! ### FW_STAGE -/

section
variable {r : Setup} {s : State}

theorem stagedFw_congr {t : State} (h : t.staging = s.staging) : t.stagedFw = s.stagedFw := by
  have hbytes : t.stagedBytes = s.stagedBytes := by
    funext o n
    rw [State.stagedBytes, h, State.stagedBytes]
  rw [State.stagedFw, hbytes, State.stagedFw]

/-- The work that writes a staged image. -/
def State.imageWork (s : State) : NvmWork :=
  { src := .op s.nextHandle, base := nvmFw, data := s.stagedFw, blocks := cdiv s.stagedFw.length 0x10000, live := false }

/-- FW_STAGE takes armed presence and begins an operation over one image. -/
theorem exec_fwStage_sound (harrives : Arrives s 0x30 (formOpStart 0x12) r) (hkind : r.wValue = 0x12)
    (hroom : s.handlesFull 0 = false) (harmed : s.mc.armedUntil.isSome = true) (hseal : s.mc.sealIntact = true)
    (hsound : fwCheck s.stagedFw (s.counter 4) (s.counter 0) = none) : exec (.fwStage r) s = .next
      (({ (s.openHandle fun h => { num := h, kind := 0x12, owner := 0, work := [0] }) with
        mc := { s.mc with armedUntil := none, nvmQueue := s.mc.nvmQueue ++ [s.imageWork] } } : State).nvmGo.startOk s.nextHandle) := by
  show execFwStage r s = _
  rw [execFwStage, opStart_ok (t := s.presenceUsed) (x := { num := 0, kind := 0, owner := 0, work := [0] }) harrives hkind hroom
    (by rw [takePresence_armed harmed hseal]), presenceUsed_nextHandle]
  dsimp only
  rw [stagedFw_congr (s := s) (by rfl),
    show (s.presenceUsed.openHandle fun h => { num := h, kind := 0x12, owner := 0, work := [0] }).counter = s.counter from rfl, hsound]
  refine congrArg (fun t : State => Host.Outcome.next (t.nvmGo.startOk s.nextHandle)) ?_
  rw [State.openHandle, presenceUsed_nextHandle, State.openHandle]
  rfl

theorem exec_fwStage_refused {e : Refused} (harrives : Arrives s 0x30 (formOpStart 0x12) r) (hkind : r.wValue = 0x12)
    (hroom : s.handlesFull 0 = false) (harmed : s.mc.armedUntil.isSome = true) (hseal : s.mc.sealIntact = true)
    (hrefused : fwCheck s.stagedFw (s.counter 4) (s.counter 0) = some e) : exec (.fwStage r) s =
      .next (((s.presenceUsed.openHandle fun h => { num := h, kind := 0x12, owner := 0, work := [0] }).fwRefused s.nextHandle e).startOk
        s.nextHandle) := by
  show execFwStage r s = _
  rw [execFwStage, opStart_ok (t := s.presenceUsed) (x := { num := 0, kind := 0, owner := 0, work := [0] }) harrives hkind hroom
    (by rw [takePresence_armed harmed hseal]), presenceUsed_nextHandle]
  dsimp only
  rw [stagedFw_congr (s := s) (by rfl),
    show (s.presenceUsed.openHandle fun h => { num := h, kind := 0x12, owner := 0, work := [0] }).counter = s.counter from rfl, hrefused]

end

/-! ### The records, one by one -/

theorem pair_nvm (s : State) (a : Nat) : s.pair.nvmAt a =
    ((s.nvmErase nvmCounters eraseBytes).nvmPut nvmCounters (Config.pairingRecord (Config.counterRootKey Config.pufRoot))).nvmAt a := rfl

theorem pair_acts (s : State) : s.pair.paired = true ∧ s.pair.mc = { s.mc with counterKey := true } ∧
    s.pair.nvmRd nvmCounters (Config.pairingRecord (Config.counterRootKey Config.pufRoot)).length =
      Config.pairingRecord (Config.counterRootKey Config.pufRoot) ∧
    (∀ a, a < nvmCounters ∨ (nvmCounters + eraseBytes ≤ a ∧
      nvmCounters + (Config.pairingRecord (Config.counterRootKey Config.pufRoot)).length ≤ a) → s.pair.nvmAt a = s.nvmAt a) ∧
    s.pair.mem = s.mem ∧ s.pair.counters = s.counters := by
  refine ⟨rfl, rfl, ?_, fun a ha => ?_, rfl, rfl⟩
  · refine List.ext_getElem (by rw [State.nvmRd, List.length_map, List.length_range]) fun i hi hi' => ?_
    simp only [State.nvmRd, List.getElem_map, List.getElem_range]
    rw [pair_nvm, nvmAt_nvmPut, if_pos ⟨Nat.le_add_right _ _, by omega⟩,
      Nat.add_sub_cancel_left, List.getD_eq_getElem _ _ hi']
  · rw [pair_nvm, nvmAt_nvmPut, if_neg (by omega), nvmAt_nvmErase, if_neg (by omega)]

/-- An erased endorsement endorses nothing. -/
theorem endorsed_nvmErase (s : State) : (s.nvmErase endorsementAt endorsementBytes).endorsed = false := by
  have herased : (s.nvmErase endorsementAt endorsementBytes).nvmRd endorsementAt endorsementBytes = List.replicate endorsementBytes 0xFF := by
    refine List.eq_replicate_iff.mpr ⟨by rw [State.nvmRd, List.length_map, List.length_range], fun b hb => ?_⟩
    rw [State.nvmRd, List.mem_map] at hb
    obtain ⟨i, hi, rfl⟩ := hb
    rw [nvmAt_nvmErase, if_pos ⟨Nat.le_add_right _ _, Nat.add_lt_add_left (List.mem_range.mp hi) _⟩]
  rw [State.endorsed, herased]
  generalize List.replicate endorsementBytes (0xFF : Byte) = erased
  rw [decide_eq_false (not_not_intro rfl), Bool.and_false, Bool.false_and]

/-- Settles O47: the requests by their checks, the records by their branches. -/
theorem flashOperationsAct : Obligations.FlashOperationsAct := by
  refine ⟨?fw, ?fwDenied, ?full, ?free, ?armed,
    ?denied, ?bad, ?refused, ?none, fun h r s hdue => ?cfg, fun h r s hdue => ?owner, fun h r s hdue hdata => ?payload,
    fun h r s hdue hdata => ?empty, fun h r s hdue => ?identity, fun h r s hdue => ?debug, fun h r s hdue => ?pairing, pair_acts,
    endorsed_nvmErase, fun n v s hn hlen => ⟨counter_advance_same (by omega), fun m hm => counter_advance_other s v hm⟩⟩
  case fw =>
    intro r s harrives hkind hroom harmed hseal
    cases hcheck : fwCheck s.stagedFw (s.counter 4) (s.counter 0) with
    | none => exact exec_fwStage_sound harrives hkind hroom harmed hseal hcheck
    | some e => exact exec_fwStage_refused harrives hkind hroom harmed hseal hcheck
  case fwDenied =>
    intro r s harrives hkind hroom hdenied
    show execFwStage r s = _
    rw [execFwStage, opStart_refused harrives hkind hroom (by rw [takePresence_denied hdenied])]
  case full =>
    intro x hx r s harrives hkind hfull
    simp only [List.mem_cons, List.not_mem_nil, or_false] at hx
    obtain rfl | rfl := hx
    · exact congrArg Host.Outcome.next (opStart_full harrives hkind hfull)
    · exact congrArg Host.Outcome.next (opStart_full harrives hkind hfull)
  case free =>
    intro r l s harrives hkind hroom hstaged hl hnew hsound hcfg
    refine ⟨recordPlaces l, s.stagedBytes 16 ((l.map Staged.size).foldl (· + ·) 0), ?_, rfl, length_recordPlaces l, head_recordPlaces hl⟩
    have hfree : l.find? s.privileged = none := List.find?_eq_none.mpr fun y hy => by rw [(hsound y hy).2]; exact Bool.false_ne_true
    exact nvmWrite_waits harrives hkind hroom (stagedCheck_free hstaged (fun y hy => (hsound y hy).1) hfree) rfl hstaged hl hnew hcfg
  case armed =>
    intro r l x s harrives hkind hroom hstaged hnew hsound hprivileged harmed hseal hcfg
    have hl : l ≠ [] := by
      rintro rfl
      exact absurd hprivileged (by simp)
    refine ⟨recordPlaces l, s.stagedBytes 16 ((l.map Staged.size).foldl (· + ·) 0), ?_, rfl, length_recordPlaces l, head_recordPlaces hl⟩
    exact nvmWrite_waits harrives hkind hroom (stagedCheck_armed hstaged hsound hprivileged harmed hseal) presenceUsed_nextHandle
      ((stagedRequest_congr rfl).trans hstaged) hl hnew hcfg
  case denied =>
    intro r l x s harrives hkind hroom hstaged hsound hprivileged hdenied
    rw [exec_nvmWrite, opStart_refused harrives hkind hroom (stagedCheck_denied hstaged hsound hprivileged hdenied)]
  case bad =>
    intro r l s harrives hkind hroom hstaged hbad
    rw [exec_nvmWrite, opStart_refused harrives hkind hroom (stagedCheck_bad hstaged hbad)]
  case refused =>
    intro r l x e s harrives hkind hroom hstaged hsound hallowed hcfg
    rw [exec_nvmWrite]
    cases hprivileged : l.find? s.privileged with
    | none =>
      rw [opStart_ok harrives hkind hroom (stagedCheck_free hstaged hsound hprivileged)]
      dsimp only
      rw [stagedBegin_refused hstaged hcfg]
      rfl
    | some y =>
      obtain hfree | ⟨harmed, hseal⟩ := hallowed
      · exact absurd (hprivileged.symm.trans hfree) (by simp)
      · rw [opStart_ok harrives hkind hroom (stagedCheck_armed hstaged hsound hprivileged harmed hseal)]
        dsimp only
        rw [stagedBegin_refused (u := s.presenceUsed) ((stagedRequest_congr rfl).trans hstaged) hcfg, presenceUsed_nextHandle]
        rfl
  case none =>
    intro r s harrives hkind hroom hstaged
    rw [exec_nvmWrite, opStart_refused harrives hkind hroom (by rw [State.stagedCheck, hstaged])]
  case cfg =>
    show execNvmConfig h s = _
    rw [execNvmConfig, hdue]
  case owner =>
    show execOwnerKey h s = _
    rw [execOwnerKey, hdue]
  case payload =>
    show execPayload h s = _
    rw [execPayload, hdue]
    exact if_neg hdata
  case empty =>
    show execPayload h s = _
    rw [execPayload, hdue]
    exact if_pos hdata
  case identity =>
    show execIdentityReset h s = _
    rw [execIdentityReset, hdue] <;> rfl
  case debug =>
    show execDebugUnlock h s = _
    rw [execDebugUnlock, hdue] <;> rfl
  case pairing =>
    show execNvmPair h s = _
    rw [execNvmPair, hdue]

end Sys2Proof.Machine


namespace Sys2Proof.Machine

/-! ### OPEN -/

/-- Whether the OPEN in `h` comes from the far end of its connection. -/
def Cluster.opens (k : Cluster) (h : OtHdr) : Bool :=
  match k.ends h.conn with
  | some (mine, e, far) => decide (rdLE h.payload 0 8 = k.cl.key ∧ nbits (rdLE h.payload 8 4) 29 24 = e ∧
      nbits (rdLE h.payload 8 4) 18 16 = far ∧ nbits (rdLE h.payload 8 4) 13 8 = k.self ∧ nbits (rdLE h.payload 8 4) 2 0 = mine)
  | none => false

section
variable {o : PortId} {h : OtHdr} {f : OtIn} {k : Cluster} {s u : State}

theorem opens_of_ends {mine e far : Nat} (hends : k.ends h.conn = some (mine, e, far)) (hkey : rdLE h.payload 0 8 = k.cl.key)
    (he : nbits (rdLE h.payload 8 4) 29 24 = e) (hfar : nbits (rdLE h.payload 8 4) 18 16 = far)
    (hself : nbits (rdLE h.payload 8 4) 13 8 = k.self) (hmine : nbits (rdLE h.payload 8 4) 2 0 = mine) : k.opens h = true := by
  rw [Cluster.opens, hends]
  exact decide_eq_true ⟨hkey, he, hfar, hself, hmine⟩

theorem opens_of_other (hother : rdLE h.payload 0 8 ≠ k.cl.key ∨ k.ends h.conn = none) : k.opens h = false := by
  unfold Cluster.opens
  obtain hkey | hnone := hother
  · split
    · exact decide_eq_false fun hall => hkey hall.1
    · rfl
  · rw [hnone]

theorem opens_of_farEnd {mine e far : Nat} (hends : k.ends h.conn = some (mine, e, far))
    (hother : nbits (rdLE h.payload 8 4) 29 24 ≠ e ∨ nbits (rdLE h.payload 8 4) 18 16 ≠ far ∨
      nbits (rdLE h.payload 8 4) 13 8 ≠ k.self ∨ nbits (rdLE h.payload 8 4) 2 0 ≠ mine) : k.opens h = false := by
  rw [Cluster.opens, hends]
  refine decide_eq_false ?_
  rintro ⟨_, he, hfar, hself, hmine⟩
  obtain h | h | h | h := hother
  · exact h he
  · exact h hfar
  · exact h hself
  · exact h hmine

theorem exec_otOpen (htake : s.takeOt o 1 = (u, some (h, f))) (hk : u.cluster h.part = some k) : exec (.otOpen o) s =
    if !k.opens h then .next u
    else if (rdLE h.payload 8 4).testBit 31 then .next
      (let v := (u.otHeard h f.ce).updCluster h.part fun c => c.updConn h.conn fun r => { r with gotOpen := true, gotReply := true }
       if (k.run h.conn).up then v else v.connUp h.part h.conn)
    else if (k.run h.conn).up && (k.run h.conn).moved then .next
      ((((((u.otHeard h f.ce).connReset h.part h.conn).updCluster h.part fun c => c.updConn h.conn fun r =>
        { r with gotOpen := true }).sendOpen h.part k h.conn true).sendOpen h.part k h.conn false).failConnUsers h.conn
          ((u.otHeard h f.ce).connUsers h.part h.conn))
    else .next
      (let v := ((u.otHeard h f.ce).updCluster h.part fun c => c.updConn h.conn fun r => { r with gotOpen := true }).sendOpen
        h.part k h.conn true
       if (k.run h.conn).gotReply ∧ !(k.run h.conn).up then v.connUp h.part h.conn else v) := by
  show execOtOpen o s = _
  unfold execOtOpen
  rw [htake]
  dsimp only
  rw [hk]
  rfl

end

/-! ### DATA and ACK -/

section
variable {o : PortId} {h : OtHdr} {f : OtIn} {k : Cluster} {s u v : State}

theorem other_of_same {e : Nat} (hsame : h.vc < 4 ∨ h.epoch = e) : false = (decide (4 ≤ h.vc) && decide (h.epoch ≠ e)) := by
  refine (Bool.and_eq_false_iff.mpr ?_).symm
  obtain hvc | hepoch := hsame
  · exact .inl (decide_eq_false (Nat.not_le.mpr hvc))
  · exact .inr (decide_eq_false (not_not_intro hepoch))

theorem other_of_other {e : Nat} (hvc : 4 ≤ h.vc) (hepoch : h.epoch ≠ e) : true = (decide (4 ≤ h.vc) && decide (h.epoch ≠ e)) :=
  (Bool.and_eq_true_iff.mpr ⟨decide_eq_true hvc, decide_eq_true hepoch⟩).symm

/-- A frame of a connection that is up, by its epoch and its place in the window. -/
theorem exec_otData (htake : s.takeOt o 2 = (u, some (h, f))) (hv : v = u.otArrived h f.ce) (hk : v.cluster h.part = some k)
    (hup : (k.run h.conn).up = true) {other old known : Bool} (hother : other = (decide (4 ≤ h.vc) && decide (h.epoch ≠ k.epoch)))
    (hold : old = (other && leMod h.epoch k.epoch))
    (hknown : known = true ↔ k.cl.credits h.vc ≤ (h.psn + 2 ^ 32 - ((k.run h.conn).vc h.vc).rxCum) % 2 ^ 32 ∨
      ∃ g ∈ ((k.run h.conn).vc h.vc).rxHeld, g.psn = h.psn) : exec (.otData o) s =
    if other && !old then .next (v.otCount o 8 1)
    else if known then .next ((if old then v.otCount o 7 1 else v).sendAck h.part h.conn h.vc)
    else .next ((if old then v.otCount o 7 1 else v).receiveData h.part o h.conn h.vc
      { psn := h.psn, first := h.first, last := h.last, msg := h.msg, offset := h.offset, epoch := h.epoch, payload := h.payload
        dropped := old }) := by
  show execOtData o s = _
  unfold execOtData
  rw [htake]
  dsimp only
  rw [← hv, hk]
  dsimp only
  rw [hup, Bool.not_true, if_neg Bool.false_ne_true, ← hother, ← hold]
  have hiff : (k.cl.credits h.vc ≤ (h.psn + 2 ^ 32 - ((k.run h.conn).vc h.vc).rxCum) % 2 ^ 32 ∨
      (((k.run h.conn).vc h.vc).rxHeld.any fun g => decide (g.psn = h.psn)) = true) ↔ known = true := by
    rw [hknown, List.any_eq_true]
    simp only [decide_eq_true_eq]
  rw [if_congr hiff rfl rfl]

theorem modifyAt_congr {α : Type} {f g : α → α} {i : Nat} {l : List α} {d : α} (h : f (l.getD i d) = g (l.getD i d)) :
    modifyAt f i l = modifyAt g i l := by
  induction l generalizing i with
  | nil => cases i <;> rfl
  | cons a l ih =>
    cases i with
    | zero =>
      rw [List.getD_cons_zero] at h
      rw [modifyAt, modifyAt, h]
    | succ i => rw [modifyAt, modifyAt, ih h]

theorem updVc_congr {r : ConnRun} {c : Nat} {f g : VcRun → VcRun} (h : f (r.vc c) = g (r.vc c)) : r.updVc c f = r.updVc c g := by
  rw [ConnRun.updVc, ConnRun.updVc, modifyAt_congr h]

theorem updConn_congr {i : Nat} {f g : ConnRun → ConnRun} (h : f (k.run i) = g (k.run i)) : k.updConn i f = k.updConn i g := by
  rw [Cluster.updConn, Cluster.updConn, modifyAt_congr h]

/-- Changes that agree on the cluster as it stands make the same state. -/
theorem updCluster_congr {p : PartId} {f g : Cluster → Cluster} (hk : s.cluster p = some k) (h : f k = g k) :
    s.updCluster p f = s.updCluster p g := by
  obtain ⟨j, hj, hcluster⟩ := Option.bind_eq_some_iff.mp hk
  rw [State.job] at hj
  unfold State.updCluster State.updJob State.updPart
  simp only [hj, Option.map_some, hcluster, h]

/-- An ACK without ECN marks and gaps, no rate cut under way. -/
theorem exec_otAck {left : List OtFrame} (htake : s.takeOt o 3 = (u, some (h, f))) (hv : v = u.otArrived h f.ce)
    (hk : v.cluster h.part = some k) (hup : (k.run h.conn).up = true) (hecn : rdLE h.payload 0x12 2 = 0)
    (hcut : (k.run h.conn).cutMark = [])
    (hleft : left = ((k.run h.conn).vc h.vc).inflight.filter fun f => leMod (rdLE h.payload 0 4) f.psn)
    (hwhole : ({ (k.run h.conn).vc h.vc with inflight := left } : VcRun).sackMissing (rdLE h.payload 0 4) (rdLE h.payload 8 8) = []) :
    exec (.otAck o) s = .next ((v.updCluster h.part fun c => c.updConn h.conn fun r =>
      { r.updVc h.vc (fun w => { w with
          inflight := left
          txCum := if left.length < w.inflight.length then rdLE h.payload 0 4 else w.txCum
          txCredit := if leMod w.txCredit (rdLE h.payload 4 4) then rdLE h.payload 4 4 else w.txCredit
          sackRetx := w.sackRetx.filter fun x => leMod (rdLE h.payload 0 4) x.1 }) with
        idleTimeouts := if left.length < ((k.run h.conn).vc h.vc).inflight.length then 0 else r.idleTimeouts
        cutMark := [] }).pump h.part h.conn h.vc) := by
  show execOtAck o s = _
  unfold execOtAck
  rw [htake]
  dsimp only
  rw [← hv, hk]
  dsimp only
  rw [hup, Bool.not_true, if_neg Bool.false_ne_true, ← hleft, hwhole, hecn, hcut]
  simp only [Nat.lt_irrefl, decide_false, Bool.false_and, Bool.false_eq_true, if_false, decide_true, Bool.true_or, if_true,
    List.foldl_nil, decide_eq_true_eq]
  refine congrArg (fun t : State => Host.Outcome.next (t.pump h.part h.conn h.vc)) (updCluster_congr hk (updConn_congr ?_))
  rw [updVc_congr] <;> rfl

end

/-- Settles O41: each frame by the branch that it takes. -/
theorem transportFramesAct : Obligations.TransportFramesAct := by
  refine ⟨fun o h f u s htake => ?alive, fun o h f u s htake => ?close, ?answer, ?first, ?anew, ?stranger, ?farEnd, ?fresh, ?known,
    fun o h f k u v s htake hv hk hdown => ?ackDown, ?ack, fun p i s => rfl⟩
  case alive =>
    show execOtKeepalive o s = _
    rw [execOtKeepalive, htake]
  case close =>
    show execOtClose o s = _
    rw [execOtClose, htake]
  case answer =>
    intro o h f k u v s mine e far htake hk hends hkey he hfar hself hmine hreply hv
    rw [exec_otOpen htake hk, opens_of_ends hends hkey he hfar hself hmine, Bool.not_true, if_neg Bool.false_ne_true, if_pos hreply, hv]
  case first =>
    intro o h f k u v s mine e far htake hk hends hkey he hfar hself hmine hask hdown hv
    have hstill : ¬((k.run h.conn).up && (k.run h.conn).moved) = true := by
      rw [Bool.and_eq_true_iff]
      rintro ⟨hup, hmoved⟩
      rcases hdown with hd | hd
      · exact Bool.false_ne_true (hd.symm.trans hup)
      · exact Bool.false_ne_true (hd.symm.trans hmoved)
    rw [exec_otOpen htake hk, opens_of_ends hends hkey he hfar hself hmine, Bool.not_true, if_neg Bool.false_ne_true, hask,
      if_neg Bool.false_ne_true, if_neg hstill, hv]
  case anew =>
    intro o h f k u q s mine e far htake hk hends hkey he hfar hself hmine hask hup hmoved hq
    rw [exec_otOpen htake hk, opens_of_ends hends hkey he hfar hself hmine, Bool.not_true, if_neg Bool.false_ne_true, hask,
      if_neg Bool.false_ne_true, hup, hmoved, Bool.and_true, if_pos rfl, hq]
  case stranger =>
    intro o h f k u s htake hk hother
    rw [exec_otOpen htake hk, opens_of_other hother, Bool.not_false, if_pos rfl]
  case farEnd =>
    intro o h f k u s mine e far htake hk hends hother
    rw [exec_otOpen htake hk, opens_of_farEnd hends hother, Bool.not_false, if_pos rfl]
  case fresh =>
    intro o h f k u v s htake hv hk hup hwindow hnew
    have hunknown : false = true ↔ k.cl.credits h.vc ≤ (h.psn + 2 ^ 32 - ((k.run h.conn).vc h.vc).rxCum) % 2 ^ 32 ∨
        ∃ g ∈ ((k.run h.conn).vc h.vc).rxHeld, g.psn = h.psn := by
      refine iff_of_false Bool.false_ne_true ?_
      rintro (hout | ⟨g, hg, hpsn⟩)
      · exact absurd hwindow (Nat.not_lt.mpr hout)
      · exact hnew g hg hpsn
    refine ⟨fun hsame => ?_, fun hvc hepoch hold => ?_, fun hvc hepoch hold => ?_⟩
    · exact exec_otData htake hv hk hup (other_of_same hsame) rfl hunknown
    · rw [exec_otData htake hv hk hup (other_of_other hvc hepoch) (by rw [hold, Bool.and_true]) hunknown]
      rfl
    · rw [exec_otData htake hv hk hup (other_of_other hvc hepoch) (by rw [hold, Bool.and_false]) hunknown]
      rfl
  case known =>
    intro o h f k u v s htake hv hk hup hout
    have hknown := iff_of_true (rfl : true = true) hout
    refine ⟨fun hsame => ?_, fun hvc hepoch hold => ?_, fun hvc hepoch hold => ?_⟩
    · exact exec_otData htake hv hk hup (other_of_same hsame) rfl hknown
    · rw [exec_otData htake hv hk hup (other_of_other hvc hepoch) (by rw [hold, Bool.and_true]) hknown]
      rfl
    · rw [exec_otData htake hv hk hup (other_of_other hvc hepoch) (by rw [hold, Bool.and_false]) hknown]
      rfl
  case ackDown =>
    show execOtAck o s = _
    rw [execOtAck, htake]
    dsimp only
    rw [← hv, hk]
    dsimp only
    rw [hdown, Bool.not_false, if_pos rfl]
  case ack =>
    intro o h f k u q s htake hq hk hup hecn hcut v cum left hwhole
    have hleft : left = v.inflight.filter fun f => leMod cum f.psn := rfl
    have hcum : cum = rdLE h.payload 0 4 := rfl
    have hv : v = (k.run h.conn).vc h.vc := rfl
    clear_value left
    clear_value cum v
    subst hcum hv
    exact exec_otAck htake hq hk hup hecn hcut hleft hwhole

/-! ### The timers of a connection -/

theorem connDown_down {p : PartId} {i cause : Nat} {k : Cluster} {s : State} (hk : s.cluster p = some k) (hdown : (k.run i).up = false) :
    s.connDown p i cause = s := by
  rw [State.connDown, hk]
  dsimp only
  rw [hdown, Bool.not_false, if_pos rfl]

theorem connDown_leader {p : PartId} {i cause : Nat} {x} {k : Cluster} {s : State}
    (hk : s.cluster p = some k) (hup : (k.run i).up = true) (hleads : k.leads = true) (hbegun : k.begun = false)
    (hpath : k.path i = some x) : s.connDown p i cause =
      ((((s.connReset p i).otCount x.1 11 1).raise (.port x.1.val) (some p) 0x6102 [x.1.val, x.2.1.val, k.cl.tag, i, cause]).sendOpen
        p k i false).failConnUsers i (s.connUsers p i) := by
  rw [State.connDown, hk]
  dsimp only
  rw [hup, hleads, hbegun, hpath, Bool.not_true, if_neg Bool.false_ne_true, if_pos rfl, if_neg (fun h => Bool.false_ne_true h.2)]

theorem mem_connUsers {p : PartId} {i : Nat} {k : Cluster} {c : CoreId} {e : Issued} {s : State} (hk : s.cluster p = some k) :
    (c, e) ∈ s.connUsers p i ↔ (c, e) ∈ s.issuedOf p ∧ e.queue = .net ∧
      (e.phase = .running ∨ (e.phase = .queued ∧ nOp e.words = 0x04)) ∧ k.netUses (k.far i) i e = true := by
  rw [State.connUsers, hk]
  simp only [List.mem_filter, Bool.and_eq_true, Bool.or_eq_true, decide_eq_true_eq, and_assoc, nOp]

section
variable {p : PartId} {i : Nat} {vc : VcId} {k : Cluster} {f : OtFrame} {r : List OtFrame} {s : State}

theorem exec_retxTimeout (hk : s.cluster p = some k) (hinflight : ((k.run i).vc vc.val).inflight = f :: r) : exec (.retxTimeout p i vc) s =
    if 16 ≤ (k.run i).idleTimeouts + 1 then
      .next (((k.path i).elim s fun x => s.otCount x.1 3 1).connDown p i (Config.fieldWord 0x6102 1 0))
    else .next ((((k.path i).elim s fun x => s.otCount x.1 3 1).resend p i vc.val f).updCluster p fun c => c.updConn i fun r =>
      { r.updVc vc.val (fun v => { v with inflight := modifyAt (fun f => { f with timeouts := f.timeouts + 1 }) 0 v.inflight })
        with idleTimeouts := r.idleTimeouts + 1 }) := by
  show execRetxTimeout p i vc s = _
  unfold execRetxTimeout
  rw [hk]
  dsimp only
  rw [hinflight]
  cases k.path i <;> rfl

end

/-- Settles O42: each timer by its branch, and the loss of a connection by its steps. -/
theorem transportTimersAct : Obligations.TransportTimersAct := by
  refine ⟨fun p i k s hk hends hnone => ?openAgain, fun p i k s hk hopened => ?opened, fun p i k s hk hup => ?keepalive,
    fun p i vc k s hk hup hdue => ?ack, fun p i vc k f r s hk hinflight hfew => ?again, fun p i vc k f r s hk hinflight hmany => ?last,
    fun p i cause s => rfl, fun p i cause k s hk hdown => connDown_down hk hdown,
    fun p i cause j x k s _ hk hup hleads hbegun hpath => connDown_leader hk hup hleads hbegun hpath, fun p i k s hk => ?reset,
    fun p i k c e s hk => mem_connUsers hk, fun i l s => rfl⟩
  case openAgain =>
    show execOtOpenRetry p i s = _
    rw [execOtOpenRetry, hk]
    exact if_pos ⟨hends, by rw [hnone]; rfl⟩
  case opened =>
    show execOtOpenRetry p i s = _
    rw [execOtOpenRetry, hk]
    exact if_neg fun h => absurd h.2 (by rw [hopened]; decide)
  case keepalive =>
    show execKeepaliveTimer p i s = _
    rw [execKeepaliveTimer, hk]
    exact if_pos hup
  case ack =>
    show execOtAckTimer p i vc s = _
    rw [execOtAckTimer, hk]
    exact if_pos ⟨hup, hdue⟩
  case again => rw [exec_retxTimeout hk hinflight, if_neg (Nat.not_le.mpr hfew)]
  case last => rw [exec_retxTimeout hk hinflight, if_pos hmany]
  case reset => rw [State.connReset, hk]

end Sys2Proof.Machine


namespace Sys2Proof.Machine

/-! ### Gates -/

theorem updPort_same (s : State) (o : PortId) (f : Port → Port) : (s.updPort o f).ports[o] = f s.ports[o] := by
  simp [State.updPort]

/-- A change of a port's schedule makes what it says of the schedule and of nothing else. -/
theorem updSched_acts (s : State) (o : PortId) (k : Fin 2) (f : Sched → Sched) {t : State}
    (ht : t = s.updPort o fun p => { p with sched := p.sched.set k (f p.sched[k]) }) :
    t.ports[o].sched[k] = f s.ports[o].sched[k] ∧ t = (s.updPort o fun p => { p with sched := t.ports[o].sched }) := by
  have hport : t.ports[o].sched = s.ports[o].sched.set k (f s.ports[o].sched[k]) := by rw [ht, updPort_same]
  refine ⟨by rw [hport]; simp, ?_⟩
  rw [hport, ht]
  rfl

theorem exec_gateEntryChange {o : PortId} {k : Fin 2} {s u : State} (hon : s.schedOn o.val k.val = true)
    (hlist : (s.operList o k).isEmpty = false) (hreach : s.portReach o (s.ports[o].clock + (entryAt (s.operList o k)
      (cyclePos s.ports[o].clock s.ports[o].sched[k].base s.ports[o].sched[k].cycle)).2) = some u) :
    exec (.gateEntryChange o k) s = .next u := by
  show execGateEntryChange o k s = _
  unfold execGateEntryChange
  dsimp only
  rw [hon, hlist, hreach, Bool.not_false, Bool.and_true, if_pos rfl]

theorem portReach_eq {o : PortId} {n : Nat} {s u : State} (h : s.portReach o n = some u) : u = (s.updPort o fun p => { p with clock := n }) := by
  unfold State.portReach at h
  dsimp only at h
  split at h
  · exact (Option.some.inj h).symm
  · exact absurd h (by simp)

section
variable {o : PortId} {k : Fin 2} {s u : State}

theorem exec_scheduleChange_due (hpending : s.ports[o].sched[k].pending = true)
    (hdue : s.ports[o].sched[k].changeAt ≤ s.ports[o].clock) : exec (.scheduleChangeTime o k) s = .next (s.copySched o k) := by
  show execScheduleChangeTime o k s = _
  unfold execScheduleChangeTime
  dsimp only
  rw [hpending, Bool.not_true, if_neg Bool.false_ne_true, if_pos hdue]

theorem exec_scheduleChange_ahead (hpending : s.ports[o].sched[k].pending = true)
    (hahead : s.ports[o].clock < s.ports[o].sched[k].changeAt) (hreach : s.portReach o s.ports[o].sched[k].changeAt = some u) :
    exec (.scheduleChangeTime o k) s = .next (u.copySched o k) := by
  show execScheduleChangeTime o k s = _
  unfold execScheduleChangeTime
  dsimp only
  rw [hpending, Bool.not_true, if_neg Bool.false_ne_true, if_neg (Nat.not_le.mpr hahead), hreach]

end

/-! ### The PTP clock -/

section
variable {o : PortId} {m : PtpIn} {r : List PtpIn} {s u : State}

theorem exec_ptpMessage (hmode : s.ptpMode o ≠ 0) (hon : s.portOn o = true) (hin : s.ports[o].ptpIn = m :: r) :
    exec (.ptpMessage o m.sub) s = match (s.updPort o fun p => { p with ptpIn := r }).ptpTake o m with
      | (s, none) => .next s
      | (s, some n) => .next (s.discipline o n) := by
  show execPtpMessage o m.sub s = _
  unfold execPtpMessage
  rw [if_neg (by rw [hon]; exact not_or.mpr ⟨hmode, Bool.noConfusion⟩), hin]
  dsimp only
  rw [if_neg (not_not_intro rfl)] <;> rfl

theorem discipline_steps {n : Int} (h : (if s.ptpField o.val 3 = 0 then 1000 else s.ptpField o.val 3) * 65536 < n.natAbs) :
    s.discipline o n = s.stepPort o (-(n / 65536)) := by
  rw [State.discipline]
  exact if_pos h

theorem discipline_servo {n : Int} (h : n.natAbs ≤ (if s.ptpField o.val 3 = 0 then 1000 else s.ptpField o.val 3) * 65536) :
    s.discipline o n = ({ s with freeCtr := s.freeCtr + 1 } : State).setReg (portPtpFreq o.val) (freqOf (Config.free s.freeCtr)) := by
  rw [State.discipline]
  exact if_neg (Nat.not_lt.mpr h)

theorem ptpTake_delayRequest (hdomain : rdLE m.bytes 4 1 = 0) (hlen : 44 ≤ m.bytes.length) (htype : ptpType m.bytes = 2) :
    s.ptpTake o m = (s.ptpSend o m.sub 3 (ptpSeq m.bytes) true (ptpCorr m.bytes) (ptpTime m.stamp ++ ptpFrom m.bytes), none) := by
  unfold State.ptpTake
  dsimp only
  rw [if_neg (by omega), htype] <;> rfl

theorem exec_ptpMasterLost (hmode : s.ptpMode o ≠ 0) (hon : s.portOn o = true) (hrole : s.ports[o].ptp.role ≠ .master) :
    exec (.ptpMasterLost o) s =
      .next (((s.setFld (portPtpCtl o.val) 3 3 1).raise (.port o.val) none 0x6007 [o.val, s.ports[o].master % 2 ^ 32]).updPtp o fun r =>
        { r with role := .master, best := none, syncRx := none, measured := none }) := by
  show execPtpMasterLost o s = _
  rw [execPtpMasterLost, if_neg]
  rw [hon]
  rintro (h | h | h)
  · exact hmode h
  · exact Bool.noConfusion h
  · exact hrole h

/-- The output of a port with a comparator and a period. -/
theorem exec_periodicOutput {n : Nat} (hn : n = s.ptpField o.val 4 * 1000000000 * nsUnits) (huse : s.cmpUse o.val 2 = 3) (hperiod : n ≠ 0)
    (hreach : s.portReach o ((s.ports[o].clock / n + 1) * n) = some u) {mine : Bool}
    (hmine : mine = match u.syncRec 2 with | some v => decide (rdLE v 1 1 = o.val) | none => false) :
    exec (.periodicOutput o) s = .next (if mine then { u with
      mc := { u.mc with syncOut := u.mc.syncOut + 1, ppsTill := some (o, u.now o + u.ptpField o.val 5 * nsUnits) } } else u) := by
  show execPeriodicOutput o s = _
  unfold execPeriodicOutput
  dsimp only
  rw [← hn, if_neg (not_or.mpr ⟨not_not_intro huse, hperiod⟩), hreach, hmine] <;> rfl

theorem exec_periodicOutput_idle (h : s.cmpUse o.val 2 ≠ 3 ∨ s.ptpField o.val 4 = 0) : exec (.periodicOutput o) s = .next s := by
  show execPeriodicOutput o s = _
  unfold execPeriodicOutput
  refine if_pos ?_
  obtain huse | hfield := h
  · exact .inl huse
  · rw [hfield]
    exact .inr rfl

end

/-- Settles O53: the gates by the schedule's time, the clock by what its message or its rate says. -/
theorem portTimeActs : Obligations.PortTimeActs := by
  refine ⟨?entry, fun o n u s hreach => portReach_eq hreach, fun o k s hpending hdue => exec_scheduleChange_due hpending hdue,
    fun o k u s hpending hahead hreach => exec_scheduleChange_ahead hpending hahead hreach, fun o k s => ?change, fun o k s => ?cancel,
    fun o k v n s hbad => ?bad, fun o k v s hgood => ?good, fun o v s hoff => if_pos hoff, fun o v s hon => ⟨if_neg hon, if_neg fun h => hon h.1⟩,
    fun o v s hoff hlow hhigh => if_pos ⟨hoff, hlow, hhigh⟩, fun o m r u s hmode hon hin => ⟨fun htake => ?silent, fun n htake => ?offset⟩,
    fun o m s hdomain hlen htype => ptpTake_delayRequest hdomain hlen htype,
    fun o s hmode hon hrole => exec_ptpMasterLost hmode hon hrole, ?period, fun o s hidle => exec_periodicOutput_idle hidle⟩
  case entry =>
    intro o k u s hon hlist hreach
    exact exec_gateEntryChange hon hlist hreach
  case change =>
    obtain ⟨hsched, hrest⟩ := updSched_acts s o k (fun h => { h with
      pending := true
      changeAt := cycleFrom (s.adminBase o k) ((s.reg (portGateCycle o.val k.val)).toNat * nsUnits) (s.ports[o].clock + 1000 * nsUnits) }) rfl
    exact ⟨_, rfl, by rw [hsched], by rw [hsched], hrest⟩
  case cancel =>
    obtain ⟨hsched, hrest⟩ := updSched_acts s o k (fun h => { h with pending := false, changeAt := 0 }) rfl
    exact ⟨_, rfl, by rw [hsched], by rw [hsched], hrest⟩
  case bad =>
    show execPortGateCtlEn o k v s = _
    rw [execPortGateCtlEn, hbad]
  case good =>
    show execPortGateCtlEn o k v s = _
    unfold execPortGateCtlEn
    rw [hgood]
    dsimp only
    rw [if_congr (by rw [Bool.and_eq_true_iff, Bool.not_eq_true']) rfl rfl]
  case silent => rw [exec_ptpMessage hmode hon hin, htake]
  case offset =>
    refine ⟨fun hfar => ?_, fun hnear => ?_⟩
    · rw [exec_ptpMessage hmode hon hin, htake]
      exact congrArg Host.Outcome.next (discipline_steps hfar)
    · rw [exec_ptpMessage hmode hon hin, htake]
      exact congrArg Host.Outcome.next (discipline_servo hnear)
  case period =>
    intro o n u s hn huse hperiod hreach
    refine ⟨?_, fun hother => ?_⟩
    · rintro ⟨v, hv, hmine⟩
      exact exec_periodicOutput hn huse hperiod hreach (mine := true) (by rw [hv]; exact (decide_eq_true hmine).symm)
    · refine exec_periodicOutput hn huse hperiod hreach (mine := false) ?_
      cases hv : u.syncRec 2 with
      | none => rfl
      | some v => exact (decide_eq_false (hother v hv)).symm

end Sys2Proof.Machine


namespace Sys2Proof.Machine

/-! ### What stays when one port acts -/

theorem updPort_other (s : State) {o p : PortId} (f : Port → Port) (h : p ≠ o) : (s.updPort o f).ports[p] = s.ports[p] := by
  have hval : o.val ≠ p.val := fun he => h (Fin.ext he.symm)
  simp [State.updPort, Vector.getElem_set_ne _ _ hval]

/-- `t` differs from `s` in the port `o` alone, and keeps its queue pairs. -/
structure PortFrame (o : PortId) (s t : State) : Prop where
  rest : t = { s with ports := t.ports }
  others : ∀ p, p ≠ o → t.ports[p] = s.ports[p]
  qps : t.ports[o].qps = s.ports[o].qps

namespace PortFrame

variable {o : PortId} {s t u : State}

theorem refl (o : PortId) (s : State) : PortFrame o s s := ⟨rfl, fun _ _ => rfl, rfl⟩

theorem trans (h : PortFrame o s t) (k : PortFrame o t u) : PortFrame o s u where
  rest := by rw [k.rest, h.rest]
  others p hp := (k.others p hp).trans (h.others p hp)
  qps := k.qps.trans h.qps

theorem updPort {f : Port → Port} (hf : ∀ p, (f p).qps = p.qps) : PortFrame o s (s.updPort o f) where
  rest := rfl
  others _ hp := updPort_other s f hp
  qps := by rw [updPort_same, hf]

theorem send {f : TxFrame} : PortFrame o s (s.send o f) := updPort (by exact fun _ => rfl)

theorem pfcWatch {q : SubId} {c : Nat} : PortFrame o s (s.pfcWatch o q c) := by
  unfold State.pfcWatch
  dsimp only
  split
  · exact refl o s
  · split
    · exact send.trans (updPort (by exact fun _ => rfl))
    · split
      · exact send.trans (updPort (by exact fun _ => rfl))
      · exact refl o s

theorem takeRoce {mine : RocePkt → Bool} {k : RocePkt} (h : s.takeRoce o mine = some (u, k)) : PortFrame o s u := by
  unfold State.takeRoce at h
  split at h
  · exact absurd h (by simp)
  · split at h
    · obtain ⟨rfl, _⟩ := Prod.mk.inj (Option.some.inj h)
      exact (updPort (by exact fun _ => rfl)).trans pfcWatch
    · exact absurd h (by simp)

theorem qp (h : PortFrame o s t) (n : Nat) : t.qp o n = s.qp o n := by rw [State.qp, h.qps, State.qp]

end PortFrame

section
variable {s : State} {o : PortId} {n : Nat} {f : Qp → Qp}

theorem qp_updQp_same : (s.updQp o n f).qp o n = f (s.qp o n) := by
  rw [State.qp, State.updQp, updPort_same, mapGet_mapSet_same]
  rfl

theorem qp_updQp_other {m : Nat} (h : m ≠ n) : (s.updQp o n f).qp o m = s.qp o m := by
  rw [State.qp, State.updQp, updPort_same, mapGet_mapSet_other _ _ h, State.qp]

/-- A change of one queue pair changes no other. -/
theorem updQp_acts (k : PortFrame o s t) : (t.updQp o n f).qp o n = f (t.qp o n) ∧
    (∀ m, m ≠ n → (t.updQp o n f).qp o m = s.qp o m) ∧ (∀ p, p ≠ o → (t.updQp o n f).ports[p] = s.ports[p]) ∧
    (t.updQp o n f).mem = s.mem ∧ (t.updQp o n f).regs = s.regs ∧ (t.updQp o n f).cores = s.cores ∧ (t.updQp o n f).parts = s.parts ∧
    (t.updQp o n f).handles = s.handles ∧ (t.updQp o n f).mc = s.mc := by
  refine ⟨qp_updQp_same, fun m hm => (qp_updQp_other hm).trans (k.qp m), fun p hp => (updPort_other _ _ hp).trans (k.others p hp), ?_⟩
  rw [k.rest]
  exact ⟨rfl, rfl, rfl, rfl, rfl, rfl⟩

end

/-! ### RoCE packets -/

section
variable {o : PortId} {q : SubId} {k : RocePkt} {s u : State}

theorem exec_roceRequest (hon : s.portOn o = true) (htake : s.takeRoce o (fun x => x.asks q) = some (u, k)) (hserves : u.qpServes o k = true) :
    exec (.roceRequest o q) s =
      let v := u.cnpFor o k.qp k.ce
      if psnDist (v.qp o k.qp).expect k.psn = 0 then .next (v.requestIn o (v.qp o k.qp) k)
      else if psnDist (v.qp o k.qp).expect k.psn < 2 ^ 23 then .next (v.sendAeth o k.qp synSeq (v.qp o k.qp).expect)
      else if k.op = opReadRequest then .next (v.readIn o (v.qp o k.qp) k true)
      else .next (v.sendAeth o k.qp synAck (psnAdd (v.qp o k.qp).expect (2 ^ 24 - 1))) := by
  show execRoceRequest o q s = _
  unfold execRoceRequest
  rw [hon, htake, Bool.not_true, if_neg Bool.false_ne_true]
  dsimp only
  rw [hserves, Bool.not_true, if_neg Bool.false_ne_true]

theorem exec_roceResponse {n : Nat} (hon : s.portOn o = true) (htake : s.takeRoce o (fun x => x.answers n q) = some (u, k))
    (hserves : u.qpServes o k = true) : exec (.roceResponse o n q) s =
      if k.op = opAck then .next (((u.cnpFor o k.qp k.ce).aethIn o k.qp k.psn (rdLE k.body 0 1)).runQp o k.qp)
      else .next ((((u.cnpFor o k.qp k.ce).acked o k.qp (psnAdd k.psn (2 ^ 24 - 1))).readArrives o k.qp k.psn
        (if k.op = opReadMiddle then k.body else k.body.drop 4)).runQp o k.qp) := by
  show execRoceResponse o n q s = _
  unfold execRoceResponse
  rw [hon, htake, Bool.not_true, if_neg Bool.false_ne_true]
  dsimp only
  rw [hserves, Bool.not_true, if_neg Bool.false_ne_true]

theorem exec_cnp {n : Nat} (hon : s.portOn o = true) (htake : s.takeRoce o (fun x => decide (x.op = opCnp ∧ x.qp = n)) = some (u, k))
    (hserves : u.qpServes o k = true) (hdue : cnpDue (u.qp o k.qp).cutAt (u.nowNs o) = true) : exec (.cnp o n) s =
      .next (u.updQp o k.qp fun q => { q with rate := q.rate * 7 / 8, cutAt := some (u.nowNs o) }) := by
  show execCnp o n s = _
  unfold execCnp
  rw [hon, htake, Bool.not_true, if_neg Bool.false_ne_true]
  dsimp only
  rw [hserves, hdue, Bool.and_true, if_pos rfl]

end

theorem exec_roceRateIncrease {o : PortId} {n : Fin 1024} {s : State} (hon : s.portOn o = true) (hrts : (s.qp o n.val).rts = true) :
    exec (.roceRateIncrease o n) s = .next (s.updQp o n.val fun q => { q with rate := min 1 (q.rate + 1 / 100) }) := by
  show execRoceRateIncrease o n s = _
  rw [execRoceRateIncrease, hon, hrts, Bool.and_true, if_pos rfl]
  simp only [min_def]

theorem requestIn_write {o : PortId} {q : Qp} {k : RocePkt} {s : State} (h : k.op = opWriteOnly) : s.requestIn o q k = s.writeIn o q k := by
  rw [State.requestIn, h, if_pos (by decide)]

theorem requestIn_read {o : PortId} {q : Qp} {k : RocePkt} {s : State} (h : k.op = opReadRequest) :
    s.requestIn o q k = s.readIn o q k false := by
  rw [State.requestIn, h, if_neg (by decide), if_pos rfl]

theorem requestIn_send {o : PortId} {q : Qp} {k : RocePkt} {s : State} (h : k.op = opSendOnly) (hnew : q.confirms k = none) :
    s.requestIn o q k = s.sendIn o q k := by
  rw [State.requestIn, h, if_neg (by decide), if_neg (by decide), if_pos (by decide), hnew]

/-! ### Contexts and memory regions -/

theorem exec_qpxWrite (o : PortId) (v : Word) {b : List Byte} {s u : State}
    (hb : b = ofWords ((List.range 16).map fun w => s.reg (portQpxData o.val w))) (hu : u = s.setReg (portQpxSel o.val) (qpxSel v)) :
    exec (.qpxWrite o v) s =
      if bitAt v 27 ∧ 256 ≤ fld v 9 0 then .next (u.portRefuse o (portQpxSel o.val) 9)
      else if bitAt v 27 then
        match u.mrBad b with
        | some f => .next (u.portRefuse o (portQpxData o.val (f.1 / 4)) f.2)
        | none => .next (u.writeMr o (fld v 9 0) b)
      else
        match u.ctxRefused o (u.qp o (fld v 9 0)) b with
        | some f => .next (u.portRefuse o (portQpxData o.val (f.1 / 4)) f.2)
        | none => .next (u.writeCtx o (fld v 9 0) b) := by
  show execQpxWrite o v s = _
  unfold execQpxWrite
  rw [← hb, ← hu] <;> rfl

theorem portQpxData_inj (o : Nat) : ∀ i j, portQpxData o i = portQpxData o j → i = j := by
  intro i j h
  unfold portQpxData at h
  omega

theorem exec_qpxRead (o : PortId) (v : Word) (s : State) : exec (.qpxRead o v) s = .next
    ((s.setReg (portQpxSel o.val) (qpxSel v)).setRegs (portQpxData o.val) (toWords 16 (s.qpxEntry o (fld v 27 27) (fld v 9 0)))) := rfl

theorem qpxRead_acts (o : PortId) (v : Word) (s : State) : ∃ t : State, exec (.qpxRead o v) s = .next t ∧
    t.reg (portQpxSel o.val) = qpxSel v ∧
    (∀ i, i < 16 → t.reg (portQpxData o.val i) = (toWords 16 (s.qpxEntry o (fld v 27 27) (fld v 9 0))).getD i 0) ∧
    (∀ r, r ≠ portQpxSel o.val → (∀ i, i < 16 → r ≠ portQpxData o.val i) → t.reg r = s.reg r) ∧
    t.mem = s.mem ∧ t.ports = s.ports ∧ t.cores = s.cores ∧ t.parts = s.parts ∧ t.handles = s.handles ∧ t.mc = s.mc := by
  have hlen : (toWords 16 (s.qpxEntry o (fld v 27 27) (fld v 9 0))).length = 16 := length_toWords ..
  obtain ⟨regs, hrest⟩ := setRegs_rest (portQpxData o.val) (s.setReg (portQpxSel o.val) (qpxSel v))
    (toWords 16 (s.qpxEntry o (fld v 27 27) (fld v 9 0)))
  refine ⟨(s.setReg (portQpxSel o.val) (qpxSel v)).setRegs (portQpxData o.val) (toWords 16 (s.qpxEntry o (fld v 27 27) (fld v 9 0))),
    exec_qpxRead o v s, ?_, fun i hi => ?_, fun r hsel hdata => ?_, ?_⟩
  · rw [reg_setRegs_other _ _ fun i hi => ?_, reg_setReg_same]
    unfold portQpxSel portQpxData
    omega
  · exact reg_setRegs_same (portQpxData_inj o.val) _ _ (hlen.symm ▸ hi)
  · rw [reg_setRegs_other _ _ fun i hi => hdata i (hlen ▸ hi), reg_setReg_other _ _ hsel]
  · simp only [hrest, setReg_mem, setReg_ports, setReg_cores, setReg_parts, setReg_handles, setReg_mc, and_self]

/-- Settles O54: a packet by its kind and its number, a register command by what it selects. -/
theorem roceActs : Obligations.RoceActs := by
  refine ⟨?request, fun o q k s => ⟨requestIn_write, requestIn_read, requestIn_send⟩, ?response, fun o n ce s => ?notice, ?cut,
    fun o n s hon hrts hold => ?timeout, fun o n s hon hrts => ?rate, qpxRead_acts, ?write⟩
  case request =>
    intro o q k u v s hon htake hserves hv
    rw [exec_roceRequest hon htake hserves]
    dsimp only
    rw [← hv]
    refine ⟨fun hnow => if_pos hnow, fun hlate hnear => ?_, fun hearly hread => ?_, fun hearly hother => ?_⟩
    · rw [if_neg hlate, if_pos hnear]
    · rw [if_neg (by omega), if_neg (by omega), if_pos hread]
    · rw [if_neg (by omega), if_neg (by omega), if_neg hother]
  case response =>
    intro o n q k u s hon htake hserves
    rw [exec_roceResponse hon htake hserves]
    exact ⟨fun hack => if_pos hack, fun hread => if_neg hread⟩
  case notice =>
    rw [State.cnpFor]
    exact if_congr (Bool.and_eq_true_iff) rfl rfl
  case cut =>
    intro o n k u s hon htake hserves hdue
    exact ⟨_, exec_cnp hon htake hserves hdue, updQp_acts (.takeRoce htake)⟩
  case timeout =>
    show execRoceAckTimeout o n s = _
    rw [execRoceAckTimeout, hon, hrts, hold]
    rfl
  case rate => exact ⟨_, exec_roceRateIncrease hon hrts, updQp_acts (.refl o s)⟩
  case write =>
    intro o v b u s hb hu
    rw [exec_qpxWrite o v hb hu]
    refine ⟨fun hregion hpast => if_pos ⟨hregion, hpast⟩, fun hregion hin hsound => ?_, fun f hregion hin hbad => ?_, fun hctx hsound => ?_,
      fun f hctx hbad => ?_⟩
    · rw [if_neg fun h => absurd h.2 (Nat.not_le.mpr hin), if_pos hregion, hsound]
    · rw [if_neg fun h => absurd h.2 (Nat.not_le.mpr hin), if_pos hregion, hbad]
    · rw [hctx, if_neg fun h => Bool.false_ne_true h.1, if_neg Bool.false_ne_true, hsound]
    · rw [hctx, if_neg fun h => Bool.false_ne_true h.1, if_neg Bool.false_ne_true, hbad]

end Sys2Proof.Machine


namespace Sys2Proof.Machine

/-! ### A turn on a busy line

R278: a turn that finds its line busy starts nothing. The model then also leaves the port's clock where it was: the turn's wait
does not pass. -/

/-- A frame of subport 0 that is on the wire until time unit 100. -/
def frameOnWire : OnWire := ⟨0, 0, [], 100⟩

/-- A device whose port 0 has its link up and sends a frame. -/
def sendingPort : State := { State.reset with
  regs := [(portStat 0, 1)]
  mc := { State.reset.mc with
    portsOn := true
    portsUp := 1
    complete := true }
  ports := State.reset.ports.set 0 { State.reset.ports[0] with onWire := [frameOnWire] } }

/-- The same device one time unit later. -/
def sendingLater : State := sendingPort.updPort 0 fun p => { p with clock := 1 }

theorem sendingPort_reaches : sendingPort.portReach 0 (sendingPort.ports[(0 : PortId)].clock + 1) = some sendingLater := by decide

theorem sendingLater_busy : sendingLater.lineBusy 0 0 = true := by decide

/-- A turn with a wait, on a line that is busy after it, leaves the state as it was. -/
theorem exec_frameTransmit_busy {o : PortId} {q : SubId} {w : Nat} {s u : State}
    (hreach : s.portReach o (s.ports[o].clock + w) = some u) (hbusy : u.lineBusy o q = true) :
    exec (.frameTransmit o ⟨q, w⟩) s = .next s := by
  show execFrameTransmit o ⟨q, w⟩ s = _
  unfold execFrameTransmit
  dsimp only
  rw [hreach]
  dsimp only
  rw [hbusy, if_pos rfl, ite_self]

/-- Refutes O52: on a line that is busy the clock of the port stands, and the state is not that at the end of the turn's wait. -/
theorem not_portFramesAct : ¬ Obligations.PortFramesAct := by
  intro h
  obtain ⟨_, _, _, _, _, htransmit, _⟩ := h
  obtain ⟨hbusy, _⟩ := htransmit 0 0 1 sendingLater sendingPort (by decide) (by decide) sendingPort_reaches
  have hclaim := hbusy sendingLater_busy
  rw [exec_frameTransmit_busy sendingPort_reaches sendingLater_busy] at hclaim
  have hclock := congrArg (fun t : State => t.ports[(0 : PortId)].clock) (Host.Outcome.next.inj hclaim)
  exact absurd hclock (by decide)

end Sys2Proof.Machine


namespace Sys2Proof.Machine

/-! ### The starter weighs the step -/

theorem ahead_of_undecided {j : Job} (h : j.cmt.decided = false) (n : Nat) : j.ahead n = false := by
  rw [Job.ahead, h, Bool.false_and]

/-- Changes that agree on the job as it stands make the same state. -/
theorem updJob_congr {p : PartId} {j : Job} {f g : Job → Job} {s : State} (hj : s.job p = some j) (h : f j = g j) :
    s.updJob p f = s.updJob p g := by
  rw [State.job] at hj
  unfold State.updJob State.updPart
  simp only [hj, Option.map_some, h]

/-- Whether a READY of this message counts at the starter. -/
def Job.dropsReady (j : Job) (k : Cluster) (e : EntryId) (m : List Byte) : Bool :=
  !k.leads || j.cmt.decided || decide (rdLE m 16 4 ≠ j.step.commit + 1) || decide (rdLE m 20 1 ≠ j.step.attempt) ||
    !inMask k.roster e.val || j.cmt.readies.any (fun r => decide (r.entry = e.val))

/-- Whether an ABORT_REQ of this message is dropped by the starter. -/
def Job.dropsAbortReq (j : Job) (k : Cluster) (m : List Byte) : Bool :=
  !k.leads || j.cmt.decided ||
    (decide (rdLE m 22 2 ≠ 0x7107) && (decide (rdLE m 16 4 ≠ j.step.commit + 1) || decide (rdLE m 20 1 ≠ j.step.attempt)))

section
variable {p : PartId} {e : EntryId} {m : List Byte} {j : Job} {k : Cluster} {s u : State}

theorem exec_ready (hpop : s.popMsg p e.val 0 0x21 = some (m, u)) (hj : s.job p = some j) (hk : s.cluster p = some k)
    (hahead : j.ahead (rdLE m 16 4) = false) : exec (.ready p e) s = if j.dropsReady k e m then .next u else
      .next ((u.updJob p fun j => { j with cmt := { j.cmt with
        readies := j.cmt.readies ++ [⟨e.val, rdLE m 21 1, rdLE m 22 1, rdLE m 24 4⟩], timer := !j.cmt.ckptWait } }).weighReady p) := by
  show execReady p e s = _
  unfold execReady
  rw [hpop]
  dsimp only
  rw [hj, hk]
  dsimp only
  rw [hahead, if_neg Bool.false_ne_true]
  rfl

theorem dropsReady_iff : j.dropsReady k e m = true ↔ k.leads = false ∨ j.cmt.decided = true ∨ rdLE m 16 4 ≠ j.step.commit + 1 ∨
    rdLE m 20 1 ≠ j.step.attempt ∨ inMask k.roster e.val = false ∨ ∃ r ∈ j.cmt.readies, r.entry = e.val := by
  simp only [Job.dropsReady, Bool.or_eq_true, Bool.not_eq_true', decide_eq_true_eq, List.any_eq_true, or_assoc]

theorem exec_abortReq (hpop : s.popMsg p e.val 0 0x22 = some (m, u)) (hj : s.job p = some j) (hk : s.cluster p = some k)
    (hdecided : j.cmt.decided = false) : exec (.abortReq p e) s = if j.dropsAbortReq k m then .next u
      else if rdLE m 22 2 = 0x7105 ∧ rdLE m 24 1 ≠ k.self then .next (u.removeMember p (rdLE m 24 1) 0x7105 0x7105)
      else .next ((if rdLE m 22 2 = 0x7107 then u.raise .mc (some p) 0x7107 [Config.fieldWord 0x7107 1 0, 0] else u).starterAbort p
        (rdLE m 22 2) (rdLE m 24 1) 0 k.targets) := by
  show execAbortReq p e s = _
  unfold execAbortReq
  rw [hpop]
  dsimp only
  rw [hj, hk]
  dsimp only
  rw [ahead_of_undecided hdecided, if_neg Bool.false_ne_true]
  rfl

theorem keeps_abortReq (hleads : k.leads = true) (hdecided : j.cmt.decided = false)
    (hstep : rdLE m 22 2 = 0x7107 ∨ rdLE m 16 4 = j.step.commit + 1 ∧ rdLE m 20 1 = j.step.attempt) : j.dropsAbortReq k m = false := by
  rw [Job.dropsAbortReq, hleads, hdecided]
  obtain hcode | ⟨hcommit, hattempt⟩ := hstep
  · rw [decide_eq_false (not_not_intro hcode)]
    rfl
  · rw [decide_eq_false (not_not_intro hcommit), decide_eq_false (not_not_intro hattempt), Bool.or_self, Bool.and_false]
    rfl

theorem exec_commitTimeout {x : Nat} (hj : s.job p = some j) (hk : s.cluster p = some k) (hleads : k.leads = true)
    (htimer : j.cmt.timer = true) (hdecided : j.cmt.decided = false)
    (hlate : ((rosterList k.roster).find? fun e => !j.cmt.readies.any fun r => decide (r.entry = e)) = some x) :
    exec (.commitTimeout p) s =
      if j.cmt.namedLate.take 2 = [x, x] ∧ x ≠ k.self then
        .next (((s.raise .mc (some p) 0x7102 [j.step.commit + 1, j.step.attempt, x]).updJob p fun j =>
          { j with cmt := { j.cmt with namedLate := x :: j.cmt.namedLate } }).removeMember p x 0x7102 0x7102)
      else .next (((s.raise .mc (some p) 0x7102 [j.step.commit + 1, j.step.attempt, x]).updJob p fun j =>
        { j with cmt := { j.cmt with namedLate := x :: j.cmt.namedLate } }).starterAbort p 0x7102 x 0 k.targets) := by
  show execCommitTimeout p s = _
  unfold execCommitTimeout
  rw [hj, hk]
  dsimp only
  rw [hleads, htimer, hdecided, hlate]
  rfl

/-! ### Turns of a checkpoint -/

/-- The requests for a checkpoint with that of entry `x`. -/
def withRequest (l : List Nat) (x : Nat) : List Nat := if l.contains x then l else l ++ [x]

theorem mem_withRequest {l : List Nat} {x y : Nat} : y ∈ withRequest l x ↔ y ∈ l ∨ y = x := by
  unfold withRequest
  split
  next hin =>
    refine ⟨.inl, ?_⟩
    rintro (hy | rfl)
    · exact hy
    · exact List.contains_iff_mem.mp hin
  next => rw [List.mem_append, List.mem_singleton]

theorem ckptReq_acts (hpop : s.popMsg p e.val 0 0x25 = some (m, u)) (hj : u.job p = some j) : ∃ t : State, exec (.ckptReq p e) s = .next t ∧
      t.job p = some { j with cmt := { j.cmt with ckptReqs := (t.job p).elim [] fun k => k.cmt.ckptReqs } } ∧
      (∀ x, x ∈ ((t.job p).elim [] fun k => k.cmt.ckptReqs) ↔ x ∈ j.cmt.ckptReqs ∨ x = e.val) ∧
      t.mem = s.mem ∧ t.regs = s.regs ∧ t.cores = s.cores ∧ t.handles = s.handles ∧ t.nvm = s.nvm ∧ t.mc = s.mc ∧ t.ports = s.ports ∧
      t.usb = s.usb ∧ ∀ q, q ≠ p → t.parts[q] = s.parts[q] := by
  have hexec : exec (.ckptReq p e) s = .next (u.updJob p fun j =>
      { j with cmt := { j.cmt with ckptReqs := withRequest j.cmt.ckptReqs e.val } }) := by
    show execCkptReq p e s = _
    unfold execCkptReq
    rw [hpop]
    rfl
  have hjob : (u.updJob p fun j => { j with cmt := { j.cmt with ckptReqs := withRequest j.cmt.ckptReqs e.val } }).job p =
      some { j with cmt := { j.cmt with ckptReqs := withRequest j.cmt.ckptReqs e.val } } := by rw [job_updJob_same, hj, Option.map_some]
  obtain ⟨c, n, _, _, _, rfl⟩ := popMsg_eq_some hpop
  refine ⟨_, hexec, ?_, fun x => ?_, rfl, rfl, rfl, rfl, rfl, rfl, rfl, rfl, fun q hq => ?_⟩
  · rw [hjob]
    rfl
  · rw [hjob, Option.elim_some]
    exact mem_withRequest
  · rw [State.updJob, updPart_other _ _ hq, State.updCluster, State.updJob, updPart_other _ _ hq]

theorem exec_ckptRead {all : Bool} (hpop : s.popMsg p e.val 0 0x26 = some (m, u)) (hj : u.job p = some j) (hk : u.cluster p = some k)
    (hall : all = true ↔ ∀ x ∈ rosterList k.roster, x ∈ j.cmt.ckptReads ∨ x = e.val) : exec (.ckptRead p e) s =
      .next (u.updJob p fun i => { i with cmt := { i.cmt with
        ckptReads := if all then [] else j.cmt.ckptReads ++ [e.val], ckptWait := i.cmt.ckptWait && !all
        timer := i.cmt.timer || (all && decide (i.cmt.readies ≠ [])) } }) := by
  have heq : (rosterList k.roster).all (j.cmt.ckptReads ++ [e.val]).contains = all := by
    rw [Bool.eq_iff_iff, hall]
    simp only [List.all_eq_true, List.contains_iff_mem, List.mem_append, List.mem_singleton]
  show execCkptRead p e s = _
  unfold execCkptRead
  rw [hpop]
  dsimp only
  rw [hj, hk]
  dsimp only
  rw [heq]

/-! ### Rebalancing -/

theorem exec_rebalanced (hpop : s.popMsg p e.val 0 0x27 = some (m, u)) (hj : s.job p = some j) (hk : s.cluster p = some k)
    (hdecided : j.cmt.decided = false) (hleads : k.leads = true) (hepoch : rdLE m 16 4 = k.epoch) : exec (.rebalanced p e) s =
      if !j.step.started && decide (rdLE m 8 4 ≠ j.step.commit) then
        .next ((u.raise .mc (some p) 0x7107 [Config.fieldWord 0x7107 0 0, 0]).starterAbort p 0x7107 e.val 0 k.targets)
      else .next ((u.updJob p fun j => { j with cmt := { j.cmt with rebalanced := j.cmt.rebalanced ++ [e.val] } }).tryStart p) := by
  show execRebalanced p e s = _
  unfold execRebalanced
  rw [hpop]
  dsimp only
  rw [hj, hk]
  dsimp only
  rw [hdecided, hleads, if_neg fun h => Bool.false_ne_true h.1, decide_eq_false (not_not_intro hepoch)]
  rfl

end

/-- Settles O37: each message by the branch of the starter that it takes. -/
theorem starterWeighsTheStep : Obligations.StarterWeighsTheStep := by
  refine ⟨?ready, ?dropped, ?ended, ?stale, ?mismatch, ?late, ?third, fun p e m j u s hpop hj => ckptReq_acts hpop hj, ?read, ?allRead,
    ?rebalanced, ?otherStep, fun p e m u s hpop => ?host⟩
  case ready =>
    intro p e m j k u s hpop hj hk hleads hdecided hcommit hattempt hmember hfirst
    rw [exec_ready hpop hj hk (ahead_of_undecided hdecided _), if_neg]
    rw [dropsReady_iff]
    rintro (h | h | h | h | h | ⟨r, hr, hentry⟩)
    · exact Bool.false_ne_true (h.symm.trans hleads)
    · exact Bool.false_ne_true (hdecided.symm.trans h)
    · exact h hcommit
    · exact h hattempt
    · exact Bool.false_ne_true (h.symm.trans hmember)
    · exact hfirst r hr hentry
  case dropped =>
    intro p e m j k u s hpop hj hk hahead hdrop
    rw [exec_ready hpop hj hk hahead, if_pos (dropsReady_iff.mpr hdrop)]
  case ended =>
    intro p e m j k u s hpop hj hk hleads hdecided hcommit hattempt hshard hmismatch
    rw [exec_abortReq hpop hj hk hdecided, keeps_abortReq hleads hdecided (.inr ⟨hcommit, hattempt⟩), if_neg Bool.false_ne_true,
      if_neg fun h => hshard h.1, if_neg hmismatch]
  case stale =>
    intro p e m j k u s hpop hj hk hleads hdecided hcommit hattempt hshard hother
    rw [exec_abortReq hpop hj hk hdecided, keeps_abortReq hleads hdecided (.inr ⟨hcommit, hattempt⟩), if_neg Bool.false_ne_true,
      if_pos ⟨hshard, hother⟩]
  case mismatch =>
    intro p e m j k u s hpop hj hk hleads hdecided hmismatch
    rw [exec_abortReq hpop hj hk hdecided, keeps_abortReq hleads hdecided (.inl hmismatch), if_neg Bool.false_ne_true,
      if_neg fun h => absurd (hmismatch.symm.trans h.1) (by decide), if_pos hmismatch, hmismatch]
  case late =>
    intro p j k x s hj hk hleads htimer hdecided hlate hnot
    rw [exec_commitTimeout hj hk hleads htimer hdecided hlate, if_neg fun h => hnot.elim (fun hn => hn h.1) fun hself => h.2 hself]
  case third =>
    intro p j k x s hj hk hleads htimer hdecided hlate hnamed hother
    rw [exec_commitTimeout hj hk hleads htimer hdecided hlate, if_pos ⟨hnamed, hother⟩]
  case read =>
    rintro p e m j k u s hpop hj hk ⟨x, hx, hunread, hself⟩
    have hall : false = true ↔ ∀ x ∈ rosterList k.roster, x ∈ j.cmt.ckptReads ∨ x = e.val :=
      iff_of_false Bool.false_ne_true fun h => (h x hx).elim hunread hself
    rw [exec_ckptRead hpop hj hk hall]
    refine congrArg Host.Outcome.next (updJob_congr hj ?_)
    simp only [Bool.false_eq_true, if_false, Bool.not_false, Bool.and_true, Bool.false_and, Bool.or_false]
  case allRead =>
    intro p e m j k u s hpop hj hk hread
    rw [exec_ckptRead hpop hj hk (iff_of_true (rfl : true = true) hread)]
    simp only [if_true, Bool.not_true, Bool.and_false, Bool.true_and]
  case rebalanced =>
    intro p e m j k u s hpop hj hk hdecided hleads hepoch hsame
    rw [exec_rebalanced hpop hj hk hdecided hleads hepoch, if_neg]
    rw [Bool.and_eq_true_iff]
    rintro ⟨hnot, hother⟩
    rcases hsame with h | h
    · rw [h] at hnot
      exact absurd hnot (by decide)
    · exact of_decide_eq_true hother h
  case otherStep =>
    intro p e m j k u s hpop hj hk hdecided hleads hepoch hnot hother
    rw [exec_rebalanced hpop hj hk hdecided hleads hepoch, if_pos]
    rw [hnot, decide_eq_true hother]
    rfl
  case host =>
    show execHostOp p e s = _
    rw [execHostOp, hpop]

/-! ### The members -/

section
variable {p : PartId} {e : EntryId} {m : List Byte} {j : Job} {k : Cluster} {s u : State}

theorem exec_commit_member (hpop : s.popMsg p e.val 0 0x23 = some (m, u)) (hj : u.job p = some j) (hk : u.cluster p = some k)
    (hstate : k.state ≠ .admitting) : exec (.commit p e) s =
      if rdLE m 16 4 = j.step.commit + 1 ∧ (rdLE m 20 1 = j.step.attempt ∨ rdLE m 20 1 = 0xFF) then
        .next (((u.applyCommit p (rdLE m 16 4) (rdLE m 21 1)).serveHeldGathers p).afterDecision p).fenceDue
      else .next (u.otBad (s.msgPort p e.val 0)) := by
  show execCommit p e s = _
  unfold execCommit
  rw [hpop]
  dsimp only
  rw [hj, hk]
  dsimp only
  rw [if_neg hstate]

theorem exec_commit_joiner {r : RosterMsg} (hpop : s.popMsg p e.val 0 0x23 = some (m, u)) (hj : u.job p = some j) (hk : u.cluster p = some k)
    (hstate : k.state = .admitting) (hdue : k.dueRoster (rdLE m 16 4) = some r) (hmember : inMask r.mask k.self = true) :
    exec (.commit p e) s = .next ((u.updJob p fun j => { j with
      step := { j.step with commit := rdLE m 16 4, attempt := 0 } }).applyRoster p r false) := by
  show execCommit p e s = _
  unfold execCommit
  rw [hpop]
  dsimp only
  rw [hj, hk]
  dsimp only
  rw [if_pos hstate, hdue]
  exact if_pos hmember

theorem exec_abort_member (hpop : s.popMsg p e.val 0 0x24 = some (m, u)) (hj : u.job p = some j) (hk : u.cluster p = some k)
    (hstate : k.state ≠ .admitting) : exec (.abort p e) s =
      if rdLE m 16 4 = j.step.commit + 1 ∧ rdLE m 20 1 = j.step.attempt + 1 then
        .next (((u.applyAbort p (rdLE m 20 1) (rdLE m 21 1) (rdLE m 22 2) (rdLE m 24 1) (rdLE m 4 4)).serveHeldGathers
          p).afterDecision p).fenceDue
      else .next (u.otBad (s.msgPort p e.val 0)) := by
  show execAbort p e s = _
  unfold execAbort
  rw [hpop]
  dsimp only
  rw [hj, hk]
  dsimp only
  rw [if_neg fun h => hstate h.1]

end

/-- Settles O38: each message by the branch of the member that it takes. -/
theorem membersFollowTheStarter : Obligations.MembersFollowTheStarter := by
  refine ⟨?start, ?commit, ?lateCommit, ?abort, ?lateAbort, ?joiner⟩
  case start =>
    intro p e m j k u s hpop hj hk hcommit hcancel hfailed hroster
    show execStartStep p e s = _
    unfold execStartStep
    rw [hpop]
    dsimp only
    rw [hj, hk]
    dsimp only
    rw [if_neg (by rintro (h | h | h); exacts [h hcommit, hcancel h, hfailed h]), if_neg hroster]
  case commit =>
    intro p e m j k u s hpop hj hk hstate hcommit hattempt
    rw [exec_commit_member hpop hj hk hstate, if_pos ⟨hcommit, hattempt⟩]
  case lateCommit =>
    intro p e m j k u s hpop hj hk hstate hother
    rw [exec_commit_member hpop hj hk hstate, if_neg]
    rintro ⟨hcommit, hattempt⟩
    obtain h | ⟨hown, hany⟩ := hother
    · exact h hcommit
    · exact hattempt.elim hown hany
  case abort =>
    intro p e m j k u s hpop hj hk hstate hcommit hattempt
    rw [exec_abort_member hpop hj hk hstate, if_pos ⟨hcommit, hattempt⟩]
  case lateAbort =>
    intro p e m j k u s hpop hj hk hstate hother
    rw [exec_abort_member hpop hj hk hstate, if_neg]
    rintro ⟨hcommit, hattempt⟩
    exact hother.elim (fun h => h hcommit) fun h => h hattempt
  case joiner =>
    intro p e m j k r u s hpop hj hk hstate hdue hmember
    exact exec_commit_joiner hpop hj hk hstate hdue hmember

/-! ### Joining -/

section
variable {p : PartId} {e : EntryId} {m : List Byte} {k : Cluster} {s u : State}

theorem exec_join (hpop : s.popMsg p e.val 0 0x01 = some (m, u)) (hk : u.cluster p = some k) : exec (.join p e) s =
    if !k.leads then .next (u.sendCtl p e.val 0x05 (leBytes 4 k.starter ++ leBytes 4 k.epoch))
    else if u.joinRefusal k e.val m ≠ 0 then
      .next ((u.raise .mc (some p) 0x7002 [e.val, u.joinRefusal k e.val m]).sendCtl p e.val 0x02 (leBytes 4 (u.joinRefusal k e.val m)))
    else .next ((((u.updCluster p fun c => { c with
        admitted := (c.admitted ++ [e.val]).mergeSort (· ≤ ·), serials := mapSet c.serials e.val (rdLE m 16 8)
        numbers := mapSet c.numbers e.val (rdLE m 8 4) }).sendCtl p e.val 0x02 (leBytes 4 0)).beginFirst p).restoreRoster p) := by
  show execJoin p e s = _
  unfold execJoin
  rw [hpop]
  dsimp only
  rw [hk]

theorem exec_redirect (hpop : s.popMsg p e.val 0 0x05 = some (m, u)) (hk : u.cluster p = some k) : exec (.redirect p e) s =
    if rdLE m 16 1 = k.self ∨ k.state = .member ∨ (k.state = .paused ∧ !k.lostStarter) then .next u
    else .next ((u.updCluster p fun c => { c with starter := rdLE m 16 1, epoch := rdLE m 20 4 }).sendJoin p) := by
  show execRedirect p e s = _
  unfold execRedirect
  rw [hpop]
  dsimp only
  rw [hk]

theorem exec_roster (hpop : s.popMsg p e.val 0 0x03 = some (m, u)) (hk : u.cluster p = some k) : exec (.roster p e) s =
    if k.roster = 0 ∧ u.loadWaits p then .next (((u.applyRoster p (rosterOf m) true).loadRoster p).removeUnreached p)
    else .next (
      let v := u.updCluster p fun c => { c with heldRosters := c.heldRosters ++ [rosterOf m] }
      if k.roster = 0 ∧ v.startsElsewhere p (rosterOf m) then v.sendAbortReq p 0x7107 k.self else v) := by
  show execRoster p e s = _
  unfold execRoster
  rw [hpop]
  dsimp only
  rw [hk]

/-- A message whose only effect is a change of the cluster. -/
theorem updCluster_acts {kind : Nat} {f : Cluster → Cluster} {i : Instr} (hpop : s.popMsg p e.val 0 kind = some (m, u))
    (hk : u.cluster p = some k) (hexec : exec i s = .next (u.updCluster p f)) : ∃ t : State, exec i s = .next t ∧
      t.cluster p = some (f k) ∧ t.mem = s.mem ∧ t.cores = s.cores ∧ t.handles = s.handles ∧ ∀ q, q ≠ p → t.job q = s.job q := by
  obtain ⟨_, _, _, _, _, _, _, _, _, hmem, _, hcores, _, _, hhandles, hjobs⟩ := popMsg_takes_first p e.val 0 kind m u s hpop
  exact ⟨_, hexec, by rw [cluster_updCluster_same, hk, Option.map_some], hmem, hcores, hhandles,
    fun q hq => (job_updJob_other u _ hq).trans (hjobs q hq)⟩

end

/-- Settles O39: each message by its branch. -/
theorem joiningActs : Obligations.JoiningActs := by
  refine ⟨?away, ?refused, ?admitted, ?reply, ?refusedReply, ?follow, ?stay, ?load, ?elsewhere, ?held⟩
  case away =>
    intro p e m k u s hpop hk hleads
    rw [exec_join hpop hk, hleads]
    rfl
  case refused =>
    intro p e m k u s hpop hk hleads hrefusal
    rw [exec_join hpop hk, hleads, Bool.not_true, if_neg Bool.false_ne_true, if_pos hrefusal]
  case admitted =>
    intro p e m k u s hpop hk hleads hsound
    rw [exec_join hpop hk, hleads, Bool.not_true, if_neg Bool.false_ne_true, if_neg (not_not_intro hsound)]
  case reply =>
    intro p e m k u s hpop hk hzero
    obtain ⟨t, hexec, hcluster, hmem, hcores, hhandles, hjobs⟩ := updCluster_acts
      (f := fun c => { c with state := if c.state = .joining then .admitting else c.state }) (i := .joinReply p e) hpop hk (by
        show execJoinReply p e s = _
        rw [execJoinReply, hpop]
        exact if_pos hzero)
    exact ⟨t, hexec, hcluster, hhandles, hmem, hcores, hjobs⟩
  case refusedReply =>
    intro p e m u s hpop hreason
    show execJoinReply p e s = _
    rw [execJoinReply, hpop]
    exact if_neg hreason
  case follow =>
    intro p e m k u s hpop hk hother hmember hpaused
    rw [exec_redirect hpop hk, if_neg]
    rintro (h | h | ⟨hp, hlost⟩)
    · exact hother h
    · exact hmember h
    · obtain hn | hl := hpaused
      · exact hn hp
      · rw [hl] at hlost
        exact absurd hlost (by decide)
  case stay =>
    intro p e m k u s hpop hk hpaused hlost
    rw [exec_redirect hpop hk, if_pos (.inr (.inr ⟨hpaused, by rw [hlost]; rfl⟩))]
  case load =>
    intro p e m k u s hpop hk hroster hload
    rw [exec_roster hpop hk, if_pos ⟨hroster, hload⟩]
  case elsewhere =>
    intro p e m k u s hpop hk hroster hload helse
    rw [exec_roster hpop hk, if_neg fun h => Bool.false_ne_true (hload.symm.trans h.2)]
    exact congrArg Host.Outcome.next (if_pos ⟨hroster, helse⟩)
  case held =>
    intro p e m k u s hpop hk hroster
    exact updCluster_acts (f := fun c => { c with heldRosters := c.heldRosters ++ [rosterOf m] }) hpop hk (by
      rw [exec_roster hpop hk, if_neg fun h => hroster h.1]
      exact congrArg Host.Outcome.next (if_neg fun h => hroster h.1))

end Sys2Proof.Machine


namespace Sys2Proof.Machine

/-! ### What sending keeps of a member -/

/-- A cluster without its connections and its mail. -/
def Cluster.still (k : Cluster) : Cluster := { k with conns := [], inbox := [] }

/-- A job without the connections and the mail of its cluster. -/
def Job.still (j : Job) : Job := { j with cluster := j.cluster.map Cluster.still }

/-- `t` keeps of `s` the job of `p` but for connections and mail, and memory outside the rings. -/
structure MailFrame (p : PartId) (s t : State) : Prop where
  job : (t.job p).map Job.still = (s.job p).map Job.still
  rings : ∀ a, t.inRings a = s.inRings a
  rd : ∀ a, s.inRings a = false → t.rd a = s.rd a

namespace MailFrame

variable {p : PartId} {s t u : State}

theorem refl (p : PartId) (s : State) : MailFrame p s s := ⟨rfl, fun _ => rfl, fun _ _ => rfl⟩

theorem trans (h : MailFrame p s t) (k : MailFrame p t u) : MailFrame p s u where
  job := k.job.trans h.job
  rings a := (k.rings a).trans (h.rings a)
  rd a ha := (k.rd a ((h.rings a).trans ha)).trans (h.rd a ha)

theorem ite {c : Prop} [Decidable c] (h : MailFrame p s t) (k : MailFrame p s u) : MailFrame p s (if c then t else u) := by
  split
  · exact h
  · exact k

theorem foldl {α : Type} {f : State → α → State} (hf : ∀ t a, MailFrame p t (f t a)) (l : List α) (s : State) :
    MailFrame p s (l.foldl f s) := by
  induction l generalizing s with
  | nil => exact refl p s
  | cons a l ih => exact (hf s a).trans (ih _)

theorem raise {src : Src} {part : Option PartId} {code : Nat} {ds : List Nat} : MailFrame p s (s.raise src part code ds) where
  job := by rw [raise_job]
  rings := raise_inRings s src part code ds
  rd _ ha := raise_rd s src part code ds ha

theorem inRings_of_mc (h : t.mc = s.mc) (a : Nat) : t.inRings a = s.inRings a := by
  have hhctx (q : PartId) : t.hctx q = s.hctx q := by rw [State.hctx, h, State.hctx]
  simp only [State.inRings, hhctx]

theorem updCluster {f : Cluster → Cluster} (hf : ∀ k, (f k).still = k.still) : MailFrame p s (s.updCluster p f) where
  job := by
    rw [State.updCluster, job_updJob_same, Option.map_map]
    refine congrArg (fun g => (s.job p).map g) (funext fun j => ?_)
    simp only [Function.comp_apply, Job.still, Option.map_map]
    rw [show Cluster.still ∘ f = Cluster.still from funext hf]
  rings := inRings_of_mc rfl
  rd _ _ := rfl

theorem updConn {i : Nat} {f : ConnRun → ConnRun} : MailFrame p s (s.updCluster p fun c => c.updConn i f) :=
  updCluster (by exact fun _ => rfl)

theorem otCount {o : PortId} {n k : Nat} : MailFrame p s (s.otCount o n k) where
  job := by rw [State.otCount, count_job]
  rings := inRings_of_mc (count_mc ..)
  rd _ _ := count_rd ..

theorem otSend {c : Cluster} {i vc : Nat} {bytes : List Byte} : MailFrame p s (s.otSend p c i vc bytes) := by
  unfold State.otSend
  split
  · exact refl p s
  · exact ⟨rfl, inRings_of_mc rfl, fun _ _ => rfl⟩

theorem pumpGo {i vc : Nat} (fs : List OtFrame) : MailFrame p s (State.pumpGo p i vc fs s) := by
  induction fs generalizing s with
  | nil => exact refl p s
  | cons f rest ih =>
    unfold State.pumpGo
    split
    · exact refl p s
    · extract_lets r v sent sentS n counted
      have hcounted : MailFrame p s counted := by
        unfold counted
        split
        · exact otCount
        · exact refl p s
      exact ite (refl p s) (ite ((otSend.trans updConn).trans ih) (hcounted.trans updConn))

theorem sendOn {i vc : Nat} {bytes : List Byte} : MailFrame p s (s.sendOn p i vc bytes) := by
  unfold State.sendOn State.pump
  split
  · exact refl p s
  · extract_lets msg fs
    split
    · exact updConn
    · exact updConn.trans (pumpGo _)

theorem sendTo {e vc : Nat} {bytes : List Byte} : MailFrame p s (s.sendTo p e vc bytes) := by
  unfold State.sendTo
  split
  · exact refl p s
  · split
    · exact updCluster (by exact fun _ => rfl)
    · split
      · exact sendOn
      · exact refl p s

theorem sendAll {es : List Nat} {epoch type : Nat} {body : List Byte} : MailFrame p s (s.sendAll p es epoch type body) := by
  unfold State.sendAll
  split
  · exact foldl (fun _ _ => sendTo) _ _
  · exact refl p s

end MailFrame

/-! ### A takeover (R327) -/

/-- What a takeover makes of a member's cluster. -/
def Cluster.takesOver (k : Cluster) : Cluster :=
  { k with starter := k.self, takeovers := k.takeovers + 1, queried := false, agrees := [], silent := false }

/-- What a takeover makes of a member's job. -/
def Job.decides (j : Job) : Job := { j with cmt := { j.cmt with decided := true, readies := [], timer := false } }

section
variable {p : PartId} {j : Job} {k : Cluster} {s : State}

theorem takeover_alone {cmax epoch : Nat} {m : BitVec 64} {v w : State} (hj : s.job p = some j) (hk : s.cluster p = some k)
    (hmax : cmax = (k.agrees.map Prod.snd).foldl Nat.max j.step.commit) (hm : m = delEntry k.roster k.starter)
    (hepoch : epoch = (k.epoch + 1) % 2 ^ 32) (hshrink : k.cl.shrink = true) (henough : k.cl.minMembers ≤ (rosterList m).length)
    (hfirst : (if j.step.commit = cmax then j.step.attempt + 1 else 1) < 254)
    (hv : v = (((s.raise .mc (some p) 0x7005 [k.starter, k.self, epoch]).updCluster p fun c =>
        { c with starter := c.self, takeovers := c.takeovers + 1, queried := false, agrees := [], silent := false }).sendAll p
      ((rosterList m).filter fun e => if e = k.self then decide (j.step.commit + 1 = cmax) else decide (mapGet k.agrees e ≠ some cmax))
      k.epoch 0x23 (leBytes 4 cmax ++ leBytes 1 0xFF ++ leBytes 1 0 ++ leBytes 2 0)))
    (hw : w = (v.raise .mc (some p) 0x7004 [k.starter, 0x7005, epoch]).sendAll p (rosterList m) k.epoch 0x03
      (RosterMsg.mk epoch cmax k.self (successorIn m k.self k.starter) m).body) :
    s.takeover p = (w.updJob p fun j => { j with cmt := { j.cmt with decided := true, readies := [], timer := false } }).sendAll p
      (rosterList m) epoch 0x24 (leBytes 4 (cmax + 1) ++ leBytes 1 (if j.step.commit = cmax then j.step.attempt + 1 else 1) ++
        leBytes 1 0 ++ leBytes 2 0x7005 ++ leBytes 1 k.starter) := by
  unfold State.takeover
  rw [hj, hk]
  dsimp only
  rw [← hmax, ← hm, ← hepoch, ← hv, decide_eq_false (Nat.not_lt.mpr henough), hshrink, decide_eq_false (Nat.not_le.mpr hfirst)]
  subst hw
  rfl

/-- A takeover in three parts: what it makes of the cluster, its events and messages, and its decision with the ABORT. -/
theorem takeover_parts (hj : s.job p = some j) (hk : s.cluster p = some k) :
    ∃ t, MailFrame p ((s.raise .mc (some p) 0x7005 [k.starter, k.self, (k.epoch + 1) % 2 ^ 32]).updCluster p Cluster.takesOver) t ∧
      MailFrame p (t.updJob p Job.decides) (s.takeover p) := by
  unfold State.takeover
  rw [hj, hk]
  dsimp only
  exact ⟨_, (((MailFrame.sendAll.trans .raise).trans (.ite .raise (.refl p _))).trans .sendAll).trans (.ite .raise (.refl p _)), .sendAll⟩

/-- A takeover writes into the rings alone, and leaves the job as it decides and the cluster as it takes over. -/
theorem takeover_keeps (hj : s.job p = some j) (hk : s.cluster p = some k) :
    ((s.takeover p).job p).map Job.still = some ({ j with cluster := some k.takesOver } : Job).decides.still ∧
    ∀ a, s.inRings a = false → (s.takeover p).rd a = s.rd a := by
  have hcluster : j.cluster = some k := by
    rw [State.cluster, hj] at hk
    exact hk
  obtain ⟨t, hsent, hdecided⟩ := takeover_parts hj hk
  refine ⟨?_, fun x hx => ?_⟩
  · have hstill := hsent.job
    rw [State.updCluster, job_updJob_same, raise_job, hj, Option.map_some, hcluster] at hstill
    obtain ⟨i, hi, hsame⟩ := Option.map_eq_some_iff.mp hstill
    rw [hdecided.job, job_updJob_same, hi]
    exact congrArg (fun i : Job => some i.decides) hsame
  · generalize hu : s.raise .mc (some p) 0x7005 [k.starter, k.self, (k.epoch + 1) % 2 ^ 32] = u at hsent
    have hraised : MailFrame p s u := hu ▸ .raise
    have hrings : (u.updCluster p Cluster.takesOver).inRings x = false := ((MailFrame.inRings_of_mc (by rfl) x).trans (hraised.rings x)).trans hx
    have hrings' : (t.updJob p Job.decides).inRings x = false := ((MailFrame.inRings_of_mc (by rfl) x).trans (hsent.rings x)).trans hrings
    exact ((hdecided.rd x hrings').trans (hsent.rd x hrings)).trans (hraised.rd x hx)

theorem takeover_acts (hj : s.job p = some j) (hk : s.cluster p = some k) : ∃ k', (s.takeover p).cluster p = some k' ∧
    k'.starter = k.self ∧ k'.takeovers = k.takeovers + 1 ∧ k'.queried = false ∧ k'.agrees = [] ∧ k'.roster = k.roster ∧
    k'.epoch = k.epoch ∧ ∃ j', (s.takeover p).job p = some j' ∧ j'.cmt.decided = true ∧ j'.cmt.readies = [] ∧ j'.step = j.step ∧
    j'.num = j.num ∧ ∀ a, s.inRings a = false → (s.takeover p).rd a = s.rd a := by
  obtain ⟨hstill, hrd⟩ := takeover_keeps hj hk
  obtain ⟨j', hj', hsame⟩ := Option.map_eq_some_iff.mp hstill
  have hcluster : j'.cluster.map Cluster.still = some k.takesOver.still := congrArg Job.cluster hsame
  obtain ⟨k', hk', hkeep⟩ := Option.map_eq_some_iff.mp hcluster
  refine ⟨k', by rw [State.cluster, hj']; exact hk', (congrArg Cluster.starter hkeep :), (congrArg Cluster.takeovers hkeep :),
    (congrArg Cluster.queried hkeep :), (congrArg Cluster.agrees hkeep :), (congrArg Cluster.roster hkeep :), (congrArg Cluster.epoch hkeep :), j', hj',
    ?_, ?_, (congrArg Job.step hsame :), (congrArg Job.num hsame :), hrd⟩
  · exact congrArg (fun i : Job => i.cmt.decided) hsame
  · exact congrArg (fun i : Job => i.cmt.readies) hsame

end

/-! ### Leaving and loss -/

section
variable {p : PartId} {e : EntryId} {m : List Byte} {k : Cluster} {s u : State}

theorem exec_lost (hpop : s.popMsg p e.val 0 0x09 = some (m, u)) (hk : u.cluster p = some k) (hleads : k.leads = true)
    (hmember : inMask k.roster e.val = true) (hfar : inMask k.roster (rdLE m 20 1) = true) (hself : e.val ≠ k.self)
    (hother : rdLE m 20 1 ≠ k.self) :
    exec (.lost p e) s = .next (u.removeMember p (Nat.max e.val (rdLE m 20 1)) (Config.fieldWord 0x7004 2 0) 0x7004) := by
  show execLost p e s = _
  unfold execLost
  rw [hpop]
  dsimp only
  rw [hk]
  dsimp only
  rw [if_pos ⟨hleads, hmember, hfar⟩, if_neg hself, if_neg hother]

theorem exec_leadReply {v : State} (hpop : s.popMsg p e.val 0 0x07 = some (m, u)) (hk : u.cluster p = some k) (hqueried : k.queried = true)
    (hagree : rdLE m 16 1 = 0) (hv : v = (u.updCluster p fun c => { c with agrees := mapSet c.agrees e.val (rdLE m 8 4) })) :
    exec (.leadReply p e) s = .next (if (rosterList k.roster).length < 2 * ((mapSet k.agrees e.val (rdLE m 8 4)).length + 1)
      then v.takeover p else v) := by
  have hn : ((v.cluster p).map fun c => c.agrees.length).getD 0 = (mapSet k.agrees e.val (rdLE m 8 4)).length := by
    rw [hv, cluster_updCluster_same, hk]
    rfl
  show execLeadReply p e s = _
  unfold execLeadReply
  rw [hpop]
  dsimp only
  rw [hk]
  dsimp only
  rw [hqueried, Bool.not_true, if_neg Bool.false_ne_true, if_neg (not_not_intro hagree), ← hv, hn]
  exact (apply_ite Host.Outcome.next ..).symm

theorem follows_of_member (hleads : k.leads = false) (hmember : inMask k.roster k.self = true) (hstate : k.state = .member ∨ k.state = .paused)
    (hstarter : k.lostStarter = false) : k.follows = true := by
  rw [Cluster.follows, hleads, hmember, hstarter]
  obtain h | h := hstate <;> rw [h] <;> rfl

theorem exec_starterSilent (hk : s.cluster p = some k) (hfollows : k.follows = true) : exec (.starterSilent p) s =
    if k.successor = k.self then .next (((rosterList k.roster).filter fun e => decide (e ≠ k.self ∧ e ≠ k.starter)).foldl
      (fun s e => s.sendCtl p e 0x06 []) ((s.updCluster p fun c => { c with silent := true }).updCluster p fun c =>
        { c with queried := true, agrees := [] }))
    else if k.queryPending then .next (((s.updCluster p fun c => { c with silent := true }).updCluster p fun c =>
      { c with queryPending := false }).sendCtl p k.successor 0x07 (leBytes 4 0))
    else .next (s.updCluster p fun c => { c with silent := true }) := by
  show execStarterSilent p s = _
  unfold execStarterSilent
  rw [hk]
  dsimp only
  rw [hfollows, Bool.not_true, if_neg Bool.false_ne_true]

theorem exec_startTimeout (hk : s.cluster p = some k) (hbegun : k.begun = false) (hleads : k.leads = true) : exec (.startTimeout p) s =
    .next (((if k.admitted.length + 1 < k.cl.minMembers ∧ !k.belowRaised then
        (s.raise .mc (some p) 0x7007 [k.admitted.length + 1, k.cl.minMembers]).updCluster p fun c => { c with belowRaised := true }
      else s).updCluster p fun c => { c with awaitMin := true }).beginFirst p) := by
  show execStartTimeout p s = _
  unfold execStartTimeout
  rw [hk]
  dsimp only
  rw [if_neg (by rw [hbegun, hleads]; decide)]

end

/-- Settles O40: each message and timer by its branch, a takeover by what its messages keep. -/
theorem lossAndTakeoverAct : Obligations.LossAndTakeoverAct := by
  refine ⟨fun p e m k u s hpop hk hleads => ?leave, ?lost, fun p e m k u s hpop hk => ?query, ?reply, ?starterQuery, ?takeover,
    fun p j k s hj hk => takeover_acts hj hk, fun p k s hk hjoining => ?retry, ?enough, ?below, ?successor, ?member,
    fun p k s hk hqueried => ?noAnswer, ?noStarter, fun p k s hk hpaused hlost => ?again, fun p k s hk hstarter => ?stays⟩
  case leave =>
    show execLeave p e s = _
    unfold execLeave
    rw [hpop]
    dsimp only
    rw [hk]
    exact if_pos hleads
  case lost =>
    intro p e m k u s hpop hk hleads hmember hfar hself hother
    exact exec_lost hpop hk hleads hmember hfar hself hother
  case query =>
    show execLeadQuery p e s = _
    unfold execLeadQuery
    rw [hpop]
    dsimp only
    rw [hk]
    exact (apply_ite Host.Outcome.next ..).symm
  case reply =>
    intro p e m k u v s hpop hk hqueried hagree hv
    exact ⟨_, rfl, exec_leadReply hpop hk hqueried hagree hv⟩
  case starterQuery =>
    intro p e m k u s hpop hk hother hrunning
    show execStarterQuery p e s = _
    unfold execStarterQuery
    rw [hpop]
    dsimp only
    rw [hk]
    refine if_neg ?_
    rintro (h | ⟨hpaused, hnot⟩)
    · exact hother h
    · exact hrunning ⟨hpaused, by rw [Bool.not_eq_true'] at hnot; exact hnot⟩
  case takeover =>
    intro p j k cmax m epoch v w s hj hk hmax hm hepoch hshrink henough hfirst hv hw
    exact takeover_alone hj hk hmax hm hepoch hshrink henough hfirst hv hw
  case retry =>
    show execJoinRetry p s = _
    rw [execJoinRetry, hk]
    exact if_pos hjoining
  case enough =>
    intro p k s hk hbegun hleads henough
    rw [exec_startTimeout hk hbegun hleads, if_neg fun h => absurd h.1 (Nat.not_lt.mpr henough)]
  case below =>
    intro p k s hk hbegun hleads hfew hfirst
    rw [exec_startTimeout hk hbegun hleads, if_pos ⟨hfew, by rw [hfirst]; rfl⟩]
  case successor =>
    intro p k s hk hleads hmember hstate hstarter hself
    rw [exec_starterSilent hk (follows_of_member hleads hmember hstate hstarter), if_pos hself]
  case member =>
    intro p k s hk hleads hmember hstate hstarter hother hpending
    rw [exec_starterSilent hk (follows_of_member hleads hmember hstate hstarter), if_neg hother, if_pos hpending]
  case noAnswer =>
    show execLeadQueryTimeout p s = _
    rw [execLeadQueryTimeout, hk]
    exact if_pos hqueried
  case noStarter =>
    intro p k s hk hleads hmember hstate hstarter hqueried
    show execNoStarterTimeout p s = _
    rw [execNoStarterTimeout, hk]
    refine if_neg ?_
    rw [follows_of_member hleads hmember hstate hstarter, hqueried]
    decide
  case again =>
    show execStarterQueryRetry p s = _
    rw [execStarterQueryRetry, hk]
    exact if_pos ⟨hpaused, hlost⟩
  case stays =>
    show execStarterQueryRetry p s = _
    rw [execStarterQueryRetry, hk]
    exact if_neg fun h => Bool.false_ne_true (hstarter.symm.trans h.2)

end Sys2Proof.Machine


namespace Sys2Proof.Machine

/-! ### What a failing unit of memory leaves of the interfaces (R188, R189) -/

theorem raise_holds (s : State) (src : Src) (part : Option PartId) (code : Nat) (ds : List Nat) (p : PartId) :
    (s.raise src part code ds).parts[p].iface.holds = s.parts[p].iface.holds :=
  (AfterFence.raise (.refl 0 s)).holds p

/-- Clearing a core's rates leaves the partitions. -/
theorem clearRates_parts (base : Nat) (l : List Nat) (s : State) :
    (l.foldl (fun s n => s.setReg (base + 4 * n) 0) s).parts = s.parts := by
  induction l generalizing s with
  | nil => rfl
  | cons n l ih => exact (ih _).trans (setReg_parts ..)

theorem loseCore_parts (s : State) (c : CoreId) : (s.loseCore c).parts = s.parts := by
  rw [State.loseCore, zeroRange_parts, zeroRange_parts]

theorem fenceWrites_parts (s : State) (c : CoreId) (cause b : Nat) :
    (((((List.range 4).foldl (fun s n => s.setReg (coreRateArr c.val + 4 * n) 0) s).setFld (coreFence c.val) 31 31 1).setFld
      (coreFence c.val) 29 29 b).setFld (coreFence c.val) 15 0 cause).parts = s.parts := by
  rw [setFld_parts, setFld_parts, setFld_parts, clearRates_parts]

/-- A fence leaves what the interfaces hold. -/
theorem fenceCore_holds (s : State) (c : CoreId) (cause : Nat) (byProof : Bool) (p : PartId) :
    (s.fenceCore c cause byProof).parts[p].iface.holds = s.parts[p].iface.holds := by
  unfold State.fenceCore
  split
  · rfl
  · extract_lets part id taken dropped lost hour off unrated flagged forced mc counted raised recent retired logged
    clear_value part
    have hdropped : AfterFence c taken dropped := by
      unfold dropped
      split
      · exact (AfterFence.refl c taken).updCluster
      · exact .refl c taken
    have hforced : forced.parts = off.parts := fenceWrites_parts ..
    clear_value forced
    have hlost : off.parts = dropped.parts := by
      rw [updRail_parts]
      exact loseCore_parts ..
    have hcounted : counted.parts = dropped.parts := Eq.trans (by rfl) (hforced.trans hlost)
    clear_value counted
    have hraised : raised.parts[p].iface.holds = s.parts[p].iface.holds := by
      rw [raise_holds, hcounted]
      exact hdropped.holds p
    clear_value raised
    have hretired : retired.parts[p].iface.holds = s.parts[p].iface.holds := by
      unfold retired
      split
      · rw [raise_holds, setFld_parts, updRail_parts, hraised]
      · exact hraised
    split
    · exact ((AfterFence.refl c retired).fixedLog.jobFenced.holds p).trans hretired
    · exact ((AfterFence.refl c retired).fixedLog.holds p).trans hretired

theorem kneadFirst_parts (s : State) (d : CoreId) (u : Fin 3) (rs : List Nat) : (s.kneadFirst d u rs).parts = s.parts := by
  unfold State.kneadFirst
  exact updCore_parts ..

theorem uncorrectable_holds (s : State) (part : Option PartId) (a : Nat) (p : PartId) :
    (s.uncorrectable part a).parts[p].iface.holds = s.parts[p].iface.holds := by
  have hraised := raise_holds s (placeSrc (errorPlace a).1 (errorPlace a).2.1) part 0x5011 ([(errorPlace a).1, (errorPlace a).2.1] ++ two (unitOf a)) p
  suffices hsame : (∀ t, t = s.uncorrectable part a → t.parts[p].iface.holds = s.parts[p].iface.holds) from hsame _ rfl
  intro t ht
  unfold State.uncorrectable at ht
  generalize errorPlace a = x at hraised ht
  obtain ⟨level, idx, bank, region⟩ := x
  dsimp -zeta only at hraised ht
  extract_lets u raised counted noted row logged lines before marked known at ht
  have hnoted : noted.parts[p].iface.holds = s.parts[p].iface.holds := hraised
  have hparts : known.parts = before.parts := by
    unfold known marked
    rw [setReg_parts, setReg_parts, countFld_parts, setFld_parts]
  have hknown : known.parts[p].iface.holds = s.parts[p].iface.holds := by
    rw [hparts]
    exact hraised
  clear_value noted known
  split at ht
  · split at ht
    · rw [ht]
      exact hnoted
    · rw [ht]
      exact ((AfterFence.fixedLog (.refl 0 _)).holds p).trans hnoted
  · split at ht
    · rw [ht, kneadFirst_parts]
      exact hknown
    · rw [ht]
      exact hknown

theorem fenceByErrors_holds (s : State) (a : Nat) (p : PartId) :
    (s.fenceByErrors a).parts[p].iface.holds = s.parts[p].iface.holds := by
  unfold State.fenceByErrors
  dsimp only
  split
  · exact fenceCore_holds ..
  · rfl

/-! ### Frames of a job interface (R243-R246) -/

section
variable {p : PartId} {f : Frame} {s : State}

theorem goOn_idle (h : s.parts[p].iface.holds = (none, [])) : s.goOn p = s := by
  obtain ⟨hframe, hheld⟩ := Prod.mk.inj h
  exact goOnN_idle hframe hheld

theorem windowFault_holds (x : Nat × Nat) : (s.windowFault p f x).parts[p].iface.holds = s.parts[p].iface.holds := by
  unfold State.windowFault
  rw [raise_holds, setReg_parts, updIface_same]
  rfl

theorem respond_holds (status : Nat) (data : List Byte) :
    (s.respond p f status data).parts[p].iface.holds = s.parts[p].iface.holds := by
  rw [State.respond, updIface_same]
  rfl

theorem touchAll_parts (s : State) (as : List Nat) : (s.touchAll as).parts = s.parts := by
  rw [(TouchFrame.touchAll s as).rest]

theorem meetReads_holds (as : List Nat) : (s.meetReads as).parts[p].iface.holds = s.parts[p].iface.holds := by
  have hquiet : QuietFrame 0 s (s.meetReads as) := .meetReads
  rw [hquiet.engine.parts p]
  rfl

theorem readFrame_holds : (s.readFrame p f).parts[p].iface.holds = s.parts[p].iface.holds := by
  unfold State.readFrame
  extract_lets j as touched
  have htouched : touched.parts = s.parts := touchAll_parts ..
  split
  · rw [respond_holds, fenceByErrors_holds, uncorrectable_holds, htouched]
  · rw [respond_holds, meetReads_holds, htouched]

theorem writeFrame_holds : (s.writeFrame p f).parts[p].iface.holds = s.parts[p].iface.holds := by
  unfold State.writeFrame
  extract_lets j a touched
  have hput : (touched.lputBytes j a f.data).parts = s.parts := (lputBytes_parts ..).trans (touchAll_parts ..)
  clear_value touched
  rw [updIface_same, hput]
  rfl

/-- A WRITE stores its bytes through the window, and its number is the last that landed (R244). -/
theorem writeFrame_acts (p : PartId) (f : Frame) (s : State) :
    (s.writeFrame p f).parts[p].iface.landed = BitVec.ofNat 32 f.seq ∧
    (s.writeFrame p f).mem = (s.lputBytes (s.windowJob p) (s.parts[p].iface.base + f.offset) f.data).mem ∧
    (s.writeFrame p f).handles = s.handles ∧ (s.writeFrame p f).nvm = s.nvm ∧ (s.writeFrame p f).mc = s.mc ∧
    ∀ q, (s.writeFrame p f).job q = s.job q := by
  unfold State.writeFrame
  extract_lets j a touched
  have hrest : touched = { s with regs := touched.regs, cores := touched.cores } :=
    (TouchFrame.touchAll s ((spanOf a f.length).map (j.phys true))).rest
  clear_value touched
  refine ⟨by rw [updIface_same], ?_, ?_, ?_, ?_, fun q => (job_updIface ..).trans ?_⟩
  all_goals
    rw [hrest]
    rfl

/-- A READ answers the bytes read through the window, and changes no memory outside the rings (R245). -/
theorem readFrame_acts (p : PartId) (f : Frame) (s : State)
    (hgood : s.lbad (s.windowJob p) (spanOf (s.parts[p].iface.base + f.offset) f.length) = none) :
    (s.readFrame p f).parts[p].iface.responses = s.parts[p].iface.responses ++ [readResponse f 0
      ((spanOf (s.parts[p].iface.base + f.offset) f.length).map (s.lrd (s.windowJob p)))] ∧
    ∀ a, s.inRings a = false → (s.readFrame p f).rd a = s.rd a := by
  unfold State.readFrame
  extract_lets j as touched
  have htouch : TouchFrame s touched := .touchAll ..
  clear_value touched
  have hquiet : QuietFrame 0 touched (touched.meetReads (as.map (j.phys false))) := .meetReads
  rw [htouch.view.lbad, show s.lbad j as = none from hgood, htouch.view.lrd]
  refine ⟨?_, fun a ha => ?_⟩
  · dsimp only
    rw [State.respond, updIface_same, hquiet.engine.parts p]
    have hparts : touched.parts = s.parts := by rw [htouch.rest]
    dsimp only
    rw [hparts]
  · have hrings : touched.inRings a = false := by
      rw [← ha, htouch.rest]
      rfl
    exact (hquiet.rd a hrings).trans (htouch.view.rd a)

theorem frameIn_taken (hup : s.hostUp = true) (hready : s.parts[p].iface.resetBusy = false) (hframe : s.parts[p].iface.heldFrame = none)
    (hsound : s.parts[p].iface.fault = false) (hgen : f.gen = s.parts[p].iface.gen) :
    s.frameIn p f = (s.takeFrame p f).goOn p := by
  simp only [State.frameIn, hup, hready, hframe, hsound, hgen, Option.isSome_none, Bool.not_true, Bool.or_self, Bool.false_eq_true,
    if_false, ne_eq, not_true_eq_false]

theorem holds_idle (hframe : s.parts[p].iface.heldFrame = none) (hheld : s.parts[p].iface.held = []) :
    s.parts[p].iface.holds = (none, []) := by
  rw [Iface.holds, hframe, hheld]

theorem takeFrame_write (herr : s.frameErr p f = none) (htype : f.ftype = 1) : s.takeFrame p f = s.writeFrame p f := by
  rw [State.takeFrame, herr]
  exact if_neg (by rw [htype]; decide)

theorem takeFrame_read (herr : s.frameErr p f = none) (htype : f.ftype = 2) : s.takeFrame p f = s.readFrame p f := by
  rw [State.takeFrame, herr]
  exact if_pos htype

theorem takeFrame_wrong {o b st : Nat} (herr : s.frameErr p f = some (o, b, st)) (htype : f.ftype ≠ 2) :
    s.takeFrame p f = s.windowFault p f (o, b) := by
  rw [State.takeFrame, herr]
  exact if_neg htype

theorem exec_frameWrite (p : PartId) (f : Frame) (s : State) : exec (.frameWrite p f) s = .next (s.frameIn p f) := rfl

theorem exec_frameRead (p : PartId) (f : Frame) (env : MemEnv) (s : State) :
    exec (.frameRead p f env) s = .next ((s.takeEnv env).frameIn p f) := rfl

theorem exec_frameGenTimeout (hframe : s.parts[p].iface.heldFrame = some f) (htype : f.ftype ≠ 2) : exec (.frameGenTimeout p) s =
    .next (((s.updIface p fun i => { i with heldFrame := none }).windowFault p f (0x00, 15)).goOn p) := by
  show execFrameGenTimeout p s = _
  rw [execFrameGenTimeout, hframe]
  dsimp only
  rw [if_neg htype]

end

/-! ### The staging buffer (R270, R273) -/

section
variable {f : Frame} {s : State}

/-- The staging buffer after the bytes of a WRITE. -/
def State.stage (s : State) (f : Frame) : List (Nat × Byte) :=
  (indexed f.data).foldl (fun m e => mapPut 0 m (f.offset + e.1) e.2) s.staging

theorem stagedBytes_one (s : State) (a : Nat) : s.stagedBytes a 1 = [(mapGet s.staging a).getD 0] := rfl

theorem stage_inside (s : State) {i : Nat} (hi : i < f.data.length) :
    (mapGet (s.stage f) (f.offset + i)).getD 0 = f.data.getD i 0 := by
  rw [State.stage, getD_foldl_mapPut_indexed 0 0 s.staging f.data f.offset (f.offset + i), if_pos (by omega), Nat.add_sub_cancel_left]

theorem stage_outside (s : State) {a : Nat} (ha : a < f.offset ∨ f.offset + f.data.length ≤ a) :
    (mapGet (s.stage f) a).getD 0 = (mapGet s.staging a).getD 0 := by
  rw [State.stage, getD_foldl_mapPut_indexed 0 0 s.staging f.data f.offset a, if_neg (by omega)]

theorem exec_stagingFrame (hlinked : s.linked = true) (hready : s.diag.resetBusy = false) (hsound : s.diag.fault = false)
    (herr : s.stagingErr f = none) : exec (.stagingFrame f) s = .next (if f.ftype = 2 then { s with diag := { s.diag with
      responses := s.diag.responses ++ [stagingResponse f 0 (s.stagedBytes f.offset f.length)] } }
    else { s with staging := s.stage f, diag := { s.diag with landed := BitVec.ofNat 32 f.seq } }) := by
  show execStagingFrame f s = _
  rw [execStagingFrame, hlinked, hready, hsound, herr]
  exact (apply_ite Host.Outcome.next ..).symm

theorem exec_stagingFrame_wrong {o b st : Nat} (hlinked : s.linked = true) (hready : s.diag.resetBusy = false)
    (hsound : s.diag.fault = false) (herr : s.stagingErr f = some (o, b, st)) (htype : f.ftype ≠ 2) :
    exec (.stagingFrame f) s = .next (({ s with diag := { s.diag with fault := true } } : State).raise .usb none 0x2004
      [if s.mc.recovery then 0 else 5, f.seq, Config.fieldWord 0x2004 o b]) := by
  show execStagingFrame f s = _
  rw [execStagingFrame, hlinked, hready, hsound, herr]
  dsimp only
  rw [if_neg (by decide), if_neg fun h => htype h.1, if_neg htype]

end

/-! ### Held requests and notices -/

theorem exec_heldRequestStale_doorbell {p : PartId} {k t e : Nat} {s : State} (h : s.parts[p].iface.held[k]? = some (.doorbell t e)) :
    exec (.heldRequestStale p k) s =
    .next (((((s.updIface p fun i => { i with held := i.held.eraseIdx k }).updIface p fun i => { i with staleD := true }).countFld
      (usbJobStale p.val) 15 0 1).raise .usb (some p) 0x2002 [1 + p.val, e, s.parts[p].iface.landed.toNat, t]).goOn p) := by
  show execHeldRequestStale p k s = _
  rw [execHeldRequestStale, h]

theorem exec_heldRequestStale_window {p : PartId} {k b g e : Nat} {s : State} (h : s.parts[p].iface.held[k]? = some (.window b g e)) :
    exec (.heldRequestStale p k) s =
    .next (((((s.updIface p fun i => { i with held := i.held.eraseIdx k }).updIface p fun i => { i with staleW := true }).countFld
      (usbJobStale p.val) 31 16 1).raise .usb (some p) 0x2003 [1 + p.val, e, s.parts[p].iface.landed.toNat]).goOn p) := by
  show execHeldRequestStale p k s = _
  rw [execHeldRequestStale, h]

theorem exec_noticeInterval {p : PartId} {s : State} (hup : s.hostUp = true)
    (hnew : s.parts[p].iface.notice ≠ s.parts[p].iface.lastNotice) : exec (.noticeInterval p) s =
    .next (s.updIface p fun i => { i with
      notices := i.notices ++ [i.notice], lastNotice := i.notice, staleD := false, staleW := false }) := by
  show execNoticeInterval p s = _
  rw [execNoticeInterval, hup]
  exact if_pos (decide_eq_true hnew)

/-- Settles O49: a frame by the state of its interface, a frame of the staging buffer by its header. -/
theorem windowFramesAct : Obligations.WindowFramesAct := by
  refine ⟨fun p f s hup hready hframe hsound hgen herr htype hheld => ?write, writeFrame_acts,
    fun p f env u s hu hup hready hframe hsound hgen herr htype hheld => ?read, readFrame_acts,
    fun p f s hup hready hframe hsound hgen => ?hold, fun p f s hfault => ?drop,
    fun p f o b st s hup hready hframe hsound hgen herr htype hheld => ?wrong, fun _ _ _ => exec_frameGenTimeout,
    fun _ _ _ _ _ => exec_heldRequestStale_doorbell, fun _ _ _ _ _ _ => exec_heldRequestStale_window, fun _ _ => exec_noticeInterval,
    fun f s hlinked hready hsound herr htype => ?stage, fun f s hlinked hready hsound herr htype => ?answer,
    fun _ _ _ _ _ => exec_stagingFrame_wrong⟩
  case write =>
    rw [exec_frameWrite, frameIn_taken hup hready hframe hsound hgen, takeFrame_write herr htype,
      goOn_idle (writeFrame_holds.trans (holds_idle hframe hheld))]
  case read =>
    rw [exec_frameRead, ← hu, frameIn_taken hup hready hframe hsound hgen, takeFrame_read herr htype,
      goOn_idle (readFrame_holds.trans (holds_idle hframe hheld))]
  case hold =>
    rw [exec_frameWrite]
    simp only [State.frameIn, hup, hready, hframe, hsound, Option.isSome_none, Bool.not_true, Bool.or_self, Bool.false_eq_true,
      if_false, if_pos hgen]
  case drop =>
    rw [exec_frameWrite]
    simp only [State.frameIn, hfault, Bool.or_true, if_true]
  case wrong =>
    rw [exec_frameWrite, frameIn_taken hup hready hframe hsound hgen, takeFrame_wrong herr htype,
      goOn_idle ((windowFault_holds _).trans (holds_idle hframe hheld))]
  case stage =>
    refine ⟨_, (exec_stagingFrame hlinked hready hsound herr).trans (congrArg Host.Outcome.next (if_neg htype)), rfl, fun i hi => ?_,
      fun a ha => ?_, rfl, rfl, rfl, rfl, rfl, rfl, rfl, rfl⟩
    · exact (stagedBytes_one _ _).trans (congrArg (fun b => [b]) (stage_inside s hi))
    · exact (stagedBytes_one _ _).trans (congrArg (fun b => [b]) (stage_outside s ha))
  case answer =>
    rw [exec_stagingFrame hlinked hready hsound herr, if_pos htype]

end Sys2Proof.Machine


namespace Sys2Proof.Machine

/-! ### Retention (R179, R180, R202) -/

section
variable {c : CoreId} {s : State}

theorem exec_retentionEntry (hup : s.coreUp c = true) (henabled : bitAt (s.reg (coreMemRet c.val)) 8 = true)
    (hactive : s.cores[c].ret = .active) (hidle : s.coreIdle c = true) :
    exec (.retentionEntry c) s = .next (s.updCore c fun k => { k with ret := .entering }) := by
  show execRetentionEntry c s = _
  rw [execRetentionEntry, hup, henabled, hactive, hidle]
  exact if_pos rfl

theorem exec_retentionWake (c : CoreId) (s : State) : exec (.retentionWake c) s = .next (s.touch c) := rfl

/-- A wake that begins: the core wakes, and the access is counted as a wake and as a wait. -/
theorem touch_asleep (h : s.cores[c].ret = .retained ∨ s.cores[c].ret = .entering) :
    s.touch c = ((s.updCore c fun k => { k with ret := .waking }).countFld (coreMemWakes c.val) 15 0 1).countFld
      (coreMemWakes c.val) 31 16 1 := by
  rcases h with h | h <;> rw [State.touch, h]

theorem retentionWake_acts (h : s.cores[c].ret = .retained ∨ s.cores[c].ret = .entering) : ∃ t : State,
    exec (.retentionWake c) s = .next t ∧ t.cores[c].ret = .waking ∧
    t.regFld (coreMemWakes c.val) 15 0 = satAdd 16 (s.regFld (coreMemWakes c.val) 15 0) 1 ∧
    t.regFld (coreMemWakes c.val) 31 16 = satAdd 16 (s.regFld (coreMemWakes c.val) 31 16) 1 ∧
    (∀ o, o ≠ coreMemWakes c.val → t.reg o = s.reg o) ∧ (∀ d : CoreId, d ≠ c → t.cores[d] = s.cores[d]) ∧ t.mem = s.mem ∧
    t.mc = s.mc ∧ t.parts = s.parts ∧ t.handles = s.handles := by
  have hreg (hi lo : Nat) : (s.updCore c fun k => { k with ret := .waking }).regFld (coreMemWakes c.val) hi lo =
      s.regFld (coreMemWakes c.val) hi lo := by
    rw [State.regFld, updCore_reg, State.regFld]
  refine ⟨_, congrArg Host.Outcome.next (touch_asleep h), ?_, ?_, ?_, fun o ho => ?_, fun d hd => ?_, ?_, ?_, ?_, ?_⟩
  · rw [countFld_cores, countFld_cores, updCore_same]
  · rw [State.countFld, regFld_setFld_disjoint _ _ _ (by omega) (by omega), regFld_countFld_same _ _ _ (by omega), hreg]
  · rw [regFld_countFld_same _ _ _ (by omega), State.countFld, regFld_setFld_disjoint _ _ _ (by omega) (by omega), hreg]
  · rw [reg_countFld_other _ _ _ _ ho, reg_countFld_other _ _ _ _ ho, updCore_reg]
  · rw [countFld_cores, countFld_cores, updCore_other s _ hd]
  · rw [countFld_mem, countFld_mem, updCore_mem]
  · rw [countFld_mc, countFld_mc, updCore_mc]
  · rw [countFld_parts, countFld_parts, updCore_parts]
  · rw [countFld_handles, countFld_handles, updCore_handles]

end

/-- A change of every core in turn, at one of them. -/
theorem foldl_updCore_same (f : CoreS → CoreS) (l : List CoreId) (hl : l.Nodup) (s : State) (c : CoreId) :
    (l.foldl (fun s c => s.updCore c f) s).cores[c] = if c ∈ l then f s.cores[c] else s.cores[c] := by
  induction l generalizing s with
  | nil => simp
  | cons d l ih =>
    obtain ⟨hd, hl⟩ := List.nodup_cons.mp hl
    rw [List.foldl_cons, ih hl]
    by_cases hc : c = d
    · subst hc
      rw [if_neg hd, if_pos List.mem_cons_self, updCore_same]
    · rw [updCore_other s f hc]
      simp only [List.mem_cons, hc, false_or]

/-- A core once a loop period is over. -/
def CoreS.settled (k : CoreS) : CoreS := { k with ret := if k.ret = .entering then .retained else k.ret }

theorem retain_core (s : State) (c : CoreId) : s.retain.cores[c] = s.cores[c].settled :=
  (foldl_updCore_same CoreS.settled allCores (List.nodup_finRange 8) s c).trans (if_pos (List.mem_finRange c))

theorem retain_acts (c : CoreId) (s : State) : (s.cores[c].ret = .entering → s.retain.cores[c].ret = .retained) ∧
    (s.cores[c].ret ≠ .entering → s.retain.cores[c] = s.cores[c]) := by
  rw [retain_core]
  exact ⟨fun h => if_pos h, fun h => by rw [CoreS.settled, if_neg h]⟩

/-! ### Kneading (R192-R195) -/

section
variable {c : CoreId} {m : KneadMem} {r : Nat} {s : State}

theorem exec_kneadSelect (hup : s.coreUp c = true) (hgap : (s.kneadOf c m).phase = .gap) (hret : s.cores[c].ret ≠ .retained)
    (hrate : s.kneadGap c m ≠ 0) : exec (.kneadSelect c m) s = .next (s.updKnead c m Knead.select) := by
  show execKneadSelect c m s = _
  unfold execKneadSelect
  refine if_pos ?_
  rw [hup, hgap, decide_eq_true hret, decide_eq_true hrate]
  rfl

theorem exec_kneadCopyDone (hup : s.coreUp c = true) (hcopy : (s.kneadOf c m).phase = .copy r) : exec (.kneadCopyDone c m) s =
    .next ((s.meetUnits (inKneadRegion c m r)).updKnead c m fun k => { k with phase := .test r }) := by
  show execKneadCopyDone c m s = _
  rw [execKneadCopyDone, hcopy]
  exact if_pos hup

theorem exec_kneadTestDone {pass : Bool} (hup : s.coreUp c = true) (htest : (s.kneadOf c m).phase = .test r) :
    exec (.kneadTestDone c m pass) s = .next (if pass then s.updKnead c m fun k => { k with phase := .restore r }
      else if 0 < s.cores[c].spares.getD (spareSlot m r) 0 then s.updKnead c m fun k => { k with phase := .remap r }
      else ((((s.updKnead c m fun k => { k with phase := .stuck r }).raise (.core c.val)
        s.cores[c].part 0x5021 [c.val, KneadMem.code m, r]).fenceCore c 0x5021 false)).sweepCheck) := by
  have hpart : (s.updKnead c m fun k => { k with phase := .stuck r }).cores[c].part = s.cores[c].part := by
    rw [State.updKnead, updCore_same]
  show execKneadTestDone c m pass s = _
  rw [execKneadTestDone, htest, hup]
  dsimp only
  rw [hpart, if_neg (by decide), apply_ite Host.Outcome.next, apply_ite Host.Outcome.next]

theorem exec_kneadRestoreDone (hup : s.coreUp c = true) (hrestore : (s.kneadOf c m).phase = .restore r) :
    exec (.kneadRestoreDone c m) s = .next (s.kneadDone c m r) := by
  show execKneadRestoreDone c m s = _
  rw [execKneadRestoreDone, hrestore]
  exact if_pos hup

/-- The state in which a region has taken a spare. -/
def State.sparedRegion (s : State) (c : CoreId) (m : KneadMem) (r : Nat) : State :=
  let left := s.cores[c].spares.getD (spareSlot m r) 0
  let v := s.updCore c fun k => { k with spares := k.spares.set (spareSlot m r) (left - 1) }
  { v with mc := { v.mc with remapLog := v.mc.remapLog ++ [(c.val, KneadMem.code m,
    (if spareSlot m r = 2 then 32 else 0) + (spareTotal (spareSlot m r) - left), r)] } }

theorem exec_kneadRemapDone (hup : s.coreUp c = true) (hremap : (s.kneadOf c m).phase = .remap r) :
    exec (.kneadRemapDone c m) s = .next (((s.sparedRegion c m r).fixedLog.raise (.core c.val) s.cores[c].part 0x5020
      [c.val, KneadMem.code m, r, (s.sparedRegion c m r).cores[c].sparesLeft m]).kneadDone c m r) := by
  have hpart : (s.sparedRegion c m r).cores[c].part = s.cores[c].part := by
    unfold State.sparedRegion
    dsimp only
    rw [updCore_same]
  show execKneadRemapDone c m s = _
  rw [execKneadRemapDone, hremap]
  refine (if_pos hup).trans ?_
  rw [← hpart]
  rfl

theorem exec_kneadLate {region : Nat} (hup : s.coreUp c = true) (hlate : bitAt (s.reg (coreMemKneadStat c.val)) 2 = true)
    (hregion : region < kneadRegions m) : exec (.kneadLate c m region) s = .next ((s.kneadFirst c (kneadUnit m) [region]).raise
      (.core c.val) s.cores[c].part 0x5022 [c.val, KneadMem.code m, region]) := by
  have hpart : (s.kneadFirst c (kneadUnit m) [region]).cores[c].part = s.cores[c].part := by
    rw [State.kneadFirst, updCore_same]
  show execKneadLate c m region s = _
  rw [execKneadLate, hup, hlate, decide_eq_true hregion, ← hpart]
  exact if_pos rfl

end

/-! #### What a region done leaves (R189, R194) -/

/-- No unit of memory becomes weak, no region moves on, and no flash byte changes. -/
structure WeakFrame (s t : State) : Prop where
  weak : ∀ u ∈ t.weakUnits, u ∈ s.weakUnits
  phase : ∀ (c : CoreId) m, (t.kneadOf c m).phase = (s.kneadOf c m).phase
  nvm : t.nvm = s.nvm

namespace WeakFrame

variable {s t u : State}

theorem refl (s : State) : WeakFrame s s := ⟨fun _ h => h, fun _ _ => rfl, rfl⟩

theorem trans (h : WeakFrame s t) (k : WeakFrame t u) : WeakFrame s u where
  weak a ha := h.weak a (k.weak a ha)
  phase c m := (k.phase c m).trans (h.phase c m)
  nvm := k.nvm.trans h.nvm

/-- A change outside cores and flash. -/
theorem of_rest (hweak : t.weakUnits = s.weakUnits) (hcores : t.cores = s.cores) (hnvm : t.nvm = s.nvm) : WeakFrame s t :=
  ⟨fun _ h => hweak ▸ h, fun c m => by rw [State.kneadOf, hcores, State.kneadOf], hnvm⟩

theorem ite {c : Prop} [Decidable c] (h : WeakFrame s t) (k : WeakFrame s u) : WeakFrame s (if c then t else u) := by
  split
  · exact h
  · exact k

theorem foldl {α : Type} {f : State → α → State} (hf : ∀ t a, WeakFrame t (f t a)) (l : List α) (s : State) :
    WeakFrame s (l.foldl f s) := by
  induction l generalizing s with
  | nil => exact refl s
  | cons a l ih => exact (hf s a).trans (ih _)

theorem countFld {o hi lo k : Nat} : WeakFrame s (s.countFld o hi lo k) :=
  of_rest (countFld_weakUnits ..) (countFld_cores ..) (countFld_nvm ..)

theorem count {o k : Nat} : WeakFrame s (s.count o k) := countFld

theorem updIface {p : PartId} {f : Iface → Iface} : WeakFrame s (s.updIface p f) :=
  of_rest (updIface_weakUnits ..) (updIface_cores ..) (updIface_nvm ..)

theorem updHandle {n : Nat} {f : Handle → Handle} : WeakFrame s (s.updHandle n f) := of_rest rfl rfl rfl

theorem putBytes {a : Nat} {bs : List Byte} : WeakFrame s (s.putBytes a bs) where
  weak b hb := by
    rw [State.putBytes, State.put] at hb
    dsimp only at hb
    split at hb
    · exact absurd hb List.not_mem_nil
    · exact (List.mem_filter.mp hb).1
  phase _ _ := rfl
  nvm := rfl

theorem updHdr {p : PartId} {f : RingHdr → RingHdr} : WeakFrame s (s.updHdr p f) := ite (updIface.trans putBytes) updIface

theorem dropEvt {p : PartId} : WeakFrame s (s.dropEvt p) := ite (countFld.trans updHdr) countFld

theorem eventRing {p : PartId} {rec : List Word} : WeakFrame s (s.eventRing p rec) := by
  unfold State.eventRing
  split
  · exact dropEvt
  · exact ite (putBytes.trans updHdr) dropEvt

theorem mgmtQueue {rec : List Word} : WeakFrame s (s.mgmtQueue rec) := ite (of_rest rfl rfl rfl) count

theorem logQueue {rec : List Word} : WeakFrame s (s.logQueue rec) := ite (of_rest rfl rfl rfl) countFld

theorem deliver {part : Option PartId} {code : Nat} {rec : List Word} : WeakFrame s (s.deliver part code rec) := by
  have hqueued : WeakFrame s ((s.count (mcEvtCnt (severity code)) 1).mgmtQueue rec) := count.trans mgmtQueue
  have hlast (t : State) : WeakFrame t (if 3 ≤ severity code then (t.logQueue rec).setFld mcAlert 0 0 1 else t) :=
    ite (logQueue.trans (of_rest (setFld_weakUnits ..) (setFld_cores ..) (setFld_nvm ..))) (refl t)
  cases part with
  | none => exact hqueued.trans (hlast _)
  | some p => exact (hqueued.trans eventRing).trans (hlast _)

theorem raise {src : Src} {part : Option PartId} {code : Nat} {ds : List Nat} : WeakFrame s (s.raise src part code ds) := by
  have hcounted (m : MC) : WeakFrame s { s with mc := m } := of_rest rfl rfl rfl
  exact ite ((hcounted _).trans count) ((hcounted _).trans deliver)

theorem updCore {c : CoreId} {f : CoreS → CoreS} (hf : ∀ k (i : Fin 3), (f k).knead[i].phase = k.knead[i].phase) :
    WeakFrame s (s.updCore c f) := by
  refine ⟨fun _ h => h, fun d m => ?_, rfl⟩
  by_cases hd : d = c
  · subst hd
    rw [State.kneadOf, updCore_same, hf, State.kneadOf]
  · rw [State.kneadOf, updCore_other s f hd, State.kneadOf]

/-- A change of one unit's orders that leaves where it stands. -/
theorem phase_set (v : Vector Knead 3) (i j : Fin 3) (k : Knead) (h : k.phase = v[i].phase) : (v.set i k)[j].phase = v[j].phase := by
  by_cases hj : i = j
  · subst hj
    simp [h]
  · simp [Fin.val_ne_of_ne hj]

theorem updKnead {c : CoreId} {m : KneadMem} {f : Knead → Knead} (hf : ∀ k, (f k).phase = k.phase) : WeakFrame s (s.updKnead c m f) :=
  updCore fun k i => phase_set k.knead (kneadUnit m) i _ (hf _)

theorem kneadFirst {c : CoreId} {u : Fin 3} {rs : List Nat} : WeakFrame s (s.kneadFirst c u rs) :=
  updCore fun k i => phase_set k.knead u i _ rfl

theorem correctedAt {level idx bank region : Nat} : WeakFrame s (s.correctedAt level idx bank region) := by
  have hlogged (t : State) (m : MC) : WeakFrame t { t with mc := m } := of_rest rfl rfl rfl
  unfold State.correctedAt
  dsimp only
  split
  · split
    · exact ((count.trans (hlogged _ _)).trans raise).trans kneadFirst
    · exact (count.trans (hlogged _ _)).trans raise
  · exact count.trans (hlogged _ _)

theorem meetUnits {f : Nat → Bool} : WeakFrame s (s.meetUnits f) := by
  refine foldl (fun t a => ?_) _ _
  have hcorrected : WeakFrame t (t.corrected a) := correctedAt
  exact ite (hcorrected.trans ⟨fun u hu => (List.mem_filter.mp hu).1, fun _ _ => rfl, rfl⟩) hcorrected

theorem writeCpl {p : PartId} {rec : List Byte} : WeakFrame s (s.writeCpl p rec) :=
  ite (((meetUnits.trans putBytes).trans updHdr).trans updIface) ((meetUnits.trans putBytes).trans updHdr)

theorem reservedRecord {p : PartId} {rec : List Byte} : WeakFrame s (s.reservedRecord p rec) :=
  ite (countFld.trans updIface) (ite (writeCpl.trans updIface) (count.trans updIface))

theorem opDone {n status event d0 : Nat} : WeakFrame s (s.opDone n status event d0) := by
  unfold State.opDone
  split
  · exact refl s
  · split
    · exact refl s
    · split
      · exact (updHandle.trans updIface).trans reservedRecord
      · exact ite (updHandle.trans raise) updHandle

theorem sweepCheck : WeakFrame s s.sweepCheck := foldl (fun t _ => ite opDone (refl t)) _ _

end WeakFrame

/-- A region done has no correctable error left, and its unit is back at its gap. -/
theorem kneadDone_acts (c : CoreId) (m : KneadMem) (r : Nat) (s : State) :
    ((s.kneadDone c m r).kneadOf c m).phase = .gap ∧ (s.kneadDone c m r).nvm = s.nvm ∧
    ∀ u, u ∈ (s.kneadDone c m r).weakUnits → u ∈ s.weakUnits ∧ inKneadRegion c m r u = false := by
  unfold State.kneadDone
  extract_lets k wrap back healed passed counted
  have hpassed : WeakFrame healed passed := by
    unfold passed
    match m, wrap with
    | .wm, true => exact .countFld
    | .crumb, true => exact .countFld
    | .wm, false => exact .refl healed
    | .crumb, false => exact .refl healed
    | .side, _ => exact .refl healed
  have hphase : (healed.kneadOf c m).phase = .gap := by
    show (back.kneadOf c m).phase = .gap
    unfold back
    rw [State.kneadOf, State.updKnead, updCore_same]
    simp
  have hweak : ∀ u ∈ healed.weakUnits, u ∈ s.weakUnits ∧ inKneadRegion c m r u = false := fun u hu => by
    obtain ⟨hmem, hout⟩ := List.mem_filter.mp hu
    exact ⟨hmem, by simpa using hout⟩
  have hlast : WeakFrame passed (if (k.asc && decide (0 < k.sweepLeft) && passed.handles.any (sweeps c)) = true then
      (counted.updKnead c m fun k => { k with sweepLeft := k.sweepLeft - 1 }).sweepCheck else passed) :=
    .ite ((WeakFrame.of_rest rfl rfl rfl : WeakFrame passed counted).trans ((WeakFrame.updKnead (by exact fun _ => rfl)).trans .sweepCheck))
      (.refl passed)
  have hall := hpassed.trans hlast
  exact ⟨(hall.phase c m).trans hphase, hall.nvm, fun u hu => hweak u (hall.weak u hu)⟩

/-! #### A sweep (R270) -/

/-- The three kneaded memories of a core owe a pass over all their regions. -/
def State.owePasses (s : State) (c : CoreId) : State :=
  [KneadMem.wm, .crumb, .side].foldl (fun s m => s.updKnead c m fun k => { k with sweepLeft := kneadRegions m }) s

/-- Each core named that is up owes a pass. -/
def State.sweepBegun (s : State) (mask : Nat) : State :=
  (allCores.filter fun c => mask.testBit c.val && s.coreUp c).foldl State.owePasses s

theorem owePasses_other (s : State) {c d : CoreId} (m : KneadMem) (h : d ≠ c) : (s.owePasses c).kneadOf d m = s.kneadOf d m := by
  simp only [State.owePasses, List.foldl_cons, List.foldl_nil, State.updKnead, State.kneadOf, updCore_other _ _ h]

theorem kneadOf_updKnead_same (s : State) (c : CoreId) (m : KneadMem) (f : Knead → Knead) :
    (s.updKnead c m f).kneadOf c m = f (s.kneadOf c m) := by
  rw [State.kneadOf, State.updKnead, updCore_same]
  exact Vector.getElem_set_self _

theorem kneadOf_updKnead_unit (s : State) (c : CoreId) {m n : KneadMem} (f : Knead → Knead) (h : (kneadUnit m).val ≠ (kneadUnit n).val) :
    (s.updKnead c m f).kneadOf c n = s.kneadOf c n := by
  rw [State.kneadOf, State.updKnead, updCore_same]
  exact Vector.getElem_set_ne (kneadUnit m).isLt (kneadUnit n).isLt h

theorem owePasses_same (s : State) (c : CoreId) (m : KneadMem) : ((s.owePasses c).kneadOf c m).sweepLeft = kneadRegions m := by
  rw [State.owePasses, List.foldl_cons, List.foldl_cons, List.foldl_cons, List.foldl_nil]
  cases m with
  | wm => rw [kneadOf_updKnead_unit _ _ _ (by decide), kneadOf_updKnead_unit _ _ _ (by decide), kneadOf_updKnead_same]
  | crumb => rw [kneadOf_updKnead_unit _ _ _ (by decide), kneadOf_updKnead_same]
  | side => rw [kneadOf_updKnead_same]

theorem sweep_kneadOf (l : List CoreId) (s : State) (c : CoreId) (m : KneadMem) :
    (c ∈ l → ((l.foldl State.owePasses s).kneadOf c m).sweepLeft = kneadRegions m) ∧
    (c ∉ l → (l.foldl State.owePasses s).kneadOf c m = s.kneadOf c m) := by
  induction l generalizing s with
  | nil => exact ⟨fun h => absurd h List.not_mem_nil, fun _ => rfl⟩
  | cons d l ih =>
    obtain ⟨hin, hout⟩ := ih (s.owePasses d)
    refine ⟨fun h => ?_, fun h => ?_⟩
    · by_cases hl : c ∈ l
      · exact hin hl
      · obtain rfl : c = d := (List.mem_cons.mp h).resolve_right hl
        rw [List.foldl_cons, hout hl, owePasses_same]
    · obtain ⟨hd, hl⟩ := not_or.mp (List.mem_cons.not.mp h)
      rw [List.foldl_cons, hout hl, owePasses_other s m hd]

theorem sweepBegun_handles (s : State) (mask : Nat) : (s.sweepBegun mask).handles = s.handles :=
  foldl_eq State.handles (f := State.owePasses) (fun _ _ => rfl) _ _

theorem exec_kneadSweep {r : Setup} {s : State} (harrives : Arrives s 0x30 (formOpStart 0x11) r) (hkind : r.wValue = 0x11)
    (hroom : s.handlesFull 0 = false) (hmask : r.wIndex < 256) : exec (.kneadSweep r) s =
    .next ((((s.openHandle fun h => { num := h, kind := 0x11, owner := 0, work := [r.wIndex] }).sweepBegun r.wIndex).sweepCheck).startOk
      s.nextHandle) :=
  congrArg Host.Outcome.next (opStart_ok (t := s) (x := { num := 0, kind := 0, owner := 0, work := [r.wIndex] })
    (go := fun _ s => (s.sweepBegun r.wIndex).sweepCheck) harrives hkind hroom (if_neg (Nat.not_le.mpr hmask)))

/-! ### Patrol scrub (R188, R190, R191) -/

/-- A scrub leaves what is issued, flash, counters and jobs, and memory outside the rings. -/
structure ScrubFrame (s t : State) : Prop where
  issued : ∀ c : CoreId, t.cores[c].issued = s.cores[c].issued
  nvm : t.nvm = s.nvm
  counters : t.counters = s.counters
  job : ∀ p, t.job p = s.job p
  rings : ∀ a, t.inRings a = s.inRings a
  rd : ∀ a, s.inRings a = false → t.rd a = s.rd a

namespace ScrubFrame

variable {s t u : State}

theorem refl (s : State) : ScrubFrame s s := ⟨fun _ => rfl, rfl, rfl, fun _ => rfl, fun _ => rfl, fun _ _ => rfl⟩

theorem trans (h : ScrubFrame s t) (k : ScrubFrame t u) : ScrubFrame s u where
  issued c := (k.issued c).trans (h.issued c)
  nvm := k.nvm.trans h.nvm
  counters := k.counters.trans h.counters
  job p := (k.job p).trans (h.job p)
  rings a := (k.rings a).trans (h.rings a)
  rd a ha := (k.rd a ((h.rings a).trans ha)).trans (h.rd a ha)

theorem foldl {α : Type} {f : State → α → State} (hf : ∀ t a, ScrubFrame t (f t a)) (l : List α) (s : State) :
    ScrubFrame s (l.foldl f s) := by
  induction l generalizing s with
  | nil => exact refl s
  | cons a l ih => exact (hf s a).trans (ih _)

/-- A change that leaves cores, partitions and memory, and where the rings are. -/
theorem of_rest (hcores : t.cores = s.cores) (hnvm : t.nvm = s.nvm) (hcounters : t.counters = s.counters) (hparts : t.parts = s.parts)
    (hmem : t.mem = s.mem) (hhctx : t.mc.hctx = s.mc.hctx) : ScrubFrame s t where
  issued c := by rw [hcores]
  nvm := hnvm
  counters := hcounters
  job p := by rw [State.job, hparts, State.job]
  rings a := by
    have hctx (p : PartId) : t.hctx p = s.hctx p := by rw [State.hctx, hhctx, State.hctx]
    simp only [State.inRings, hctx]
  rd a _ := by rw [State.rd, hmem, State.rd]

theorem setReg {o : Nat} {v : Word} : ScrubFrame s (s.setReg o v) := of_rest rfl rfl rfl rfl rfl rfl

theorem countFld {o hi lo k : Nat} : ScrubFrame s (s.countFld o hi lo k) := setReg

theorem raise {src : Src} {part : Option PartId} {code : Nat} {ds : List Nat} : ScrubFrame s (s.raise src part code ds) where
  issued c := by rw [raise_cores]
  nvm := raise_nvm ..
  counters := raise_counters ..
  job p := raise_job ..
  rings a := raise_inRings s src part code ds a
  rd _ ha := raise_rd s src part code ds ha

theorem fixedLog : ScrubFrame s s.fixedLog := by
  unfold State.fixedLog
  split
  · exact refl s
  · exact of_rest rfl rfl rfl rfl rfl rfl

theorem updCore {c : CoreId} {f : CoreS → CoreS} (hf : ∀ k, (f k).issued = k.issued) : ScrubFrame s (s.updCore c f) where
  issued d := by
    by_cases hd : d = c
    · subst hd
      rw [updCore_same, hf]
    · rw [updCore_other s f hd]
  nvm := rfl
  counters := rfl
  job _ := rfl
  rings _ := rfl
  rd _ _ := rfl

theorem uncorrectable {part : Option PartId} {a : Nat} : ScrubFrame s (s.uncorrectable part a) := by
  have hraised : ScrubFrame s (s.raise (placeSrc (errorPlace a).1 (errorPlace a).2.1) part 0x5011
    ([(errorPlace a).1, (errorPlace a).2.1] ++ two (unitOf a))) := raise
  unfold State.uncorrectable
  generalize errorPlace a = x at hraised ⊢
  obtain ⟨level, idx, bank, region⟩ := x
  dsimp -zeta only at hraised ⊢
  extract_lets u raised counted noted row logged lines lined marked known
  have hnoted : ScrubFrame s noted := ((hraised.trans countFld).trans setReg).trans setReg
  have hlined : ScrubFrame s lined := hraised.trans (of_rest rfl rfl rfl rfl rfl rfl)
  have hknown : ScrubFrame s known := (((hlined.trans setReg).trans countFld).trans setReg).trans setReg
  clear_value noted known
  split
  · split
    · exact hnoted
    · refine hnoted.trans (trans ?_ fixedLog)
      exact of_rest rfl rfl rfl rfl rfl rfl
  · split
    · exact hknown.trans (updCore fun _ => rfl)
    · exact hknown

theorem takeEnv {env : MemEnv} : ScrubFrame s (s.takeEnv env) := by
  unfold State.takeEnv
  extract_lets waited weak bad
  have hwaited : ScrubFrame s waited := foldl (fun _ _ => countFld) _ _
  have hweak : ScrubFrame waited weak := foldl (fun _ _ => updCore (by exact fun _ => rfl)) _ _
  have hbad : ScrubFrame weak bad := foldl (fun _ _ => updCore (by exact fun _ => rfl)) _ _
  exact ((hwaited.trans hweak).trans hbad).trans (of_rest rfl rfl rfl rfl rfl rfl)

theorem meetReads {as : List Nat} : ScrubFrame s (s.meetReads as) := by
  have hquiet : QuietFrame 0 s (s.meetReads as) := .meetReads
  exact {
    issued := fun c => by rw [OnlyKneads.meetReads c]
    nvm := hquiet.engine.nvm
    counters := hquiet.engine.counters
    job := (EntryFrame.meetUnits (s := s)).job
    rings := fun a => by
      have hctx (p : PartId) : (s.meetReads as).hctx p = s.hctx p := by rw [State.hctx, hquiet.engine.mc, State.hctx]
      simp only [State.inRings, hctx]
    rd := hquiet.rd }

theorem takeReads {env : MemEnv} {as : List Nat} : ScrubFrame s (s.takeReads env as) := takeEnv.trans meetReads

end ScrubFrame

/-- The state after the errors that a scrub finds. -/
def State.scrubbed (s : State) (k : StackId) (env : MemEnv) : State :=
  ((env.ue.filter (onStack k)).map unitOf).eraseDups.foldl (fun s a => s.uncorrectable none a)
    (s.takeReads { env with ce := env.ce.filter (onStack k), ue := env.ue.filter (onStack k) } (env.ce.filter (onStack k)))

theorem exec_patrolScrub {k : StackId} {s : State} (env : MemEnv) (done : Bool) (hup : s.mc.stacksUp.getLsbD k.val = true)
    (hrail : s.mc.hubRailOn = true) : exec (.patrolScrub k env done) s = .next (if done then
      (s.scrubbed k env).countFld (hubHbmScrub (k.val / 2) (k.val % 2)) 15 0 1 else s.scrubbed k env) := by
  show execPatrolScrub k env done s = _
  rw [execPatrolScrub, hup, hrail]
  exact if_pos rfl

/-- Settles O12: retention by the state of a core, kneading by the phase of a unit, and a scrub by what it leaves. -/
theorem memoryUpkeepActs : Obligations.MemoryUpkeepActs := by
  refine ⟨fun _ _ => exec_retentionEntry, retain_acts, fun _ _ => retentionWake_acts, fun c s h => ?wait, fun c s h => ?active,
    fun _ _ => rfl, fun _ _ _ => exec_kneadSelect, fun _ _ _ _ => exec_kneadCopyDone, fun c m r s hup htest => ?pass,
    fun c m r s hup htest hspare => ?spare, fun c m r s hup htest hnone => ?stuck, fun _ _ _ _ => exec_kneadRestoreDone,
    fun _ _ _ _ => exec_kneadRemapDone, kneadDone_acts, fun _ _ _ _ => exec_kneadLate,
    fun r s hlinked hvendor hcode hform hbusy hkind hroom hmask => ?sweep, fun k env done s hup hrail => ?scrub⟩
  case wait => rw [exec_retentionWake, State.touch, h]
  case active => rw [exec_retentionWake, State.touch, h]
  case pass => rw [exec_kneadTestDone hup htest, if_pos rfl]
  case spare => rw [exec_kneadTestDone hup htest, if_neg Bool.false_ne_true, if_pos hspare]
  case stuck => rw [exec_kneadTestDone hup htest, if_neg Bool.false_ne_true, if_neg (by rw [hnone]; decide)]
  case sweep =>
    refine ⟨_, _, exec_kneadSweep ⟨hlinked, hvendor, hcode, hform, hbusy⟩ hkind hroom hmask, rfl, sweepBegun_handles _ _,
      fun c m hnamed hup => ?_, fun c m hnot => ?_⟩
    · refine (sweep_kneadOf _ _ c m).1 (List.mem_filter.mpr ⟨List.mem_finRange c, ?_⟩)
      rw [hnamed]
      exact hup
    · refine (sweep_kneadOf _ _ c m).2 fun hmem => ?_
      obtain ⟨hnamed, hup⟩ := (Bool.and_eq_true _ _).mp (List.mem_filter.mp hmem).2
      rcases hnot with hnot | hnot
      · rw [hnot] at hnamed
        exact Bool.noConfusion hnamed
      · exact Bool.noConfusion (hup.symm.trans hnot)
  case scrub =>
    have hscrubbed : ScrubFrame s (s.scrubbed k env) := .trans .takeReads (.foldl (fun _ _ => .uncorrectable) _ _)
    have hframe : ScrubFrame s (if done then (s.scrubbed k env).countFld (hubHbmScrub (k.val / 2) (k.val % 2)) 15 0 1
        else s.scrubbed k env) := by
      split
      · exact hscrubbed.trans .countFld
      · exact hscrubbed
    refine ⟨s.scrubbed k env, _, exec_patrolScrub env done hup hrail, rfl, rfl, ?_, hframe.nvm, hframe.counters, hframe.job, hframe.rd⟩
    refine Vector.ext fun i hi => ?_
    rw [Vector.getElem_map, Vector.getElem_map]
    exact hframe.issued ⟨i, hi⟩

end Sys2Proof.Machine


namespace Sys2Proof.Machine

/-! ### What the stages of a loop period leave alone -/

/-- What the loop of the controller regulates and accounts for. -/
def MC.steady (m : MC) := (m.time, m.rails, m.duty, m.therm, m.tjPeak, m.poweredNs, m.hotNs, m.trips)

/-- What the regulation follows: the power limit, the rate cap and the throttle. -/
def State.controls (s : State) :=
  (s.regFld (pwrBase + 0) 31 16, s.mc.cascade, s.regFld mcRateCap 15 0, s.mc.vinThrottle)

/-- Nothing that the loop regulates, no service or work of a core, no flash, counter, pairing or staged byte changes. -/
structure LoopFrame (s t : State) : Prop where
  steady : t.mc.steady = s.mc.steady
  serves : ∀ c : CoreId, t.cores[c].inService = s.cores[c].inService ∧ t.cores[c].issued = s.cores[c].issued
  kept : (t.nvm, t.counters, t.paired, t.staging) = (s.nvm, s.counters, s.paired, s.staging)

namespace LoopFrame

variable {s t u : State}

theorem refl (s : State) : LoopFrame s s := ⟨rfl, fun _ => ⟨rfl, rfl⟩, rfl⟩

theorem trans (h : LoopFrame s t) (k : LoopFrame t u) : LoopFrame s u where
  steady := k.steady.trans h.steady
  serves c := ⟨(k.serves c).1.trans (h.serves c).1, (k.serves c).2.trans (h.serves c).2⟩
  kept := k.kept.trans h.kept

theorem ite {c : Prop} [Decidable c] (h : LoopFrame s t) (k : LoopFrame s u) : LoopFrame s (if c then t else u) := by
  split
  · exact h
  · exact k

theorem foldl {α : Type} {f : State → α → State} (hf : ∀ t a, LoopFrame t (f t a)) (l : List α) (s : State) :
    LoopFrame s (l.foldl f s) := by
  induction l generalizing s with
  | nil => exact refl s
  | cons a l ih => exact (hf s a).trans (ih _)

/-- A change of what neither the loop regulates nor a core runs. -/
theorem of_rest (hmc : t.mc.steady = s.mc.steady) (hcores : t.cores = s.cores)
    (hkept : (t.nvm, t.counters, t.paired, t.staging) = (s.nvm, s.counters, s.paired, s.staging)) : LoopFrame s t :=
  ⟨hmc, fun c => by rw [hcores]; exact ⟨rfl, rfl⟩, hkept⟩

theorem setReg {o : Nat} {v : Word} : LoopFrame s (s.setReg o v) := of_rest rfl rfl rfl

theorem countFld {o hi lo k : Nat} : LoopFrame s (s.countFld o hi lo k) := setReg

theorem updCore {c : CoreId} {f : CoreS → CoreS} (hf : ∀ k, (f k).inService = k.inService ∧ (f k).issued = k.issued) :
    LoopFrame s (s.updCore c f) := by
  refine ⟨rfl, fun d => ?_, rfl⟩
  by_cases hd : d = c
  · subst hd
    rw [updCore_same]
    exact hf _
  · rw [updCore_other s f hd]
    exact ⟨rfl, rfl⟩

theorem updJob {p : PartId} {f : Job → Job} : LoopFrame s (s.updJob p f) := of_rest rfl rfl rfl

theorem updIface {p : PartId} {f : Iface → Iface} : LoopFrame s (s.updIface p f) := of_rest rfl rfl rfl

theorem updHandle {n : Nat} {f : Handle → Handle} : LoopFrame s (s.updHandle n f) := of_rest rfl rfl rfl

theorem of_event (h : EventFrame s t) : LoopFrame s t where
  steady := by rw [h.mc]; rfl
  serves c := by rw [h.cores]; exact ⟨rfl, rfl⟩
  kept := by rw [h.nvm, h.counters, h.paired, h.staging]

theorem raise {src : Src} {part : Option PartId} {code : Nat} {ds : List Nat} : LoopFrame s (s.raise src part code ds) :=
  of_event (eventFrame_raise s src part code ds)

theorem putBytes {a : Nat} {bs : List Byte} : LoopFrame s (s.putBytes a bs) := of_rest rfl rfl rfl

theorem updHdr {p : PartId} {f : RingHdr → RingHdr} : LoopFrame s (s.updHdr p f) := of_event (eventFrame_updHdr ..)

theorem correctedAt {level idx bank region : Nat} : LoopFrame s (s.correctedAt level idx bank region) := by
  have hlogged (t : State) (log : List CeEntry) (l : List (Nat × Nat)) :
      LoopFrame t { t with mc := { t.mc with ceLog := log, ceRaised := l } } := of_rest rfl rfl rfl
  have hcount (o : Nat) : LoopFrame s (s.count o 1) := countFld
  unfold State.correctedAt
  dsimp only
  split
  · split
    · exact (((hcount _).trans (hlogged _ _ _)).trans raise).trans (updCore fun _ => ⟨rfl, rfl⟩)
    · exact ((hcount _).trans (hlogged _ _ _)).trans raise
  · exact (hcount _).trans (hlogged _ _ _)

theorem meetUnits {f : Nat → Bool} : LoopFrame s (s.meetUnits f) := by
  refine foldl (fun t a => ?_) _ _
  have hcorrected : LoopFrame t (t.corrected a) := correctedAt
  exact ite (hcorrected.trans (of_rest rfl rfl rfl)) hcorrected

theorem writeCpl {p : PartId} {rec : List Byte} : LoopFrame s (s.writeCpl p rec) :=
  ite (((meetUnits.trans putBytes).trans updHdr).trans updIface) ((meetUnits.trans putBytes).trans updHdr)

theorem reservedRecord {p : PartId} {rec : List Byte} : LoopFrame s (s.reservedRecord p rec) :=
  ite (countFld.trans updIface) (ite (writeCpl.trans updIface) (countFld.trans updIface))

theorem opDone {n status event d0 : Nat} : LoopFrame s (s.opDone n status event d0) := by
  unfold State.opDone
  split
  · exact refl s
  · split
    · exact refl s
    · split
      · exact (updHandle.trans updIface).trans reservedRecord
      · exact ite (updHandle.trans raise) updHandle

theorem sweepCheck : LoopFrame s s.sweepCheck := foldl (fun t _ => ite opDone (refl t)) _ _

theorem takeEnv {env : MemEnv} : LoopFrame s (s.takeEnv env) := by
  unfold State.takeEnv
  extract_lets waited weak bad
  have hwaited : LoopFrame s waited := foldl (fun _ _ => countFld) _ _
  have hweak : LoopFrame waited weak := foldl (fun _ _ => updCore (by exact fun _ => ⟨rfl, rfl⟩)) _ _
  have hbad : LoopFrame weak bad := foldl (fun _ _ => updCore (by exact fun _ => ⟨rfl, rfl⟩)) _ _
  exact ((hwaited.trans hweak).trans hbad).trans (of_rest rfl rfl rfl)

theorem retain : LoopFrame s s.retain := foldl (fun _ _ => updCore (by exact fun _ => ⟨rfl, rfl⟩)) _ _

theorem loopCap (r : LoopReadings) : LoopFrame s (s.loopCap r) := by
  unfold State.loopCap
  extract_lets cap binds marked
  have hmarked : LoopFrame s marked := setReg
  refine hmarked.trans (foldl (fun t p => ?_) _ _)
  split
  · exact ite (refl t) (raise.trans updJob)
  · exact refl t

theorem loopCores (r : LoopReadings) : LoopFrame s (s.loopCores r) := by
  refine foldl (fun t c => ?_) _ _
  have hrates := foldl (s := t) (f := fun s n => s.setReg (coreRateArr c.val + 4 * n)
    (if t.fenced c.val then (0 : Word) else pack [(Nat.min 0xFFFF ((r.achieved.getD c.val []).getD n 0), 16),
      (Nat.min (t.capTop n) ((r.capacity.getD c.val []).getD n 0), 0)])) (fun _ _ => setReg) (List.range 4)
  dsimp only
  split
  · exact hrates
  · exact hrates.trans setReg

theorem loopPower (r : LoopReadings) : LoopFrame s (s.loopPower r) := by
  unfold State.loopPower
  extract_lets board railed hub cored
  have hboard : LoopFrame s board := setReg
  have hrailed : LoopFrame board railed := foldl (fun t e => by
    split
    · exact setReg
    · exact setReg) _ _
  have hcored : LoopFrame hub cored := foldl (fun _ _ => setReg) _ _
  exact (((hboard.trans hrailed).trans setReg).trans hcored).trans setReg

theorem loopLink (r : LoopReadings) : LoopFrame s (s.loopLink r) := ite setReg (refl s)

theorem loopFec (r : LoopReadings) : LoopFrame s (s.loopFec r) := by
  refine foldl (fun t f => ite (refl t) ?_) _ _
  have hcounted : LoopFrame t ((t.portCount f.port 16 f.corr).portCount f.port 17 f.uncorr) := countFld.trans countFld
  exact ite hcounted (hcounted.trans setReg)

theorem mgmtSend : LoopFrame s s.mgmtSend := ite (of_rest rfl rfl rfl) (of_rest rfl rfl rfl)

end LoopFrame

/-! #### The stages before the regulators (R407, R412, R416) -/

theorem controls_of_event {s t : State} (h : EventFrame s t) : t.controls = s.controls := by
  unfold State.controls
  rw [State.regFld, h.reg _ (by decide), State.regFld, h.reg _ (by decide), h.mc]
  rfl

theorem controls_raise (s : State) (src : Src) (part : Option PartId) (code : Nat) (ds : List Nat) :
    (s.raise src part code ds).controls = s.controls :=
  controls_of_event (eventFrame_raise s src part code ds)

theorem controls_setReg (s : State) {o : Nat} (v : Word) (hlimit : pwrBase + 0 ≠ o) (hcap : mcRateCap ≠ o) :
    (s.setReg o v).controls = s.controls := by
  unfold State.controls
  rw [State.regFld, reg_setReg_other _ _ hlimit, State.regFld, reg_setReg_other _ _ hcap]
  rfl

theorem controls_takeEnv (s : State) (env : MemEnv) : (s.takeEnv env).controls = s.controls := by
  unfold State.takeEnv
  extract_lets waited weak bad
  have hwaited : waited.controls = s.controls := foldl_eq State.controls (fun t w =>
    controls_setReg t _ (by have := w.1.isLt; unfold pwrBase coreMemBankwait coreBase; omega)
      (by have := w.1.isLt; unfold mcRateCap mcBase coreMemBankwait coreBase; omega)) _ _
  have hweak : weak.controls = waited.controls := foldl_eq State.controls
    (f := fun s (h : CoreId × Nat) => s.updCore h.1 fun k => { k with headWeak := joinNew k.headWeak [h.2] }) (fun _ _ => rfl) _ _
  have hbad : bad.controls = weak.controls := foldl_eq State.controls
    (f := fun s (h : CoreId × Nat) => s.updCore h.1 fun k => { k with headBad := joinNew k.headBad [h.2] }) (fun _ _ => rfl) _ _
  exact (hbad.trans hweak).trans hwaited

/-- `t` is `s` but for what the ports hold. -/
def PortsOnly (s t : State) : Prop := t = { s with ports := t.ports }

namespace PortsOnly

variable {s t u : State}

theorem refl (s : State) : PortsOnly s s := rfl

theorem trans (h : PortsOnly s t) (k : PortsOnly t u) : PortsOnly s u := by
  rw [PortsOnly] at h k ⊢
  rw [k, h]

theorem ite {c : Prop} [Decidable c] (h : PortsOnly s t) (k : PortsOnly s u) : PortsOnly s (if c then t else u) := by
  split
  · exact h
  · exact k

theorem foldl {α : Type} {f : State → α → State} (hf : ∀ t a, PortsOnly t (f t a)) (l : List α) (s : State) :
    PortsOnly s (l.foldl f s) := by
  induction l generalizing s with
  | nil => exact refl s
  | cons a l ih => exact (hf s a).trans (ih _)

theorem updPort {p : PortId} {f : Port → Port} : PortsOnly s (s.updPort p f) := rfl

theorem sendMc {p : PortId} {q : SubId} {mac : List Byte} {ty : Nat} {bs : List Byte} : PortsOnly s (s.sendMc p q mac ty bs) := rfl

theorem ptpSend {p : PortId} {q : SubId} {type seq : Nat} {twoStep : Bool} {corr : Int} {body : List Byte} :
    PortsOnly s (s.ptpSend p q type seq twoStep corr body) := by
  unfold State.ptpSend
  dsimp only
  split
  · exact sendMc
  · exact sendMc
  · exact sendMc

theorem mcSends {p : PortId} : PortsOnly s (s.mcSends p) := by
  unfold State.mcSends
  extract_lets told gptp n announced spoke m
  have htold : PortsOnly s told := ite (foldl (fun _ _ => sendMc) _ _) (refl s)
  have hspoke : PortsOnly told spoke := ite ((foldl (fun _ _ => ptpSend) _ _).trans updPort) (refl told)
  exact ite htold (ite (((htold.trans hspoke).trans (foldl (fun _ _ => ptpSend) _ _)).trans updPort) (htold.trans hspoke))

end PortsOnly

/-- The clock of the controller advances 1 ms, and the ports with it. -/
theorem loopTime_acts (s : State) : ∃ ports, s.loopTime = { s with mc := { s.mc with time := s.mc.time + 1000000 }, ports := ports } := by
  unfold State.loopTime
  extract_lets mc later
  split
  · exact ⟨s.ports, rfl⟩
  · have hports : PortsOnly later ((List.finRange 8).foldl (fun s t => ((s.updPort t fun p =>
        { p with clock := s.ports[t].tick + s.portPeriod t.val, tick := s.ports[t].tick + s.portPeriod t.val }).mcSends t)) later) :=
      .foldl (fun _ _ => .trans .updPort .mcSends) _ _
    exact ⟨_, hports⟩

theorem controls_retain (s : State) : s.retain.controls = s.controls := foldl_eq State.controls
  (f := fun s c => s.updCore c CoreS.settled) (fun _ _ => rfl) allCores s

/-- Whether the power limit finds every rail that is on at its floor. -/
def State.limits (s : State) (r : LoopReadings) : Bool :=
  (allCores.all fun c => !s.mc.rails[c].on || decide (s.mc.rails[c].volt ≤ s.mc.rails[c].floor)) &&
    decide (s.powerLimit * 10000 < boardPower r)

/-- Whether the loop limits the duty. -/
def State.dutyNow (s : State) (r : LoopReadings) : Bool :=
  s.mc.vinThrottle || s.limits r || s.capDuty r || (s.mc.duty && decide (s.powerLimit * 10000 ≤ boardPower r))

theorem loopDuty_acts (s : State) (r : LoopReadings) :
    LoopFrame { s with mc := { s.mc with duty := s.dutyNow r } } (s.loopDuty r) ∧ (s.loopDuty r).controls = s.controls := by
  have htold (t : State) (p : PartId) : LoopFrame t (match t.job p with
      | some j => if j.dutyRaised then t
        else (t.raise .pwr (some p) 0x9020 []).updJob p fun j => { j with dutyRaised := true }
      | none => t) ∧ State.controls (match t.job p with
      | some j => if j.dutyRaised then t
        else (t.raise .pwr (some p) 0x9020 []).updJob p fun j => { j with dutyRaised := true }
      | none => t) = t.controls := by
    split
    · split
      · exact ⟨.refl t, rfl⟩
      · exact ⟨.trans .raise .updJob, controls_raise ..⟩
    · exact ⟨.refl t, rfl⟩
  unfold State.loopDuty
  extract_lets limit low limits duty mc judged
  split
  · exact ⟨.refl _, rfl⟩
  · exact ⟨.foldl (fun t p => (htold t p).1) _ _, foldl_eq State.controls (fun t p => (htold t p).2) _ _⟩

/-! #### The regulators (R27, R406) -/

theorem powerLimit_of_controls {s t : State} (h : t.controls = s.controls) : t.powerLimit = s.powerLimit := by
  simp only [State.controls, Prod.mk.injEq] at h
  obtain ⟨hlimit, hcascade, -, -⟩ := h
  rw [State.powerLimit, hlimit, hcascade, State.powerLimit]

theorem rateCap_of_controls {s t : State} (h : t.controls = s.controls) : t.regFld mcRateCap 15 0 = s.regFld mcRateCap 15 0 :=
  congrArg (fun c => c.2.2.1) h

theorem throttle_of_controls {s t : State} (h : t.controls = s.controls) : t.mc.vinThrottle = s.mc.vinThrottle :=
  congrArg (fun c => c.2.2.2) h

theorem dutyNow_congr {s t : State} (r : LoopReadings) (hcontrols : t.controls = s.controls) (hrails : t.mc.rails = s.mc.rails)
    (hduty : t.mc.duty = s.mc.duty) : t.dutyNow r = s.dutyNow r := by
  unfold State.dutyNow State.limits State.capDuty
  rw [powerLimit_of_controls hcontrols, rateCap_of_controls hcontrols, throttle_of_controls hcontrols, hrails, hduty]

/-- Whether the rate cap binds a core. -/
def State.capBinding (s : State) (r : LoopReadings) (c : CoreId) : Bool :=
  decide (s.regFld mcRateCap 15 0 ≠ 0) && r.capBinds.getD c.val false

/-- The rail of a core after a loop period. -/
def State.railNow (s : State) (r : LoopReadings) (c : CoreId) : CoreRail :=
  if s.mc.rails[c].on then s.mc.rails[c].step
    (decide (s.powerLimit * 10000 < boardPower r) || decide (88 * 16 ≤ tjMax r) || s.capBinding r c)
    (decide (boardPower r + 100000 < s.powerLimit * 10000) && !decide (88 * 16 ≤ tjMax r) && !s.capBinding r c)
    s.mc.vinThrottle (r.marginsOk.getD c.val true)
  else s.mc.rails[c]

theorem loopVolts_eq (s : State) (r : LoopReadings) :
    s.loopVolts r = { s with mc := { s.mc with rails := Vector.ofFn (s.railNow r) } } := rfl

theorem railNow_congr {s t : State} (r : LoopReadings) (hcontrols : t.controls = s.controls) (hrails : t.mc.rails = s.mc.rails) :
    t.railNow r = s.railNow r := by
  funext c
  unfold State.railNow State.capBinding
  rw [powerLimit_of_controls hcontrols, rateCap_of_controls hcontrols, throttle_of_controls hcontrols, hrails]

/-- The hottest sensor in whole degrees. -/
def hottest (r : LoopReadings) : Nat := Nat.min 255 (tjMax r / 16).toNat

/-- The thermal state that a loop period finds. -/
def State.thermNow (s : State) (r : LoopReadings) : ThermState :=
  if s.mc.therm = .normal ∨ s.mc.therm = .lowering then (if 88 ≤ hottest r then .lowering else .normal) else s.mc.therm

/-- What the loop period makes of what it regulates and accounts for, the rails given. -/
def State.ticked (s : State) (r : LoopReadings) (rails : Vector CoreRail 8) :=
  (s.mc.time + 1000000, rails, s.dutyNow r, s.thermNow r, Nat.max (hottest r) s.mc.tjPeak,
    s.mc.poweredNs + (if s.mc.rails.toList.any CoreRail.on then 1000000 else 0),
    s.mc.hotNs + (if s.mc.rails.toList.any CoreRail.on ∧ 85 ≤ hottest r then 1000000 else 0), s.mc.trips)

/-- The state before the regulators take their step. -/
def State.judged (s : State) (r : LoopReadings) : State := ((s.takeEnv r.memory).loopTime.retain.loopHeat r).loopDuty r

theorem loopHeat_steady (s : State) (r : LoopReadings) : (s.loopHeat r).mc.steady = (s.mc.time, s.mc.rails, s.mc.duty, s.thermNow r,
    Nat.max (hottest r) s.mc.tjPeak, s.mc.poweredNs + (if s.mc.rails.toList.any CoreRail.on then 1000000 else 0),
    s.mc.hotNs + (if s.mc.rails.toList.any CoreRail.on ∧ 85 ≤ hottest r then 1000000 else 0), s.mc.trips) := rfl

theorem controls_loopHeat (s : State) (r : LoopReadings) : (s.loopHeat r).controls = s.controls :=
  (controls_setReg _ _ (by decide) (by decide)).trans (controls_setReg _ _ (by decide) (by decide))

theorem loopHeat_serves (s : State) (r : LoopReadings) : (s.loopHeat r).cores = s.cores ∧
    ((s.loopHeat r).nvm, (s.loopHeat r).counters, (s.loopHeat r).paired, (s.loopHeat r).staging) =
      (s.nvm, s.counters, s.paired, s.staging) := ⟨rfl, rfl⟩

theorem judged_acts (s : State) (r : LoopReadings) : (s.judged r).mc.steady = s.ticked r s.mc.rails ∧
    (s.judged r).controls = s.controls ∧
    (∀ c : CoreId, (s.judged r).cores[c].inService = s.cores[c].inService ∧ (s.judged r).cores[c].issued = s.cores[c].issued) ∧
    ((s.judged r).nvm, (s.judged r).counters, (s.judged r).paired, (s.judged r).staging) =
      (s.nvm, s.counters, s.paired, s.staging) := by
  have hread : LoopFrame s (s.takeEnv r.memory) := .takeEnv
  have hreadControls := controls_takeEnv s r.memory
  obtain ⟨ports, htime⟩ := loopTime_acts (s.takeEnv r.memory)
  unfold State.judged
  rw [htime]
  generalize s.takeEnv r.memory = a at *
  clear htime
  have hretain : LoopFrame { a with mc := { a.mc with time := a.mc.time + 1000000 }, ports := ports } _ := .retain
  have hretainControls := controls_retain { a with mc := { a.mc with time := a.mc.time + 1000000 }, ports := ports }
  generalize State.retain { a with mc := { a.mc with time := a.mc.time + 1000000 }, ports := ports } = c at *
  have hheat := loopHeat_steady c r
  have hheatControls := controls_loopHeat c r
  obtain ⟨hheatCores, hheatKept⟩ := loopHeat_serves c r
  generalize c.loopHeat r = d at *
  obtain ⟨hduty, hdutyControls⟩ := loopDuty_acts d r
  have hcontrols : d.controls = s.controls := hheatControls.trans (hretainControls.trans hreadControls)
  have hsteady := hduty.steady
  have hreadSteady := hread.steady
  have hretainSteady := hretain.steady
  simp only [MC.steady, Prod.mk.injEq] at hreadSteady hretainSteady hheat
  obtain ⟨hatime, harails, haduty, hatherm, hapeak, hapowered, hahot, hatrips⟩ := hreadSteady
  obtain ⟨hctime, hcrails, hcduty, hctherm, hcpeak, hcpowered, hchot, hctrips⟩ := hretainSteady
  obtain ⟨hdtime, hdrails, hdduty, hdtherm, hdpeak, hdpowered, hdhot, hdtrips⟩ := hheat
  refine ⟨hsteady.trans ?_, hdutyControls.trans hcontrols, fun k => ?_, hduty.kept.trans (hheatKept.trans (hretain.kept.trans hread.kept))⟩
  · have hnow : d.dutyNow r = s.dutyNow r :=
      dutyNow_congr r hcontrols (hdrails.trans (hcrails.trans harails)) (hdduty.trans (hcduty.trans haduty))
    have htherm : c.thermNow r = s.thermNow r := by rw [State.thermNow, hctherm, hatherm, State.thermNow]
    simp only [MC.steady, State.ticked, hnow, hdtime, hctime, hatime, hdrails, hcrails, harails, hdtherm, htherm, hdpeak, hcpeak, hapeak,
      hdpowered, hcpowered, hapowered, hdhot, hchot, hahot, hdtrips, hctrips, hatrips]
  · obtain ⟨hin, hissued⟩ := hread.serves k
    obtain ⟨hin', hissued'⟩ := hretain.serves k
    obtain ⟨hin'', hissued''⟩ := hduty.serves k
    rw [hin'', hissued'', hheatCores]
    exact ⟨hin'.trans hin, hissued'.trans hissued⟩

/-- A loop period: what was judged, then the step of the regulators, then what neither touches. -/
theorem exec_mcLoopTick {r : LoopReadings} {s : State} (hon : s.mc.on = true) : ∃ t, exec (.mcLoopTick r) s = .next t ∧
    LoopFrame ((s.judged r).loopVolts r) t := by
  refine ⟨_, if_pos hon, ?_⟩
  exact (((((LoopFrame.loopCap r).trans (.loopCores r)).trans (.loopPower r)).trans (.loopLink r)).trans (.loopFec r)).trans
    (.trans .mgmtSend .sweepCheck)

theorem mcLoopTick_acts {r : LoopReadings} {s : State} (hon : s.mc.on = true) : ∃ t, exec (.mcLoopTick r) s = .next t ∧
    t.mc.steady = s.ticked r (Vector.ofFn (s.railNow r)) ∧
    (∀ c : CoreId, t.cores[c].inService = s.cores[c].inService ∧ t.cores[c].issued = s.cores[c].issued) ∧
    (t.nvm, t.counters, t.paired, t.staging) = (s.nvm, s.counters, s.paired, s.staging) := by
  obtain ⟨t, hexec, hafter⟩ := exec_mcLoopTick (r := r) hon
  obtain ⟨hsteady, hcontrols, hserves, hkept⟩ := judged_acts s r
  generalize s.judged r = e at *
  have hrails : e.mc.rails = s.mc.rails := congrArg (fun x => x.2.1) hsteady
  refine ⟨t, hexec, hafter.steady.trans ?_, fun c => ?_, hafter.kept.trans hkept⟩
  · rw [loopVolts_eq, railNow_congr r hcontrols hrails]
    simp only [MC.steady, State.ticked, Prod.mk.injEq] at hsteady ⊢
    obtain ⟨htime, -, hrest⟩ := hsteady
    exact ⟨htime, trivial, hrest⟩
  · obtain ⟨hin, hissued⟩ := hafter.serves c
    obtain ⟨hin', hissued'⟩ := hserves c
    exact ⟨hin.trans hin', hissued.trans hissued'⟩

theorem any_rail_on (s : State) : s.mc.rails.toList.any CoreRail.on = true ↔ ∃ c : CoreId, s.mc.rails[c].on = true := by
  simp only [List.any_eq_true, Vector.mem_toList_iff, Vector.mem_iff_getElem]
  constructor
  · rintro ⟨x, ⟨i, hi, rfl⟩, hon⟩
    exact ⟨⟨i, hi⟩, hon⟩
  · rintro ⟨c, hon⟩
    exact ⟨s.mc.rails[c], ⟨c.val, c.isLt, rfl⟩, hon⟩

theorem dutyNow_iff (s : State) (r : LoopReadings) : s.dutyNow r = true ↔ s.mc.vinThrottle = true ∨
    (s.powerLimit * 10000 < boardPower r ∧ ∀ c : CoreId, s.mc.rails[c].on = true → s.mc.rails[c].volt ≤ s.mc.rails[c].floor) ∨
    (s.regFld mcRateCap 15 0 ≠ 0 ∧ ∃ c : CoreId, r.capBinds.getD c.val false = true ∧ s.mc.rails[c].on = true ∧
      s.mc.rails[c].volt ≤ s.mc.rails[c].floor) ∨
    (s.mc.duty = true ∧ s.powerLimit * 10000 ≤ boardPower r) := by
  have hlow : (allCores.all fun c => !s.mc.rails[c].on || decide (s.mc.rails[c].volt ≤ s.mc.rails[c].floor)) = true ↔
      ∀ c : CoreId, s.mc.rails[c].on = true → s.mc.rails[c].volt ≤ s.mc.rails[c].floor := by
    rw [List.all_eq_true]
    refine ⟨fun h c hon => ?_, fun h c _ => ?_⟩
    · have hc := h c (List.mem_finRange c)
      rw [hon] at hc
      exact of_decide_eq_true hc
    · cases hon : s.mc.rails[c].on with
      | false => rfl
      | true => exact decide_eq_true (h c hon)
  have hbound : (allCores.any fun c => r.capBinds.getD c.val false && s.mc.rails[c].on &&
      decide (s.mc.rails[c].volt ≤ s.mc.rails[c].floor)) = true ↔ ∃ c : CoreId, r.capBinds.getD c.val false = true ∧
        s.mc.rails[c].on = true ∧ s.mc.rails[c].volt ≤ s.mc.rails[c].floor := by
    rw [List.any_eq_true]
    refine ⟨fun ⟨c, _, hc⟩ => ⟨c, ?_⟩, fun ⟨c, hcap, hon, hvolt⟩ => ⟨c, List.mem_finRange c, ?_⟩⟩
    · simpa only [Bool.and_eq_true, decide_eq_true_eq, and_assoc] using hc
    · rw [hcap, hon, decide_eq_true hvolt]
      rfl
  unfold State.dutyNow State.limits State.capDuty
  rw [Bool.or_eq_true, Bool.or_eq_true, Bool.or_eq_true, Bool.and_eq_true, Bool.and_eq_true, Bool.and_eq_true, hlow, hbound,
    decide_eq_true_eq, decide_eq_true_eq, decide_eq_true_eq, or_assoc, or_assoc, and_comm (a := ∀ c : CoreId, _)]

/-- A loop period by its readings. -/
theorem mcLoopTick_regulates (r : LoopReadings) (s : State) (hon : s.mc.on = true) : ∃ t : State, exec (.mcLoopTick r) s = .next t ∧
    t.mc.time = s.mc.time + 1000000 ∧ (∀ c : CoreId, t.mc.rails[c] = s.railNow r c) ∧ t.mc.duty = s.dutyNow r ∧
    t.mc.therm = s.thermNow r ∧ t.mc.tjPeak = Nat.max (hottest r) s.mc.tjPeak ∧
    ((∃ c : CoreId, s.mc.rails[c].on = true) → t.mc.poweredNs = s.mc.poweredNs + 1000000 ∧
      t.mc.hotNs = s.mc.hotNs + if 85 ≤ hottest r then 1000000 else 0) ∧
    ((∀ c : CoreId, s.mc.rails[c].on = false) → t.mc.poweredNs = s.mc.poweredNs ∧ t.mc.hotNs = s.mc.hotNs) ∧
    t.mc.trips = s.mc.trips ∧
    (∀ c : CoreId, t.cores[c].inService = s.cores[c].inService ∧ t.cores[c].issued = s.cores[c].issued) ∧
    t.nvm = s.nvm ∧ t.counters = s.counters ∧ t.paired = s.paired ∧ t.staging = s.staging := by
  obtain ⟨t, hexec, hsteady, hserves, hkept⟩ := mcLoopTick_acts (r := r) hon
  simp only [MC.steady, State.ticked, Prod.mk.injEq] at hsteady hkept
  obtain ⟨htime, hrails, hduty, htherm, hpeak, hpowered, hhot, htrips⟩ := hsteady
  obtain ⟨hnvm, hcounters, hpaired, hstaging⟩ := hkept
  refine ⟨t, hexec, htime, fun c => ?_, hduty, htherm, hpeak, fun hany => ?_, fun hnone => ?_, htrips, hserves, hnvm, hcounters,
    hpaired, hstaging⟩
  · rw [hrails]
    exact Vector.getElem_ofFn _
  · have hany := (any_rail_on s).mpr hany
    rw [hpowered, hhot, hany]
    simp
  · have hnone : s.mc.rails.toList.any CoreRail.on = false := Bool.eq_false_iff.mpr fun h => by
      obtain ⟨c, hc⟩ := (any_rail_on s).mp h
      exact Bool.noConfusion ((hnone c).symm.trans hc)
    rw [hpowered, hhot, hnone]
    simp

/-! ### Re-plans (R408, R410, R412) -/

theorem fixedLog_cores (s : State) : s.fixedLog.cores = s.cores := by
  unfold State.fixedLog
  split <;> rfl

/-- A plan sets its own core's rail alone, and takes no core and no flash byte with it. -/
theorem replan_acts (c : CoreId) (plan : Plan) (s : State) :
    (s.replan c plan).mc.rails = (s.updRail c fun r => { r with
      codes := planCodes plan, floor := planFloor plan, volt := Nat.max r.volt (planFloor plan), wantReplan := false
      quiesce := none, raising := false, commission := some (r.commission.getD (planFloor plan)) }).mc.rails ∧
    (s.replan c plan).cores = s.cores ∧ (s.replan c plan).nvm = s.nvm := by
  unfold State.replan
  extract_lets old planned counted logged
  have hcounted : counted.mc.rails = planned.mc.rails ∧ counted.cores = s.cores ∧ counted.nvm = s.nvm :=
    ⟨congrArg MC.rails (countFld_mc ..), countFld_cores .., countFld_nvm ..⟩
  clear_value counted
  have hlogged : logged.mc.rails = planned.mc.rails ∧ logged.cores = s.cores ∧ logged.nvm = s.nvm := by
    unfold logged
    split
    · rw [fixedLog_mc, (fixedLog_rest counted).1, fixedLog_cores]
      exact hcounted
    · exact hcounted
  obtain ⟨hrails, hcores, hnvm⟩ := hlogged
  clear_value logged
  split
  · exact ⟨hrails, hcores, hnvm⟩
  · refine ⟨?_, (raise_cores ..).trans hcores, (raise_nvm ..).trans hnvm⟩
    rw [(eventFrame_raise ..).mc]
    exact hrails

theorem rails_updRail_same (s : State) (c : CoreId) (f : CoreRail → CoreRail) : (s.updRail c f).mc.rails[c] = f s.mc.rails[c] :=
  Vector.getElem_set_self _

theorem rails_updRail_other (s : State) {c d : CoreId} (f : CoreRail → CoreRail) (h : d ≠ c) :
    (s.updRail c f).mc.rails[d] = s.mc.rails[d] :=
  Vector.getElem_set_ne c.isLt d.isLt fun he => h (Fin.ext he.symm)

theorem replan_own (c : CoreId) (plan : Plan) (s : State) :
    (s.replan c plan).mc.rails[c] = { s.mc.rails[c] with
      codes := planCodes plan, floor := planFloor plan, volt := Nat.max s.mc.rails[c].volt (planFloor plan), wantReplan := false
      quiesce := none, raising := false, commission := some (s.mc.rails[c].commission.getD (planFloor plan)) } := by
  rw [(replan_acts c plan s).1, rails_updRail_same]

theorem replan_other (c : CoreId) (plan : Plan) (s : State) {d : CoreId} (h : d ≠ c) :
    (s.replan c plan).mc.rails[d] = s.mc.rails[d] := by
  rw [(replan_acts c plan s).1, rails_updRail_other s _ h]

/-- What a core does once nothing is in flight on it. -/
def State.quiesceCore (s : State) (c : CoreId) : State :=
  match s.mc.rails[c].quiesce with
  | some plan => if s.cores[c].issued.isEmpty then s.replan c plan else s
  | none => s

theorem quiesceDone_eq (s : State) : s.quiesceDone = allCores.foldl State.quiesceCore s := rfl

theorem quiesceCore_waits {s : State} {c : CoreId} (h : s.mc.rails[c].quiesce = none ∨ s.cores[c].issued ≠ []) :
    s.quiesceCore c = s := by
  unfold State.quiesceCore
  split
  next plan hplan =>
    have hbusy : s.cores[c].issued ≠ [] := h.resolve_left (by rw [hplan]; exact Option.some_ne_none plan)
    exact if_neg fun he => hbusy (List.isEmpty_iff.mp he)
  next => rfl

theorem quiesceCores_wait {s : State} (l : List CoreId) (h : ∀ c ∈ l, s.mc.rails[c].quiesce = none ∨ s.cores[c].issued ≠ []) :
    l.foldl State.quiesceCore s = s := by
  induction l with
  | nil => rfl
  | cons d l ih =>
    rw [List.foldl_cons, quiesceCore_waits (h d List.mem_cons_self)]
    exact ih fun c hc => h c (List.mem_cons_of_mem _ hc)

/-- A core whose plan waits takes it, where nothing else is planned. -/
theorem quiesceCores_one {c : CoreId} {plan : Plan} (l : List CoreId) (hl : l.Nodup) {s : State} (hc : c ∈ l)
    (hplan : s.mc.rails[c].quiesce = some plan) (hidle : s.cores[c].issued = [])
    (hothers : ∀ d : CoreId, d ≠ c → s.mc.rails[d].quiesce = none) : l.foldl State.quiesceCore s = s.replan c plan := by
  induction l with
  | nil => exact absurd hc List.not_mem_nil
  | cons d l ih =>
    obtain ⟨hd, hl⟩ := List.nodup_cons.mp hl
    rw [List.foldl_cons]
    by_cases hdc : d = c
    · subst hdc
      have hstep : s.quiesceCore d = s.replan d plan := by
        rw [State.quiesceCore, hplan]
        exact if_pos (by rw [hidle]; rfl)
      rw [hstep]
      refine quiesceCores_wait l fun x hx => .inl ?_
      have hxd : x ≠ d := fun he => hd (he ▸ hx)
      rw [replan_other d plan s hxd]
      exact hothers x hxd
    · rw [quiesceCore_waits (.inl (hothers d hdc))]
      exact ih hl ((List.mem_cons.mp hc).resolve_left fun he => hdc he.symm)

theorem exec_replan {c : CoreId} {plan : Plan} {s : State} (hmay : s.mayReplan c = true) (hidle : s.cores[c].issued = [])
    (hboundary : s.atBoundary c = true) : exec (.replan c plan) s = .next (s.replan c plan) := by
  show execReplan c plan s = _
  rw [execReplan, hmay, hidle, hboundary]
  exact if_pos rfl

/-- The first place of a list that satisfies a test. -/
theorem findIdx_first {l : List Nat} {k : Nat} (hhit : l[k]?.any (fun m => decide (15 ≤ m)) = true)
    (hmiss : ∀ i, i < k → l[i]?.all (fun m => decide (m < 15)) = true) : l.findIdx (fun m => decide (15 ≤ m)) = k := by
  have hk : k < l.length := by
    by_contra hle
    rw [List.getElem?_eq_none (by omega)] at hhit
    exact Bool.noConfusion hhit
  rw [List.getElem?_eq_getElem hk] at hhit
  refine (List.findIdx_eq hk).mpr ⟨hhit, fun i hi => ?_⟩
  have hm := hmiss i hi
  rw [List.getElem?_eq_getElem (by omega)] at hm
  have hlow : l[i] < 15 := of_decide_eq_true hm
  exact decide_eq_false (by omega)

theorem planCodes_smallest (plan : Plan) (f k : Nat) (hf : f < 8) (hk : k < 64)
    (hhit : (plan.margins.getD f [])[k]?.any (fun m => decide (15 ≤ m)) = true)
    (hmiss : ∀ i, i < k → (plan.margins.getD f [])[i]?.all (fun m => decide (m < 15)) = true) : (planCodes plan).getD f 0 = k := by
  have hcode : (planCodes plan).getD f 0 = planCode plan f := by
    simp [planCodes, List.getD, hf]
  rw [hcode, planCode, findIdx_first hhit hmiss]
  exact Nat.min_eq_right (by omega)

theorem planFloor_lowest (plan : Plan) (k : Nat) (hk : k ≤ 70) (hhit : plan.keeps[k]?.any (fun m => decide (15 ≤ m)) = true)
    (hmiss : ∀ i, i < k → plan.keeps[i]?.all (fun m => decide (m < 15)) = true) : planFloor plan = 500 + 5 * k := by
  rw [planFloor, findIdx_first hhit hmiss]
  exact Nat.min_eq_right (by omega)

/-! ### TIME_LATCH and the ageing log (R413, R415) -/

theorem endSecond_event (s : State) : EventFrame { s with mc := { s.mc with evtCount := [] } } s.endSecond := by
  have hfold (l : List (Nat × Nat)) (u : State) : EventFrame u (l.foldl (fun s e =>
      let code := e.1 / 256
      if 16 < e.2 ∧ severity code < 3 then s.raise .mc none 0x9060 [code, e.1 % 256, e.2 - 16] else s) u) := by
    induction l generalizing u with
    | nil => exact .refl u
    | cons e l ih =>
      refine .trans ?_ (ih _)
      dsimp only
      split
      · exact eventFrame_raise ..
      · exact .refl u
  exact hfold _ _

theorem endSecond_acts (s : State) : (∀ o, isEventReg o = false → s.endSecond.reg o = s.reg o) ∧ s.endSecond.mc.time = s.mc.time ∧
    s.endSecond.ports = s.ports ∧ s.endSecond.cores = s.cores ∧ s.endSecond.nvm = s.nvm ∧ s.endSecond.counters = s.counters := by
  have h := endSecond_event s
  exact ⟨h.reg, by rw [h.mc], h.ports, h.cores, h.nvm, h.counters⟩

/-- The seconds and nanoseconds of a port's clock in its two registers. -/
def State.latchPort (s : State) (p : PortId) : State :=
  (s.setReg (mcTlatchNs p.val) (BitVec.ofNat 32 (s.ports[p].clock / nsUnits % 1000000000))).setReg (mcTlatchSec p.val)
    (BitVec.ofNat 32 (s.ports[p].clock / nsUnits / 1000000000))

theorem latchPorts_acts (l : List PortId) (hl : l.Nodup) (s : State) :
    (∃ regs, l.foldl State.latchPort s = { s with regs := regs }) ∧
    (∀ o, (∀ p ∈ l, o ≠ mcTlatchNs p.val ∧ o ≠ mcTlatchSec p.val) → (l.foldl State.latchPort s).reg o = s.reg o) ∧
    ∀ p ∈ l, (l.foldl State.latchPort s).reg (mcTlatchSec p.val) = BitVec.ofNat 32 (s.ports[p].clock / nsUnits / 1000000000) ∧
      (l.foldl State.latchPort s).reg (mcTlatchNs p.val) = BitVec.ofNat 32 (s.ports[p].clock / nsUnits % 1000000000) := by
  induction l generalizing s with
  | nil => exact ⟨⟨s.regs, rfl⟩, fun _ _ => rfl, fun p hp => absurd hp List.not_mem_nil⟩
  | cons d l ih =>
    obtain ⟨hd, hl⟩ := List.nodup_cons.mp hl
    obtain ⟨⟨regs, hrest⟩, hother, hsame⟩ := ih hl (s.latchPort d)
    refine ⟨⟨regs, hrest⟩, fun o ho => ?_, fun p hp => ?_⟩
    · obtain ⟨hns, hsec⟩ := ho d List.mem_cons_self
      rw [List.foldl_cons, hother o fun p hp => ho p (List.mem_cons_of_mem _ hp), State.latchPort, reg_setReg_other _ _ hsec,
        reg_setReg_other _ _ hns]
    · rw [List.foldl_cons]
      by_cases hpl : p ∈ l
      · exact hsame p hpl
      · obtain rfl : p = d := (List.mem_cons.mp hp).resolve_right hpl
        have hapart (q : PortId) (hq : q ∈ l) : mcTlatchSec p.val ≠ mcTlatchNs q.val ∧ mcTlatchSec p.val ≠ mcTlatchSec q.val ∧
            mcTlatchNs p.val ≠ mcTlatchNs q.val ∧ mcTlatchNs p.val ≠ mcTlatchSec q.val := by
          have hne : p.val ≠ q.val := fun he => hpl (Fin.ext he ▸ hq)
          unfold mcTlatchSec mcTlatchNs
          omega
        constructor
        · rw [hother _ fun q hq => ⟨(hapart q hq).1, (hapart q hq).2.1⟩, State.latchPort, reg_setReg_same]
        · rw [hother _ fun q hq => ⟨(hapart q hq).2.2.1, (hapart q hq).2.2.2⟩, State.latchPort,
            reg_setReg_other _ _ (by unfold mcTlatchNs mcTlatchSec; omega), reg_setReg_same]

/-- The MC counter and the ports' clocks in their registers. -/
def State.latchTimes (s : State) : State :=
  (List.finRange 8).foldl State.latchPort
    ((s.setReg mcTlatchLo (BitVec.ofNat 32 s.mc.time)).setReg mcTlatchHi (BitVec.ofNat 32 (s.mc.time / 2 ^ 32)))

theorem exec_timeLatch {s : State} (hon : s.mc.on = true) : exec .timeLatch s = .next s.latchTimes.endSecond := by
  show execTimeLatch s = _
  unfold execTimeLatch
  rw [hon]
  rfl

theorem latchTimes_regs (s : State) : s.latchTimes.reg mcTlatchLo = BitVec.ofNat 32 s.mc.time ∧
    s.latchTimes.reg mcTlatchHi = BitVec.ofNat 32 (s.mc.time / 2 ^ 32) ∧
    ∀ p : PortId, s.latchTimes.reg (mcTlatchSec p.val) = BitVec.ofNat 32 (s.ports[p].clock / nsUnits / 1000000000) ∧
      s.latchTimes.reg (mcTlatchNs p.val) = BitVec.ofNat 32 (s.ports[p].clock / nsUnits % 1000000000) := by
  obtain ⟨-, hother, hsame⟩ := latchPorts_acts (List.finRange 8) (List.nodup_finRange 8)
    ((s.setReg mcTlatchLo (BitVec.ofNat 32 s.mc.time)).setReg mcTlatchHi (BitVec.ofNat 32 (s.mc.time / 2 ^ 32)))
  refine ⟨?_, ?_, fun p => hsame p (List.mem_finRange p)⟩
  · rw [State.latchTimes, hother _ fun p _ => by unfold mcTlatchLo mcTlatchNs mcTlatchSec; omega, reg_setReg_other _ _ (by decide),
      reg_setReg_same]
  · rw [State.latchTimes, hother _ fun p _ => by unfold mcTlatchHi mcTlatchNs mcTlatchSec; omega, reg_setReg_same]

theorem latchTimes_rest (s : State) : ∃ regs, s.latchTimes = { s with regs := regs } := by
  obtain ⟨⟨regs, hrest⟩, -, -⟩ := latchPorts_acts (List.finRange 8) (List.nodup_finRange 8)
    ((s.setReg mcTlatchLo (BitVec.ofNat 32 s.mc.time)).setReg mcTlatchHi (BitVec.ofNat 32 (s.mc.time / 2 ^ 32)))
  exact ⟨regs, hrest⟩

theorem timeLatch_acts (s : State) (hon : s.mc.on = true) : ∃ t : State, exec .timeLatch s = .next t ∧
    t.reg mcTlatchLo = BitVec.ofNat 32 s.mc.time ∧ t.reg mcTlatchHi = BitVec.ofNat 32 (s.mc.time / 2 ^ 32) ∧
    (∀ p : PortId, t.reg (mcTlatchSec p.val) = BitVec.ofNat 32 (s.ports[p].clock / nsUnits / 1000000000) ∧
      t.reg (mcTlatchNs p.val) = BitVec.ofNat 32 (s.ports[p].clock / nsUnits % 1000000000)) ∧
    t.mc.time = s.mc.time ∧ t.ports = s.ports ∧ t.cores = s.cores ∧ t.nvm = s.nvm ∧ t.counters = s.counters := by
  obtain ⟨hlo, hhi, hports⟩ := latchTimes_regs s
  obtain ⟨regs, hrest⟩ := latchTimes_rest s
  have hexec := exec_timeLatch hon
  obtain ⟨hreg, htime, hclocks, hcores, hnvm, hcounters⟩ := endSecond_acts s.latchTimes
  refine ⟨_, hexec, ?_, ?_, fun p => ⟨?_, ?_⟩, ?_, ?_, ?_, ?_, ?_⟩
  · rw [hreg _ (by decide), hlo]
  · rw [hreg _ (by decide), hhi]
  · rw [hreg _ (by revert p; decide), (hports p).1]
  · rw [hreg _ (by revert p; decide), (hports p).2]
  · rw [htime, hrest]
  · rw [hclocks, hrest]
  · rw [hcores, hrest]
  · rw [hnvm, hrest]
  · rw [hcounters, hrest]

theorem exec_ageingLogWrite_log {s : State} {w : NvmWork} {r : List Word} {rest : List (List Word)} (hon : s.mc.on = true)
    (hfree : s.nvmInhibited = false) (hidle : s.mc.nvmBusy = false) (hhead : s.nvmHead = some w) (hsrc : w.src = .log)
    (hwait : s.mc.logWait = r :: rest) : exec .ageingLogWrite s =
      .next ((State.logRecord 3 { s with mc := { s.mc with logWait := rest } } (ofWords r)).nvmNext) := by
  show execAgeingLogWrite s = _
  rw [execAgeingLogWrite, hon, hfree, hidle, hhead, Option.map_some, hsrc, hwait]
  rfl

theorem exec_ageingLogWrite_fixed {s : State} {w : NvmWork} (hon : s.mc.on = true) (hfree : s.nvmInhibited = false)
    (hidle : s.mc.nvmBusy = false) (hhead : s.nvmHead = some w) (hsrc : w.src = .fixed) :
    exec .ageingLogWrite s = .next s.writeFixed.nvmNext := by
  show execAgeingLogWrite s = _
  rw [execAgeingLogWrite, hon, hfree, hidle, hhead, Option.map_some, hsrc]
  rfl

/-- Settles O8: a loop period by its readings, a plan by its core, the ageing log by whose turn it is. -/
theorem regulationAndAgeingAct : Obligations.RegulationAndAgeingAct := by
  refine ⟨fun r s hon => ?tick, fun l s hon => ?survey, fun _ _ _ => exec_replan, fun c plan s hmay => ?timeout,
    fun c plan s => quiesceCores_one allCores (List.nodup_finRange 8) (List.mem_finRange c),
    fun s h => quiesceCores_wait allCores fun c _ => h c, fun c plan s => ?plan, planCodes_smallest, planFloor_lowest,
    fun c s hup => ?daily, timeLatch_acts, fun s hon => ?summary, fun _ _ _ _ => exec_ageingLogWrite_log,
    fun _ _ => exec_ageingLogWrite_fixed⟩
  case tick =>
    obtain ⟨t, hexec, htime, hrails, hduty, htherm, hpeak, hpowered, hoff, htrips, hserves, hkept⟩ := mcLoopTick_regulates r s hon
    refine ⟨t, hexec, htime, hrails, ?_, fun h => ?_, fun h => ?_, hpeak, hpowered, hoff, htrips, hserves, hkept⟩
    · rw [hduty]
      exact dutyNow_iff s r
    · rw [htherm, State.thermNow, if_pos h]
      rfl
    · rw [htherm, State.thermNow, if_neg]
      rintro (hn | hn) <;> rcases h with h | h <;> rw [h] at hn <;> exact ThermState.noConfusion hn
  case survey => exact if_pos hon
  case timeout => exact if_pos hmay
  case plan =>
    obtain ⟨-, hcores, hnvm⟩ := replan_acts c plan s
    rw [replan_own]
    exact ⟨rfl, rfl, rfl, rfl, rfl, Nat.le_max_right .., hcores, hnvm, fun d hd => replan_other c plan s hd⟩
  case daily => exact if_pos hup
  case summary =>
    show execAgeingSummary s = _
    rw [execAgeingSummary, hon]
    rfl

end Sys2Proof.Machine


namespace Sys2Proof.Machine

/-! ### What begins a start (R370, R416, R429, R434) -/

/-- A page of a flash write leaves counters, pairing and the PUF root. -/
theorem nvmPage_keeps (s : State) (w : NvmWork) : (s.nvmPage w).counters = s.counters ∧ (s.nvmPage w).paired = s.paired ∧
    (s.nvmPage w).mc.root = s.mc.root := by
  unfold State.nvmPage
  split
  · exact ⟨rfl, rfl, rfl⟩
  · dsimp only
    split
    · exact ⟨rfl, rfl, rfl⟩
    · exact ⟨rfl, rfl, rfl⟩

theorem finishPage_keeps (s : State) : s.finishPage.counters = s.counters ∧ s.finishPage.paired = s.paired ∧
    s.finishPage.mc.root = s.mc.root := by
  unfold State.finishPage
  split
  · split
    · exact nvmPage_keeps ..
    · exact ⟨rfl, rfl, rfl⟩
  · exact ⟨rfl, rfl, rfl⟩

/-- A device whose contents are lost. -/
theorem volatileLost_empty (s : State) : s.volatileLost.mem = [] ∧ s.volatileLost.regs = [] ∧ s.volatileLost.handles = [] ∧
    (∀ p, s.volatileLost.job p = none) ∧ s.volatileLost.mc.on = false ∧ s.volatileLost.mc.aux = false ∧
    s.volatileLost.mc.pwrReq = false ∧ s.volatileLost.mc.hubRailOn = false :=
  ⟨rfl, rfl, rfl, job_reset, rfl, rfl, rfl, rfl⟩

theorem rstNAssert_acts (s : State) (haux : s.mc.aux = true) : ∃ t : State, exec .rstNAssert s = .next t ∧ t.mc.aux = true ∧
    t.mc.rstLow = true ∧ t.mc.on = false ∧ t.mc.pwrReq = false ∧ t.mc.hubRailOn = false ∧ t.mem = [] ∧ t.regs = [] ∧ t.handles = [] ∧
    (∀ p, t.job p = none) ∧ t.counters = s.counters ∧ t.paired = s.paired ∧ t.mc.root = s.mc.root := by
  obtain ⟨hcounters, hpaired, hroot⟩ := finishPage_keeps s
  obtain ⟨hmem, hregs, hhandles, hjob, hon, -, hreq, hrail⟩ := volatileLost_empty s.finishPage
  exact ⟨_, if_pos haux, rfl, rfl, hon, hreq, hrail, hmem, hregs, hhandles, hjob, hcounters, hpaired, hroot⟩

theorem auxBrownout_acts (s : State) (haux : s.mc.aux = true) : ∃ t : State, exec .auxBrownout s = .next t ∧ t.mc.brownout = true ∧
    t.mc.aux = false ∧ t.mc.on = false ∧ t.mem = [] ∧ t.regs = [] ∧ t.handles = [] ∧ (∀ p, t.job p = none) ∧
    t.counters = s.counters ∧ t.paired = s.paired := by
  obtain ⟨hcounters, hpaired, -⟩ := finishPage_keeps s
  obtain ⟨hmem, hregs, hhandles, hjob, hon, hoff, -, -⟩ := volatileLost_empty s.finishPage
  exact ⟨_, if_pos haux, rfl, hoff, hon, hmem, hregs, hhandles, hjob, hcounters, hpaired⟩

theorem exec_powerOnStart {env : StartEnv} {s : State} (haux : s.mc.aux = false) :
    exec (.powerOnStart env) s = .next (s.start (s.mc.brownout && env.rootKept && s.mc.root) env) :=
  if_neg (by rw [haux]; exact Bool.false_ne_true)

/-! ### The stages of a start before its power (R371, R373, R376, R388, R389) -/

section
variable {cold : Bool} {env : StartEnv} {x y z w s : State}

theorem tested_none (n : Nat) (h : env.selfFail = none) : s.tested env n = .ok s := by
  rw [State.tested, h]

theorem tested_ok {t : State} {n : Nat} (h : s.tested env n = .ok t) : t = s := by
  unfold State.tested at h
  split at h
  · exact (Except.ok.inj h).symm
  · split at h
    · cases h
    · exact (Except.ok.inj h).symm

theorem start_stages (hx : x = (s.leaveReset cold).startReports s.mc.brownout cold) :
    s.start cold env = match x.startPuf cold env with
      | .error t => t
      | .ok y => match y.startCounters env with
        | .error t => t
        | .ok z => match z.startFirmware env with
          | .error t => t
          | .ok w => match w.startConfig with
            | .error t => t
            | .ok v => { v.toStage 6 with mc := { (v.toStage 6).mc with pwrReq := true, hubsUp := 1 } } := by
  unfold State.start
  dsimp only
  rw [← hx]
  cases x.startPuf cold env with
  | error t => rfl
  | ok y =>
    dsimp only [Except.bind]
    cases y.startCounters env with
    | error t => rfl
    | ok z =>
      dsimp only [Except.bind]
      cases z.startFirmware env with
      | error t => rfl
      | ok w => dsimp only [Except.bind] <;> cases w.startConfig <;> rfl

theorem start_fails {t : State} (hx : x = (s.leaveReset cold).startReports s.mc.brownout cold) (hpuf : x.startPuf cold env = .error t) :
    s.start cold env = t := by
  rw [start_stages hx, hpuf]

theorem startPuf_ok (h : x.startPuf cold env = .ok y) : y.mc.storageKey = y.mc.root := by
  unfold State.startPuf at h
  cases htest : (x.toStage 2).tested env 2 with
  | error t =>
    rw [htest] at h
    cases h
  | ok t =>
    rw [htest] at h
    dsimp only [Except.bind] at h
    split at h
    · cases h
    · obtain rfl := Except.ok.inj h
      rfl

theorem startCounters_unpaired (htest : env.selfFail = none) (hpaired : y.paired = false) :
    y.startCounters env = .error ((y.toStage 3).startFails 3 .sec (0x800A, [0xFF])) := by
  rw [State.startCounters, tested_none 3 htest]
  exact if_pos (by rw [show (y.toStage 3).paired = y.paired from rfl, hpaired]; rfl)

theorem startCounters_ok (h : y.startCounters env = .ok z) :
    y.paired = true ∧ env.countersOk = true ∧ z.mc.counterKey = true ∧ z.mc.identityKey = y.mc.root := by
  unfold State.startCounters at h
  cases htest : (y.toStage 3).tested env 3 with
  | error t =>
    rw [htest] at h
    cases h
  | ok t =>
    obtain rfl := tested_ok htest
    rw [htest] at h
    dsimp only [Except.bind] at h
    split at h
    · cases h
    next hread =>
      split at h
      · cases h
      next hok =>
        obtain rfl := Except.ok.inj h
        refine ⟨?_, by simpa using hok, rfl, rfl⟩
        cases hp : y.paired with
        | true => rfl
        | false => exact absurd (by rw [show (y.toStage 3).paired = y.paired from rfl, hp]; rfl) hread

/-- The lengths of the images are read from the flash. -/
theorem imageLens_of_nvm {t : State} (h : t.nvm = s.nvm) : t.imageLens = s.imageLens := by
  have hread (a n : Nat) : t.nvmRd a n = s.nvmRd a n := by simp only [State.nvmRd, State.nvmAt, h]
  have hcopy (c : Nat) : t.headerCopy c = s.headerCopy c := by simp only [State.headerCopy, hread]
  have hheader : t.nvmHeader = s.nvmHeader := by simp only [State.nvmHeader, hcopy]
  rw [State.imageLens, hheader, State.imageLens]

/-- The firmware stage by the result of the image's check. -/
theorem startFirmware_checked (htest : env.selfFail = none) {r : Option Refused}
    (hcheck : fwCheck (z.nvmRd nvmFw z.imageLens.1) (z.counter 4) (z.counter 0) = r) :
    (∀ e, r = some e → z.startFirmware env = .error ((z.toStage 4).startFails 4 .sec e)) ∧
    (r = none → z.startFirmware env =
      .ok { z.toStage 4 with mc := { (z.toStage 4).mc with fwHeader := (z.nvmRd nvmFw z.imageLens.1).take 0x2000 } }) := by
  have hlens : (z.toStage 4).imageLens = z.imageLens := imageLens_of_nvm rfl
  have hread (a n : Nat) : (z.toStage 4).nvmRd a n = z.nvmRd a n := rfl
  have hcount (n : Nat) : (z.toStage 4).counter n = z.counter n := rfl
  unfold State.startFirmware
  rw [tested_none 4 htest]
  dsimp only [Except.bind]
  rw [hlens, hread, hcount, hcount, hcheck]
  exact ⟨fun e he => by rw [he], fun he => by rw [he]⟩

/-- The configuration stage by the result of the image's check. -/
theorem startConfig_checked {k : Option (List Byte)} {b : List Byte} {r : Option Refused}
    (hk : k = (if w.mc.storageKey = true then recordOwner (w.nvmRd nvmOwner 0xA68) (w.counter 2) else none))
    (hb : b = w.nvmRd nvmCfg w.imageLens.2) (hcheck : cfgCheck b k (w.counter 1) = r) :
    (∀ e, r = some e → w.startConfig =
      .error (({ w.toStage 5 with mc := { (w.toStage 5).mc with ownerKey := k.getD [] } } : State).startFails 5 .mc e)) ∧
    (r = none → w.startConfig = .ok { w.toStage 5 with mc := { (w.toStage 5).mc with
      ownerKey := k.getD [], conduct := rdLE b 0xC 4 % 16, cfgDigest := sha3_512 b
      cfg := ((cfgRecords b).getD []).map fun r => (r.ty, r.val) } }) := by
  have hcount : ({ w.toStage 5 with mc := { (w.toStage 5).mc with ownerKey := k.getD [] } } : State).counter 1 = w.counter 1 := rfl
  unfold State.startConfig
  extract_lets t owner m u c
  have hlens : u.imageLens = w.imageLens := imageLens_of_nvm rfl
  have hread (n : Nat) : u.nvmRd nvmCfg n = w.nvmRd nvmCfg n := rfl
  obtain rfl : owner = k := hk.symm
  obtain rfl : c = b := (congrArg (fun x : Nat × Nat => u.nvmRd nvmCfg x.2) hlens).trans ((hread _).trans hb.symm)
  clear_value c owner
  rw [show cfgCheck c owner (u.counter 1) = r from (congrArg _ hcount).trans hcheck]
  exact ⟨fun e he => by rw [he], fun he => by rw [he]⟩

end

/-! ### A failed start, and the power-good inputs (R371, R373, R428, R438) -/

/-- What an attachment leaves alone: everything but the link, the interfaces, the events and the memory of the rings. -/
structure AttachFrame (s t : State) : Prop where
  start : (t.mc.recovery, t.mc.failStage, t.mc.stage, t.mc.cause) = (s.mc.recovery, s.mc.failStage, s.mc.stage, s.mc.cause)
  nvm : t.nvm = s.nvm
  counters : t.counters = s.counters
  cores : t.cores = s.cores
  rings : ∀ a, t.inRings a = s.inRings a
  rd : ∀ a, s.inRings a = false → t.rd a = s.rd a

namespace AttachFrame

variable {s t u : State}

theorem refl (s : State) : AttachFrame s s := ⟨rfl, rfl, rfl, rfl, fun _ => rfl, fun _ _ => rfl⟩

theorem trans (h : AttachFrame s t) (k : AttachFrame t u) : AttachFrame s u where
  start := k.start.trans h.start
  nvm := k.nvm.trans h.nvm
  counters := k.counters.trans h.counters
  cores := k.cores.trans h.cores
  rings a := (k.rings a).trans (h.rings a)
  rd a ha := (k.rd a ((h.rings a).trans ha)).trans (h.rd a ha)

theorem raise {src : Src} {part : Option PartId} {code : Nat} {ds : List Nat} : AttachFrame s (s.raise src part code ds) where
  start := by rw [(eventFrame_raise s src part code ds).mc]
  nvm := raise_nvm ..
  counters := raise_counters ..
  cores := raise_cores ..
  rings a := raise_inRings s src part code ds a
  rd _ ha := raise_rd s src part code ds ha

theorem setReg {o : Nat} {v : Word} : AttachFrame s (s.setReg o v) := ⟨rfl, rfl, rfl, rfl, fun _ => rfl, fun _ _ => rfl⟩

theorem attach : AttachFrame s s.attach := by
  unfold State.attach
  split
  · exact refl s
  · extract_lets n linked usb woken told
    have hlinked : AttachFrame s told := ⟨rfl, rfl, rfl, rfl, fun _ => rfl, fun _ _ => rfl⟩
    split
    · exact hlinked
    · exact (hlinked.trans setReg).trans raise

end AttachFrame

theorem startFails_acts (n : Nat) (src : Src) (e : Refused) (s : State) :
    (s.startFails n src e).mc.recovery = true ∧ (s.startFails n src e).mc.failStage = n ∧
    (s.startFails n src e).mc.stage = n ∧ (s.startFails n src e).mc.cause = e.1 % 256 ∧ (s.startFails n src e).nvm = s.nvm ∧
    (s.startFails n src e).counters = s.counters ∧ (s.startFails n src e).cores = s.cores ∧
    ∀ a, s.inRings a = false → (s.startFails n src e).rd a = s.rd a := by
  have hframe (t : State) : AttachFrame t (((t.setReg usbIds (pack [(0x0840, 16), (0x2B1A, 0)])).raise src none e.1 e.2).attach) :=
    (AttachFrame.setReg.trans .raise).trans .attach
  have hfailed := hframe { s with mc := { s.mc with recovery := true, stage := n, failStage := n, cause := e.1 % 256 } }
  rw [show State.attach _ = s.startFails n src e from rfl] at hfailed
  generalize s.startFails n src e = t at *
  obtain ⟨hstart, hnvm, hcounters, hcores, -, hrd⟩ := hfailed
  simp only [Prod.mk.injEq] at hstart
  obtain ⟨hrecovery, hfail, hstage, hcause⟩ := hstart
  exact ⟨hrecovery, hfail, hstage, hcause, hnvm, hcounters, hcores, hrd⟩

section
variable {proof : ProofResult} {u s : State}

/-- A start whose power-good inputs have come. -/
theorem exec_powerGood (hwaits : s.awaitsPower = true)
    (hu : u = (((s.toStage 8).setFld pwrPg 5 0 0x3F).blocksUp.proof proof).placeHctx) : exec (.powerGood proof) s =
      .next (if u.minimum && proof.usb2 then (u.toStage 9).applyConfig.completeStart
        else u.startFails 8 .mc (0x9050, [8, Config.fieldWord 0x9050 8 0])) := by
  show execPowerGood proof s = _
  unfold execPowerGood
  rw [hwaits, ← hu]
  exact (apply_ite Host.Outcome.next ..).symm

end

theorem exec_powerGoodTimeout {s : State} (hwaits : s.awaitsPower = true) : exec .powerGoodTimeout s =
    .next (({ s with mc := { s.mc with pwrReq := false, firstFail := 0x9050 } } : State).startFails 6 .mc
      (0x9050, [6, Config.fieldWord 0x9050 6 0])) := by
  show execPowerGoodTimeout s = _
  rw [execPowerGoodTimeout, hwaits]
  exact if_neg (by decide)

theorem startPuf_noRoot {env : StartEnv} {x : State} (htest : env.selfFail = none) (hpuf : env.pufOk = false) :
    x.startPuf false env = .error ((x.toStage 2).startFails 2 .sec (0x8009, [])) := by
  rw [State.startPuf, tested_none 2 htest]
  exact if_pos (by rw [hpuf]; rfl)

theorem startPuf_selfFail {cold : Bool} {env : StartEnv} {b : Bool} {x : State} (htest : env.selfFail = some (0, b)) :
    x.startPuf cold env = .error (({ x.toStage 2 with mc := { (x.toStage 2).mc with usbDown := !b } } : State).startFails 2 .mc
      (0x9050, [2, Config.fieldWord 0x9050 2 0])) := by
  rw [State.startPuf, State.tested, htest]
  rfl

/-- Settles O4: what begins a start, its stages one after another, and what its power-good inputs make of it. -/
theorem startsBeginAndComplete : Obligations.StartsBeginAndComplete := by
  refine ⟨fun _ _ => exec_powerOnStart, rstNAssert_acts, fun _ _ hlow => if_pos hlow, fun _ _ hon => if_pos hon, auxBrownout_acts,
    fun env x s hx htest hpuf => start_fails hx (startPuf_noRoot htest hpuf),
    fun cold env b x s hx htest => start_fails hx (startPuf_selfFail htest),
    fun cold env x y s hx hpuf htest hpaired => ?unpaired, fun env z htest => ?firmware,
    fun k b w hk hb => ?config, fun cold env x s hx => ?stages, fun _ _ _ _ => startPuf_ok, fun _ _ _ => startCounters_ok, startFails_acts,
    fun proof u s hwaits hu hmin husb => ?complete, fun proof u s hwaits hu hless => ?fail, fun _ => exec_powerGoodTimeout⟩
  case unpaired => simp only [start_stages hx, hpuf, startCounters_unpaired htest hpaired]
  case stages =>
    cases hpuf : x.startPuf cold env with
    | error t => simp only [start_stages hx, hpuf]
    | ok y =>
      cases hcounters : y.startCounters env with
      | error t => simp only [start_stages hx, hpuf, hcounters]
      | ok z =>
        cases hfirmware : z.startFirmware env with
        | error t => simp only [start_stages hx, hpuf, hcounters, hfirmware]
        | ok w =>
          cases hconfig : w.startConfig with
          | error t => simp only [start_stages hx, hpuf, hcounters, hfirmware, hconfig]
          | ok v => simp only [start_stages hx, hpuf, hcounters, hfirmware, hconfig]
  case firmware =>
    cases hcheck : fwCheck (z.nvmRd nvmFw z.imageLens.1) (z.counter 4) (z.counter 0) with
    | some e => exact (startFirmware_checked htest hcheck).1 e rfl
    | none => exact (startFirmware_checked htest hcheck).2 rfl
  case config =>
    cases hcheck : cfgCheck b k (w.counter 1) with
    | some e => exact (startConfig_checked hk hb hcheck).1 e rfl
    | none => exact (startConfig_checked hk hb hcheck).2 rfl
  case complete =>
    rw [exec_powerGood hwaits hu, hmin, husb]
    rfl
  case fail =>
    rw [exec_powerGood hwaits hu, if_neg]
    rw [Bool.and_eq_true]
    rintro ⟨hmin, husb⟩
    rcases hless with h | h
    · exact Bool.noConfusion (hmin.symm.trans h)
    · exact Bool.noConfusion (husb.symm.trans h)

end Sys2Proof.Machine
